-- ==== Sys2Proof/Word.lean ====
section
/-! DEFINITION. Word.lean: the word types of the Xoilo base module (R9, R10, R105).
Bit 0 is the least significant bit (R9). -/
namespace Sys2Proof

/-- A register, a g register, a KEIS word (R10, R68, R105). -/
abbrev Word := BitVec 64
/-- One byte of memory, of a packet or of a record. -/
abbrev Byte := BitVec 8
/-- A transfer descriptor or d register, 64 bytes (R125). -/
abbrev Desc := BitVec 512
/-- A status code of Table 4.16 (R143). -/
abbrev Status := BitVec 16

end Sys2Proof
end

