-- ==== Sys2Proof/Syntax.lean ====
section
/-! DEFINITION. Syntax.lean: the commands the module takes, one constructor of `Instr` per row of
spec/opcode_table.json, and the operands they carry. The values that only the world outside can know
(what a sensor read, whether a test or a signature passed) are operands (notes/assumptions/3.md). -/
namespace Sys2Proof

/-! ### KEIS operand fields (Table 4.1, Table 4.2) -/

/-- The strand that issues, by physical Drover and strand number, and the predicate fields `PN`, `PG` (R109). -/
structure Issue where
  drover : Fin 128
  strand : Fin 8
  pn     : Bool
  pg     : BitVec 5
  deriving DecidableEq, Repr

/-- The second source of formats 0x0 and 0x1 (R105, R112). -/
inductive AluSrc where
  | reg (gc : BitVec 5)
  | imm (imm32 : BitVec 32)
  deriving DecidableEq, Repr

/-- Formats 0x0 RRR and 0x1 RRI. -/
structure AluOps where
  ga   : BitVec 5
  gb   : BitVec 5
  src  : AluSrc
  cond : BitVec 4
  deriving DecidableEq, Repr

/-- Format 0x2 BR. -/
structure BrOps where
  ga     : BitVec 5
  gb     : BitVec 5
  cond   : BitVec 4
  offset : BitVec 32
  deriving DecidableEq, Repr

/-- Format 0x0 as `JR` uses it. -/
structure JrOps where
  ga   : BitVec 5
  gb   : BitVec 5
  gc   : BitVec 5
  cond : BitVec 4
  deriving DecidableEq, Repr

/-- Format 0x3 XFER. -/
structure XferOps where
  dn : BitVec 4
  ce : Bool
  cn : BitVec 4
  gs : BitVec 5
  gx : BitVec 5
  gy : BitVec 5
  deriving DecidableEq, Repr

/-- Format 0x4 MEM. -/
structure MemOps where
  ga  : BitVec 5
  gp  : BitVec 5
  gv  : BitVec 5
  gk  : BitVec 5
  ce  : Bool
  cn  : BitVec 4
  sub : BitVec 5
  imm : BitVec 16
  deriving DecidableEq, Repr

/-- Format 0x5 SYNC. -/
structure SyncOps where
  ga    : BitVec 5
  cn    : BitVec 4
  varnt : BitVec 2
  imm   : BitVec 32
  deriving DecidableEq, Repr

/-- Format 0x7 DFLD. -/
structure DfldOps where
  dn  : BitVec 4
  off : BitVec 6
  w   : BitVec 2
  gb  : BitVec 5
  deriving DecidableEq, Repr

/-- The operation opcodes that may follow `AT` (R124): every instruction Table 4.3 marks "operation". -/
inductive OpCode where
  | ld | st | dld | dst | move | gather | scatter | graze | compact | isect | union | merge | segred | ebag
  | hist | topk | aadd | amin | amax | axch | acas | aacc | settle | put | get | racc | ratom | signal
  | frange | ttouch
  deriving DecidableEq, Repr

/-- The word after `AT` (R124): an operation of format 0x3 or 0x4 with its `PG`, or any other word. -/
inductive PairOp where
  | xfer (c : OpCode) (pg : BitVec 5) (o : XferOps)
  | mem (c : OpCode) (pg : BitVec 5) (o : MemOps)
  | other (word : Word)
  deriving DecidableEq, Repr

/-! ### Operands of the other commands -/

/-- Who makes a register access (R21, R591, R598). -/
inductive Master where
  | mgmt | crook | dfp | walker | debug
  deriving DecidableEq, Repr

/-- A Bell marker as received (Table 2.1); `valid` is its flit check (R47), `offset` the measured phase offset. -/
structure Marker where
  count      : Word
  bellwether : BitVec 14
  hops       : BitVec 5
  holdover   : Bool
  step       : Bool
  valid      : Bool
  offset     : Byte
  deriving DecidableEq, Repr

/-- The part of a Drover in which an uncorrectable error struck (R89, `CAUSE` 0x01 to 0x04 of Table 3.13). -/
inductive DroverPart where
  | registerFile | instructionStore | scoreboard | tagIntegrity
  deriving DecidableEq, Repr

/-- What a request asks of a Fold bank (R215): a read or write of up to one line, an atomic update, or the
memory access of an operation in flight. -/
inductive BankAsk where
  | read (bytes : Nat)
  | write (data : List Byte)
  | operation (op : Nat)
  deriving DecidableEq, Repr

/-- An error that SECDED finds in a 64-bit word of a Fold array as the word is read (R249): a local address in the word,
and whether it is a double-bit error. -/
structure FoldError where
  addr   : BitVec 48
  double : Bool
  deriving DecidableEq, Repr

/-- The classes of a request to a DRAM controller (R289). -/
inductive DramClass where
  | bulk | critical | scheduled
  deriving DecidableEq, Repr

/-- A request arriving at a Fold bank (R215 to R229): its local address, what it asks, streaming, whether it
takes the Graze path (R158), the class its miss carries (R217) and its requester's identity (R223); `ecc` are the errors
met in the words it reads from the array (R249). -/
structure BankReq where
  addr   : BitVec 48
  ask    : BankAsk
  stream : Bool
  graze  : Bool
  cls    : DramClass
  who    : BitVec 16
  ecc    : List FoldError
  deriving DecidableEq, Repr

/-- A request to a DRAM controller (R288, R289). -/
structure DramReq where
  stack  : Fin 8
  line   : BitVec 29
  sector : Option (Fin 4)
  write  : Bool
  cls    : DramClass
  deriving DecidableEq, Repr

/-- The symbols of a line that its stack returns wrong: the sector, each one code word, and the wire of its
pseudo-channel, 0 to 31 data and 32 to 35 check (R280). -/
structure EccResult where
  wrong : List (Fin 4 × Fin 36)
  deriving DecidableEq, Repr

/-- What one pseudo-channel of a channel returns of a line: the pseudo-channel, and the symbols that come wrong (R293). -/
structure HalfData where
  half : Fin 2
  ecc  : EccResult
  deriving DecidableEq, Repr

/-- The triggers of a forced retrain (R301), numbered 0x1 to 0x5 in their order. -/
inductive RetrainTrigger where
  | correctedSymbols | uncorrectable | caParity | narrowEye | command
  deriving DecidableEq, Repr

/-- The wires of a pseudo-channel that fail training or whose eye is too narrow (R284): DQ wires, data and check, and the
number of CA wires. The spare takes the first DQ wire listed, erasure mode the second (R285). -/
structure WireFaults where
  dq : List (Fin 36)
  ca : Nat
  deriving DecidableEq, Repr

/-- The outcome of a forced retrain (R302): the wires of the channel's two pseudo-channels that failed, the lines of step 4
that came back with wrong symbols, and the microseconds it took. -/
structure ChannelTraining where
  even   : WireFaults
  odd    : WireFaults
  found  : List (BitVec 29 × EccResult)
  micros : BitVec 32
  deriving DecidableEq, Repr

/-- What the module reads from a laser source (R344, R345): drop of each output from its level at training, in
0.1 dB, weakest output in 0.1 dBm, outputs under +17.0 dBm, temperature, and its health. -/
structure LaserReading where
  drops     : List Nat
  belowMin  : Byte
  minPower  : Byte
  temp      : Byte
  faulty    : Bool
  deriving DecidableEq, Repr

/-- The outcome of a port's training or acquisition (R348, R349). -/
structure PortTraining where
  acquired  : Bool
  lanes     : Byte
  farDevice : BitVec 14
  farPort   : BitVec 4
  roundTrip : BitVec 32
  rxMin     : Byte
  deriving DecidableEq, Repr

/-- A data flit's header (Table 12.2) and payload (R361). `kind` is `TYPE`, `cls` is `CLASS`. -/
structure Flit where
  kind    : BitVec 4
  cls     : BitVec 2
  vc      : Bool
  last    : Bool
  poison  : BitVec 7
  orphan  : Bool
  seq     : BitVec 16
  dest    : BitVec 14
  src     : BitVec 14
  flow    : BitVec 16
  packet  : BitVec 32
  index   : Byte
  bytes   : Byte
  payload : List Byte
  deriving DecidableEq, Repr

/-- A window announcement (Table 2.6). -/
structure Window where
  start  : Word
  length : BitVec 16
  kind   : BitVec 4
  unit   : BitVec 12
  device : BitVec 14
  deriving DecidableEq, Repr

/-- A Muster message (Table 13.10); `source` is the sending device. -/
structure MusterMsg where
  group      : BitVec 6
  release    : Bool
  ten        : Byte
  fromGroup  : Byte
  source     : BitVec 14
  status     : Status
  generation : BitVec 32
  bell       : Word
  deadline   : BitVec 32
  lateness   : BitVec 32
  deriving DecidableEq, Repr

/-- What SECDED finds in a packet that passes a router (R578). -/
inductive TransitCheck where
  | clean | singleBit | doublePayload | doubleHeader
  deriving DecidableEq, Repr

/-- Class of a packet on the mesh, in the order that routers serve them (R368). -/
inductive MeshClass where
  | control | scheduled | critical | bulk
  deriving DecidableEq, Repr

/-- A packet on the mesh (R26, R368): its class, its destination Pen and the operation in flight it serves, if one. -/
structure MeshPacket where
  cls : MeshClass
  pen : Fin 16
  op  : Option Nat
  deriving DecidableEq, Repr

/-- How a packet comes to a router: from a unit of the router's own Pen, or over the link from a neighbour. -/
inductive MeshArrival where
  | enters (p : MeshPacket)
  | link (neighbour : Fin 16)
  deriving DecidableEq, Repr

/-- A packet comes to a router, what SECDED finds in it, and how many of its waiting packets the router then has time to
serve (R368, R578). -/
structure MeshVisit where
  arrival : MeshArrival
  check   : TransitCheck
  served  : Nat
  deriving DecidableEq, Repr

/-- A request that arrives from another module (Table 13.2), with the port it came by and its scheduled flow; `dfmt`: the
`DFMT` of a `RACC`, which Table 13.2 gives no field (R272; notes/assumptions/135.md). -/
structure RemReq where
  port   : Fin 16
  source : BitVec 14
  packet : BitVec 32
  flow   : BitVec 16
  ten    : Byte
  notify : Bool
  sched  : Bool
  latency : Bool
  expiry : BitVec 32
  addr   : BitVec 48
  fmt    : BitVec 5
  dfmt   : BitVec 5
  ratom  : BitVec 3
  a      : Word
  b      : Word
  data   : List Byte
  poison : BitVec 128
  deriving DecidableEq, Repr

/-- A command of the Site Link Protocol (Table 14.5), with the down bundle it came on and the packets accepted with it
(R418: commands share packets). -/
structure SiteCmd where
  site   : Fin 4
  bundle : Fin 32
  packets : Nat
  len    : BitVec 3
  cls    : BitVec 2
  stream : Bool
  tag    : BitVec 16
  poison : Byte
  addr   : BitVec 48
  aux    : Word
  data   : List Byte
  deriving DecidableEq, Repr

/-- A link-control body (Table 14.7); `up` says which direction's bundle it serves. -/
structure LinkCtl where
  up      : Bool
  nak     : Bool
  closed  : Bool
  half    : Bool
  ackSeq  : BitVec 10
  credits : List Byte
  deriving DecidableEq, Repr

/-- Failed wires found when a bundle is trained: data wires, and C0 to C3 (R433, R434). -/
structure BundleTraining where
  wires : List (Fin 256)
  c0    : Bool
  c1    : Bool
  c2    : Bool
  c3    : Bool
  deriving DecidableEq, Repr

/-- Why a packet from a site is discarded (R415, R417, R421). -/
inductive PacketFault where
  | crc | reservedVc | outOfSeq
  deriving DecidableEq, Repr

/-- Key roles (Table 16.2). -/
inductive KeyRole where
  | root | niruaImage | niruaMfg | niruaService | owner | operator | debug
  deriving DecidableEq, Repr, Inhabited

/-- The header of a DFP request and the outcome of its authenticator (Table 15.1, R453, R454): `auth` is the class
of authenticator it carries, `authOk` whether it verifies, `slot` the key slot that signed, `chainRole` the role of
a key whose chain the payload carries (R544). -/
structure DfpHdr where
  port      : Fin 2
  reqId     : BitVec 32
  session   : BitVec 32
  auth      : BitVec 2
  authOk    : Bool
  slot      : Fin 16
  chainRole : Option KeyRole
  nonce     : BitVec 128
  device    : BitVec 14
  deriving DecidableEq, Repr

/-- A key slot of the Module Record (R472): its role, and whether its chain checks back to the root. -/
structure KeySlot where
  role  : KeyRole
  valid : Bool
  deriving DecidableEq, Repr, Inhabited

/-- The order codes (Table 0.1): the grade count is in the name, the capacity class is 512 GiB for each, and the reserve
count of the part at shipment lies in its row's range (R1). -/
inductive OrderCode where
  | xb128
  | xb120 (reserves : Fin 9)
  | xb112 (reserves : Fin 17)
  deriving DecidableEq, Repr, Inhabited

/-- The site-population letters (Table 0.2). -/
inductive Population where
  | s0 | s1 | s2 | s3 | s4
  deriving DecidableEq, Repr, Inhabited

/-- The contents of the Module Record that the module acts on (R582 to R589): the Nirua section (order code, which fixes
the grade G, and population letter, keys 0 to 7, repair maps (site spares by 64 × site + bundle, up as 32 + j: the wire
and its spare), counter floors, MAC addresses, set voltages of the site rails in mV by 4 × site + rail), the owner section
(keys 8 to 15, the register values of Table 20.3 by register address, site zone thresholds by 4 × site + zone state in °C,
FEC and static addresses by port) and the identity area. -/
structure ModuleRecord where
  seq          : BitVec 32
  niruaVersion : Byte
  ownerVersion : Byte
  order        : OrderCode
  population   : Population
  keys         : List (Nat × KeySlot)
  badDrovers   : List Nat
  badRows      : List (Nat × Nat)
  retired      : List (Nat × Nat)
  spares       : List (Nat × Nat)
  siteSpares   : List (Nat × Fin 256 × Fin 8)
  mapTime      : BitVec 32
  floors       : List (BitVec 16)
  siteLimits   : List (Nat × Nat)
  siteRails    : List (Nat × BitVec 16)
  ownerRegs    : List (Nat × BitVec 64)
  memTest      : Bool
  forceBridged : Bool
  stripe       : Bool
  macs         : List (Nat × BitVec 48)
  addrs        : List (Nat × BitVec 128)
  fec          : List (Nat × Nat)
  enrolled     : Bool
  certified    : Bool
  deriving DecidableEq, Repr, Inhabited

/-- The section a `RECORD_WRITE` carries (R585): which one, whether its own signature is by a key of its role in a
valid chain (R583), and the record contents that result in that section. -/
structure RecordSection where
  code    : Byte
  sigOk   : Bool
  version : Byte
  content : ModuleRecord
  deriving DecidableEq, Repr

/-- A debug token (Table 16.10) and the outcome of its checks that need cryptography. -/
structure DebugTok where
  sigOk     : Bool
  slot      : Fin 16
  nonce     : BitVec 128
  device    : BitVec 14
  level     : Byte
  lifecycle : Byte
  scope     : Byte
  lifetime  : BitVec 32
  deviceKeyOk : Bool
  deriving DecidableEq, Repr

/-- Image types (Table 16.5). -/
inductive ImageKind where
  | crookRuntime | management | walker
  deriving DecidableEq, Repr

/-- A firmware image (Table 16.5): counter slot, security version, hash of its header, and whether its signature
by a `NIRUA_IMAGE` key and its body hash verify (R476). -/
structure Image where
  counterSlot : Byte
  svn         : BitVec 16
  header      : BitVec 384
  sigOk       : Bool
  bodyOk      : Bool
  deriving DecidableEq, Repr, Inhabited

/-- A trace record as a tap sends it (Table 16.17), without the Bell count and the phase, which the module adds. -/
structure TraceRec where
  kind    : Byte
  pen     : Option (Fin 16)
  logical : Byte
  strand  : BitVec 3
  unit    : BitVec 32
  pc      : BitVec 48
  opcode  : Byte
  status  : Status
  detail  : BitVec 48
  deriving DecidableEq, Repr

/-- What start stage S0 meets (Table 16.4): PUF reconstruction, the header CRC and section signatures of the two record
copies, root hash, whether the tags of the newer and the older counter copy and of the newer lifecycle copy verify, the
hold-up measurement and the checks of the images. -/
structure S0Result where
  pufOk     : Bool
  helperOk  : Bool
  crcA      : Bool
  sigA      : Bool
  crcB      : Bool
  sigB      : Bool
  rootOk    : Bool
  badKeys   : List Nat
  ctrNew    : Bool
  ctrOld    : Bool
  lcNew     : Bool
  capUf     : BitVec 16
  firmwareKey : BitVec 384
  deriving DecidableEq, Repr

/-- What start stage S1 meets (Table 18.2): clocks, mesh links, whether every Seam bundle passes Flat calibration, and the
failed stitch wires of each row's bundle. -/
structure S1Result where
  pllOk   : Bool
  linksOk : Bool
  flatOk  : Bool
  wires   : List Byte
  deriving DecidableEq, Repr

/-- What start stage S2 meets (Table 18.3): failing Fold rows (device bank and row); the stacks' revision and capability
words; stacks that present no revision word or train no channel; channels that fail the memory test, each
with the step; the wires that fail training by stack and pseudo-channel; the step in which a stack reached Trip; and the
hold-up measurement of the commit that ends a full test. -/
structure S2Result where
  badRows : List (Nat × Nat)
  revs    : List (BitVec 16 × BitVec 16)
  noTrain : List Nat
  failed  : List (Fin 8 × Fin 64 × BitVec 8)
  wires   : List (Fin 8 × Fin 128 × WireFaults)
  trip    : Option (BitVec 8)
  mj      : Nat
  deriving DecidableEq, Repr

/-- What one populated site's start meets (Table 14.16, steps 1 to 4): the bundles, up as 32 + j, with failed wires. -/
structure SiteTraining where
  bundles : List (Fin 64 × BundleTraining)
  deriving DecidableEq, Repr

/-- What a transition up from P2 or P3 finds: the training of the sites' links, and the wavelengths that the lasers show. -/
structure PowerTraining where
  sites  : List SiteTraining
  lasers : List (BitVec 4)
  deriving DecidableEq, Repr

/-- What start stage S3 meets (Table 18.4). -/
structure S3Result where
  sites    : List SiteTraining
  opticsOk : Bool
  lasers   : List (BitVec 4)
  deriving DecidableEq, Repr

/-- What start stage S4 meets (Table 18.5): the physical Drovers that pass self-calibration, the hold-up measurement
of the counter write, and the milliseconds the start took. -/
structure S4Result where
  passed : BitVec 128
  mj     : Nat
  millis : BitVec 32
  deriving DecidableEq, Repr

/-- A Neighbor Discovery message (RFC 4861, R452). -/
inductive NdMsg where
  | solicitation (target : BitVec 128)
  | routerAdvertisement (pref : BitVec 64)
  deriving DecidableEq, Repr

/-- Why a datagram is discarded or refused (R452, R453, Table 15.3). -/
inductive BadDatagram where
  | otherPort | badLayout | tooLong | unknownCmd (cmd : BitVec 16) (reqId : BitVec 32)
  deriving DecidableEq, Repr

/-- The commands, one per row of the table of operations and events, in its order. -/
inductive Instr where
  /-- REGISTER_WRITE (R11): A write to a register field that has no behaviour of its own sets RW fields, clears W1C bits, or writes ST staging copies. -/
  | registerWrite (who : Master) (addr : BitVec 64) (width : Nat) (val : BitVec 64)
  /-- COMMIT (R16): Writing GATE_CTL.COMMIT checks the staging copy and applies it at once or arms it for the Bell in GATE_BELL, or refuses it. -/
  | commit (who : Master) (block : BitVec 64) (val : BitVec 64)
  /-- ABORT (R20): Writing GATE_CTL.ABORT copies active values into staging and cancels an armed commit with reason ABORTED. -/
  | abort (who : Master) (block : BitVec 64) (val : BitVec 64)
  /-- GATE_APPLY_AT_BELL (R18): An armed commit applies all staged fields together at the boundary of its target Bell. -/
  | gateApplyAtBell (block : BitVec 64)
  /-- BELL_BOUNDARY (R44): At each Bell boundary the Bell count increments and the events scheduled for it take effect in the order of R61. -/
  | bellBoundary (vin : BitVec 16) (pin : BitVec 16)
  /-- BELL_MARKER (R48): A received Bell marker is checked, counted and used for source selection and lock. -/
  | bellMarker (port : Fin 16) (m : Marker)
  /-- HOLDOVER_EXPIRY (R53): One Round in holdover moves the Bell logic to UNLOCKED, stopping scheduled flits and cancelling Bell-bound work. -/
  | holdoverExpiry
  /-- STANDBY_TAKEOVER (R53): A standby that has been in holdover for TAKEOVER Bells becomes BELLWETHER and originates Bells. -/
  | standbyTakeover
  /-- ACQUIRE_TIMEOUT (R53): A follower with no lock 1.0 s after the Bell lock step begins enters UNLOCKED. -/
  | acquireTimeout
  /-- SCHED_OK_QUALIFY (R58): After one Round of uninterrupted lock SCHED_OK rises to 1. -/
  | schedOkQualify
  /-- PEN_CLOCK_DOWN (R523): At the next Bell boundary after a zone change a Pen's Drovers, banks and atomic units change clock rate. -/
  | penClockDown (pen : Fin 16)
  /-- NOP (R112): NOP does nothing. -/
  | kNop (w : Issue) (o : SyncOps)
  /-- END (R83): END stops issue and places the strand in ENDING. -/
  | kEnd (w : Issue) (o : SyncOps)
  /-- STRAND_END (R83): When every operation of an ENDING strand has completed, the end record is written and the strand becomes IDLE. -/
  | strandEnd (drover : Fin 128) (strand : Fin 8)
  /-- BR (R112): BR branches when its condition holds. -/
  | kBr (w : Issue) (o : BrOps)
  /-- LOOP (R112): LOOP decrements g[ga] and branches while it is non-zero. -/
  | kLoop (w : Issue) (o : BrOps)
  /-- JR (R112): JR writes the return address and jumps to g[gb]. -/
  | kJr (w : Issue) (o : JrOps)
  /-- ADD (R112): ADD writes the sum modulo 2^64. -/
  | kAdd (w : Issue) (o : AluOps)
  /-- SUB (R112): SUB writes the difference modulo 2^64. -/
  | kSub (w : Issue) (o : AluOps)
  /-- MUL (R112): MUL writes the low 64 bits of the product. -/
  | kMul (w : Issue) (o : AluOps)
  /-- AND (R112): AND writes the bitwise and. -/
  | kAnd (w : Issue) (o : AluOps)
  /-- OR (R112): OR writes the bitwise or. -/
  | kOr (w : Issue) (o : AluOps)
  /-- XOR (R112): XOR writes the bitwise exclusive or. -/
  | kXor (w : Issue) (o : AluOps)
  /-- SHL (R112): SHL shifts left by src2 mod 64. -/
  | kShl (w : Issue) (o : AluOps)
  /-- SHR (R112): SHR shifts logically right by src2 mod 64. -/
  | kShr (w : Issue) (o : AluOps)
  /-- SRA (R112): SRA shifts arithmetically right by src2 mod 64. -/
  | kSra (w : Issue) (o : AluOps)
  /-- MIN (R112): MIN writes the signed minimum. -/
  | kMin (w : Issue) (o : AluOps)
  /-- MAX (R112): MAX writes the signed maximum. -/
  | kMax (w : Issue) (o : AluOps)
  /-- MINU (R112): MINU writes the unsigned minimum. -/
  | kMinu (w : Issue) (o : AluOps)
  /-- MAXU (R112): MAXU writes the unsigned maximum. -/
  | kMaxu (w : Issue) (o : AluOps)
  /-- CMP (R112): CMP writes 1 when the condition holds and 0 otherwise. -/
  | kCmp (w : Issue) (o : AluOps)
  /-- LI (R112): LI loads the extension word into g[ga]. -/
  | kLi (w : Issue) (ga : BitVec 5) (imm : BitVec 64)
  /-- BELL (R112): BELL loads BELL_COUNT at issue into g[ga]. -/
  | kBell (w : Issue) (o : SyncOps)
  /-- SELF (R112): SELF loads device, logical Drover, strand and Tally generation into g[ga]. -/
  | kSelf (w : Issue) (o : SyncOps)
  /-- FAILRD (R112): FAILRD reads FIRST_FAIL into g[ga] and clears it. -/
  | kFailrd (w : Issue) (o : SyncOps)
  /-- LD (R117): LD reads an element of the given width into g[ga]. -/
  | kLd (w : Issue) (o : MemOps)
  /-- ST (R117): ST writes the low bytes of g[gv] to memory. -/
  | kSt (w : Issue) (o : MemOps)
  /-- DLD (R118): DLD loads a 64-byte descriptor into dn. -/
  | kDld (w : Issue) (o : XferOps)
  /-- DST (R118): DST stores dn to 64 bytes of memory. -/
  | kDst (w : Issue) (o : XferOps)
  /-- DSET (R119): DSET writes a field of dn from g[gb]. -/
  | kDset (w : Issue) (o : DfldOps)
  /-- DGET (R119): DGET reads a field of dn into g[gb]. -/
  | kDget (w : Issue) (o : DfldOps)
  /-- DADD (R119): DADD adds g[gb] to a field of dn modulo its width. -/
  | kDadd (w : Issue) (o : DfldOps)
  /-- MOVE (R150): MOVE copies a dense array of up to five dimensions with conversion. -/
  | kMove (w : Issue) (o : XferOps)
  /-- GATHER (R154): GATHER copies indexed table rows into a linear destination. -/
  | kGather (w : Issue) (o : XferOps)
  /-- SCATTER (R155): SCATTER copies linear rows into indexed table rows. -/
  | kScatter (w : Issue) (o : XferOps)
  /-- GRAZE (R157): GRAZE gathers 32-byte sectors through the Graze path. -/
  | kGraze (w : Issue) (o : XferOps)
  /-- COMPACT (R160): COMPACT copies the elements whose mask bit is 1 in input order. -/
  | kCompact (w : Issue) (o : XferOps)
  /-- ISECT (R183): ISECT emits the intersection of two key lists. -/
  | kIsect (w : Issue) (o : XferOps)
  /-- UNION (R183): UNION emits the union of two key lists. -/
  | kUnion (w : Issue) (o : XferOps)
  /-- MERGE (R183): MERGE emits both key lists merged. -/
  | kMerge (w : Issue) (o : XferOps)
  /-- SEGRED_SUM (R188): SEGRED with code 0x00 sums the rows of each segment. -/
  | kSegredSum (w : Issue) (o : XferOps)
  /-- SEGRED_MIN (R188): SEGRED with code 0x01 takes the minimum over each segment. -/
  | kSegredMin (w : Issue) (o : XferOps)
  /-- SEGRED_MAX (R188): SEGRED with code 0x02 takes the maximum over each segment. -/
  | kSegredMax (w : Issue) (o : XferOps)
  /-- SEGRED_MEAN (R188): SEGRED with code 0x03 takes the mean of each segment. -/
  | kSegredMean (w : Issue) (o : XferOps)
  /-- EBAG (R191): EBAG pools weighted indexed rows into one output row. -/
  | kEbag (w : Issue) (o : XferOps)
  /-- HIST (R194): HIST counts keys into bins with 64-bit adds at the banks. -/
  | kHist (w : Issue) (o : XferOps)
  /-- TOPK_LARGEST (R197): TOPK with code 0x00 selects the K largest values. -/
  | kTopkLargest (w : Issue) (o : XferOps)
  /-- TOPK_SMALLEST (R197): TOPK with code 0x01 selects the K smallest values. -/
  | kTopkSmallest (w : Issue) (o : XferOps)
  /-- SELECTION_STORE_GRANT (R198): A waiting TOPK takes the Drover's selection store when the scan holding it ends or releases it. -/
  | selectionStoreGrant (drover : Fin 128) (op : Nat)
  /-- AADD (R254): AADD adds an operand to an element at its home bank and returns the old value. -/
  | kAadd (w : Issue) (o : MemOps)
  /-- AMIN (R254): AMIN stores the minimum at the home bank and returns the old value. -/
  | kAmin (w : Issue) (o : MemOps)
  /-- AMAX (R254): AMAX stores the maximum at the home bank and returns the old value. -/
  | kAmax (w : Issue) (o : MemOps)
  /-- AXCH (R254): AXCH exchanges an element at the home bank. -/
  | kAxch (w : Issue) (o : MemOps)
  /-- ACAS (R254): ACAS compares and swaps an element at the home bank. -/
  | kAcas (w : Issue) (o : MemOps)
  /-- AACC (R264): AACC adds an operand to one element of an accumulator region. -/
  | kAacc (w : Issue) (o : MemOps)
  /-- SETTLE (R267): SETTLE queues the conversion of a range's accumulator lines to external format. -/
  | kSettle (w : Issue) (o : MemOps)
  /-- PUT (R392): PUT writes a local region to another module's memory. -/
  | kPut (w : Issue) (o : XferOps)
  /-- GET (R392): GET reads another module's memory into a local region. -/
  | kGet (w : Issue) (o : XferOps)
  /-- RACC (R392): RACC accumulates a local region into another module's accumulator region. -/
  | kRacc (w : Issue) (o : XferOps)
  /-- RATOM_ADD (R395): RATOM add applies a scalar add at the remote home bank. -/
  | kRatomAdd (w : Issue) (o : MemOps)
  /-- RATOM_MIN (R395): RATOM min applies a scalar min at the remote home bank. -/
  | kRatomMin (w : Issue) (o : MemOps)
  /-- RATOM_MAX (R395): RATOM max applies a scalar max at the remote home bank. -/
  | kRatomMax (w : Issue) (o : MemOps)
  /-- RATOM_EXCHANGE (R395): RATOM exchange swaps an element at the remote home bank. -/
  | kRatomExchange (w : Issue) (o : MemOps)
  /-- RATOM_CAS (R395): RATOM compare-and-swap applies at the remote home bank. -/
  | kRatomCas (w : Issue) (o : MemOps)
  /-- SIGNAL (R120): SIGNAL adds a value to a completion counter of a target strand. -/
  | kSignal (w : Issue) (o : MemOps)
  /-- WAITC (R121): WAITC stalls the strand until a counter reaches a value. -/
  | kWaitc (w : Issue) (o : SyncOps)
  /-- FENCE_LOCAL (R122): A local FENCE holds issue until earlier operations have read sources and written registers. -/
  | kFenceLocal (w : Issue) (o : SyncOps)
  /-- FENCE_FOLD (R122): A Fold FENCE holds issue until earlier local-memory writes have their guarantee. -/
  | kFenceFold (w : Issue) (o : SyncOps)
  /-- FENCE_GLOBAL (R122): A global FENCE holds issue until remote and site-window operations have their guarantee. -/
  | kFenceGlobal (w : Issue) (o : SyncOps)
  /-- WAITBELL (R123): WAITBELL stalls the strand until a Bell count is reached. -/
  | kWaitbell (w : Issue) (o : SyncOps)
  /-- AT (R124): AT holds its paired operation in the Pen's Bell queue for a target Bell, or completes it at once. -/
  | kAt (w : Issue) (o : SyncOps) (second : PairOp)
  /-- AT_ISSUE (R124): A held AT pair issues its operation at the boundary where the count reaches the target. -/
  | atIssue (op : Nat)
  /-- FRANGE (R246): FRANGE submits a range command to the half's range engine queue. -/
  | kFrange (w : Issue) (o : MemOps)
  /-- TTOUCH (R332): TTOUCH resolves a translation into the buffers without moving data. -/
  | kTtouch (w : Issue) (o : MemOps)
  /-- FETCH_LINE (R70): A strand's instruction line arrives from the Fold into the instruction store. -/
  | fetchLine (drover : Fin 128) (strand : Fin 8)
  /-- OPERATION_COMPLETE (R138): An operation completes once with a status, raising its counter and writing gs. -/
  | operationComplete (op : Nat)
  /-- CHUNK_COMMIT (R167): A transfer chunk commits when every byte has its guarantee, and the cursor advances. -/
  | chunkCommit (op : Nat) (chunk : Nat)
  /-- DOORBELL_WINDOW_SUBMIT (R596): A write to register 7 of a doorbell window submits the latched start record. -/
  | doorbellWindowSubmit (logical : Fin 128) (strand : Fin 8) (control : BitVec 64)
  /-- PREEMPT (R84): A write of DRV_CTL_k.PREEMPT begins saving the named strands. -/
  | preempt (pen : Fin 16) (k : Fin 8) (mask : BitVec 8)
  /-- CONTEXT_SAVE (R87): When a pre-empted strand's local work has drained its context area is written and checked and the strand becomes IDLE. -/
  | contextSave (drover : Fin 128) (strand : Fin 8)
  /-- DETACHED_COMPLETE (R86): A detached remote operation completes and credits its counter and detached count in the context area. -/
  | detachedComplete (op : Nat)
  /-- DROVER_FENCE (R90): An uncorrectable Drover error fences the Drover, isolating its interface and marking its strands FENCED. -/
  | droverFence (drover : Fin 128) (part : DroverPart)
  /-- WATCHDOG_EXPIRY (R89): A strand RUNNING for one Round without retiring an instruction fences its Drover. -/
  | watchdogExpiry (drover : Fin 128)
  /-- FENCED_CONTEXT_SAVE (R91): The Pen's context unit attempts a save of each fenced strand within 10 µs. -/
  | fencedContextSave (drover : Fin 128) (strand : Fin 8) (ok : Bool)
  /-- TALLY_COPY_UPDATE (R96): At the next Bell boundary after a fencing every router copy of the Tally marks the number Absent. -/
  | tallyCopyUpdate
  /-- REBIND (R97): TALLY_CMD REBIND chooses a reserve for an Absent logical number. -/
  | rebind (logical : BitVec 8) (paddockOnly : Bool) (explicit : Bool) (target : BitVec 7)
  /-- REBIND_TAKE_EFFECT (R97): At the second Bell boundary after GO the rebind takes effect or is refused. -/
  | rebindTakeEffect
  /-- TALLY_FENCE (R103): TALLY_CMD FENCE fences the bound physical Drover of a logical number. -/
  | tallyFence (logical : BitVec 8)
  /-- TRANSFER_PARK (R168): After a deferred fault, chunks in flight drain and the cursor area is written PARKED. -/
  | transferPark (op : Nat)
  /-- BANK_REQUEST (R215): A read, write or update arrives at a Fold bank and is served as a hit, attached, or allocated as a miss. -/
  | bankRequest (r : BankReq)
  /-- FOLD_FILL (R217): A miss fill arrives, is written to its way, serves attached requests and frees the entry. -/
  | foldFill (bank : Fin 512) (line : Nat)
  /-- MERGE_BUFFER_EXPIRY (R222): A merge buffer empties 16 cycles after its array read. -/
  | mergeBufferExpiry (bank : Fin 512) (line : Nat)
  /-- SLOT_CONVERSION_DONE (R237): A converting way finishes in every bank and its slot becomes addressable. -/
  | slotConversionDone (pen : Fin 16)
  /-- CACHE_DISABLE_DONE (R238): The cache-disable clean ends, cache ways convert and PHASE returns to STEADY. -/
  | cacheDisableDone (pen : Fin 16)
  /-- WAY_POWER_DOWN (R234): A way powers down at the first Bell boundary after it is clean. -/
  | wayPowerDown (pen : Fin 16) (way : Fin 16)
  /-- WAY_POWER_UP (R234): A way powered up returns at the next Bell boundary after the commit. -/
  | wayPowerUp (pen : Fin 16) (way : Fin 16)
  /-- CLEAN (R245): FRANGE_CMD with OP CLEAN queues a clean of a range. -/
  | frClean (half : Fin 2)
  /-- INVALIDATE (R245): FRANGE_CMD with OP INVALIDATE queues an invalidation of a range. -/
  | frInvalidate (half : Fin 2)
  /-- CLEAN_INV (R245): FRANGE_CMD with OP CLEAN_INV queues a clean and invalidate of a range. -/
  | frCleanInv (half : Fin 2)
  /-- ZERO (R245): FRANGE_CMD with OP ZERO queues zeroing of a range. -/
  | frZero (half : Fin 2)
  /-- PIN (R245): FRANGE_CMD with OP PIN queues pinning of a range. -/
  | frPin (half : Fin 2)
  /-- UNPIN (R245): FRANGE_CMD with OP UNPIN queues unpinning of a range. -/
  | frUnpin (half : Fin 2)
  /-- RANGE_ENGINE_START (R242): A queued range request reaches the head of its half's queue and the engine walks its lines. -/
  | rangeEngineStart (half : Fin 2)
  /-- RANGE_COMPLETE (R243): A range command completes when every line is processed and every write-back accepted. -/
  | rangeComplete (half : Fin 2)
  /-- FOLD_SCRUB_PASS (R250): A bank's patrol scrub pass starts every 16 Rounds at a Bell boundary. -/
  | foldScrubPass (bank : Fin 512) (errors : List FoldError)
  /-- FOLD_SCRUB_WINDOW (R250): An announced Fold scrub window opens and the bank rewrites every word for 130 Bells. -/
  | foldScrubWindow (bank : Fin 512)
  /-- DRAM_REQUEST (R288): A controller accepts a line or sector request into a channel queue. -/
  | dramRequest (r : DramReq)
  /-- DRAM_DATA_RETURN (R293): A DRAM read returns data to the bank after ECC check and correction. -/
  | dramDataReturn (stack : Fin 8) (line : BitVec 29) (d : HalfData)
  /-- DRAM_REFRESH (R297): Each pseudo-channel refreshes one bank at its fixed phase in each refresh period. -/
  | dramRefresh (stack : Fin 8) (pch : Fin 128)
  /-- DRAM_PATROL_SCRUB (R283): The channel patrol scrub reads a line and rewrites a corrected sector. -/
  | dramPatrolScrub (stack : Fin 8) (chan : Fin 64) (e : EccResult)
  /-- RECENTRE_ANNOUNCE (R298): The half controller announces a re-centring window 4 Rounds ahead. -/
  | recentreAnnounce (stack : Fin 8) (chan : Fin 64) (start : BitVec 64)
  /-- RECENTRE_WINDOW (R299): A re-centring window opens at its start count and re-centres the channel's eyes. -/
  | recentreWindow (stack : Fin 8) (narrowEye : Bool)
  /-- FORCED_RETRAIN (R302): A forced retrain holds a channel's requests and retrains every wire. -/
  | forcedRetrain (stack : Fin 8) (chan : Fin 64) (trigger : RetrainTrigger)
  /-- DRAM_CA_PARITY (R301): A command-address parity error reported by the stack triggers a forced retrain. -/
  | dramCaParity (stack : Fin 8) (chan : Fin 64)
  /-- RETRAIN_COMPLETE (R302): A forced retrain ends, its held requests issue, and the channel may be retired. -/
  | retrainComplete (stack : Fin 8) (chan : Fin 64) (r : ChannelTraining)
  /-- RETRAIN (R311): DRAM_CHAN_CMD RETRAIN starts a forced retrain of a channel. -/
  | chanRetrain (stack : Fin 8) (chan : Fin 64)
  /-- RETIRE (R311): DRAM_CHAN_CMD RETIRE retires a channel. -/
  | chanRetire (stack : Fin 8) (chan : Fin 64)
  /-- WALKER_RING_RESUME (R324): Records waiting for ring space are written when firmware advances TAIL. -/
  | walkerRingResume (tail : BitVec 16)
  /-- FILL (R325): XLAT_REPLY FILL installs a leaf for a ticket and waiting requests look up again. -/
  | xlFill (ticket : BitVec 32)
  /-- DEFER (R325): XLAT_REPLY DEFER declares a fault and parks the transfers on the ticket. -/
  | xlDefer (ticket : BitVec 32)
  /-- RESUME (R325): XLAT_REPLY RESUME makes every request on a ticket look up again. -/
  | xlResume (ticket : BitVec 32)
  /-- FAIL (R325): XLAT_REPLY FAIL completes every request on a ticket with the given status. -/
  | xlFail (ticket : BitVec 32) (status : BitVec 8)
  /-- SHADOW_FILL (R322): XLAT_REPLY SHADOW_FILL loads an entry into a Pen's shadow second level. -/
  | xlShadowFill (pen : Fin 16)
  /-- SHADOW_CLEAR (R322): XLAT_REPLY SHADOW_CLEAR empties a Pen's shadow second level. -/
  | xlShadowClear (pen : Fin 16)
  /-- SHOOTDOWN (R333): XLAT_SHOOT_CMD GO invalidates matching translations everywhere. -/
  | shootdown (paddocks : BitVec 4) (pages : BitVec 32)
  /-- SHOOTDOWN_DONE (R333): A shootdown reads DONE when work using withdrawn translations has completed. -/
  | shootdownDone
  /-- FETCH (R329): XLAT_MIG_CMD FETCH copies a remote page into a local frame. -/
  | migFetch (size : BitVec 2)
  /-- EVICT (R329): XLAT_MIG_CMD EVICT copies a local frame back to its home. -/
  | migEvict (size : BitVec 2)
  /-- MIGRATION_PIECE (R329): A 4 KiB migration piece returns and is written, or stops the engine as FAILED. -/
  | migrationPiece (status : BitVec 16) (data : List (BitVec 8)) (poison : BitVec 128)
  /-- MIGRATION_DONE (R329): The migration engine reads DONE when every byte it wrote has its guarantee. -/
  | migrationDone
  /-- LASER_POLL (R345): Once per Round the module reads each source's power and temperature and classifies it. -/
  | laserPoll (src : Fin 4) (r : LaserReading)
  /-- LASER_PRESENCE_CHANGE (R345): An unplugged source leaves service at once and reads ABSENT. -/
  | laserPresenceChange (src : Fin 4) (present : Bool)
  /-- LANE_JUDGE (R350): Each Round the receiver judges each lane from its error counts. -/
  | laneJudge (port : Fin 16) (lane : Fin 8) (corrected : Nat) (uncorrectable : Nat)
  /-- LANE_LOSS_OF_SIGNAL (R350): No signal for 1 µs, or loss of lock, fails a lane. -/
  | laneLossOfSignal (port : Fin 16) (lane : Fin 8)
  /-- LANE_REMOVAL (R350): Both ends stop using a failed lane at the 4th Bell boundary after the notice, and reservations move. -/
  | laneRemoval (port : Fin 16) (lane : Fin 8)
  /-- REMOVE_LANE (R358): OPT_CMD REMOVE_LANE removes a lane through the lane notice. -/
  | optRemoveLane (port : Fin 16) (lane : Fin 8)
  /-- RETRAIN_LANE (R358): OPT_CMD RETRAIN_LANE retrains a removed lane at both ends. -/
  | optRetrainLane (port : Fin 16) (lane : Fin 8)
  /-- LANE_RETRAIN_DONE (R351): A lane retrain ends and the lane returns at a Bell boundary or stays removed. -/
  | laneRetrainDone (port : Fin 16) (lane : Fin 8) (ok : Bool)
  /-- PORT_DISABLE (R358): OPT_CMD PORT_DISABLE takes a port out of service at the 8th Bell boundary. -/
  | optPortDisable (port : Fin 16)
  /-- PORT_ENABLE (R358): OPT_CMD PORT_ENABLE trains a port from step 4. -/
  | optPortEnable (port : Fin 16)
  /-- LASER_DISABLE (R358): OPT_CMD LASER_DISABLE disables a source at the 8th Bell boundary. -/
  | optLaserDisable (src : Fin 4)
  /-- LASER_ENABLE (R358): OPT_CMD LASER_ENABLE enables a source and trains its ports. -/
  | optLaserEnable (src : Fin 4)
  /-- PORT_TRAINING_DONE (R348): A port training or retraining ends with the port in service or DOWN. -/
  | portTrainingDone (port : Fin 16) (r : PortTraining)
  /-- PORT_BUFFER_STALL (R371): A port whose retry buffer stays full for 1 µs leaves service and retrains. -/
  | portBufferStall (port : Fin 16)
  /-- NEIGHBOUR_LOSS_OF_SIGNAL (R354): Light from a neighbour stops and the port waits to acquire the module beyond it. -/
  | neighbourLossOfSignal (port : Fin 16)
  /-- NEIGHBOUR_REACQUIRE (R354): A port acquires the far module through a bypass, updates BYPASS and returns to service. -/
  | neighbourReacquire (port : Fin 16) (r : PortTraining)
  /-- PORT_BROKEN (R355): A port with no acquisition within 1 ms reads BROKEN and sends a fault notice. -/
  | portBroken (port : Fin 16)
  /-- FLIT_SLOT (R367): At each flit boundary each lane sends the first waiting flit in priority order. -/
  | flitSlot (port : Fin 16) (lane : Fin 8) (pos : Fin 16)
  /-- DATA_FLIT (R361): A data flit is received, checked, acknowledged, routed or reassembled. -/
  | dataFlit (port : Fin 16) (lane : Fin 8) (f : Flit) (checkOk : Bool)
  /-- ACKNOWLEDGE (R369): An Acknowledge message frees acknowledged flits and resends missing ones. -/
  | acknowledge (port : Fin 16) (below : BitVec 16) (missing : List (BitVec 16))
  /-- FLIT_RESEND_TIMEOUT (R369): A flit not acknowledged within RT + 4 Bells is sent again. -/
  | flitResendTimeout (port : Fin 16) (seq : BitVec 16)
  /-- CREDIT (R370): A Credit message returns bulk credits per channel. -/
  | credit (port : Fin 16) (c0 c1 c2 c3 : BitVec 16)
  /-- WINDOW_ANNOUNCEMENT (R379): A received window announcement is held by admission and routed on. -/
  | windowAnnouncement (port : Fin 16) (dest : BitVec 14) (win : Window)
  /-- LANE_NOTICE (R350): A received lane notice schedules removal or retrain of a lane. -/
  | laneNotice (port : Fin 16) (lane : Fin 8) (action : BitVec 8) (bell : BitVec 64)
  /-- FAULT_NOTICE (R355): A received fault notice is recorded. -/
  | faultNotice (port : Fin 16) (dim : BitVec 8) (farPort : BitVec 8) (lastFar : BitVec 14) (kind : BitVec 8)
  /-- THERMAL_NOTICE (R379): A received thermal notice updates admission's view of a remote stack. -/
  | thermalNotice (port : Fin 16) (dest : BitVec 14) (source : BitVec 14) (stack : Fin 8) (state : BitVec 2) (bell : BitVec 64)
  /-- RELEASE_NOTICE (R354): A received release notice holds new traffic for the port from the named boundary. -/
  | releaseNotice (port : Fin 16) (dim : Fin 4) (bell : BitVec 64)
  /-- MUSTER_MESSAGE (R409): A received Muster arrive or release message is applied to its group. -/
  | musterMessage (port : Fin 16) (dest : BitVec 14) (m : MusterMsg)
  /-- MESH_PACKET (R578): A packet passes a router with SECDED checking of every word. -/
  | meshPacket (router : Fin 16) (v : MeshVisit)
  /-- ROUTER_FAULT (R388): A faulty router is avoided by a new mesh table and its Pen's Drovers are fenced. -/
  | routerFault (router : Fin 16) (crossbar : Bool)
  /-- STUCK_PACKET (R388): A packet that stays in a router for 1 µs judges the router faulty. -/
  | stuckPacket (router : Fin 16)
  /-- SEAM_BUNDLE_LOST (R29): A Bridged bundle with more than 64 failed wires leaves service, possibly isolating the halves. -/
  | seamBundleLost (row : Fin 4) (failed : BitVec 8)
  /-- INBOUND_PUT (R401): An arriving PUT request is translated and applied at the target. -/
  | inboundPut (r : RemReq)
  /-- INBOUND_GET (R401): An arriving GET request is translated and answered with the data. -/
  | inboundGet (r : RemReq)
  /-- INBOUND_RACC (R272): An arriving RACC is applied at the home bank as an accumulation. -/
  | inboundRacc (r : RemReq)
  /-- INBOUND_RATOM (R395): An arriving RATOM is applied as a scalar atomic and answered. -/
  | inboundRatom (r : RemReq)
  /-- INBOUND_SIGNAL (R120): An arriving SIGNAL is applied to the target strand and answered. -/
  | inboundSignal (r : RemReq)
  /-- GET_REPLY (R398): A GET reply arrives and its data is written locally. -/
  | getReply (op : Nat) (chunk : Nat) (status : BitVec 16) (data : List (BitVec 8)) (poison : BitVec 128)
  /-- RATOM_REPLY (R398): A RATOM reply arrives and writes the old value. -/
  | ratomReply (op : Nat) (status : BitVec 16) (old : BitVec 64)
  /-- SIGNAL_REPLY (R398): A SIGNAL reply arrives and fixes the issuer's outcome. -/
  | signalReply (op : Nat) (status : BitVec 16)
  /-- REMOTE_ACK (R381): An acknowledgement of PUT or RACC arrives with status and delivery Bell. -/
  | remoteAck (op : Nat) (chunk : Nat) (status : BitVec 16) (delivery : BitVec 64)
  /-- REQUEST_EXPIRY (R402): A target discards a request still waiting when its count reaches E and answers TIMEOUT. -/
  | requestExpiry (source : BitVec 14) (packet : BitVec 32)
  /-- ISSUER_REPLY_TIMEOUT (R402): A chunk with no reply by E plus RETURN fails its transfer with TIMEOUT. -/
  | issuerReplyTimeout (op : Nat) (chunk : Nat)
  /-- MUSTER_RELEASE (R408): A group acts on its release at Bell R, raising local counters and passing the release down. -/
  | musterRelease (group : Fin 64)
  /-- FORCE_RELEASE (R410): MUSTER_CMD FORCE_RELEASE releases a group with status TIMEOUT at the next boundary. -/
  | musterForceRelease (group : Fin 64)
  /-- READ (R420): A site READ command is checked by the Hurdle and served. -/
  | siteRead (c : SiteCmd)
  /-- WRITE (R420): A site WRITE command is checked by the Hurdle and applied. -/
  | siteWrite (c : SiteCmd)
  /-- ATOMIC (R420): A site ATOMIC command applies a scalar atomic at the home bank. -/
  | siteAtomic (c : SiteCmd)
  /-- ACCUM (R420): A site ACCUM command accumulates operands into an accumulator region. -/
  | siteAccum (c : SiteCmd)
  /-- SITE_SETTLE (R420): A site SETTLE command settles a range of accumulator lines. -/
  | siteSettle (c : SiteCmd)
  /-- RANGE (R420): A site RANGE command queues a range-engine command. -/
  | siteRange (c : SiteCmd)
  /-- DOORBELL (R430): A site DOORBELL carries a start record to a strand after the Hurdle check. -/
  | siteDoorbell (c : SiteCmd)
  /-- MAILBOX (R462): A site MAILBOX command posts registers to a mailbox. -/
  | siteMailbox (c : SiteCmd)
  /-- SW_DATA (R427): A site's SW_DATA reply completes a base-die read of a site window. -/
  | swData (site : Fin 4) (bundle : Fin 32) (packets : Nat) (tag : BitVec 16) (status : BitVec 8) (data : List (BitVec 8)) (poison : BitVec 8)
  /-- SW_DONE (R427): A site's SW_DONE reply completes a base-die write or mailbox delivery. -/
  | swDone (site : Fin 4) (bundle : Fin 32) (packets : Nat) (tag : BitVec 16) (status : BitVec 8)
  /-- SITE_REPLY_TIMEOUT (R427): A VC 0x2 request with no site reply in one Round completes TIMEOUT. -/
  | siteReplyTimeout (site : Fin 4) (tag : BitVec 16)
  /-- LINK_CONTROL (R421): A link-control packet acknowledges, requests retry, closes a bundle and returns credits. -/
  | linkControl (site : Fin 4) (bundle : Fin 32) (l : LinkCtl)
  /-- CHECK_PATTERN (R416): An idle or check-pattern packet is compared wire by wire against the pattern. -/
  | checkPattern (site : Fin 4) (bundle : Fin 32) (wires : List (Fin 264))
  /-- SLP_RETRY_TIMEOUT (R421): With no acknowledgement for 256 ns the sender resends from the oldest unacknowledged packet. -/
  | slpRetryTimeout (site : Fin 4) (bundle : Fin 32)
  /-- BUNDLE_REPAIR (R435): A bundle over its error threshold is closed, retrained and reopened at a width. -/
  | bundleRepair (site : Fin 4) (up : Bool) (bundle : Fin 32) (t : BundleTraining)
  /-- REPAIR (R435): SITE_CMD REPAIR starts a repair of a bundle. -/
  | siteRepair (site : Fin 4) (up : Bool) (bundle : Fin 32)
  /-- CLOSE (R436): SITE_CMD CLOSE takes a bundle out of service. -/
  | siteClose (site : Fin 4) (up : Bool) (bundle : Fin 32)
  /-- CAPABILITY_FRAME (R438): A site capability frame is answered with the enabled intersection or a refusal. -/
  | capabilityFrame (site : Fin 4) (rev : BitVec 16) (level : BitVec 8) (caps : BitVec 16) (pmax : BitVec 16)
  /-- HANDSHAKE_TIMEOUT (R438): A site that does not answer within 50 ms fails its handshake and stays in reset. -/
  | handshakeTimeout (site : Fin 4)
  /-- TEMPERATURE_FRAME (R442): A site temperature frame updates its site zone. -/
  | temperatureFrame (site : Fin 4) (t : BitVec 16)
  /-- SITE_TEMP_STALE (R442): A site with TEMP that sends no frame for one Round is recorded and judged on base sensors. -/
  | siteTempStale (site : Fin 4)
  /-- FAULT_FRAME (R437): A site fault frame is received and recorded. -/
  | faultFrame (site : Fin 4) (code : BitVec 16)
  /-- SITE_ALERT (R440): SITE_ALERT_N going low sets ALERT and is recorded. -/
  | siteAlert (site : Fin 4)
  /-- SITE_POWER_SAMPLE (R510): Every 1 µs each site's power is measured and limited by its regulators. -/
  | sitePowerSample (site : Fin 4) (watts : BitVec 16)
  /-- SITE_RAIL_FAULT (R510): A site rail below 90 % for 10 µs drops SITE_PG and holds the site. -/
  | siteRailFault (site : Fin 4) (rail : BitVec 2) (mv : BitVec 16)
  /-- SITE_LEVEL_UPDATE (R511): The level driven on SITE_PLIM changes at the next Bell boundary. -/
  | siteLevelUpdate (site : Fin 4)
  /-- IDENTIFY (R455): DFP IDENTIFY returns order code, device number, revisions and lifecycle. -/
  | dfpIdentify (h : DfpHdr)
  /-- STATUS (R455): DFP STATUS returns READY, stage, Fallow reason and power state. -/
  | dfpStatus (h : DfpHdr)
  /-- SESSION_OPEN (R455): DFP SESSION_OPEN establishes an authenticated session. -/
  | dfpSessionOpen (h : DfpHdr) (slot : Fin 16) (sigOk : Bool) (chainRole : Option KeyRole)
  /-- SESSION_CLOSE (R455): DFP SESSION_CLOSE closes a session. -/
  | dfpSessionClose (h : DfpHdr)
  /-- SESSION_TIMEOUT (R455): A session closes after 300 s without a valid request. -/
  | sessionTimeout (session : BitVec 32)
  /-- GET_NONCE (R454): DFP GET_NONCE issues a nonce for one signed command. -/
  | dfpGetNonce (h : DfpHdr)
  /-- NONCE_EXPIRY (R454): A nonce expires 60 s after it is issued. -/
  | nonceExpiry (nonce : BitVec 128)
  /-- REG_READ (R456): DFP REG_READ reads registers of management register space. -/
  | dfpRegRead (h : DfpHdr) (addrs : List (BitVec 64))
  /-- REG_WRITE (R456): DFP REG_WRITE performs register writes in order. -/
  | dfpRegWrite (h : DfpHdr) (pairs : List (BitVec 64 × BitVec 64))
  /-- LOG_READ (R575): DFP LOG_READ returns event records from a sequence number. -/
  | dfpLogRead (h : DfpHdr) (start : BitVec 32) (count : Nat)
  /-- EVENT_SUBSCRIBE (R455): DFP EVENT_SUBSCRIBE subscribes a client to new records. -/
  | dfpEventSubscribe (h : DfpHdr)
  /-- MBOX_POST (R459): DFP MBOX_POST posts to a system mailbox. -/
  | dfpMboxPost (h : DfpHdr) (m : Fin 64) (regs : List (BitVec 64))
  /-- CONFIG_COMMIT (R590): Signed CONFIG_COMMIT stages ST registers of a block and commits its gate. -/
  | dfpConfigCommit (h : DfpHdr) (base : BitVec 64) (pairs : List (BitVec 64 × BitVec 64)) (mode : Bool) (target : BitVec 64)
  /-- RECORD_WRITE (R585): Signed RECORD_WRITE replaces a section of the Module Record in the copy not in use. -/
  | dfpRecordWrite (h : DfpHdr) (adv : Bool) (sec : RecordSection) (mj : Nat)
  /-- COUNTER_CLEAR (R545): Signed COUNTER_CLEAR writes the boot-attempt counter as 0. -/
  | dfpCounterClear (h : DfpHdr) (mj : Nat)
  /-- FALLOW_EXIT (R545): Signed FALLOW_EXIT clears the counter and starts from S0 step 1. -/
  | dfpFallowExit (h : DfpHdr) (mj : Nat)
  /-- LIFECYCLE (R484): Signed LIFECYCLE makes a lifecycle transition and starts zeroising. -/
  | dfpLifecycle (h : DfpHdr) (present : BitVec 8) (target : BitVec 8) (mj : Nat)
  /-- ZEROISE_COMPLETE (R485): When zeroising steps end ZERO_PENDING is cleared and the Paddocks released. -/
  | zeroiseComplete
  /-- DEBUG_TOKEN (R491): Signed DEBUG_TOKEN presents a token that sets the debug level and scope. -/
  | dfpDebugToken (h : DfpHdr) (t : DebugTok)
  /-- TOKEN_EXPIRY (R493): A token's lifetime ends and the level returns to Closed. -/
  | tokenExpiry
  /-- RESTART_MANAGEMENT (R450): Signed RESTART with target management restarts the management and walker cores. -/
  | dfpRestartManagement (h : DfpHdr)
  /-- RESTART_PADDOCK (R546): Signed RESTART with target Paddock k resets that Paddock. -/
  | dfpRestartPaddock (h : DfpHdr) (k : Fin 4)
  /-- RESTART_MODULE (R546): Signed RESTART with target module starts a module reset. -/
  | dfpRestartModule (h : DfpHdr)
  /-- MGMT_MEM_UE (R446): An uncorrectable management-memory error reaching a core raises a machine check and a management restart. -/
  | mgmtMemUe (core : Fin 12) (addr : BitVec 32)
  /-- IMAGE_WRITE (R477): DFP IMAGE_WRITE stores an image piece in the non-active slot. -/
  | dfpImageWrite (h : DfpHdr) (kind : ImageKind) (img : Image)
  /-- IMAGE_COMMIT (R478): Signed IMAGE_COMMIT activates a staged image or advances a counter. -/
  | dfpImageCommit (h : DfpHdr) (kind : ImageKind) (adv : Bool) (hash : BitVec 384) (mj : Nat)
  /-- ATTEST (R482): DFP ATTEST returns a signed attestation report. -/
  | dfpAttest (h : DfpHdr) (nonce : BitVec 256)
  /-- MBOX_GO (R462): Writing MBOX_CTL.GO posts a mailbox message or sends an outbound one. -/
  | mboxGo (m : Fin 64) (core : Fin 8) (crook : Bool) (len : BitVec 5)
  /-- MBOX_ACK (R462): Writing MBOX_CTL.ACK empties a full mailbox and completes the post. -/
  | mboxAck (m : Fin 64)
  /-- IDCODE (R494): Port instruction IDCODE selects the identification register. -/
  | tapIdcode
  /-- BYPASS (R494): Port instruction BYPASS selects the bypass register. -/
  | tapBypass
  /-- EXTEST (R494): Port instruction EXTEST drives boundary scan at Full. -/
  | tapExtest
  /-- SAMPLE_PRELOAD (R494): Port instruction SAMPLE/PRELOAD samples boundary scan at Full. -/
  | tapSamplePreload
  /-- DBG_NONCE (R490): Port instruction DBG_NONCE reads a nonce. -/
  | tapDbgNonce
  /-- DBG_TOKEN (R491): Port instruction DBG_TOKEN presents a debug token. -/
  | tapDbgToken (t : DebugTok)
  /-- DBG_LEVEL (R492): Port instruction DBG_LEVEL sets the debug level in Blank. -/
  | tapDbgLevel (level : BitVec 2)
  /-- DBG_ACCESS_READ (R495): DBG_ACCESS with OP 0x1 reads 64 bits at a local address. -/
  | tapAccessRead (addr : BitVec 64)
  /-- DBG_ACCESS_WRITE (R495): DBG_ACCESS with OP 0x2 writes 64 bits at a local address. -/
  | tapAccessWrite (addr : BitVec 64) (data : BitVec 64)
  /-- DEBUG_RAISE (R499): In Inspect at Full a request to a powered-down domain raises the module to P1 and is then served. -/
  | debugRaise (found : Option (List (BitVec 4)))
  /-- TRACE (R496): Port instruction TRACE streams the held trace records. -/
  | tapTrace
  /-- DTM (R489): Port instruction DTM reaches the RISC-V debug module. -/
  | tapDtm
  /-- TEST_LOGIC_RESET (R612): TRST_N low resets the test logic only. -/
  | testLogicReset
  /-- TRACE_CTL_WRITE (R496): A write of TRACE_CTL starts or stops collection and restarts numbering when EN is set. -/
  | traceCtlWrite (val : BitVec 64)
  /-- TRACE_RECORD (R496): A tap's trace record enters the buffer, overwriting or being dropped when full. -/
  | traceRecord (r : TraceRec) (unitOk : Bool)
  /-- TRACE_SAMPLE (R496): Every SAMPLE Rounds Fold and DRAM counters are sampled into trace records. -/
  | traceSample
  /-- POWER_FAIL (R516): Input below 44 V for 5 µs declares power-fail and runs the power-fail sequence. -/
  | powerFail (vin : BitVec 16)
  /-- INPUT_OVERVOLTAGE (R607): Input above 62 V for 5 µs runs the power-fail sequence. -/
  | inputOvervoltage (vin : BitVec 16)
  /-- AUX_POWER_GOOD (R606): Input at 46 V or above for 100 ms gives auxiliary power good and starts from S0. -/
  | auxPowerGood
  /-- PWR_CMD_P0 (R507): PWR_CMD with TO P0 requests the Run state. -/
  | pwrCmdP0 (atBell : Bool)
  /-- PWR_CMD_P1 (R507): PWR_CMD with TO P1 requests the Idle state. -/
  | pwrCmdP1 (atBell : Bool)
  /-- PWR_CMD_P2 (R507): PWR_CMD with TO P2 requests the Transit state. -/
  | pwrCmdP2 (atBell : Bool)
  /-- PWR_CMD_P3 (R507): PWR_CMD with TO P3 requests the Keep state. -/
  | pwrCmdP3 (atBell : Bool)
  /-- PWR_CMD_P4 (R507): PWR_CMD with TO P4 requests the Off state. -/
  | pwrCmdP4 (atBell : Bool)
  /-- POWER_TRANSITION (R507): A power-state change takes effect at its boundary and runs its entry or exit sequence. -/
  | powerTransition (t : PowerTraining)
  /-- PEN_CLOCK_GATE (R505): In P1 a Pen idle for 1 µs has its clock gated. -/
  | penClockGate (pen : Fin 16)
  /-- ZONE_SAMPLE (R519): Every 16 Bells each zone reads its sensors and judges its state. -/
  | zoneSample (zone : Fin 14) (readings : List (BitVec 16)) (invalid : Option (BitVec 5 × BitVec 16))
  /-- ZONE_STATE_CHANGE (R522): A new zone state takes effect at the next Bell boundary with the actions of Table 17.4. -/
  | zoneStateChange (zone : Fin 14)
  /-- THERMAL_SHUTDOWN (R521): A comparator reading of 115 °C declares thermal shutdown and ends in P4. -/
  | thermalShutdown (zone : Fin 14) (sensor : BitVec 5) (temp : BitVec 16)
  /-- STAGE_S0 (R475): Start stage S0 runs Crook, keys, the Module Record, hold-up, the boot counter and firmware. -/
  | stageS0 (r : S0Result)
  /-- STAGE_S1 (R532): Start stage S1 locks clocks and calibrates the mesh and Seam. -/
  | stageS1 (r : S1Result)
  /-- STAGE_S2 (R533): Start stage S2 tests the Fold, trains and tests DRAM, and zeroes memory. -/
  | stageS2 (r : S2Result)
  /-- STAGE_S3 (R537): Start stage S3 starts sites, trains optics and locks to Bells. -/
  | stageS3 (r : S3Result)
  /-- STAGE_S4 (R538): Start stage S4 calibrates Drovers, builds the Tally, releases sites and raises READY. -/
  | stageS4 (r : S4Result)
  /-- START_RETRY (R543): 1 s after a start-failure record a new start begins from S0 step 1. -/
  | startRetry
  /-- DROVER_RESET (R547): RESET_CMD at Drover level stops issue, drains and clears the Drover. -/
  | droverReset (target : BitVec 7)
  /-- PEN_RESET (R548): RESET_CMD at Pen level closes the Pen boundary, cleans the slice and resets its blocks. -/
  | penReset (target : BitVec 7)
  /-- PADDOCK_RESET (R549): RESET_CMD at Paddock level resets four Pens, the site and the stacks' use. -/
  | paddockReset (target : BitVec 7) (force : Bool)
  /-- PADDOCK_RESET_ZEROISE (R550): RESET_CMD at Paddock level with ZEROISE discards and zeroes the Paddock's memory. -/
  | paddockResetZeroise (target : BitVec 7) (force : Bool)
  /-- MODULE_RESET (R551): RESET_CMD at module level resets all but the auxiliary domain and starts from S0 step 4. -/
  | moduleReset
  /-- RESET_RELEASE (R548): After the stacks leave self-refresh the Pen boundaries open at the next Bell boundary and held requests are served. -/
  | resetRelease
  /-- SITE_RELEASE (R444): At a Paddock reset release the handshake runs again before SITE_RST_N rises. -/
  | siteRelease (site : Fin 4)
  /-- RECORD_CLOSE (R560): A record closes 1 ms after its first event and is written to MRAM. -/
  | recordClose (seq : BitVec 32)
  /-- BUCKET_REFILL (R566): A code's bucket gains a token and spends it on a SUPPRESSED record if events were suppressed. -/
  | bucketRefill (code : BitVec 16)
  /-- ERR_ACK (R563): Writing ERR_ACK ends service of a notification and brings the next into service. -/
  | errAck (unit : Fin 4) (seq : BitVec 32)
  /-- LOG_FW_WRITE (R577): Writing LOG_FW_0.GO creates a firmware record. -/
  | logFwWrite (w0 : BitVec 64)
  /-- RUNTIME_CHECK_FAILED (R450): Crook, on a failed runtime check, starts a management restart of the management and walker cores. -/
  | runtimeCheckFailed
  /-- ILLEGAL_INSTRUCTION (R106): Issue of an illegal word (unassigned OP or FMT, reserved field set, all zeros, PN 1 with PG 0, bad COND or SUB) raises the strand fault ILLEGAL. -/
  | illegalInstruction (w : Issue) (word : BitVec 64)
  /-- BAD_OP (R103): A write with GO 1 to a command register (TALLY_CMD, FRANGE_CMD, DRAM_CHAN_CMD, XLAT_REPLY, XLAT_MIG_CMD, OPT_CMD, MUSTER_CMD, SITE_CMD, DBG_ACCESS, RESET_CMD level) naming an unassigned OP is refused with BAD_OP or its equivalent. -/
  | badOp (port : Bool) (addr : BitVec 64) (val : BitVec 64)
  /-- SITE_PACKET (R421): A Site Link Protocol packet that fails its CRC, carries a reserved VC or arrives out of SEQ order is discarded, counted, and a NAK sent. -/
  | sitePacket (site : Fin 4) (bundle : Fin 32) (fault : PacketFault)
  /-- SIDEBAND_REPEAT (R437): Every 1 µs the base die repeats an unanswered sideband frame until it is answered or superseded. -/
  | sidebandRepeat (site : Fin 4)
  /-- LINK_CONTROL_TIMER (R421): While packets arrive, a bundle receiver returns a link-control packet at least every 32 ns. -/
  | linkControlTimer (site : Fin 4) (bundle : Fin 32)
  /-- ICMPV6_ECHO (R452): A management port answers an ICMPv6 echo request. -/
  | icmpv6Echo (port : Fin 2) (ident : BitVec 32) (data : List (BitVec 8))
  /-- NEIGHBOR_DISCOVERY (R452): A management port answers Neighbor Discovery messages and performs stateless address autoconfiguration. -/
  | neighborDiscovery (port : Fin 2) (n : NdMsg)
  /-- DATAGRAM_DISCARD (R453): A datagram to a UDP port other than 7319, or a DFP datagram that breaks the layout, is too long or names an unknown CMD, is discarded and counted or answered BAD_REQUEST. -/
  | datagramDiscard (port : Fin 2) (d : BadDatagram)
  /-- AUTO_NEGOTIATION (R611): A management port's link comes up or fails Clause 73 auto-negotiation and keeps retrying, with the failure recorded at most once per minute. -/
  | autoNegotiation (port : Fin 2) (up : Bool)
  /-- INPUT_REMOVAL (R518): The busbar input falls below 40 V while the module is in P4, arming the restart that AUX_POWER_GOOD later completes. -/
  | inputRemoval
  deriving DecidableEq, Repr

end Sys2Proof
end

