-- ==== Sys2Proof/Decode.lean ====
section
/-! DEFINITION. Decode.lean: the command a word of spec/opcode_table.json spells. -/
namespace Sys2Proof

/-- The table of operations and events gives none of its rows an encoding, so no word spells a command
(notes/assumptions/1.md). -/
def decodeTableWord (_nbits _w : Nat) : Option Instr := none

end Sys2Proof
end

