-- ==== Sys2Proof/Machine/Bits.lean ====
section
/-! DEFINITION. Machine/Bits.lean: bit fields, bytes and checks the spec's layouts are read and written with (R9). -/
namespace Sys2Proof.Machine

/-- Field [hi:lo] of a word. -/
def bits {w : Nat} (x : BitVec w) (hi lo : Nat) : Nat := (x.extractLsb' lo (hi + 1 - lo)).toNat

/-- Bit n of a word. -/
def bit {w : Nat} (x : BitVec w) (n : Nat) : Bool := x.getLsbD n

/-- A word with field [hi:lo] set to the low bits of v, its other bits unchanged. -/
def setBits {w : Nat} (x : BitVec w) (hi lo v : Nat) : BitVec w :=
  (x &&& ~~~((BitVec.allOnes (hi + 1 - lo)).setWidth w <<< lo)) |||
    ((BitVec.ofNat (hi + 1 - lo) v).setWidth w <<< lo)

/-- 1 for true. -/
def b2n (b : Bool) : Nat := if b then 1 else 0

/-- Sign-extend a value of `w` bits to 64 bits (R108). -/
def sext {w : Nat} (x : BitVec w) : Word := x.signExtend 64

/-- The little-endian bytes of a number (R9). -/
def toBytes (n : Nat) (v : Nat) : List Byte :=
  match n with
  | 0 => []
  | n + 1 => BitVec.ofNat 8 v :: toBytes n (v / 256)

/-- The number little-endian bytes stand for (R9). -/
def ofBytes : List Byte → Nat
  | [] => 0
  | b :: t => b.toNat + 256 * ofBytes t

/-- n bytes of zero. -/
def zeros (n : Nat) : List Byte := List.replicate n 0

/-- One byte step of the CRC-32 of IEEE 802.3 (reflected, polynomial 0xEDB88320). -/
def crcStep (c : BitVec 32) (b : Byte) : BitVec 32 :=
  (List.range 8).foldl
    (fun c _ => if c.getLsbD 0 then (c >>> 1) ^^^ 0xEDB88320 else c >>> 1) (c ^^^ b.setWidth 32)

/-- CRC-32 with the IEEE 802.3 polynomial (R87, R132, R582). -/
def crc32 (bs : List Byte) : BitVec 32 := (bs.foldl crcStep 0xFFFFFFFF) ^^^ 0xFFFFFFFF

/-- Saturating increment below 2^w. -/
def satAdd (w v k : Nat) : Nat := if v + k < 2 ^ w then v + k else 2 ^ w - 1

/-- The bits set in a number, below n. -/
def setBitsOf (n v : Nat) : List Nat := (List.range n).filter fun i => v.testBit i

/-- How many of the low n bits are set. -/
def popCount (n v : Nat) : Nat := (setBitsOf n v).length

/-- The number with exactly the listed bits set. -/
def ofBits (l : List Nat) : Nat := l.foldl (fun v i => v ||| 2 ^ i) 0

end Sys2Proof.Machine
end

