-- ==== Sys2Proof/Machine/Flags.lean ====
section
/-! DEFINITION. Machine/Flags.lean: the conditions of Table 4.5. KEIS has no flags (R112): a condition compares two
values. -/
namespace Sys2Proof.Machine

/-- Whether a condition code is assigned (R113). -/
def condOk (c : BitVec 4) : Bool := c.toNat ≤ 6

/-- `ALWAYS`. -/
def condAlways : BitVec 4 := 6

/-- Whether a condition holds of two comparands (Table 4.5); the codes that `condOk` excludes hold of none. -/
def condHolds (c : BitVec 4) (a b : Word) : Bool :=
  if c = 0 then a = b
  else if c = 1 then a ≠ b
  else if c = 2 then a.slt b
  else if c = 3 then !a.slt b
  else if c = 4 then a.ult b
  else if c = 5 then !a.ult b
  else c = 6

end Sys2Proof.Machine
end

