-- ==== Sys2Proof/Config.lean ====
section
/-! DEFINITION. Config.lean: what one part fixes for good, and the values the spec leaves open. A constant without a
body has no value a proof could see. -/
namespace Sys2Proof

/-- The released die revisions (R4). -/
inductive DieRev where
  | a0 | a1 | b0
  deriving DecidableEq, Repr, Inhabited

/-- `REVISION` of `BLOCK_ID` (R4). -/
def DieRev.code : DieRev → Nat
  | .a0 => 0x10
  | .a1 => 0x11
  | .b0 => 0x20

/-- The code `IDCODE` reads (R494). -/
def DieRev.idcode : DieRev → Nat
  | .a0 => 0x11B009CB
  | .a1 => 0x21B009CB
  | .b0 => 0x31B009CB

namespace Config

/-- The die revision of this part (R4). -/
opaque dieRev : DieRev

/-- A value the spec leaves open, by the number of such values taken before it (notes/assumptions/5.md). -/
opaque freeValue : Nat → Word

/-- A Drover's random source: how its 64-bit generator advances at a draw, and the 16 bits a draw gives; the spec names
neither (R206, R207; notes/assumptions/73.md). -/
opaque rndNext : Word → Word
opaque rndBits : Word → BitVec 16

/-- The boundary scan register as sampled, which the spec does not lay out (notes/assumptions/6.md). -/
opaque boundaryScan : Nat → Word

/-- The sign of the NaN that an infinity less an infinity, or zero times an infinity, gives: the spec states no sign
where no operand is a NaN (notes/assumptions/7.md). -/
opaque invalidSign : Bool

/-- The sign of the NaN an element of an MX block with scale 0xFF decodes to: the spec states none
(notes/assumptions/142.md). -/
opaque mxNanSign : Nat → Bool

/-- Whether a controller takes timing set 1 for a stack's revision word: Table 9.2 calls it that of earlier revisions and
gives no word (R287; notes/assumptions/146.md). -/
opaque earlierRev : BitVec 16 → Bool

/-- A far device and port as one record parameter: the spec names both in one 32-bit parameter and lays out neither
(notes/assumptions/19.md). -/
opaque farWord : Nat → Nat → BitVec 32

/-- Whether a port sits in the East half: the spec speaks of a port's half and does not say which it is
(notes/assumptions/30.md). -/
opaque portEast : Nat → Bool

/-- The Module Record a part leaves the factory with (R582), and its firmware images by 2 × type + slot (R474): one
part's own contents, which the spec does not fix (notes/assumptions/47.md). -/
opaque factoryRecord : ModuleRecord
opaque factoryImage : Nat → Image

/-- What Crook computes by cryptography or the part holds as its identity, of which the spec gives the use and no value
(notes/assumptions/48.md): SHA-384 of the record and of an image's body, and the device public key. -/
opaque recordHash : ModuleRecord → Nat
opaque bodyHash : Image → Nat
opaque deviceKey : Nat

/-- Codes that a record or an answer carries for things the spec names and does not number, in the order it lists them
(notes/assumptions/54.md): the kind of a refused non-volatile commit, the failing check of an image or a section, and the
cause of a management restart. -/
opaque commitKind : Nat → BitVec 32
opaque checkCode : Nat → BitVec 32
opaque restartCause : Nat → BitVec 32

end Config
end Sys2Proof
end

