-- ==== Sys2Proof/Machine/Formats.lean ====
section
/-! DEFINITION. Machine/Formats.lean: the element formats, exact values, rounding, conversion and the arithmetic of
the 16-lane unit and of the banks (R126, R182, R200 to R206, R256). -/
namespace Sys2Proof.Machine

/-- An exact value: (−1)^neg × m × 2^e, an infinity or a NaN. -/
inductive Val where
  | num (neg : Bool) (m : Nat) (e : Int)
  | inf (neg : Bool)
  | nan (neg : Bool)
  deriving DecidableEq, Repr

/-- A floating layout of Table 6.4; `ieee`: exponent all ones is infinity or NaN; `e4m3`: NaN only at S.1111.111. -/
structure FloatSpec where
  eb   : Nat
  mb   : Nat
  bias : Nat
  ieee : Bool
  e4m3 : Bool := false
  deriving DecidableEq, Repr

/-- The kinds of element format: unsigned, signed, floating, MX (element layout or none for MXINT8, element bits, emax
and bytes of a block's element area). -/
inductive Fmt where
  | uint (w : Nat)
  | sint (w : Nat)
  | flt (f : FloatSpec)
  | mx (f : Option FloatSpec) (w : Nat) (emax : Nat) (area : Nat)
  deriving DecidableEq, Repr

def fp64 : FloatSpec := { eb := 11, mb := 52, bias := 1023, ieee := true }
def fp32 : FloatSpec := { eb := 8, mb := 23, bias := 127, ieee := true }
def fp16 : FloatSpec := { eb := 5, mb := 10, bias := 15, ieee := true }
def bf16 : FloatSpec := { eb := 8, mb := 7, bias := 127, ieee := true }
def fe4m3 : FloatSpec := { eb := 4, mb := 3, bias := 7, ieee := false, e4m3 := true }
def fe5m2 : FloatSpec := { eb := 5, mb := 2, bias := 15, ieee := true }
def fe3m2 : FloatSpec := { eb := 3, mb := 2, bias := 3, ieee := false }
def fe2m3 : FloatSpec := { eb := 2, mb := 3, bias := 1, ieee := false }
def fe2m1 : FloatSpec := { eb := 2, mb := 1, bias := 1, ieee := false }

/-- Element format codes (Table 4.11). -/
def fmtOf? (code : Nat) : Option Fmt :=
  match code with
  | 0x00 => some (.uint 8)
  | 0x01 => some (.uint 16)
  | 0x02 => some (.uint 32)
  | 0x03 => some (.uint 64)
  | 0x04 => some (.sint 8)
  | 0x05 => some (.sint 16)
  | 0x06 => some (.sint 32)
  | 0x07 => some (.sint 64)
  | 0x08 => some (.flt fp64)
  | 0x09 => some (.flt fp32)
  | 0x0A => some (.flt fp16)
  | 0x0B => some (.flt bf16)
  | 0x0C => some (.flt fe4m3)
  | 0x0D => some (.flt fe5m2)
  | 0x10 => some (.mx (some fe4m3) 8 8 32)
  | 0x11 => some (.mx (some fe5m2) 8 15 32)
  | 0x12 => some (.mx (some fe3m2) 6 4 24)
  | 0x13 => some (.mx (some fe2m3) 6 2 24)
  | 0x14 => some (.mx (some fe2m1) 4 2 16)
  | 0x15 => some (.mx none 8 0 32)
  | _ => none

/-- The format of a code; FP32 where the code is reserved (no use reaches it: the issue checks refuse it, R130). -/
def fmtOf (code : Nat) : Fmt := (fmtOf? code).getD (.flt fp32)

/-- Bytes of an element; 1 for an MX format, whose elements are packed (R166). -/
def Fmt.size : Fmt → Nat
  | .uint w => w / 8
  | .sint w => w / 8
  | .flt f => (1 + f.eb + f.mb) / 8
  | .mx _ _ _ _ => 1

def Fmt.isMx : Fmt → Bool
  | .mx _ _ _ _ => true
  | _ => false

def Fmt.isInt : Fmt → Bool
  | .uint _ => true
  | .sint _ => true
  | _ => false

/-! ### Decoding -/

/-- The value of a floating code word. -/
def decodeFloat (f : FloatSpec) (x : Nat) : Val :=
  let frac := x % 2 ^ f.mb
  let ex := x / 2 ^ f.mb % 2 ^ f.eb
  let neg := x / 2 ^ (f.mb + f.eb) % 2 = 1
  if f.ieee ∧ ex = 2 ^ f.eb - 1 then (if frac = 0 then .inf neg else .nan neg)
  else if f.e4m3 ∧ ex = 15 ∧ frac = 7 then .nan neg
  else if ex = 0 then .num neg frac (1 - f.bias - f.mb)
  else .num neg (2 ^ f.mb + frac) (ex - f.bias - f.mb)

/-- The value of a signed integer code word of width w. -/
def decodeSint (w x : Nat) : Val :=
  if x < 2 ^ (w - 1) then .num false x 0 else .num true (2 ^ w - x) 0

/-- The value of an element code word, of any format but MX. -/
def decode (f : Fmt) (x : Nat) : Val :=
  match f with
  | .uint _ => .num false x 0
  | .sint w => decodeSint w x
  | .flt g => decodeFloat g x
  | .mx _ _ _ _ => .num false 0 0

/-- Multiply a value by a power of two. -/
def Val.scale (v : Val) (k : Int) : Val :=
  match v with
  | .num n m e => .num n m (e + k)
  | v => v

/-- The value of element code `x` of an MX block with scale byte `sc` (R201). The sign of the NaN that a block with scale
0xFF decodes to is a free value by the element's code (notes/assumptions/142.md). -/
def decodeMx (f : Option FloatSpec) (sc x : Nat) : Val :=
  if sc = 0xFF then .nan (Config.mxNanSign x)
  else
    match f with
    | some g => (decodeFloat g x).scale (sc - 127)
    | none => (decodeSint 8 x).scale (sc - 127 - 6)

/-! ### Rounding and encoding -/

/-- The multiple of 2^q that m × 2^e rounds to: to nearest even, or by 16 random bits (R205, R206). -/
def roundMag (rnd : Option Nat) (m : Nat) (e q : Int) : Nat :=
  if q ≤ e then m * 2 ^ (e - q).toNat
  else
    let k := (q - e).toNat
    let lo := m / 2 ^ k
    let r := m % 2 ^ k
    match rnd with
    | none => if 2 ^ k < 2 * r ∨ (2 * r = 2 ^ k ∧ lo % 2 = 1) then lo + 1 else lo
    | some bits => if 65536 ≤ r * 65536 / 2 ^ k + bits then lo + 1 else lo

/-- floor(log2) of a non-zero magnitude. -/
def magExp (m : Nat) (e : Int) : Int := e + Nat.log2 m

/-- Code of the largest finite magnitude, of infinity, and of the canonical NaN, without the sign (R200). -/
def FloatSpec.maxCode (f : FloatSpec) : Nat :=
  if f.ieee then (2 ^ f.eb - 1) * 2 ^ f.mb - 1 else if f.e4m3 then 0x7E else 2 ^ (f.eb + f.mb) - 1
def FloatSpec.infCode (f : FloatSpec) : Nat := (2 ^ f.eb - 1) * 2 ^ f.mb
def FloatSpec.nanCode (f : FloatSpec) : Nat :=
  if f.ieee then (2 ^ f.eb - 1) * 2 ^ f.mb + 2 ^ (f.mb - 1) else 0x7F

/-- Round a magnitude into a floating format: the code without its sign, before overflow is judged. -/
def floatCode (f : FloatSpec) (rnd : Option Nat) (m : Nat) (e : Int) : Nat :=
  if m = 0 then 0
  else
    let q : Int := max (magExp m e) (1 - f.bias) - f.mb
    let n := roundMag rnd m e q
    if n < 2 ^ f.mb then n
    else if n < 2 ^ (f.mb + 1) then (q + f.mb + f.bias).toNat * 2 ^ f.mb + (n - 2 ^ f.mb)
    else (q + 1 + f.mb + f.bias).toNat * 2 ^ f.mb

/-- Encode a value into a floating format with infinity or NaN handling by `WRAP` (Table 6.5). -/
def encodeFloat (f : FloatSpec) (rnd : Option Nat) (wrap : Bool) (v : Val) : Nat :=
  let sg (n : Bool) := b2n n * 2 ^ (f.eb + f.mb)
  match v with
  | .nan n => sg n + f.nanCode
  | .inf n => sg n + (if f.ieee then f.infCode else if wrap then f.nanCode else f.maxCode)
  | .num n m e =>
    let c := floatCode f rnd m e
    sg n + (if c ≤ f.maxCode then c
      else if wrap then (if f.ieee then f.infCode else f.nanCode) else f.maxCode)

/-- Encode a value into an integer format of width w (Table 6.5). -/
def encodeInt (w : Nat) (signed : Bool) (rnd : Option Nat) (wrap : Bool) (v : Val) : Nat :=
  let hi : Int := if signed then 2 ^ (w - 1) - 1 else 2 ^ w - 1
  let lo : Int := if signed then -(2 ^ (w - 1)) else 0
  let out (z : Int) : Nat := (z % (2 ^ w : Int)).toNat
  match v with
  | .nan _ => 0
  | .inf n => out (if n then lo else hi)
  | .num n m e =>
    let k : Int := roundMag rnd m e 0
    let z : Int := if n then -k else k
    if lo ≤ z ∧ z ≤ hi then out z else if wrap then out z else out (if z < lo then lo else hi)

/-- Convert an exact value into any format but MX (R203). -/
def encode (f : Fmt) (rnd : Option Nat) (wrap : Bool) (v : Val) : Nat :=
  match f with
  | .uint w => encodeInt w false rnd wrap v
  | .sint w => encodeInt w true rnd wrap v
  | .flt g => encodeFloat g rnd wrap v
  | .mx _ _ _ _ => 0

/-- An MX element: rounded and saturated to its largest finite magnitude; an MXINT8 element lies in −128 to 127. -/
def encodeMxElem (f : Option FloatSpec) (rnd : Option Nat) (v : Val) : Nat :=
  match f with
  | some g => encodeFloat g rnd false v
  | none => encodeInt 8 true rnd false (v.scale 6)

/-- The largest exponent floor(log2 |v|) among the finite non-zero values. -/
def maxExp : List Val → Option Int
  | [] => none
  | .num _ m e :: t =>
    if m = 0 then maxExp t
    else match maxExp t with
      | none => some (magExp m e)
      | some k => some (max k (magExp m e))
  | _ :: t => maxExp t

def Val.isFinite : Val → Bool
  | .num _ _ _ => true
  | _ => false

/-- Encode a block of values into an MX format: the scale byte and the element codes (R204). -/
def encodeMx (f : Option FloatSpec) (emax : Nat) (rnd : Nat → Option Nat) (vs : List Val) : Nat × List Nat :=
  if vs.all (·.isFinite) = false then (0xFF, vs.map fun _ => 0)
  else
    match maxExp vs with
    | none => (0, vs.zipIdx.map fun p => encodeMxElem f (rnd p.2) p.1)
    | some k =>
      let x : Int := max 0 (min 254 (k - emax + 127))
      (x.toNat, vs.zipIdx.map fun p => encodeMxElem f (rnd p.2) (p.1.scale (127 - x)))

/-! ### Arithmetic (R182, R256) -/

def Val.neg? : Val → Bool
  | .num n _ _ => n
  | .inf n => n
  | .nan n => n

/-- The exact sum. A NaN operand gives a NaN with the sign of the first (R200). -/
def Val.add (a b : Val) : Val :=
  match a, b with
  | .nan n, _ => .nan n
  | _, .nan n => .nan n
  | .inf n, .inf k => if n = k then .inf n else .nan Config.invalidSign
  | .inf n, _ => .inf n
  | _, .inf n => .inf n
  | .num n m e, .num k p d =>
    let q := min e d
    let x : Int := m * 2 ^ (e - q).toNat
    let y : Int := p * 2 ^ (d - q).toNat
    let z := (if n then -x else x) + (if k then -y else y)
    if z = 0 then .num (n && k) 0 q else .num (z < 0) z.natAbs q

/-- The exact product. -/
def Val.mul (a b : Val) : Val :=
  match a, b with
  | .nan n, _ => .nan n
  | _, .nan n => .nan n
  | .inf n, .num k p _ => if p = 0 then .nan Config.invalidSign else .inf (n != k)
  | .num n m _, .inf k => if m = 0 then .nan Config.invalidSign else .inf (n != k)
  | .inf n, .inf k => .inf (n != k)
  | .num n m e, .num k p d => .num (n != k) (m * p) (e + d)

/-- a < b, with −0 less than +0; NaNs compare false. -/
def Val.lt (a b : Val) : Bool :=
  match a, b with
  | .nan _, _ => false
  | _, .nan _ => false
  | .inf n, .inf k => n && !k
  | .inf n, _ => n
  | _, .inf k => !k
  | .num n m e, .num k p d =>
    let q := min e d
    let x : Int := m * 2 ^ (e - q).toNat
    let y : Int := p * 2 ^ (d - q).toNat
    let x := if n then -x else x
    let y := if k then -y else y
    x < y || (x = y && n && !k)

/-- The minimum or maximum; a NaN operand is ignored; two give a NaN with the sign of the first (R256, R200). -/
def Val.min (a b : Val) : Val :=
  match a, b with
  | .nan n, .nan _ => .nan n
  | .nan _, b => b
  | a, .nan _ => a
  | a, b => if b.lt a then b else a
def Val.max (a b : Val) : Val :=
  match a, b with
  | .nan n, .nan _ => .nan n
  | .nan _, b => b
  | a, .nan _ => a
  | a, b => if a.lt b then b else a

/-- Round a value to a floating format with overflow to infinity, and read it back (R182). -/
def Val.rnd (f : FloatSpec) (v : Val) : Val := decodeFloat f (encodeFloat f none true v)

/-- The quotient by a positive count, with enough bits and a sticky bit that rounding to `f` is exact (R188). -/
def Val.divNat (v : Val) (k : Nat) : Val :=
  match v with
  | .num n m e =>
    let t := m * 2 ^ 128
    .num n (2 * (t / k) + (if t % k = 0 then 0 else 1)) (e - 129)
  | v => v

/-- Bits of a value in its own format, as the 64-bit image an accumulator line holds (R260). -/
def f32of (v : Val) : Nat := encodeFloat fp32 none true v
def valOf32 (x : Nat) : Val := decodeFloat fp32 x

end Sys2Proof.Machine
end

