-- ==== Sys2Proof/Machine/Registers.lean ====
section
/-! DEFINITION. Machine/Registers.lean: the register map of the spec (Table 20.6, Table 20.7 and the register tables
of every chapter): blocks, registers with their access masks and reset values, and one name per field. -/
namespace Sys2Proof.Machine

/-- A field of a register: the register's address and the field's bits [hi:lo]. -/
structure Fld where
  addr : Nat
  hi   : Nat
  lo   : Nat
  deriving DecidableEq, Repr

/-- Registers of one layout in a block: `count` of them from `off`, `stride` apart, with the masks of the access
codes of Table 0.3 (`w1cCount`: a W1C count cleared whole) and the reset value. Bits in no mask are RO or reserved. -/
structure RegSpec where
  off      : Nat
  stride   : Nat
  count    : Nat
  rw       : Word := 0
  w1c      : Word := 0
  w1cCount : Word := 0
  st       : Word := 0
  wo       : Word := 0
  reset    : Word := 0
  deriving DecidableEq, Repr

/-- The reset domains that hold register blocks (Table 20.6). -/
inductive BlkDomain where
  | auxiliary | transit | half | paddock | ofUnit | doorbell
  deriving DecidableEq, Repr

/-- One row of Table 20.6. `gate`: `GATE_CTL` and `GATE_BELL`; `signed`: commits only through Crook (R591);
`ident`: it carries `BLOCK_ID` and `BLOCK_CAPS` (R592, R596). -/
structure Blk where
  kind      : Nat
  instances : Nat
  base      : Nat
  domain    : BlkDomain
  gate      : Bool
  signed    : Bool
  ident     : Bool
  regs      : List RegSpec
  deriving DecidableEq, Repr

/-! ### Blocks (Table 20.6) -/

/-- Registers of block start. -/
def startRegs : List RegSpec := [
  { off := 0x10, stride := 0x0, count := 1 },
  { off := 0x18, stride := 0x0, count := 1 },
  { off := 0x20, stride := 0x0, count := 1 },
  { off := 0x28, stride := 0x0, count := 1, rw := 0x7C7F000000000000, wo := 0x8000000000000000 }]

def startBlk : Blk :=
  { kind := 0x0001, instances := 1, base := 0x030000000000, domain := .auxiliary, gate := false, signed := false, ident := true,
    regs := startRegs }

/-- Registers of block recorder. -/
def recorderRegs : List RegSpec := [
  { off := 0x10, stride := 0x0, count := 1, rw := 0x3000000000000000, w1c := 0x800000000000, wo := 0xC000000000000000 },
  { off := 0x18, stride := 0x0, count := 1, rw := 0xFFFFFFFFFFFFFFFF },
  { off := 0x20, stride := 0x0, count := 1, reset := 0x1 },
  { off := 0x28, stride := 0x0, count := 1, reset := 0x1 },
  { off := 0x30, stride := 0x0, count := 1 },
  { off := 0x38, stride := 0x0, count := 1, st := 0x8000000000000000 },
  { off := 0x40, stride := 0x0, count := 1, rw := 0xFFFFFFFF },
  { off := 0x48, stride := 0x0, count := 1, rw := 0xFFFF },
  { off := 0x50, stride := 0x0, count := 1, rw := 0xFFFF000000000000, reset := 0x1040000000000000 },
  { off := 0x58, stride := 0x0, count := 1, rw := 0xFFFFFFFFFFFFF, wo := 0x8000000000000000 },
  { off := 0x60, stride := 0x0, count := 1, rw := 0xFFFFFFFFFFFFFFFF },
  { off := 0x68, stride := 0x0, count := 1 }]

def recorderBlk : Blk :=
  { kind := 0x0002, instances := 1, base := 0x030000001000, domain := .auxiliary, gate := true, signed := true, ident := true,
    regs := recorderRegs }

/-- Registers of block logwin: a data window, served by address (R596, R597, R575). -/
def logwinRegs : List RegSpec := []

def logwinBlk : Blk :=
  { kind := 0x0000, instances := 1, base := 0x030000002000, domain := .auxiliary, gate := false, signed := false, ident := false,
    regs := logwinRegs }

/-- Registers of block errunit. -/
def errunitRegs : List RegSpec := [
  { off := 0x10, stride := 0x0, count := 1, w1c := 0x800000000000 },
  { off := 0x18, stride := 0x0, count := 1, wo := 0xFFFFFFFF },
  { off := 0x20, stride := 0x8, count := 4 }]

def errunitBlk : Blk :=
  { kind := 0x0004, instances := 4, base := 0x030000003000, domain := .ofUnit, gate := false, signed := false, ident := true,
    regs := errunitRegs }

/-- Registers of block crook. -/
def crookRegs : List RegSpec := [
  { off := 0x10, stride := 0x0, count := 1 },
  { off := 0x18, stride := 0x0, count := 1 },
  { off := 0x20, stride := 0x8, count := 4 },
  { off := 0x40, stride := 0x0, count := 1 }]

def crookBlk : Blk :=
  { kind := 0x0005, instances := 1, base := 0x030000007000, domain := .auxiliary, gate := false, signed := false, ident := true,
    regs := crookRegs }

/-- Registers of block power. -/
def powerRegs : List RegSpec := [
  { off := 0x10, stride := 0x0, count := 1, w1c := 0x40000000000000 },
  { off := 0x18, stride := 0x0, count := 1, rw := 0x7800000000000000, wo := 0x8000000000000000 },
  { off := 0x20, stride := 0x0, count := 1, rw := 0xFFFFFFFFFFFFFFFF },
  { off := 0x28, stride := 0x0, count := 1 },
  { off := 0x40, stride := 0x8, count := 4, rw := 0xE000000000000000, w1c := 0x200000000000000 },
  { off := 0x100, stride := 0x8, count := 14 }]

def powerBlk : Blk :=
  { kind := 0x0006, instances := 1, base := 0x030000008000, domain := .auxiliary, gate := false, signed := false, ident := true,
    regs := powerRegs }

/-- Registers of block tally. -/
def tallyRegs : List RegSpec := [
  { off := 0x10, stride := 0x0, count := 1 },
  { off := 0x18, stride := 0x0, count := 1, rw := 0x7C00FF007F000000, wo := 0x8000000000000000 },
  { off := 0x20, stride := 0x8, count := 2 },
  { off := 0x400, stride := 0x8, count := 128, reset := 0x8000000000000000 }]

def tallyBlk : Blk :=
  { kind := 0x0007, instances := 1, base := 0x030000009000, domain := .auxiliary, gate := false, signed := false, ident := true,
    regs := tallyRegs }

/-- Registers of block walker. -/
def walkerRegs : List RegSpec := [
  { off := 0x10, stride := 0x0, count := 1, rw := 0xFFFFFFFFFFFFF000 },
  { off := 0x18, stride := 0x0, count := 1, rw := 0xF00000000000FFFF },
  { off := 0x20, stride := 0x0, count := 1, rw := 0xFFFFFFFF0003 },
  { off := 0x28, stride := 0x0, count := 1, rw := 0xFFFFFFFFFFFFFFFF },
  { off := 0x30, stride := 0x0, count := 1, rw := 0x78000FFFFFFFFFFF, wo := 0x8000000000000000 },
  { off := 0x38, stride := 0x0, count := 1, rw := 0xFFFFFFFF0000 },
  { off := 0x40, stride := 0x0, count := 1, rw := 0xF000000FFFFFFFF, wo := 0x8000000000000000 },
  { off := 0x48, stride := 0x0, count := 1, rw := 0xFFFFFFFFFFFFFFFF },
  { off := 0x50, stride := 0x0, count := 1, rw := 0xFFFFFFFF0000 },
  { off := 0x58, stride := 0x0, count := 1, rw := 0x7C00000000000000, wo := 0x8000000000000000 },
  { off := 0x60, stride := 0x0, count := 1 }]

def walkerBlk : Blk :=
  { kind := 0x0008, instances := 1, base := 0x03000000A000, domain := .auxiliary, gate := false, signed := false, ident := true,
    regs := walkerRegs }

/-- Registers of block mailbox. -/
def mailboxRegs : List RegSpec := [
  { off := 0x10, stride := 0x0, count := 1 },
  { off := 0x180, stride := 0x100, count := 8, rw := 0x1F00000000000000, w1c := 0x80000000000000, wo := 0xC000000000000000, reset := 0x1000000000000000 },
  { off := 0x188, stride := 0x100, count := 8 }]

def mailboxBlk : Blk :=
  { kind := 0x0009, instances := 8, base := 0x030000010000, domain := .auxiliary, gate := false, signed := false, ident := true,
    regs := mailboxRegs }

/-- Registers of block doorbell: a data window, served by address (R596, R597, R575). -/
def doorbellRegs : List RegSpec := []

def doorbellBlk : Blk :=
  { kind := 0x0000, instances := 16, base := 0x030000020000, domain := .doorbell, gate := false, signed := false, ident := false,
    regs := doorbellRegs }

/-- Registers of block transit. -/
def transitRegs : List RegSpec := [
  { off := 0x10, stride := 0x0, count := 1, w1c := 0xF00000000, reset := 0xF000000000 }]

def transitBlk : Blk :=
  { kind := 0x0010, instances := 1, base := 0x030000100000, domain := .transit, gate := false, signed := false, ident := true,
    regs := transitRegs }

/-- Registers of block bell. -/
def bellRegs : List RegSpec := [
  { off := 0x10, stride := 0x0, count := 1, rw := 0x3000000000000000, w1c := 0x800000000000, wo := 0xC000000000000000 },
  { off := 0x18, stride := 0x0, count := 1, rw := 0xFFFFFFFFFFFFFFFF },
  { off := 0x20, stride := 0x0, count := 1 },
  { off := 0x28, stride := 0x0, count := 1, reset := 0x7C0000000000000 },
  { off := 0x30, stride := 0x0, count := 1, st := 0xC00000000000FFFF },
  { off := 0x100, stride := 0x8, count := 16, w1cCount := 0xFF00000000 }]

def bellBlk : Blk :=
  { kind := 0x0011, instances := 1, base := 0x030000101000, domain := .transit, gate := true, signed := true, ident := true,
    regs := bellRegs }

/-- Registers of block optical. -/
def opticalRegs : List RegSpec := [
  { off := 0x10, stride := 0x0, count := 1, rw := 0x3000000000000000, w1c := 0x800000000000, wo := 0xC000000000000000 },
  { off := 0x18, stride := 0x0, count := 1, rw := 0xFFFFFFFFFFFFFFFF },
  { off := 0x20, stride := 0x0, count := 1, st := 0xF000000000000000, reset := 0xF00000000000000 },
  { off := 0x28, stride := 0x0, count := 1, rw := 0x7FF8000000000000, wo := 0x8000000000000000 },
  { off := 0x30, stride := 0x8, count := 4, reset := 0x1000000000000000 },
  { off := 0x100, stride := 0x8, count := 16, reset := 0x800000 },
  { off := 0x180, stride := 0x8, count := 16, w1cCount := 0xFFFF0000 }]

def opticalBlk : Blk :=
  { kind := 0x0012, instances := 1, base := 0x030000102000, domain := .transit, gate := true, signed := false, ident := true,
    regs := opticalRegs }

/-- Registers of block fabric. -/
def fabricRegs : List RegSpec := [
  { off := 0x10, stride := 0x0, count := 1, rw := 0x3000000000000000, w1c := 0x800000000000, wo := 0xC000000000000000 },
  { off := 0x18, stride := 0x0, count := 1, rw := 0xFFFFFFFFFFFFFFFF },
  { off := 0x20, stride := 0x0, count := 1 },
  { off := 0x28, stride := 0x0, count := 1, st := 0xF800000000000000 },
  { off := 0x30, stride := 0x0, count := 1 },
  { off := 0x38, stride := 0x0, count := 1 },
  { off := 0x40, stride := 0x0, count := 1 },
  { off := 0x48, stride := 0x0, count := 1 },
  { off := 0x50, stride := 0x0, count := 1 },
  { off := 0x58, stride := 0x0, count := 1 },
  { off := 0x60, stride := 0x0, count := 1 }]

def fabricBlk : Blk :=
  { kind := 0x0013, instances := 1, base := 0x030000103000, domain := .transit, gate := true, signed := false, ident := true,
    regs := fabricRegs }

/-- Registers of block muster. -/
def musterRegs : List RegSpec := [
  { off := 0x10, stride := 0x0, count := 1, rw := 0x3000000000000000, w1c := 0x800000000000, wo := 0xC000000000000000 },
  { off := 0x18, stride := 0x0, count := 1, rw := 0xFFFFFFFFFFFFFFFF },
  { off := 0x20, stride := 0x0, count := 1, rw := 0xFFFFFFFF00000000, reset := 0x201080000000000 },
  { off := 0x28, stride := 0x0, count := 1, rw := 0x7FC0000000000000, wo := 0x8000000000000000 },
  { off := 0x30, stride := 0x0, count := 1 },
  { off := 0x38, stride := 0x0, count := 1 },
  { off := 0x400, stride := 0x20, count := 64, st := 0xFFFFFCFFFFFFFFFF },
  { off := 0x408, stride := 0x20, count := 64, st := 0xFF00FFFFFFFFFF80 },
  { off := 0x410, stride := 0x20, count := 64, st := 0xFFFFFFFF00000000 }]

def musterBlk : Blk :=
  { kind := 0x0014, instances := 1, base := 0x030000104000, domain := .transit, gate := true, signed := false, ident := true,
    regs := musterRegs }

/-- Registers of block fabtable: a data window, served by address (R596, R597, R575). -/
def fabtableRegs : List RegSpec := []

def fabtableBlk : Blk :=
  { kind := 0x0000, instances := 134, base := 0x030000110000, domain := .transit, gate := false, signed := false, ident := false,
    regs := fabtableRegs }

/-- Registers of block range. -/
def rangeRegs : List RegSpec := [
  { off := 0x10, stride := 0x0, count := 1, rw := 0xFFFFFFFFFF80 },
  { off := 0x18, stride := 0x0, count := 1, rw := 0xFFFFFFFFFFFFFFFF },
  { off := 0x20, stride := 0x0, count := 1, rw := 0x700000000000000, wo := 0x8000000000000000 },
  { off := 0x28, stride := 0x0, count := 1 },
  { off := 0x30, stride := 0x0, count := 1 }]

def rangeBlk : Blk :=
  { kind := 0x0020, instances := 2, base := 0x030000200000, domain := .half, gate := false, signed := false, ident := true,
    regs := rangeRegs }

/-- Registers of block stack. -/
def stackRegs : List RegSpec := [
  { off := 0x10, stride := 0x0, count := 1 },
  { off := 0x18, stride := 0x0, count := 1 },
  { off := 0x20, stride := 0x0, count := 1 },
  { off := 0x28, stride := 0x8, count := 2 },
  { off := 0x38, stride := 0x8, count := 2 },
  { off := 0x48, stride := 0x8, count := 2 },
  { off := 0x58, stride := 0x0, count := 1 },
  { off := 0x60, stride := 0x0, count := 1, rw := 0x703F000000000000, wo := 0x8000000000000000 },
  { off := 0x68, stride := 0x0, count := 1 },
  { off := 0x70, stride := 0x0, count := 1 },
  { off := 0x78, stride := 0x0, count := 1 },
  { off := 0x80, stride := 0x0, count := 1 }]

def stackBlk : Blk :=
  { kind := 0x0021, instances := 8, base := 0x030000210000, domain := .half, gate := false, signed := false, ident := true,
    regs := stackRegs }

/-- Registers of block drover. -/
def droverRegs : List RegSpec := [
  { off := 0x10, stride := 0x10, count := 8, w1c := 0xFFFF00 },
  { off := 0x18, stride := 0x10, count := 8, wo := 0xFF00 }]

def droverBlk : Blk :=
  { kind := 0x0030, instances := 16, base := 0x030000300000, domain := .paddock, gate := false, signed := false, ident := true,
    regs := droverRegs }

/-- Registers of block penFold. -/
def penFoldRegs : List RegSpec := [
  { off := 0x10, stride := 0x0, count := 1, rw := 0x3000000000000000, w1c := 0x800000000000, wo := 0xC000000000000000 },
  { off := 0x18, stride := 0x0, count := 1, rw := 0xFFFFFFFFFFFFFFFF },
  { off := 0x20, stride := 0x0, count := 1, st := 0x801F0F000000FFFF },
  { off := 0x28, stride := 0x0, count := 1 },
  { off := 0x30, stride := 0x0, count := 1 },
  { off := 0x38, stride := 0x0, count := 1 },
  { off := 0x40, stride := 0x0, count := 1 },
  { off := 0x48, stride := 0x0, count := 1 },
  { off := 0x50, stride := 0x0, count := 1 },
  { off := 0x58, stride := 0x0, count := 1 },
  { off := 0x60, stride := 0x0, count := 1 }]

def penFoldBlk : Blk :=
  { kind := 0x0031, instances := 16, base := 0x030000310000, domain := .paddock, gate := true, signed := false, ident := true,
    regs := penFoldRegs }

/-- Registers of block penXlat. -/
def penXlatRegs : List RegSpec := [
  { off := 0x10, stride := 0x0, count := 1, rw := 0x3000000000000000, w1c := 0x800000000000, wo := 0xC000000000000000 },
  { off := 0x18, stride := 0x0, count := 1, rw := 0xFFFFFFFFFFFFFFFF },
  { off := 0x20, stride := 0x0, count := 1 }]

def penXlatBlk : Blk :=
  { kind := 0x0032, instances := 16, base := 0x030000320000, domain := .paddock, gate := true, signed := false, ident := true,
    regs := penXlatRegs }

/-- Registers of block paddock. -/
def paddockRegs : List RegSpec := [
  { off := 0x10, stride := 0x0, count := 1, rw := 0x3000000000000000, w1c := 0x800000000000, wo := 0xC000000000000000 },
  { off := 0x18, stride := 0x0, count := 1, rw := 0xFFFFFFFFFFFFFFFF },
  { off := 0x20, stride := 0x0, count := 1, st := 0x8000FFFFFFFFF000 }]

def paddockBlk : Blk :=
  { kind := 0x0033, instances := 4, base := 0x030000330000, domain := .paddock, gate := true, signed := false, ident := true,
    regs := paddockRegs }

/-- Registers of block site. -/
def siteRegs : List RegSpec := [
  { off := 0x10, stride := 0x0, count := 1, rw := 0x3000000000000000, w1c := 0x800000000000, wo := 0xC000000000000000 },
  { off := 0x18, stride := 0x0, count := 1, rw := 0xFFFFFFFFFFFFFFFF },
  { off := 0x20, stride := 0x0, count := 1, w1c := 0x100000000000000 },
  { off := 0x28, stride := 0x0, count := 1 },
  { off := 0x30, stride := 0x0, count := 1 },
  { off := 0x38, stride := 0x0, count := 1 },
  { off := 0x40, stride := 0x0, count := 1, st := 0x80FFFFFF000000FF },
  { off := 0x48, stride := 0x0, count := 1, st := 0xFFFFFFFFFFFFFFFF },
  { off := 0x50, stride := 0x0, count := 1, rw := 0x7FC0000000000000, wo := 0x8000000000000000 },
  { off := 0x58, stride := 0x0, count := 1 },
  { off := 0x60, stride := 0x0, count := 1 },
  { off := 0x68, stride := 0x0, count := 1 },
  { off := 0x100, stride := 0x10, count := 32, st := 0xFCF0FFFFFFFFFF00 },
  { off := 0x108, stride := 0x10, count := 32, st := 0xFFFFFFFF0000 }]

def siteBlk : Blk :=
  { kind := 0x0034, instances := 4, base := 0x030000340000, domain := .paddock, gate := true, signed := false, ident := true,
    regs := siteRegs }

/-- Registers of block trace. -/
def traceRegs : List RegSpec := [
  { off := 0x10, stride := 0x0, count := 1, rw := 0xC0FFFFFF000001FE },
  { off := 0x18, stride := 0x0, count := 1 },
  { off := 0x20, stride := 0x0, count := 1, rw := 0xFFFFFFFF }]

def traceBlk : Blk :=
  { kind := 0x0040, instances := 1, base := 0x030000400000, domain := .transit, gate := false, signed := false, ident := true,
    regs := traceRegs }

/-- Registers of block debugCtr. -/
def debugCtrRegs : List RegSpec := [
  { off := 0x10, stride := 0x0, count := 1 },
  { off := 0x18, stride := 0x0, count := 1 },
  { off := 0x100, stride := 0x20, count := 8 },
  { off := 0x108, stride := 0x20, count := 8 },
  { off := 0x110, stride := 0x20, count := 8 },
  { off := 0x118, stride := 0x20, count := 8 }]

def debugCtrBlk : Blk :=
  { kind := 0x0041, instances := 16, base := 0x030000410000, domain := .paddock, gate := false, signed := false, ident := true,
    regs := debugCtrRegs }

/-- Table 20.6, in its order. -/
def blocks : List Blk := [startBlk, recorderBlk, logwinBlk, errunitBlk, crookBlk, powerBlk, tallyBlk, walkerBlk, mailboxBlk, doorbellBlk, transitBlk, bellBlk, opticalBlk, fabricBlk, musterBlk, fabtableBlk, rangeBlk, stackBlk, droverBlk, penFoldBlk, penXlatBlk, paddockBlk, siteBlk, traceBlk, debugCtrBlk]

/-- The block instance that holds an address, if one does (R594): the row and the instance. -/
def findBlk (a : Nat) : Option (Blk × Nat) :=
  (blocks.find? fun b => b.base ≤ a && a < b.base + 0x1000 * b.instances).map fun b => (b, (a - b.base) / 0x1000)

/-- The register of a block at an offset, if one lies there. -/
def findReg (regs : List RegSpec) (off : Nat) : Option RegSpec :=
  regs.find? fun r => r.off ≤ off && off < r.off + (if r.stride = 0 then 8 else r.stride * r.count) &&
    (r.stride = 0 || (off - r.off) % r.stride = 0)

/-- The mailbox data registers (R460), RW. -/
def mboxDataSpec : RegSpec :=
  { off := 0x100, stride := 8, count := 16, rw := 0xFFFFFFFFFFFFFFFF }

/-- The fabric table items (R597): Rota entries (Table 12.4), route bytes (Table 12.11) and stream words
(Table 12.5, Table 12.6), all ST. -/
def fabTableSpec (w off : Nat) : RegSpec :=
  { off := 0, stride := 8, count := 512,
    st := if w < 128 then 0x800FFFFFFFFF0000
      else if w < 132 then 0xF0F0F0F0F0F0F0F0
      else if w = 132 then (if off % 16 = 0 then 0xBFFFFFFFFFF0FFFF else 0xFFFFFFF0FFFFFFFF)
      else (if off % 16 = 0 then 0xFFFFFFFFFFFFE000 else 0xFFFF000000000000) }

/-- The specification of the register at an address, if one lies there. -/
def regSpec (a : Nat) : Option RegSpec :=
  match findBlk a with
  | none => none
  | some (b, i) =>
    let off := (a - b.base) % 0x1000
    if b.kind = 0x0009 ∧ 0x100 ≤ off ∧ off < 0x900 ∧ (off - 0x100) % 0x100 < 0x80 then some mboxDataSpec
    else if b.base = fabtableBlk.base then some (fabTableSpec i off)
    else findReg b.regs off

/-- The fixed bits of `MBOX_CTL_m` (Table 15.4, Table 15.6): `CLASS` system from mailbox 48, `OUTBOUND` for the
mailboxes whose receiver is a site. -/
def mboxFixed (m : Nat) : Word :=
  (if 48 ≤ m then 0x8000000000000 else 0) ||| (if (32 ≤ m ∧ m < 48) ∨ 60 ≤ m then 0x4000000000000 else 0)

/-- Reset value of the register at an address (the Reset columns); 0 where no register lies. -/
def regReset (a : Nat) : Word :=
  match findBlk a, regSpec a with
  | some (b, i), some r =>
    if b.kind = 0x0009 ∧ r.wo ≠ 0 then r.reset ||| mboxFixed (8 * i + ((a - b.base) % 0x1000 - 0x180) / 0x100) else r.reset
  | _, _ => 0

/-! ### Field names -/

def Fd.modStatusReady : Fld := ⟨0x30000000010, 63, 63⟩
def Fd.modStatusFallow : Fld := ⟨0x30000000010, 62, 62⟩
def Fd.modStatusStage : Fld := ⟨0x30000000010, 61, 58⟩
def Fd.modStatusStep : Fld := ⟨0x30000000010, 57, 50⟩
def Fd.modStatusAttempts : Fld := ⟨0x30000000010, 49, 48⟩
def Fd.modStatusQuickTest : Fld := ⟨0x30000000010, 47, 47⟩
def Fd.modStatusTestUpgraded : Fld := ⟨0x30000000010, 46, 46⟩
def Fd.modStatusZeroised : Fld := ⟨0x30000000010, 45, 45⟩
def Fd.modStatusHoldupOk : Fld := ⟨0x30000000010, 44, 44⟩
def Fd.modStatusStartMs : Fld := ⟨0x30000000010, 31, 0⟩
def Fd.startFailStage : Fld := ⟨0x30000000018, 63, 60⟩
def Fd.startFailStep : Fld := ⟨0x30000000018, 59, 52⟩
def Fd.startFailCode : Fld := ⟨0x30000000018, 51, 44⟩
def Fd.startCfgMemTest : Fld := ⟨0x30000000020, 63, 63⟩
def Fd.startCfgSeamForceBridged : Fld := ⟨0x30000000020, 62, 62⟩
def Fd.startCfgReserveStripe : Fld := ⟨0x30000000020, 61, 61⟩
def Fd.startCfgMapAge : Fld := ⟨0x30000000020, 31, 0⟩
def Fd.resetCmdGo : Fld := ⟨0x30000000028, 63, 63⟩
def Fd.resetCmdLevel : Fld := ⟨0x30000000028, 62, 60⟩
def Fd.resetCmdZeroise : Fld := ⟨0x30000000028, 59, 59⟩
def Fd.resetCmdForce : Fld := ⟨0x30000000028, 58, 58⟩
def Fd.resetCmdTarget : Fld := ⟨0x30000000028, 54, 48⟩
def Fd.resetCmdState : Fld := ⟨0x30000000028, 23, 20⟩
def Fd.resetCmdResult : Fld := ⟨0x30000000028, 19, 12⟩
def Fd.logEnd : Fld := ⟨0x30000001020, 31, 0⟩
def Fd.logFirst : Fld := ⟨0x30000001028, 31, 0⟩
def Fd.logStatusFull : Fld := ⟨0x30000001030, 63, 63⟩
def Fd.logStatusBufUsed : Fld := ⟨0x30000001030, 60, 48⟩
def Fd.logStatusBufDropped : Fld := ⟨0x30000001030, 47, 32⟩
def Fd.logStatusFullDropped : Fld := ⟨0x30000001030, 31, 0⟩
def Fd.logClear : Fld := ⟨0x30000001038, 63, 63⟩
def Fd.logWinSeq : Fld := ⟨0x30000001040, 31, 0⟩
def Fd.rateSel : Fld := ⟨0x30000001048, 15, 0⟩
def Fd.rateCfgRate : Fld := ⟨0x30000001050, 63, 56⟩
def Fd.rateCfgBurst : Fld := ⟨0x30000001050, 55, 48⟩
def Fd.rateCfgPending : Fld := ⟨0x30000001050, 47, 32⟩
def Fd.rateCfgSuppressed : Fld := ⟨0x30000001050, 31, 0⟩
def Fd.logFw0Go : Fld := ⟨0x30000001058, 63, 63⟩
def Fd.logFw0Result : Fld := ⟨0x30000001058, 62, 60⟩
def Fd.logFw0Sev : Fld := ⟨0x30000001058, 51, 48⟩
def Fd.logFw0Code : Fld := ⟨0x30000001058, 47, 32⟩
def Fd.logFw0P0 : Fld := ⟨0x30000001058, 31, 0⟩
def Fd.logFw1P2 : Fld := ⟨0x30000001060, 63, 32⟩
def Fd.logFw1P1 : Fld := ⟨0x30000001060, 31, 0⟩
def Fd.errStatusInService (i : Nat) : Fld := ⟨0x30000003010 + 0x1000 * i, 63, 63⟩
def Fd.errStatusSvcSev (i : Nat) : Fld := ⟨0x30000003010 + 0x1000 * i, 62, 60⟩
def Fd.errStatusQueued (i : Nat) : Fld := ⟨0x30000003010 + 0x1000 * i, 52, 48⟩
def Fd.errStatusAckMiss (i : Nat) : Fld := ⟨0x30000003010 + 0x1000 * i, 47, 47⟩
def Fd.errStatusLost (i : Nat) : Fld := ⟨0x30000003010 + 0x1000 * i, 31, 0⟩
def Fd.errAckSeq (i : Nat) : Fld := ⟨0x30000003018 + 0x1000 * i, 31, 0⟩
def Fd.errSvc (i n : Nat) : Fld := ⟨0x30000003020 + 0x1000 * i + 0x8 * n, 63, 0⟩
def Fd.secStatusLifecycle : Fld := ⟨0x30000007010, 63, 60⟩
def Fd.secStatusLevel : Fld := ⟨0x30000007010, 59, 58⟩
def Fd.secStatusScope : Fld := ⟨0x30000007010, 57, 52⟩
def Fd.secStatusZeroPending : Fld := ⟨0x30000007010, 51, 51⟩
def Fd.secStatusArbRebuilt : Fld := ⟨0x30000007010, 50, 50⟩
def Fd.secStatusPufOk : Fld := ⟨0x30000007010, 49, 49⟩
def Fd.secStatusRaised : Fld := ⟨0x30000007010, 48, 48⟩
def Fd.secStatusTokenKey : Fld := ⟨0x30000007010, 47, 44⟩
def Fd.secStatusTokenLeft : Fld := ⟨0x30000007010, 31, 0⟩
def Fd.secEpoch : Fld := ⟨0x30000007018, 31, 0⟩
def Fd.secArb (n : Nat) : Fld := ⟨0x30000007020 + 0x8 * n, 63, 0⟩
def Fd.secRefusalCmd : Fld := ⟨0x30000007040, 63, 48⟩
def Fd.secRefusalStatus : Fld := ⟨0x30000007040, 47, 40⟩
def Fd.pwrStatusState : Fld := ⟨0x30000008010, 63, 60⟩
def Fd.pwrStatusTarget : Fld := ⟨0x30000008010, 59, 56⟩
def Fd.pwrStatusMoving : Fld := ⟨0x30000008010, 55, 55⟩
def Fd.pwrStatusPfSeen : Fld := ⟨0x30000008010, 54, 54⟩
def Fd.pwrStatusVin : Fld := ⟨0x30000008010, 47, 32⟩
def Fd.pwrStatusPin : Fld := ⟨0x30000008010, 31, 16⟩
def Fd.pwrStatusPfCount : Fld := ⟨0x30000008010, 15, 0⟩
def Fd.pwrCmdGo : Fld := ⟨0x30000008018, 63, 63⟩
def Fd.pwrCmdTo : Fld := ⟨0x30000008018, 62, 60⟩
def Fd.pwrCmdAtBell : Fld := ⟨0x30000008018, 59, 59⟩
def Fd.pwrCmdState : Fld := ⟨0x30000008018, 23, 20⟩
def Fd.pwrCmdResult : Fld := ⟨0x30000008018, 19, 12⟩
def Fd.pwrBell : Fld := ⟨0x30000008020, 63, 0⟩
def Fd.holdupStatusOk : Fld := ⟨0x30000008028, 63, 63⟩
def Fd.holdupStatusStart : Fld := ⟨0x30000008028, 62, 62⟩
def Fd.holdupStatusCap : Fld := ⟨0x30000008028, 47, 32⟩
def Fd.holdupStatusEnergy : Fld := ⟨0x30000008028, 31, 16⟩
def Fd.holdupStatusRefused : Fld := ⟨0x30000008028, 15, 0⟩
def Fd.sitePwrFwLevel (n : Nat) : Fld := ⟨0x30000008040 + 0x8 * n, 63, 61⟩
def Fd.sitePwrLevel (n : Nat) : Fld := ⟨0x30000008040 + 0x8 * n, 60, 58⟩
def Fd.sitePwrClamped (n : Nat) : Fld := ⟨0x30000008040 + 0x8 * n, 57, 57⟩
def Fd.sitePwrHeld (n : Nat) : Fld := ⟨0x30000008040 + 0x8 * n, 56, 56⟩
def Fd.sitePwrLimit (n : Nat) : Fld := ⟨0x30000008040 + 0x8 * n, 47, 32⟩
def Fd.sitePwrPower (n : Nat) : Fld := ⟨0x30000008040 + 0x8 * n, 31, 16⟩
def Fd.sitePwrPeak (n : Nat) : Fld := ⟨0x30000008040 + 0x8 * n, 15, 0⟩
def Fd.thermZoneState (n : Nat) : Fld := ⟨0x30000008100 + 0x8 * n, 63, 62⟩
def Fd.thermZonePretrip (n : Nat) : Fld := ⟨0x30000008100 + 0x8 * n, 61, 61⟩
def Fd.thermZoneSensorFail (n : Nat) : Fld := ⟨0x30000008100 + 0x8 * n, 60, 60⟩
def Fd.thermZoneTemp (n : Nat) : Fld := ⟨0x30000008100 + 0x8 * n, 47, 32⟩
def Fd.thermZoneMax (n : Nat) : Fld := ⟨0x30000008100 + 0x8 * n, 31, 16⟩
def Fd.thermZoneChanges (n : Nat) : Fld := ⟨0x30000008100 + 0x8 * n, 15, 0⟩
def Fd.tallyStatusGeneration : Fld := ⟨0x30000009010, 63, 48⟩
def Fd.tallyStatusGrade : Fld := ⟨0x30000009010, 47, 40⟩
def Fd.tallyStatusBound : Fld := ⟨0x30000009010, 39, 32⟩
def Fd.tallyStatusReserves : Fld := ⟨0x30000009010, 31, 24⟩
def Fd.tallyStatusAbsent : Fld := ⟨0x30000009010, 23, 16⟩
def Fd.tallyStatusBelowGrade : Fld := ⟨0x30000009010, 15, 15⟩
def Fd.tallyCmdGo : Fld := ⟨0x30000009018, 63, 63⟩
def Fd.tallyCmdOp : Fld := ⟨0x30000009018, 62, 60⟩
def Fd.tallyCmdPaddockOnly : Fld := ⟨0x30000009018, 59, 59⟩
def Fd.tallyCmdExplicit : Fld := ⟨0x30000009018, 58, 58⟩
def Fd.tallyCmdLogical : Fld := ⟨0x30000009018, 47, 40⟩
def Fd.tallyCmdTarget : Fld := ⟨0x30000009018, 30, 24⟩
def Fd.tallyCmdState : Fld := ⟨0x30000009018, 23, 20⟩
def Fd.tallyCmdResult : Fld := ⟨0x30000009018, 19, 12⟩
def Fd.tallyReserve (d : Nat) : Fld := ⟨0x30000009020 + 8 * (d / 64), d % 64, d % 64⟩
def Fd.tallyEntryState (n : Nat) : Fld := ⟨0x30000009400 + 0x8 * n, 63, 62⟩
def Fd.tallyEntryGen (n : Nat) : Fld := ⟨0x30000009400 + 0x8 * n, 47, 32⟩
def Fd.tallyEntryPhysical (n : Nat) : Fld := ⟨0x30000009400 + 0x8 * n, 6, 0⟩
def Fd.xlatRingBase : Fld := ⟨0x3000000A010, 63, 12⟩
def Fd.xlatRingPtrSize : Fld := ⟨0x3000000A018, 63, 60⟩
def Fd.xlatRingPtrHead : Fld := ⟨0x3000000A018, 31, 16⟩
def Fd.xlatRingPtrTail : Fld := ⟨0x3000000A018, 15, 0⟩
def Fd.xlatFillVaPage : Fld := ⟨0x3000000A020, 47, 16⟩
def Fd.xlatFillVaSize : Fld := ⟨0x3000000A020, 1, 0⟩
def Fd.xlatFillLeaf : Fld := ⟨0x3000000A028, 63, 0⟩
def Fd.xlatReplyGo : Fld := ⟨0x3000000A030, 63, 63⟩
def Fd.xlatReplyOp : Fld := ⟨0x3000000A030, 62, 59⟩
def Fd.xlatReplyState : Fld := ⟨0x3000000A030, 55, 52⟩
def Fd.xlatReplyResult : Fld := ⟨0x3000000A030, 51, 44⟩
def Fd.xlatReplyPen : Fld := ⟨0x3000000A030, 43, 40⟩
def Fd.xlatReplyStatus : Fld := ⟨0x3000000A030, 39, 32⟩
def Fd.xlatReplyTicket : Fld := ⟨0x3000000A030, 31, 0⟩
def Fd.xlatShootVaPage : Fld := ⟨0x3000000A038, 47, 16⟩
def Fd.xlatShootCmdGo : Fld := ⟨0x3000000A040, 63, 63⟩
def Fd.xlatShootCmdPaddocks : Fld := ⟨0x3000000A040, 59, 56⟩
def Fd.xlatShootCmdState : Fld := ⟨0x3000000A040, 55, 52⟩
def Fd.xlatShootCmdResult : Fld := ⟨0x3000000A040, 51, 44⟩
def Fd.xlatShootCmdPages : Fld := ⟨0x3000000A040, 31, 0⟩
def Fd.xlatMigSrc : Fld := ⟨0x3000000A048, 63, 0⟩
def Fd.xlatMigDstFrame : Fld := ⟨0x3000000A050, 47, 16⟩
def Fd.xlatMigCmdGo : Fld := ⟨0x3000000A058, 63, 63⟩
def Fd.xlatMigCmdOp : Fld := ⟨0x3000000A058, 62, 60⟩
def Fd.xlatMigCmdSize : Fld := ⟨0x3000000A058, 59, 58⟩
def Fd.xlatMigCmdState : Fld := ⟨0x3000000A058, 55, 52⟩
def Fd.xlatMigCmdResult : Fld := ⟨0x3000000A058, 51, 44⟩
def Fd.xlatMigCmdRemoteStatus : Fld := ⟨0x3000000A058, 31, 16⟩
def Fd.xlatMigCmdPoisoned : Fld := ⟨0x3000000A058, 15, 0⟩
def Fd.xlatStatusOutstanding : Fld := ⟨0x3000000A060, 63, 48⟩
def Fd.xlatStatusRingStalls : Fld := ⟨0x3000000A060, 47, 32⟩
def Fd.mboxSummaryFull (i : Nat) : Fld := ⟨0x30000010010 + 0x1000 * i, 7, 0⟩
def Fd.mboxSummaryCollision (i : Nat) : Fld := ⟨0x30000010010 + 0x1000 * i, 15, 8⟩
def Fd.seamStatusMode : Fld := ⟨0x30000100010, 63, 63⟩
def Fd.seamStatusForced : Fld := ⟨0x30000100010, 62, 62⟩
def Fd.seamStatusFallback : Fld := ⟨0x30000100010, 61, 61⟩
def Fd.seamStatusIsolated : Fld := ⟨0x30000100010, 60, 60⟩
def Fd.seamStatusInService : Fld := ⟨0x30000100010, 39, 36⟩
def Fd.seamStatusErrSeen : Fld := ⟨0x30000100010, 35, 32⟩
def Fd.seamStatusFailed3 : Fld := ⟨0x30000100010, 31, 24⟩
def Fd.seamStatusFailed2 : Fld := ⟨0x30000100010, 23, 16⟩
def Fd.seamStatusFailed1 : Fld := ⟨0x30000100010, 15, 8⟩
def Fd.seamStatusFailed0 : Fld := ⟨0x30000100010, 7, 0⟩
def Fd.bellCount : Fld := ⟨0x30000101020, 63, 0⟩
def Fd.bellStatusState : Fld := ⟨0x30000101028, 63, 60⟩
def Fd.bellStatusSchedOk : Fld := ⟨0x30000101028, 59, 59⟩
def Fd.bellStatusHops : Fld := ⟨0x30000101028, 58, 54⟩
def Fd.bellStatusSource : Fld := ⟨0x30000101028, 53, 50⟩
def Fd.bellStatusBellwether : Fld := ⟨0x30000101028, 49, 36⟩
def Fd.bellStatusForeign : Fld := ⟨0x30000101028, 31, 24⟩
def Fd.bellStatusLost : Fld := ⟨0x30000101028, 23, 16⟩
def Fd.bellStatusPhase : Fld := ⟨0x30000101028, 15, 8⟩
def Fd.bellStatusOffset : Fld := ⟨0x30000101028, 7, 0⟩
def Fd.bellCfgRole : Fld := ⟨0x30000101030, 63, 62⟩
def Fd.bellCfgTakeover : Fld := ⟨0x30000101030, 15, 0⟩
def Fd.bellPortDelayValid (n : Nat) : Fld := ⟨0x30000101100 + 0x8 * n, 63, 63⟩
def Fd.bellPortDelayMissed (n : Nat) : Fld := ⟨0x30000101100 + 0x8 * n, 39, 32⟩
def Fd.bellPortDelayRoundTrip (n : Nat) : Fld := ⟨0x30000101100 + 0x8 * n, 31, 0⟩
def Fd.optStileForceThrough : Fld := ⟨0x30000102020, 63, 60⟩
def Fd.optStileThrough : Fld := ⟨0x30000102020, 59, 56⟩
def Fd.optStileMoving : Fld := ⟨0x30000102020, 55, 52⟩
def Fd.optCmdGo : Fld := ⟨0x30000102028, 63, 63⟩
def Fd.optCmdOp : Fld := ⟨0x30000102028, 62, 60⟩
def Fd.optCmdPort : Fld := ⟨0x30000102028, 59, 56⟩
def Fd.optCmdLane : Fld := ⟨0x30000102028, 55, 53⟩
def Fd.optCmdLaser : Fld := ⟨0x30000102028, 52, 51⟩
def Fd.optCmdState : Fld := ⟨0x30000102028, 23, 20⟩
def Fd.optCmdResult : Fld := ⟨0x30000102028, 19, 12⟩
def Fd.optLaserState (n : Nat) : Fld := ⟨0x30000102030 + 0x8 * n, 63, 60⟩
def Fd.optLaserOutOk (n : Nat) : Fld := ⟨0x30000102030 + 0x8 * n, 59, 52⟩
def Fd.optLaserOutLow (n : Nat) : Fld := ⟨0x30000102030 + 0x8 * n, 51, 44⟩
def Fd.optLaserTemp (n : Nat) : Fld := ⟨0x30000102030 + 0x8 * n, 31, 24⟩
def Fd.optLaserMinPower (n : Nat) : Fld := ⟨0x30000102030 + 0x8 * n, 23, 16⟩
def Fd.optPortState (n : Nat) : Fld := ⟨0x30000102100 + 0x8 * n, 63, 60⟩
def Fd.optPortLanesIn (n : Nat) : Fld := ⟨0x30000102100 + 0x8 * n, 59, 52⟩
def Fd.optPortMarginal (n : Nat) : Fld := ⟨0x30000102100 + 0x8 * n, 51, 44⟩
def Fd.optPortFarDevice (n : Nat) : Fld := ⟨0x30000102100 + 0x8 * n, 43, 30⟩
def Fd.optPortFarPort (n : Nat) : Fld := ⟨0x30000102100 + 0x8 * n, 29, 26⟩
def Fd.optPortBypass (n : Nat) : Fld := ⟨0x30000102100 + 0x8 * n, 25, 24⟩
def Fd.optPortRxMin (n : Nat) : Fld := ⟨0x30000102100 + 0x8 * n, 23, 16⟩
def Fd.optPortRetrains (n : Nat) : Fld := ⟨0x30000102100 + 0x8 * n, 15, 8⟩
def Fd.optPortErrCeRound (n : Nat) : Fld := ⟨0x30000102180 + 0x8 * n, 63, 32⟩
def Fd.optPortErrUe (n : Nat) : Fld := ⟨0x30000102180 + 0x8 * n, 31, 16⟩
def Fd.optPortErrLaneFails (n : Nat) : Fld := ⟨0x30000102180 + 0x8 * n, 15, 0⟩
def Fd.fabGeomSizeX : Fld := ⟨0x30000103020, 63, 60⟩
def Fd.fabGeomSizeY : Fld := ⟨0x30000103020, 59, 56⟩
def Fd.fabGeomSizeZ : Fld := ⟨0x30000103020, 55, 53⟩
def Fd.fabGeomSizeW : Fld := ⟨0x30000103020, 52, 50⟩
def Fd.fabGeomDevice : Fld := ⟨0x30000103020, 13, 0⟩
def Fd.fabSchedEn : Fld := ⟨0x30000103028, 63, 63⟩
def Fd.fabSchedPeriodLog2 : Fld := ⟨0x30000103028, 62, 59⟩
def Fd.fabStatusOutStreams : Fld := ⟨0x30000103030, 63, 55⟩
def Fd.fabStatusInStreams : Fld := ⟨0x30000103030, 54, 46⟩
def Fd.fabStatusWindows : Fld := ⟨0x30000103030, 45, 33⟩
def Fd.fabStatusSubst : Fld := ⟨0x30000103030, 32, 32⟩
def Fd.fabStatusLostSlots : Fld := ⟨0x30000103030, 31, 16⟩
def Fd.fabAdmitted : Fld := ⟨0x30000103038, 63, 0⟩
def Fd.fabRefused : Fld := ⟨0x30000103040, 63, 0⟩
def Fd.fabLate : Fld := ⟨0x30000103048, 63, 0⟩
def Fd.fabOrphans : Fld := ⟨0x30000103050, 63, 0⟩
def Fd.fabResent : Fld := ⟨0x30000103058, 63, 0⟩
def Fd.fabNoroute : Fld := ⟨0x30000103060, 63, 0⟩
def Fd.rmtLimitBulk : Fld := ⟨0x30000104020, 63, 56⟩
def Fd.rmtLimitSched : Fld := ⟨0x30000104020, 55, 48⟩
def Fd.rmtLimitReturn : Fld := ⟨0x30000104020, 47, 32⟩
def Fd.musterCmdGo : Fld := ⟨0x30000104028, 63, 63⟩
def Fd.musterCmdOp : Fld := ⟨0x30000104028, 62, 60⟩
def Fd.musterCmdGroup : Fld := ⟨0x30000104028, 59, 54⟩
def Fd.musterCmdState : Fld := ⟨0x30000104028, 23, 20⟩
def Fd.musterCmdResult : Fld := ⟨0x30000104028, 19, 12⟩
def Fd.musterReleases : Fld := ⟨0x30000104030, 63, 0⟩
def Fd.rmtTimeouts : Fld := ⟨0x30000104038, 63, 0⟩
def Fd.musterCfgEn (n : Nat) : Fld := ⟨0x30000104400 + 0x20 * n, 63, 63⟩
def Fd.musterCfgRoot (n : Nat) : Fld := ⟨0x30000104400 + 0x20 * n, 62, 62⟩
def Fd.musterCfgUpDevice (n : Nat) : Fld := ⟨0x30000104400 + 0x20 * n, 61, 48⟩
def Fd.musterCfgUpGroup (n : Nat) : Fld := ⟨0x30000104400 + 0x20 * n, 47, 42⟩
def Fd.musterCfgTen (n : Nat) : Fld := ⟨0x30000104400 + 0x20 * n, 39, 32⟩
def Fd.musterCfgStream (n : Nat) : Fld := ⟨0x30000104400 + 0x20 * n, 31, 24⟩
def Fd.musterCfgAlign (n : Nat) : Fld := ⟨0x30000104400 + 0x20 * n, 23, 16⟩
def Fd.musterCfgStep (n : Nat) : Fld := ⟨0x30000104400 + 0x20 * n, 15, 0⟩
def Fd.musterLineDown (n : Nat) : Fld := ⟨0x30000104408 + 0x20 * n, 63, 59⟩
def Fd.musterLineLocal (n : Nat) : Fld := ⟨0x30000104408 + 0x20 * n, 58, 56⟩
def Fd.musterLineLine (n : Nat) : Fld := ⟨0x30000104408 + 0x20 * n, 47, 7⟩
def Fd.musterStatTarget (n : Nat) : Fld := ⟨0x30000104410 + 0x20 * n, 63, 32⟩
def Fd.musterStatGen (n : Nat) : Fld := ⟨0x30000104410 + 0x20 * n, 31, 0⟩
def Fd.frangeBaseBase (i : Nat) : Fld := ⟨0x30000200010 + 0x1000 * i, 47, 7⟩
def Fd.frangeLen (i : Nat) : Fld := ⟨0x30000200018 + 0x1000 * i, 63, 0⟩
def Fd.frangeCmdGo (i : Nat) : Fld := ⟨0x30000200020 + 0x1000 * i, 63, 63⟩
def Fd.frangeCmdOp (i : Nat) : Fld := ⟨0x30000200020 + 0x1000 * i, 58, 56⟩
def Fd.frangeStatusBusy (i : Nat) : Fld := ⟨0x30000200028 + 0x1000 * i, 63, 63⟩
def Fd.frangeStatusResult (i : Nat) : Fld := ⟨0x30000200028 + 0x1000 * i, 62, 60⟩
def Fd.frangeStatusQueued (i : Nat) : Fld := ⟨0x30000200028 + 0x1000 * i, 59, 52⟩
def Fd.frangeStatusPinnedTouched (i : Nat) : Fld := ⟨0x30000200028 + 0x1000 * i, 51, 32⟩
def Fd.frangeStatusPinFail (i : Nat) : Fld := ⟨0x30000200028 + 0x1000 * i, 31, 12⟩
def Fd.frangeLines (i : Nat) : Fld := ⟨0x30000200030 + 0x1000 * i, 63, 0⟩
def Fd.dramStackIdRevWord (i : Nat) : Fld := ⟨0x30000210010 + 0x1000 * i, 63, 48⟩
def Fd.dramStackIdCaps (i : Nat) : Fld := ⟨0x30000210010 + 0x1000 * i, 47, 32⟩
def Fd.dramStackIdCapsOff (i : Nat) : Fld := ⟨0x30000210010 + 0x1000 * i, 31, 16⟩
def Fd.dramStackIdTset (i : Nat) : Fld := ⟨0x30000210010 + 0x1000 * i, 3, 0⟩
def Fd.dramStackStatusState (i : Nat) : Fld := ⟨0x30000210018 + 0x1000 * i, 63, 60⟩
def Fd.dramStackStatusThermal (i : Nat) : Fld := ⟨0x30000210018 + 0x1000 * i, 59, 58⟩
def Fd.dramStackStatusRefresh2x (i : Nat) : Fld := ⟨0x30000210018 + 0x1000 * i, 57, 57⟩
def Fd.dramStackStatusStripeOn (i : Nat) : Fld := ⟨0x30000210018 + 0x1000 * i, 56, 56⟩
def Fd.dramStackStatusStripeUsed (i : Nat) : Fld := ⟨0x30000210018 + 0x1000 * i, 55, 55⟩
def Fd.dramStackStatusDegraded (i : Nat) : Fld := ⟨0x30000210018 + 0x1000 * i, 54, 54⟩
def Fd.dramStackStatusStripeChan (i : Nat) : Fld := ⟨0x30000210018 + 0x1000 * i, 53, 48⟩
def Fd.dramStackStatusRetiredCount (i : Nat) : Fld := ⟨0x30000210018 + 0x1000 * i, 47, 40⟩
def Fd.dramStackStatusErasedCount (i : Nat) : Fld := ⟨0x30000210018 + 0x1000 * i, 39, 32⟩
def Fd.dramStackStatusForced (i : Nat) : Fld := ⟨0x30000210018 + 0x1000 * i, 31, 24⟩
def Fd.dramStackStatusWindowChan (i : Nat) : Fld := ⟨0x30000210018 + 0x1000 * i, 23, 18⟩
def Fd.dramStackStatusWindowOpen (i : Nat) : Fld := ⟨0x30000210018 + 0x1000 * i, 17, 17⟩
def Fd.dramStackStatusRetraining (i : Nat) : Fld := ⟨0x30000210018 + 0x1000 * i, 16, 16⟩
def Fd.dramRetired (i : Nat) : Fld := ⟨0x30000210020 + 0x1000 * i, 63, 0⟩
def Fd.dramSpareDq (i p : Nat) : Fld := ⟨0x30000210028 + 0x1000 * i + 8 * (p / 64), p % 64, p % 64⟩
def Fd.dramSpareCa (i p : Nat) : Fld := ⟨0x30000210038 + 0x1000 * i + 8 * (p / 64), p % 64, p % 64⟩
def Fd.dramErased (i p : Nat) : Fld := ⟨0x30000210048 + 0x1000 * i + 8 * (p / 64), p % 64, p % 64⟩
def Fd.dramWindowNext (i : Nat) : Fld := ⟨0x30000210058 + 0x1000 * i, 63, 0⟩
def Fd.dramChanCmdGo (i : Nat) : Fld := ⟨0x30000210060 + 0x1000 * i, 63, 63⟩
def Fd.dramChanCmdOp (i : Nat) : Fld := ⟨0x30000210060 + 0x1000 * i, 62, 60⟩
def Fd.dramChanCmdChannel (i : Nat) : Fld := ⟨0x30000210060 + 0x1000 * i, 53, 48⟩
def Fd.dramChanCmdState (i : Nat) : Fld := ⟨0x30000210060 + 0x1000 * i, 23, 20⟩
def Fd.dramChanCmdResult (i : Nat) : Fld := ⟨0x30000210060 + 0x1000 * i, 19, 12⟩
def Fd.dramEccCe (i : Nat) : Fld := ⟨0x30000210068 + 0x1000 * i, 63, 0⟩
def Fd.dramEccUe (i : Nat) : Fld := ⟨0x30000210070 + 0x1000 * i, 63, 0⟩
def Fd.dramWindows (i : Nat) : Fld := ⟨0x30000210078 + 0x1000 * i, 63, 0⟩
def Fd.dramWindowsSkipped (i : Nat) : Fld := ⟨0x30000210080 + 0x1000 * i, 63, 0⟩
def Fd.drvStatusState (i n : Nat) : Fld := ⟨0x30000300010 + 0x1000 * i + 0x10 * n, 63, 61⟩
def Fd.drvStatusTags (i n : Nat) : Fld := ⟨0x30000300010 + 0x1000 * i + 0x10 * n, 56, 48⟩
def Fd.drvStatusStrands (i n : Nat) : Fld := ⟨0x30000300010 + 0x1000 * i + 0x10 * n, 47, 24⟩
def Fd.drvStatusSaved (i n : Nat) : Fld := ⟨0x30000300010 + 0x1000 * i + 0x10 * n, 23, 16⟩
def Fd.drvStatusNoCtx (i n : Nat) : Fld := ⟨0x30000300010 + 0x1000 * i + 0x10 * n, 15, 8⟩
def Fd.drvStatusCause (i n : Nat) : Fld := ⟨0x30000300010 + 0x1000 * i + 0x10 * n, 7, 0⟩
def Fd.drvCtlPreempt (i n : Nat) : Fld := ⟨0x30000300018 + 0x1000 * i + 0x10 * n, 15, 8⟩
def Fd.foldWaycfgCacheOff (i : Nat) : Fld := ⟨0x30000310020 + 0x1000 * i, 63, 63⟩
def Fd.foldWaycfgScratch (i : Nat) : Fld := ⟨0x30000310020 + 0x1000 * i, 52, 48⟩
def Fd.foldWaycfgPin (i : Nat) : Fld := ⟨0x30000310020 + 0x1000 * i, 43, 40⟩
def Fd.foldWaycfgOff (i : Nat) : Fld := ⟨0x30000310020 + 0x1000 * i, 15, 0⟩
def Fd.foldWaystatPhase (i : Nat) : Fld := ⟨0x30000310028 + 0x1000 * i, 63, 60⟩
def Fd.foldWaystatScratchActive (i : Nat) : Fld := ⟨0x30000310028 + 0x1000 * i, 59, 55⟩
def Fd.foldWaystatCacheOffActive (i : Nat) : Fld := ⟨0x30000310028 + 0x1000 * i, 54, 54⟩
def Fd.foldWaystatPinned (i : Nat) : Fld := ⟨0x30000310028 + 0x1000 * i, 49, 32⟩
def Fd.foldWaystatDirtyLeft (i : Nat) : Fld := ⟨0x30000310028 + 0x1000 * i, 31, 16⟩
def Fd.foldWaystatOffActive (i : Nat) : Fld := ⟨0x30000310028 + 0x1000 * i, 15, 0⟩
def Fd.foldHits (i : Nat) : Fld := ⟨0x30000310030 + 0x1000 * i, 63, 0⟩
def Fd.foldMisses (i : Nat) : Fld := ⟨0x30000310038 + 0x1000 * i, 63, 0⟩
def Fd.foldMerged (i : Nat) : Fld := ⟨0x30000310040 + 0x1000 * i, 63, 0⟩
def Fd.foldSetwait (i : Nat) : Fld := ⟨0x30000310048 + 0x1000 * i, 63, 0⟩
def Fd.foldEccCe (i : Nat) : Fld := ⟨0x30000310050 + 0x1000 * i, 63, 0⟩
def Fd.foldEccUe (i : Nat) : Fld := ⟨0x30000310058 + 0x1000 * i, 63, 0⟩
def Fd.foldWritebacks (i : Nat) : Fld := ⟨0x30000310060 + 0x1000 * i, 63, 0⟩
def Fd.xlatPenStatActive (i : Nat) : Fld := ⟨0x30000320020 + 0x1000 * i, 63, 51⟩
def Fd.xlatPenStatShadow (i : Nat) : Fld := ⟨0x30000320020 + 0x1000 * i, 50, 38⟩
def Fd.xlatPenStatPending (i : Nat) : Fld := ⟨0x30000320020 + 0x1000 * i, 37, 31⟩
def Fd.xlatCtxEn (i : Nat) : Fld := ⟨0x30000330020 + 0x1000 * i, 63, 63⟩
def Fd.xlatCtxTenancy (i : Nat) : Fld := ⟨0x30000330020 + 0x1000 * i, 47, 40⟩
def Fd.xlatCtxRoot (i : Nat) : Fld := ⟨0x30000330020 + 0x1000 * i, 39, 12⟩
def Fd.siteStatusState (i : Nat) : Fld := ⟨0x30000340020 + 0x1000 * i, 63, 60⟩
def Fd.siteStatusPlevel (i : Nat) : Fld := ⟨0x30000340020 + 0x1000 * i, 59, 57⟩
def Fd.siteStatusAlert (i : Nat) : Fld := ⟨0x30000340020 + 0x1000 * i, 56, 56⟩
def Fd.siteStatusSlpLevel (i : Nat) : Fld := ⟨0x30000340020 + 0x1000 * i, 55, 48⟩
def Fd.siteStatusSiteRev (i : Nat) : Fld := ⟨0x30000340020 + 0x1000 * i, 47, 32⟩
def Fd.siteStatusPmax (i : Nat) : Fld := ⟨0x30000340020 + 0x1000 * i, 31, 16⟩
def Fd.siteStatusTemp (i : Nat) : Fld := ⟨0x30000340020 + 0x1000 * i, 15, 8⟩
def Fd.siteStatusHsFail (i : Nat) : Fld := ⟨0x30000340020 + 0x1000 * i, 7, 0⟩
def Fd.siteCapsSiteAdv (i : Nat) : Fld := ⟨0x30000340028 + 0x1000 * i, 63, 48⟩
def Fd.siteCapsBaseAdv (i : Nat) : Fld := ⟨0x30000340028 + 0x1000 * i, 47, 32⟩
def Fd.siteCapsEnabled (i : Nat) : Fld := ⟨0x30000340028 + 0x1000 * i, 31, 16⟩
def Fd.siteCapsOff (i : Nat) : Fld := ⟨0x30000340028 + 0x1000 * i, 15, 0⟩
def Fd.siteBundlesIn (i : Nat) : Fld := ⟨0x30000340030 + 0x1000 * i, 63, 0⟩
def Fd.siteBundlesHalf (i : Nat) : Fld := ⟨0x30000340038 + 0x1000 * i, 63, 0⟩
def Fd.hurdleDbEn (i : Nat) : Fld := ⟨0x30000340040 + 0x1000 * i, 63, 63⟩
def Fd.hurdleDbTen (i : Nat) : Fld := ⟨0x30000340040 + 0x1000 * i, 55, 48⟩
def Fd.hurdleDbHi (i : Nat) : Fld := ⟨0x30000340040 + 0x1000 * i, 47, 40⟩
def Fd.hurdleDbLo (i : Nat) : Fld := ⟨0x30000340040 + 0x1000 * i, 39, 32⟩
def Fd.hurdleDbStrands (i : Nat) : Fld := ⟨0x30000340040 + 0x1000 * i, 7, 0⟩
def Fd.hurdleMbox (i : Nat) : Fld := ⟨0x30000340048 + 0x1000 * i, 63, 0⟩
def Fd.siteCmdGo (i : Nat) : Fld := ⟨0x30000340050 + 0x1000 * i, 63, 63⟩
def Fd.siteCmdOp (i : Nat) : Fld := ⟨0x30000340050 + 0x1000 * i, 62, 60⟩
def Fd.siteCmdUp (i : Nat) : Fld := ⟨0x30000340050 + 0x1000 * i, 59, 59⟩
def Fd.siteCmdBundle (i : Nat) : Fld := ⟨0x30000340050 + 0x1000 * i, 58, 54⟩
def Fd.siteCmdState (i : Nat) : Fld := ⟨0x30000340050 + 0x1000 * i, 23, 20⟩
def Fd.siteCmdResult (i : Nat) : Fld := ⟨0x30000340050 + 0x1000 * i, 19, 12⟩
def Fd.siteCrcErr (i : Nat) : Fld := ⟨0x30000340058 + 0x1000 * i, 63, 0⟩
def Fd.siteReplays (i : Nat) : Fld := ⟨0x30000340060 + 0x1000 * i, 63, 0⟩
def Fd.siteRefused (i : Nat) : Fld := ⟨0x30000340068 + 0x1000 * i, 63, 0⟩
def Fd.hurdleWinEn (i n : Nat) : Fld := ⟨0x30000340100 + 0x1000 * i + 0x10 * n, 63, 63⟩
def Fd.hurdleWinR (i n : Nat) : Fld := ⟨0x30000340100 + 0x1000 * i + 0x10 * n, 62, 62⟩
def Fd.hurdleWinW (i n : Nat) : Fld := ⟨0x30000340100 + 0x1000 * i + 0x10 * n, 61, 61⟩
def Fd.hurdleWinAtom (i n : Nat) : Fld := ⟨0x30000340100 + 0x1000 * i + 0x10 * n, 60, 60⟩
def Fd.hurdleWinAccum (i n : Nat) : Fld := ⟨0x30000340100 + 0x1000 * i + 0x10 * n, 59, 59⟩
def Fd.hurdleWinRange (i n : Nat) : Fld := ⟨0x30000340100 + 0x1000 * i + 0x10 * n, 58, 58⟩
def Fd.hurdleWinAcc (i n : Nat) : Fld := ⟨0x30000340100 + 0x1000 * i + 0x10 * n, 55, 52⟩
def Fd.hurdleWinBase (i n : Nat) : Fld := ⟨0x30000340100 + 0x1000 * i + 0x10 * n, 47, 16⟩
def Fd.hurdleWinTen (i n : Nat) : Fld := ⟨0x30000340100 + 0x1000 * i + 0x10 * n, 15, 8⟩
def Fd.hurdleLimLimit (i n : Nat) : Fld := ⟨0x30000340108 + 0x1000 * i + 0x10 * n, 47, 16⟩
def Fd.traceCtlEn : Fld := ⟨0x30000400010, 63, 63⟩
def Fd.traceCtlWrap : Fld := ⟨0x30000400010, 62, 62⟩
def Fd.traceCtlSample : Fld := ⟨0x30000400010, 55, 48⟩
def Fd.traceCtlPens : Fld := ⟨0x30000400010, 47, 32⟩
def Fd.traceCtlKinds : Fld := ⟨0x30000400010, 8, 1⟩
def Fd.traceStatusNext : Fld := ⟨0x30000400018, 63, 32⟩
def Fd.traceStatusDropped : Fld := ⟨0x30000400018, 31, 0⟩
def Fd.traceWinSeq : Fld := ⟨0x30000400020, 31, 0⟩
def Fd.dbgXlatL1Miss (i : Nat) : Fld := ⟨0x30000410010 + 0x1000 * i, 63, 0⟩
def Fd.dbgXlatL2Miss (i : Nat) : Fld := ⟨0x30000410018 + 0x1000 * i, 63, 0⟩
def Fd.dbgIssued (i n : Nat) : Fld := ⟨0x30000410100 + 0x1000 * i + 0x20 * n, 63, 0⟩
def Fd.dbgCompleted (i n : Nat) : Fld := ⟨0x30000410108 + 0x1000 * i + 0x20 * n, 63, 0⟩
def Fd.dbgStalled (i n : Nat) : Fld := ⟨0x30000410110 + 0x1000 * i + 0x20 * n, 63, 0⟩
def Fd.dbgTagwait (i n : Nat) : Fld := ⟨0x30000410118 + 0x1000 * i + 0x20 * n, 63, 0⟩
def Fd.mboxCtlGo (i n : Nat) : Fld := ⟨0x30000010180 + 0x1000 * i + 0x100 * n, 63, 63⟩
def Fd.mboxCtlAck (i n : Nat) : Fld := ⟨0x30000010180 + 0x1000 * i + 0x100 * n, 62, 62⟩
def Fd.mboxCtlLen (i n : Nat) : Fld := ⟨0x30000010180 + 0x1000 * i + 0x100 * n, 60, 56⟩
def Fd.mboxCtlCollision (i n : Nat) : Fld := ⟨0x30000010180 + 0x1000 * i + 0x100 * n, 55, 55⟩
def Fd.mboxCtlState (i n : Nat) : Fld := ⟨0x30000010180 + 0x1000 * i + 0x100 * n, 54, 52⟩
def Fd.mboxCtlClass (i n : Nat) : Fld := ⟨0x30000010180 + 0x1000 * i + 0x100 * n, 51, 51⟩
def Fd.mboxCtlOutbound (i n : Nat) : Fld := ⟨0x30000010180 + 0x1000 * i + 0x100 * n, 50, 50⟩
def Fd.mboxCtlResult (i n : Nat) : Fld := ⟨0x30000010180 + 0x1000 * i + 0x100 * n, 47, 40⟩
def Fd.mboxCtlPosts (i n : Nat) : Fld := ⟨0x30000010180 + 0x1000 * i + 0x100 * n, 31, 0⟩
def Fd.mboxFrom (i n : Nat) : Fld := ⟨0x30000010188 + 0x1000 * i + 0x100 * n, 47, 0⟩

/-- Gate fields (Table 0.4) of the block instance at base `b`, and `GATE_BELL`. -/
def Fd.gateCommit (b : Nat) : Fld := ⟨b + 0x10, 63, 63⟩
def Fd.gateAbort (b : Nat) : Fld := ⟨b + 0x10, 62, 62⟩
def Fd.gateMode (b : Nat) : Fld := ⟨b + 0x10, 61, 61⟩
def Fd.gateView (b : Nat) : Fld := ⟨b + 0x10, 60, 60⟩
def Fd.gateState (b : Nat) : Fld := ⟨b + 0x10, 59, 56⟩
def Fd.gateReason (b : Nat) : Fld := ⟨b + 0x10, 55, 48⟩
def Fd.gateBlocked (b : Nat) : Fld := ⟨b + 0x10, 47, 47⟩
def Fd.gateCount (b : Nat) : Fld := ⟨b + 0x10, 31, 0⟩
def Fd.gateBell (b : Nat) : Fld := ⟨b + 0x18, 63, 0⟩

/-- Mailbox data register r of mailbox m (R460). -/
def Fd.mboxData (m r : Nat) : Fld := ⟨0x030000010000 + 0x1000 * (m / 8) + 0x100 + 0x100 * (m % 8) + 8 * r, 63, 0⟩

/-- Doorbell window register r of logical Drover d, strand s (R596); the status register is register 7. -/
def Fd.doorbell (d s r : Nat) : Fld := ⟨0x030000020000 + 0x1000 * (d / 8) + 0x200 * (d % 8) + 0x40 * s + 8 * r, 63, 0⟩
def Fd.doorbellCookie (d s : Nat) : Fld := ⟨(Fd.doorbell d s 7).addr, 63, 48⟩
def Fd.doorbellValid (d s : Nat) : Fld := ⟨(Fd.doorbell d s 7).addr, 47, 47⟩
def Fd.doorbellOutcome (d s : Nat) : Fld := ⟨(Fd.doorbell d s 7).addr, 7, 0⟩

/-- Address of Rota entry e of port p (Table 20.9) and its fields (Table 12.4). -/
def rotaAddr (p e : Nat) : Nat := 0x030000110000 + 0x1000 * (8 * p + e / 512) + 8 * (e % 512)
def Fd.rotaV (p e : Nat) : Fld := ⟨rotaAddr p e, 63, 63⟩
def Fd.rotaFlow (p e : Nat) : Fld := ⟨rotaAddr p e, 51, 36⟩
def Fd.rotaPhase (p e : Nat) : Fld := ⟨rotaAddr p e, 35, 28⟩
def Fd.rotaPosition (p e : Nat) : Fld := ⟨rotaAddr p e, 27, 24⟩
def Fd.rotaLanes (p e : Nat) : Fld := ⟨rotaAddr p e, 23, 16⟩

/-- Route entry of device d (Table 20.9, Table 12.11). -/
def Fd.route (d : Nat) : Fld :=
  ⟨0x030000110000 + 0x1000 * (128 + d / 4096) + d % 4096 / 8 * 8, d % 8 * 8 + 7, d % 8 * 8⟩

/-- Stream descriptor words (Table 20.9): outbound n and inbound n. -/
def outStreamAddr (n w : Nat) : Nat := 0x030000110000 + 0x1000 * 132 + 16 * n + 8 * w
def inStreamAddr (n w : Nat) : Nat := 0x030000110000 + 0x1000 * 133 + 16 * n + 8 * w
def Fd.osEn (n : Nat) : Fld := ⟨outStreamAddr n 0, 63, 63⟩
def Fd.osDest (n : Nat) : Fld := ⟨outStreamAddr n 0, 61, 48⟩
def Fd.osFlow (n : Nat) : Fld := ⟨outStreamAddr n 0, 47, 32⟩
def Fd.osTen (n : Nat) : Fld := ⟨outStreamAddr n 0, 31, 24⟩
def Fd.osPort (n : Nat) : Fld := ⟨outStreamAddr n 0, 23, 20⟩
def Fd.osLatency (n : Nat) : Fld := ⟨outStreamAddr n 0, 15, 0⟩
def Fd.osStacks (n : Nat) : Fld := ⟨outStreamAddr n 1, 63, 56⟩
def Fd.osLstacks (n : Nat) : Fld := ⟨outStreamAddr n 1, 55, 48⟩
def Fd.osUnits (n : Nat) : Fld := ⟨outStreamAddr n 1, 47, 36⟩
def Fd.osRetLatency (n : Nat) : Fld := ⟨outStreamAddr n 1, 31, 16⟩
def Fd.osHorizon (n : Nat) : Fld := ⟨outStreamAddr n 1, 15, 0⟩
def Fd.isEn (n : Nat) : Fld := ⟨inStreamAddr n 0, 63, 63⟩
def Fd.isSource (n : Nat) : Fld := ⟨inStreamAddr n 0, 62, 49⟩
def Fd.isFlow (n : Nat) : Fld := ⟨inStreamAddr n 0, 48, 33⟩
def Fd.isStacks (n : Nat) : Fld := ⟨inStreamAddr n 0, 32, 25⟩
def Fd.isUnits (n : Nat) : Fld := ⟨inStreamAddr n 0, 24, 13⟩
def Fd.isRetFlow (n : Nat) : Fld := ⟨inStreamAddr n 1, 63, 48⟩

end Sys2Proof.Machine
end

