-- ==== Sys2Proof/Machine/Table.lean ====
section
/-! DEFINITION. Machine/Table.lean: sparse tables as lists of key and value in one canonical form (keys strictly
rising, no entry equal to the default of its key), and small list helpers. -/
namespace Sys2Proof.Machine

/-- The value at key `k`: the listed one, else the default `d k`. -/
def Tab.get {α : Type} (d : Nat → α) : List (Nat × α) → Nat → α
  | [], k => d k
  | (j, v) :: t, k => if j = k then v else Tab.get d t k

/-- Remove key `k`. -/
def Tab.del {α : Type} (t : List (Nat × α)) (k : Nat) : List (Nat × α) := t.filter fun e => e.1 ≠ k

/-- List `v` at key `k`, in key order. -/
def Tab.ins {α : Type} : List (Nat × α) → Nat → α → List (Nat × α)
  | [], k, v => [(k, v)]
  | (j, w) :: t, k, v =>
    if j = k then (k, v) :: t else if k < j then (k, v) :: (j, w) :: t else (j, w) :: Tab.ins t k v

/-- Write `v` at key `k`; writing the default removes the entry. -/
def Tab.put {α : Type} [DecidableEq α] (d : Nat → α) (t : List (Nat × α)) (k : Nat) (v : α) : List (Nat × α) :=
  if v = d k then Tab.del t k else Tab.ins t k v

/-- Every key of `t` lies above `k`. -/
def Tab.above {α : Type} (k : Nat) (t : List (Nat × α)) : Prop := ∀ e ∈ t, k < e.1

/-- The canonical form: keys strictly rising, no entry equal to the default of its key. -/
def Tab.wf {α : Type} [DecidableEq α] (d : Nat → α) : List (Nat × α) → Bool
  | [] => true
  | (k, v) :: t => decide (v ≠ d k) && t.all (fun e => decide (k < e.1)) && Tab.wf d t

/-- Keep the entries whose key passes the test. -/
def Tab.keep {α : Type} (p : Nat → Bool) (t : List (Nat × α)) : List (Nat × α) := t.filter fun e => p e.1

/-- Apply an update to every listed value, dropping those that become the default. -/
def Tab.mapv {α : Type} [DecidableEq α] (d : Nat → α) (f : Nat → α → α) : List (Nat × α) → List (Nat × α)
  | [] => []
  | (k, v) :: t => if f k v = d k then Tab.mapv d f t else (k, f k v) :: Tab.mapv d f t

/-- A sorted set of numbers: insert. -/
def Nats.ins : List Nat → Nat → List Nat
  | [], k => [k]
  | j :: t, k => if j = k then j :: t else if k < j then k :: j :: t else j :: Nats.ins t k

/-- A sorted set of numbers: remove. -/
def Nats.del (t : List Nat) (k : Nat) : List Nat := t.filter (· ≠ k)

/-- A sorted set of numbers: insert or remove. -/
def Nats.set (t : List Nat) (k : Nat) (b : Bool) : List Nat := if b then Nats.ins t k else Nats.del t k

/-- The canonical form of a set of numbers: strictly rising. -/
def Nats.wf : List Nat → Bool
  | [] => true
  | k :: t => t.all (fun j => decide (k < j)) && Nats.wf t

/-- Apply `f` to the elements that pass the test. -/
def updateWhere {α : Type} (p : α → Bool) (f : α → α) (l : List α) : List α :=
  l.map fun x => if p x then f x else x

/-- Fold a step over the numbers 0 to n − 1. -/
def eachUpTo {σ : Type} (n : Nat) (f : σ → Nat → σ) (s : σ) : σ := (List.range n).foldl f s

end Sys2Proof.Machine
end

