-- ==== Sys2Proof/Machine/State.lean ====
section
/-! DEFINITION. Machine/State.lean: everything the spec gives the module to hold, as plain data, the reasons a step
can stop, and the state at reset. Every table is sparse: an unlisted entry has the default its accessor names. -/
namespace Sys2Proof.Machine

/-! ### Records (chapter 19) -/

/-- An event record (Table 19.3). -/
structure Rec where
  seq       : Nat
  code      : Nat
  unit      : Nat
  src       : Nat
  sev       : Nat
  isOpen    : Bool
  coalesced : Bool
  pf        : Bool
  firmware  : Bool
  opened    : Nat
  time      : Nat
  cycles    : Nat
  frac      : Nat
  p0        : Nat
  p1        : Nat
  p2        : Nat
  p3        : Nat
  deriving DecidableEq, Repr

/-- The token bucket of a record code (R565, R566, Table 19.7). -/
structure Bucket where
  rate       : Nat := 0x10
  burst      : Nat := 0x40
  tokens     : Nat := 0x40
  waiting    : Nat := 0
  suppressed : Nat := 0
  first      : Nat := 0
  src        : Nat := 0
  sev        : Nat := 0
  since      : Nat := 0
  deriving DecidableEq, Repr

/-- The recorder, its log and the four notification units (R560 to R577). Operating time is in nanoseconds. -/
structure Recorder where
  buffer    : List Rec := []
  log       : List Rec := []
  written   : Nat := 0
  dropped   : Nat := 0
  buckets   : List (Nat × Bucket) := []
  service   : List (Nat × Option Rec) := []
  queues    : List (Nat × List Rec) := []
  lostRun   : List (Nat × Nat) := []
  lostSev   : List (Nat × Nat) := []
  time      : Nat := 0
  cycles    : Nat := 0
  stopped   : Bool := false
  deriving DecidableEq, Repr

/-! ### Drovers and strands (chapters 3 and 4) -/

/-- What a strand waits for (R78, R121, R123, R328): a counter's value, a fence over the operations issued before it,
a Bell count, or, after a restore, the fault slot. -/
inductive Wait where
  | counter (cn : Nat) (v : BitVec 32)
  | fence (variant : Nat)
  | bell (t : Word)
  | slot (op : Nat)
  deriving DecidableEq, Repr

/-- A start record (Table 3.5). -/
structure StartRec where
  entry  : Word := 0
  arg0   : Word := 0
  arg1   : Word := 0
  arg2   : Word := 0
  arg3   : Word := 0
  notify : Word := 0
  ctx    : Word := 0
  ctl    : Word := 0
  deriving DecidableEq, Repr

/-- The state of a strand (Table 3.1). `phase` is the code of Table 3.2; `pc` and `firstFail` together are the
64-bit program address (R116). -/
structure Strand where
  phase     : Nat := 0
  pc        : BitVec 48 := 0
  firstFail : Status := 0
  prio      : Nat := 0
  g         : List (Nat × Word) := []
  d         : List (Nat × Desc) := []
  c         : List (Nat × BitVec 32) := []
  start     : StartRec := {}
  wait      : Option Wait := none
  heldSig   : List (Nat × BitVec 32) := []
  deriving DecidableEq, Repr

/-- The rest of a physical Drover's state: its instruction store (line numbers with their 128 bytes as fetched, oldest
first, R70), the strand whose turn is next (R71), the holder of its selection store (R198), its random source (R207) and,
once fenced, the operations of each strand that were lost, the strands still to save, those saved and those lost, and the
logical number it had (R91, R92, R96). -/
structure Drover where
  store    : List (Nat × List Byte) := []
  turn     : Nat := 0
  selHold  : Option Nat := none
  rnd      : Word := 0
  lostTags : List (Nat × Nat) := []
  unsaved  : List Nat := []
  recov    : List Nat := []
  gone     : List Nat := []
  fencedAs : Nat := 0
  deriving DecidableEq, Repr

/-- Where an operation in flight stands. `held`: an `AT` pair before its Bell; `missed`: its translation waits on a
ticket; `ready`: it may access memory; `served`: its access is done and its completion is due; `running` and `parked`: a
transfer; `queued`: in a range engine; `untagged`: restored, without a tag yet (R73); `selecting`: waiting for the
selection store; `remote`: sent to another module, to a site or to another strand; `dropped`: its packet was discarded on
the mesh, and it never completes. -/
inductive OpPhase where
  | held (t : Word) (pg : BitVec 5)
  | untagged
  | missed
  | ready
  | served
  | running
  | parking
  | parked
  | queued
  | selecting
  | remote
  | dropped
  deriving DecidableEq, Repr

/-- The update an atomic makes (Table 8.2). -/
inductive AtomKind where
  | add | min | max | xchg | cas
  deriving DecidableEq, Repr

/-- One write of a chunk at a local address: bytes, an update at the bank, or an accumulation. -/
inductive Put where
  | bytes (pa : Nat) (data : List Byte) (bad : Bool)
  | update (k : AtomKind) (pa v : Nat) (bad : Bool)
  | acc (pa region idx : Nat) (v : Word) (bad : Bool)
  deriving DecidableEq, Repr

/-- A chunk of a transfer that is out. It waits on a ticket, named with the faulting address, its element's position
and its access, `fault` once firmware has declared a fault; or it is `sent` to another module or a site, with what its
commit adds: output elements and a set operation's next position, and the local writes it makes once its site has
answered; `wrote`: its writes are on the way; `due`: its sources have come, or its bank holds it, and it will be carried
out; `failed`: a request of it failed; `packet` names a remote request by target and number. -/
structure Chunk where
  num      : Nat
  ticket   : Option Nat := none
  va       : Nat := 0
  pos      : Nat := 0
  acc      : Nat := 0
  fault    : Bool := false
  sent     : Bool := false
  wrote    : Bool := false
  due      : Bool := false
  failed   : Bool := false
  puts     : List Put := []
  bad      : Bool := false
  outs     : Nat := 0
  next     : Nat := 0
  half     : Bool := false
  expiry   : Option Word := none
  packet   : Option (Nat × Nat) := none
  deriving DecidableEq, Repr

/-- An operation in flight: it holds one tag (R72 to R76). -/
structure Op where
  id       : Nat
  drover   : Nat
  strand   : Nat
  logical  : Nat
  code     : OpCode
  word     : Word
  phase    : OpPhase
  va       : Word := 0
  val      : Word := 0
  cmp      : Word := 0
  sub      : Nat := 0
  ga       : Nat := 0
  gk       : Nat := 0
  dn       : Nat := 0
  gs       : Nat := 0
  gy       : Word := 0
  cn       : Option Nat := none
  desc     : Desc := 0
  ext      : Desc := 0
  pa       : Nat := 0
  leafAcc  : Nat := 0
  ticket   : Option Nat := none
  status   : Nat := 0
  reason   : Nat := 0
  lateness : Nat := 0
  result   : Word := 0
  data     : Desc := 0
  n        : Nat := 0
  mark     : Nat := 0
  done     : List Nat := []
  outCount : Nat := 0
  position : Nat := 0
  split    : Bool := false
  parks    : Nat := 0
  everPark : Bool := false
  poisoned : Bool := false
  note     : Nat := 0
  unlocked : Bool := false
  curPa    : Nat := 0
  curTick  : Option Nat := none
  faultVa  : Nat := 0
  faultPos : Nat := 0
  chunks   : List Chunk := []
  heap     : List (Word × Nat) := []
  detached : Bool := false
  lost     : Bool := false
  ctxAt    : Nat := 0
  owed     : Nat := 0
  slotted  : Bool := false
  begun    : Bool := false
  redo     : Bool := false
  curOk    : Bool := false
  counted  : Bool := false
  hold     : List Nat := []
  holdD    : List Nat := []
  pair     : Option PairOp := none
  buf      : List Host.Cell := []
  bufBad   : List Nat := []
  got      : List Nat := []
  stream   : Option Nat := none
  issued   : Word := 0
  deadline : Word := 0
  start    : Word := 0
  expiry   : Word := 0
  aux      : Word := 0
  deriving DecidableEq, Repr

/-- A request sent to a site on `VC` 0x2 and not yet answered (R425, R427): its tag, the operation and chunk it serves,
its site-window address and length, and the Bell it was sent at. `mbox` names the mailbox of a delivery, `inb` the source
and packet of a request from another module. -/
structure SiteReq where
  site  : Nat
  tag   : Nat
  op    : Nat
  chunk : Nat
  write : Bool
  addr  : Nat
  bytes : Nat
  mbox  : Option Nat
  sent  : Word
  inb   : Option (Nat × Nat) := none
  deriving DecidableEq, Repr

/-! ### Translation (chapter 10) -/

/-- An entry of a translation buffer: the Paddock whose context it belongs to, its first page in units of 64 KiB,
its size code, and the leaf word. `used` is the not-recently-used mark (R321). -/
structure XlEntry where
  paddock : Nat
  page    : Nat
  size    : Nat
  leaf    : Word
  used    : Bool
  deriving DecidableEq, Repr

/-- A ticket of a miss (R324). `stale` tickets are not listed. -/
structure Ticket where
  id      : Nat
  paddock : Nat
  page    : Nat
  cause   : Nat
  va      : Nat
  sched   : Bool
  deriving DecidableEq, Repr

/-- A shootdown in progress: Paddock mask, first page, pages, and what used a withdrawn translation when it began: chunks at
sites by operation and number, other operations, the cursors of transfers, and inbound requests by source and packet. -/
structure Shoot where
  mask  : Nat
  page  : Nat
  pages : Nat
  waits : List (Nat × Nat)
  users : List Nat
  curs  : List Nat
  inb   : List (Nat × Nat)
  deriving DecidableEq, Repr

/-- Translation state outside registers: first levels by physical Drover, second levels by Pen (active, shadow),
inbound buffers by half, tickets, next ticket sequence by source, records that wait for ring space, requests that
wait beyond 64 tickets, the shootdown in progress and the migration in progress. -/
structure Xlat where
  l1      : List (Nat × List XlEntry) := []
  l2      : List (Nat × List XlEntry) := []
  shadow  : List (Nat × List XlEntry) := []
  inbound : List (Nat × List XlEntry) := []
  tickets : List Ticket := []
  seqs    : List (Nat × Nat) := []
  stalled : List (List Byte) := []
  shoot   : Option Shoot := none
  migOp   : Option (Nat × Nat) := none
  migNext : Nat := 0
  deriving DecidableEq, Repr

/-! ### The Fold (chapters 7 and 8) -/

/-- A line held in the Fold, by line number (local address / 128): its way, its sector-valid, dirty and pinned bits
and age (R208); its accumulator line (R260 to R263): ways, external format, wide image (empty: none), and the
early-rounding mark. -/
structure Line where
  way    : Nat
  valid  : BitVec 4
  dirty  : Bool
  pinned : Bool
  age    : Nat
  ways   : List Nat := []
  fmt    : Nat := 0
  wide   : List Word := []
  early  : Bool := false
  deriving DecidableEq, Repr

/-- An outstanding miss of a bank (R217 to R221): its line, victim way if it allocates, the sectors it reads, whether
it is streaming, the class of its request to the controller, whether that is in the channel's queue and whether its data
has come back, whether the range engine asked for it (R232), and the requests attached to it in arrival order. -/
structure Miss where
  line     : Nat
  way      : Option Nat
  sectors  : BitVec 4
  stream   : Bool
  cls      : DramClass
  asked    : Bool := false
  back     : Bool := false
  range    : Bool := false
  attached : List BankReq
  deriving DecidableEq, Repr

/-- A Fold bank's queues: outstanding misses, the wait queue, the merge buffers (line numbers, oldest first) and the
scrub's corrections in the last pass and the Bell it began at (R217, R218, R222, R250). -/
structure Bank where
  misses : List Miss := []
  queue  : List BankReq := []
  merge  : List Nat := []
  fixed  : Nat := 0
  passAt : Option Word := none
  window : Option (Word × Bool) := none
  deriving DecidableEq, Repr

/-- A Pen's way conversions under way: slots converting to scratchpad, cache ways powering down and up (R234, R237,
R238). -/
structure PenWays where
  slots   : List Nat := []
  downs   : List Nat := []
  ups     : List Nat := []
  disable : Bool := false
  deriving DecidableEq, Repr

/-- A request of a range engine (R241 to R247, R267): command code of Table 7.7 (7: `SETTLE`), first line, lines,
and the operation, or the site, bundle and tag it serves, or neither for firmware; whether it has begun, the lines that wait
and, so far, lines applied, pinned lines touched (`SETTLE`: lines settled) and pin failures (`SETTLE`: marks). -/
structure RangeReq where
  cmd     : Nat
  line    : Nat
  count   : Nat
  op      : Option Nat
  begun   : Bool
  touched : Nat
  fails   : Nat
  site    : Option (Nat × Nat × Nat) := none
  left    : List Nat := []
  lines   : Nat := 0
  deriving DecidableEq, Repr

/-! ### Time (chapter 2) -/

/-- The Bell logic outside its registers: Bells in holdover, Bells locked or in holdover without interruption,
consecutive valid and consecutive missed markers by port, the last valid marker by port, which ports delivered a valid
one, and which one not used, for the coming boundary, which ports have delivered a marker at all, whether the Bell lock
step has begun (R52), Bells left in which markers carry step 1, the windows announced (Table 2.6), whether a boundary has
passed since reset, and the phase still to move after holdover, in 1/16 ns (R56). -/
structure BellLogic where
  held    : Nat := 0
  stable  : Nat := 0
  runs    : List (Nat × Nat) := []
  missed  : List (Nat × Nat) := []
  last    : List (Nat × Marker) := []
  fresh   : List Nat := []
  seen    : List Nat := []
  heard   : List Nat := []
  lockStep : Bool := false
  stepped : Nat := 0
  windows : List Window := []
  ticked  : Bool := false
  toGo    : Int := 0
  deriving DecidableEq, Repr

/-- A rebind in progress (R97): the logical number, the reserve chosen, the boundaries left until it takes effect, and the
`EXPLICIT` and `PADDOCK_ONLY` that the command was accepted with. -/
structure Rebind where
  logical     : Nat
  reserve     : Nat
  left        : Nat
  explicit    : Bool
  paddockOnly : Bool
  deriving DecidableEq, Repr

/-- The Tally outside its registers: the copy of the routers (logical number to physical Drover, plus one; 0: not
bound), whether copies are due at the next boundary, and the rebind in progress. -/
structure Tally where
  copies : List (Nat × Nat) := []
  due    : Bool := false
  rebind : Option Rebind := none
  deriving DecidableEq, Repr

/-! ### DRAM (chapter 9) -/

/-- A read in a channel's queue: the pseudo-channels that have yet to serve it and the times it was passed (R290, R295). -/
structure DramRead where
  req    : DramReq
  left   : BitVec 2
  passed : Nat := 0
  deriving DecidableEq, Repr

/-- What a pseudo-channel has served in one Bell: data bus time in units of 50 ps, of scheduled and of bulk requests
(Table 9.3, R291). -/
structure BusUse where
  sched : Nat := 0
  bulk  : Nat := 0
  deriving DecidableEq, Repr

/-- A channel outside its registers: read and write queues (oldest first; writes beyond the 64th wait in the Fold's
write-back buffers), whether it drains writes, what its pseudo-channels have served in the Bell `bell` and the activations
of scheduled requests in it, the open row of each bank, by 16 × pseudo-channel + bank (R288), the patrol scrub's place and
the start of its pass (R283), the start and temperature of its last window, and whether the next is due at the first start
allowed (R298, R300), corrected symbols by wire and uncorrectable code words in the Round, the trigger that asks for a
forced retrain, whether one runs and when the last began, the announced window and whether it is open; `cause` is the
trigger of the retrain that runs. -/
structure Chan where
  reads    : List DramRead := []
  writes   : List DramReq := []
  drain    : Bool := false
  bell     : Word := 0
  use0     : BusUse := {}
  use1     : BusUse := {}
  acts     : Nat := 0
  rows     : List (Nat × Nat) := []
  patrol   : Nat := 0
  patrolAt : Option Word := none
  lastWin  : Option Word := none
  lastTemp : Nat := 0
  owed     : Bool := false
  wires    : List (Nat × Nat) := []
  ue       : Nat := 0
  trigger  : Option Nat := none
  training : Bool := false
  retire   : Bool := false
  cmd      : Bool := false
  lastRun  : Option Word := none
  cause    : Nat := 0
  window   : Option Word := none
  isOpen   : Bool := false
  narrow   : Bool := false
  deriving DecidableEq, Repr

/-- A stack outside its registers: sectors of redirected lines written since the retirement (R306), whether the stripe's
contents are not poisoned, being taken at the start or zeroised since (R536, R306), channels retired
without a reserve (R307), the last window's start (R298), by pseudo-channel the place of the refresh, 16 × row group + bank,
and the Bell of the last one (R297), and the wire of those in erasure mode (R285). -/
structure Stack where
  cleaned   : List Nat := []
  clean     : Bool := false
  lost      : List Nat := []
  lastWin   : Option Word := none
  refresh   : List (Nat × Nat) := []
  refreshAt : List (Nat × Word) := []
  erased    : List (Nat × Nat) := []
  deriving DecidableEq, Repr

/-! ### Fabric (chapters 11 to 13) -/

/-- A control message (R364): type of Table 12.3, destination if routed, source, and its body, bytes 6 to 31. -/
structure Ctl where
  kind   : Nat
  routed : Bool
  dest   : Nat
  src    : Nat
  body   : List Byte
  deriving DecidableEq, Repr

/-- A control message waiting at a port: copies left to send, the Bell of the last copy and the lanes it went by
(R365). -/
structure CtlOut where
  msg   : Ctl
  left  : Nat
  at_   : Option Word := none
  lanes : List Nat := []
  deriving DecidableEq, Repr

/-- A flit waiting at a port; `reply` and its `VC` name its bulk channel (R370); `start`: the Bell before which a
scheduled flit of this module does not leave (R377). -/
structure FlitOut where
  flit  : Flit
  reply : Bool
  start : Word := 0
  deriving DecidableEq, Repr

/-- A port's queues and link state (R366 to R372, R348 to R358): control messages; scheduled flits, flits to send
again (by `SEQ`), orphans and bulk flits waiting; the retry buffer with the Bell of each flit's last sending; the next
`SEQ`; credits used and credits to return by bulk channel; the `SEQ` below which every flit has arrived and those
beyond; control messages heard of late; lanes due for removal with the cause and the Bell; lanes retraining; the Bell
from which new traffic is held; boundaries left to a commanded disable; whether its far end was lost; whether its
reservations move at the next boundary (R387); corrected symbols of each lane in the last Round (R350). -/
structure Port where
  ctl     : List CtlOut := []
  sched   : List FlitOut := []
  resend  : List Nat := []
  orphans : List FlitOut := []
  bulk    : List FlitOut := []
  retry   : List (FlitOut × Word) := []
  seq     : Nat := 0
  used    : List (Nat × Nat) := []
  back    : List (Nat × Nat) := []
  below   : Nat := 0
  beyond  : List Nat := []
  heard   : List (Ctl × Word) := []
  removal : List (Nat × (Nat × Word)) := []
  retrain : List Nat := []
  hold    : Option Word := none
  disable : Option Nat := none
  dark    : Bool := false
  moving  : Bool := false
  ce      : List (Nat × Nat) := []
  deriving DecidableEq, Repr

/-- Admission state of an outbound stream (R377): `ucur` and the slots committed by Bell. -/
structure OutStream where
  ucur  : Nat := 0
  slots : List (Nat × Nat) := []
  deriving DecidableEq, Repr

/-- A packet being reassembled (R362): its source and number, the flits that came, by `INDEX`. -/
structure Assembly where
  src    : Nat
  packet : Nat
  flits  : List (Nat × Flit)
  deriving DecidableEq, Repr

/-- A request from another module that waits for its translation or at a Pen boundary (R335, R336, R401): its kind
(`OP` of Table 13.2), the record, its context's Paddock, its ticket, and its expiry Bell; whether it waits for a site,
with the data that came and its poisoned sectors by offset, and the first status that was not `OK`. -/
structure InReq where
  kind    : Nat
  req     : RemReq
  paddock : Nat
  ticket  : Option Nat
  expiry  : Word
  atSite  : Bool := false
  buf     : List Host.Cell := []
  bad     : List Nat := []
  st      : Nat := 0
  deriving DecidableEq, Repr

/-- A Muster group outside its registers: the first status other than `OK` of the generation with its lateness or
reason, the release it will act on (R408, R409) and the arrivals held at a Pen boundary (R401). -/
structure Group where
  arrivals : Nat := 0
  status  : Nat := 0
  hi      : Nat := 0
  release : Option Word := none
  force   : Bool := false
  deriving DecidableEq, Repr

/-- The fabric side of the module: ports, outbound streams, thermal states of remote stacks (device × 8 + stack), the
pair port a bulk packet takes next by direction, the next packet number, packets being reassembled and arrived,
requests that wait, Muster groups, routers judged faulty, those the active mesh table avoids and whether the shadow table
flips at the next boundary (R388), packets in each router and on each link (16 × from + to), boundaries left to each commanded
laser disable, the directions (dimension × 2 + direction) whose ports are both out of service (R387), and the reply
packets (source, number) of which the first flit passed and the last did not. -/
structure Fabric where
  ports    : List (Nat × Port) := []
  streams  : List (Nat × OutStream) := []
  thermal  : List (Nat × Nat) := []
  alt      : List (Nat × Nat) := []
  packet   : Nat := 0
  asm      : List Assembly := []
  arrived  : List Assembly := []
  inbound  : List InReq := []
  groups   : List (Nat × Group) := []
  faulty   : List Nat := []
  avoid    : List Nat := []
  meshFlip : Bool := false
  routers  : List (Nat × List MeshPacket) := []
  links    : List (Nat × List MeshPacket) := []
  lasers   : List (Nat × Nat) := []
  outDirs  : List Nat := []
  replies  : List (Nat × Nat) := []
  deriving DecidableEq, Repr

/-! ### Sites (chapter 14) and mailboxes (chapter 15) -/

/-- A command the base die sends to a site (Table 14.5). -/
structure SiteOut where
  cmd    : Nat
  tag    : Nat
  status : Nat
  cls    : Nat
  len    : Nat
  addr   : Nat
  aux    : Word
  poison : Nat
  data   : List Byte
  deriving DecidableEq, Repr

/-- A packet on an up bundle (Table 14.3): its `SEQ`, `VC`, and the command it carries or the next bytes of the data
stream. -/
structure Slp where
  seq  : Nat
  vc   : Nat
  cmd  : Option SiteOut
  data : List Byte
  deriving DecidableEq, Repr

/-- An up bundle, which the base die sends on (R416, R421, R422): the next `SEQ`, packets held for retry and packets
waiting for a credit, credits by `VC`, packets sent since an idle one, and whether the bundle is closed for a repair. -/
structure UpLink where
  seq    : Nat := 0
  held   : List Slp := []
  wait   : List Slp := []
  credit : List (Nat × Nat) := []
  run    : Nat := 0
  due    : Bool := false
  deriving DecidableEq, Repr

/-- A down bundle, which the base die receives on: the `SEQ` expected, credits to return by `VC`, packets received since its
last link-control packet, mismatches of each data wire and CRC failures in the Round (R435), whether a repair is due and
whether the bundle is closed for it. -/
structure DownLink where
  next  : Nat := 0
  owed  : List (Nat × Nat) := []
  wires : List (Nat × Nat) := []
  crc   : Nat := 0
  since : Nat := 0
  due   : Bool := false
  shut  : Bool := false
  deriving DecidableEq, Repr

/-- A site outside its registers: its bundles; the control wires `SITE_PG`, `SITE_LRST_N` and `SITE_RST_N` (Table
14.14); whether its handshake is awaited, has succeeded, and whether its release waits for it (R438, R444); the sideband
frames the base die repeats, by type (R437); bundles (up: 32 + j) whose C2 failed (R434); the Bell of the last
temperature frame and whether its want is recorded (R442); the code of the last fault frame; and the power limit that
holds until a Bell (R441, R510). -/
structure Site where
  ups     : List (Nat × UpLink) := []
  downs   : List (Nat × DownLink) := []
  pg      : Bool := false
  lrst    : Bool := false
  rst     : Bool := false
  awaits  : Bool := false
  shaken  : Bool := false
  release : Bool := false
  frames  : List (Nat × List Byte) := []
  badC2   : List Nat := []
  heard   : Word := 0
  temp    : BitVec 16 := 0
  stale   : Bool := true
  code    : Nat := 0
  grace   : Option (Nat × Word) := none
  deriving DecidableEq, Repr

/-- A site command that passed the Hurdle and waits at its bank or range queue (R428, R432): its code, the command, and
its window's `ACC`; `mute` once its reply will be discarded (R444). -/
structure SiteHeld where
  code : Nat
  cmd  : SiteCmd
  acc  : Nat
  mute : Bool
  deriving DecidableEq, Repr

/-- A post to an outbound mailbox: its data registers and the sender identity (R461, R464). -/
structure MboxPost where
  regs   : List Word
  sender : Nat
  deriving DecidableEq, Repr

/-- A mailbox outside its registers (R462 to R465): the site, bundle and tag of a site's post not acknowledged; the outbound
post sent or held, the post waiting behind it, and
whether a `TIMEOUT` sends the post again. -/
structure Mbox where
  poster  : Option (Nat × Nat × Nat) := none
  sending : Option MboxPost := none
  waiting : Option MboxPost := none
  again   : Bool := false
  deriving DecidableEq, Repr

/-! ### Power, thermal, start and security (chapters 15 to 18) -/

/-- A thermal zone outside its register (R520): the last sample, samples in a row 3 °C or more below the threshold of
its state, the state that takes effect at the next boundary, and the Round of the last `PRETRIP` record. -/
structure Zone where
  prev : Option (BitVec 16) := none
  lows : Nat := 0
  next : Option Nat := none
  pre  : Option Nat := none
  deriving DecidableEq, Repr

/-- Why the module is unpowered (R517, R518, R607): after a power-fail, after an overvoltage, or in P4, and there whether
the input has been removed since. -/
inductive Down where
  | powerFail
  | overvoltage
  | off (removed : Bool)
  deriving DecidableEq, Repr

/-- What the MRAM holds besides the log and the operating time (R479, R483, R471, R539, R542): lifecycle, `ZERO_PENDING`,
key epoch, anti-rollback counters, boot-attempt counter, the last start failure (stage, step, code), the operating time
of the last full memory test, power-fails, and whether one ended the last run. -/
structure Mram where
  lifecycle   : Nat := 0
  zeroPending : Bool := false
  epoch       : Nat := 0
  counters    : List (Nat × Nat) := []
  ctrSeq      : Nat := 0
  ctrOld      : List (Nat × Nat) := []
  lcSeq       : Nat := 0
  lcOld       : Nat := 0
  attempts    : Nat := 0
  fail        : Nat × Nat × Nat := (0, 0, 0)
  fullTest    : Nat := 0
  pfCount     : Nat := 0
  pfSeen      : Bool := false
  deriving DecidableEq, Repr

/-- What the flash holds (R474, R582): the copies of the Module Record and the images by 2 × type + slot, each as it left
the factory while unlisted, and the types whose active slot is B. -/
structure Flash where
  recA   : Option ModuleRecord := none
  recB   : Option ModuleRecord := none
  images : List (Nat × Image) := []
  active : List Nat := []
  deriving DecidableEq, Repr

/-- A response of the Dedin Field Protocol (Table 15.1); `body` is its payload, field by field. -/
structure DfpResp where
  port    : Nat
  cmd     : Nat
  reqId   : Nat
  session : Nat
  status  : Nat
  bell    : Nat
  body    : List Nat
  deriving DecidableEq, Repr

/-- A session (R455): its number, its highest `REQ_ID`, the last 64 answers, newest first, and the operating time of its
last valid request. -/
structure Session where
  id       : Nat
  high     : Nat
  answered : List DfpResp
  last     : Nat
  deriving DecidableEq, Repr

/-- A request of the test port that waits for the module to be raised to P1 (R499). -/
inductive DbgReq where
  | read (addr : Nat)
  | write (addr : Nat) (data : Word)
  deriving DecidableEq, Repr

/-- Crook and the management complex outside their registers: whether S is held (R468); nonces with the operating time
each was issued at; the operating time the token ends at, and the status of the port's last token; sessions, the next
number, subscribers (port, session); images running by type; key slots disregarded; the step of S0 that failed, which
Fallow mode asks for (R544); whether firmware or the fallow service serves DFP; whether a failed start waits for the
next, whether a start begins at S0 step 4, and its kind (Table 19.4); whether a transition is zeroising and the state
it left; the Round of the
last trace sample; the instruction of the test port, the outcome of its last access, and the request held for a raise (R499);
and the gates that Crook has staged fields of and not yet committed (R591). -/
structure Crook where
  puf      : Bool := false
  nonces   : List (BitVec 128 × Nat) := []
  tokenEnd : Option Nat := none
  portTok  : Nat := 0
  sessions : List Session := []
  nextSess : Nat := 1
  subs     : List (Nat × Nat) := []
  running  : List (Nat × Image) := []
  badKeys  : List Nat := []
  s0Fail   : Nat := 0
  serving  : Bool := false
  failed   : Bool := false
  fromFour : Bool := false
  kind     : Nat := 1
  zeroing  : Bool := false
  lcFrom   : Option Nat := none
  sampled  : Nat := 0
  tap      : Nat := 0x02
  access   : Nat × Word := (0, 0)
  raise    : Option DbgReq := none
  staging  : List Nat := []
  deriving DecidableEq, Repr

/-- The management ports outside DFP (R452, R453, R611): prefixes heard, links up, datagrams discarded, and the operating
time of the last auto-negotiation failure noted, by port. -/
structure MgmtPorts where
  prefixes : List (Nat × BitVec 64) := []
  up       : List Nat := []
  discards : List (Nat × Nat) := []
  anFail   : List (Nat × Nat) := []
  deriving DecidableEq, Repr

/-! ### What leaves the module -/

/-- What the module sends out, in order: a Bell marker on a port, a flit or control message, a packet a router gives its
Pen, the refusal of a window announced too late (R62), a reply or frame to a site, a DFP response, the outcome of a
register or test-port access, a piece the migration engine asks for or writes, and a control wire's new level. -/
inductive Out where
  | marker (port : Nat) (m : Marker)
  | slp (site bundle : Nat) (p : Slp)
  | linkCtl (site bundle ackSeq : Nat) (nak closed half : Bool) (credits : List Nat)
  | sideband (site bundle : Nat) (frame : List Byte)
  | checkPattern (site bundle : Nat)
  | bellPulse
  | siteWire (site : Nat) (pg lrst rst : Bool)
  | sitePlim (site level : Nat)
  | control (port lane pos : Nat) (msgs : List Ctl)
  | flit (port lane pos : Nat) (f : Flit)
  | mesh (p : MeshPacket)
  | windowRefused (w : Window) (reason : Nat)
  | bankReply (who : List Nat) (addr status : Nat) (data : List Byte)
  | dramRead (line : Nat) (sectors : BitVec 4) (cls : DramClass)
  | dramData (addr : Nat) (data : List Byte) (poison : Nat)
  | migration (write : Bool) (device addr : Nat) (data : List Byte) (poison : List Nat)
  | access (who : Master) (addr status : Nat) (data : Word)
  | dfp (r : DfpResp)
  | dfpEvent (port session : Nat) (record : List Byte)
  | icmp (port : Nat) (kind : Nat) (addr : BitVec 128) (ident : Nat) (data : List Byte)
  | tdo (instr : Nat) (data : List Nat)
  deriving DecidableEq, Repr

/-! ### The state -/

/-- The module's whole state and the queue of commands that wait (first in, first out). `move` is the power state asked for
and the Bell it was asked at; `waking`: the module leaves P3 and its ports train (R509). -/
structure State where
  pending    : List Instr := []
  out        : List Out := []
  free       : Nat := 0
  regs       : List (Nat × Word) := []
  staged     : List (Nat × Word) := []
  mem        : List Host.Cell := []
  dramPoison : List Nat := []
  fold       : List Host.Cell := []
  foldPoison : List Nat := []
  lines      : List (Nat × Option Line) := []
  banks      : List (Nat × Bank) := []
  ways       : List (Nat × PenWays) := []
  ranges     : List (Nat × List RangeReq) := []
  strands    : List (Nat × Strand) := []
  drovers    : List (Nat × Drover) := []
  ops        : List Op := []
  nextOp     : Nat := 0
  xl         : Xlat := {}
  chans      : List (Nat × Chan) := []
  drams      : List (Nat × Stack) := []
  bell       : BellLogic := {}
  tally      : Tally := {}
  log        : Recorder := {}
  dramUe     : List Nat := []
  irqs       : List Nat := []
  closed     : List Nat := []
  resetPaddocks : List Nat := []
  siteReqs   : List SiteReq := []
  fab        : Fabric := {}
  penClock   : List (Nat × Nat) := []
  penGated   : List Nat := []
  savedXfers : List (Nat × Op) := []
  loaded     : Option ModuleRecord := none
  sites      : List (Nat × Site) := []
  siteHeld   : List SiteHeld := []
  mboxes     : List (Nat × Mbox) := []
  zones      : List (Nat × Zone) := []
  move       : Option (Nat × Word) := none
  waking     : Bool := false
  down       : Option Down := none
  resetting  : Option (Nat × Nat × Bool × Bool) := none
  zeroPads   : List Nat := []
  mram       : Mram := {}
  flash      : Flash := {}
  crook      : Crook := {}
  ports      : MgmtPorts := {}
  trace      : List (Nat × List Byte) := []
  deriving DecidableEq, Repr

/-- Why the module stops with a fault. No command raises one: every event the spec describes has an effect or none. -/
inductive Fault where
  /-- Raised by no meaning; safe. -/
  | none
  deriving DecidableEq, Repr

/-- Why a command has no outcome in the model. -/
inductive Refusal where
  /-- Raised by the arms of `exec` whose command has no meaning yet; safe. -/
  | notModelled (mnemonic : String)
  deriving DecidableEq, Repr

/-- The module at auxiliary power good, before S0 step 1: every register at its Reset column, nothing listed. -/
def State.reset : State := {}

end Sys2Proof.Machine
end

