-- ==== Sys2Proof/Machine/Ops.lean ====
section
/-! DEFINITION. Machine/Ops.lean: the named operations over registers, strands, operations in flight, interrupt
sources and free values that every meaning uses. -/
namespace Sys2Proof.Machine

/-! ### Registers (R10 to R14) -/

/-- The active value of the register at an address. -/
def State.reg (s : State) (a : Nat) : Word := Tab.get regReset s.regs a

/-- Set the active value of a register. -/
def State.setReg (s : State) (a : Nat) (v : Word) : State := { s with regs := Tab.put regReset s.regs a v }

/-- The staging copy of a register (R14). -/
def State.stg (s : State) (a : Nat) : Word := Tab.get regReset s.staged a

/-- Set the staging copy of a register. -/
def State.setStg (s : State) (a : Nat) (v : Word) : State := { s with staged := Tab.put regReset s.staged a v }

/-- Read a field. -/
def State.rd (s : State) (f : Fld) : Nat := bits (s.reg f.addr) f.hi f.lo

/-- Write a field. -/
def State.wr (s : State) (f : Fld) (v : Nat) : State := s.setReg f.addr (setBits (s.reg f.addr) f.hi f.lo v)

/-- Write a field where a command names it. -/
def State.wrSome (s : State) (f : Fld) : Option Nat → State
  | some v => s.wr f v
  | none => s

/-- Read a field's staging copy. -/
def State.rdS (s : State) (f : Fld) : Nat := bits (s.stg f.addr) f.hi f.lo

/-- Write a field's staging copy. -/
def State.wrS (s : State) (f : Fld) (v : Nat) : State := s.setStg f.addr (setBits (s.stg f.addr) f.hi f.lo v)

/-- A one-bit field as a truth value. -/
def State.flag (s : State) (f : Fld) : Bool := s.rd f = 1

/-- Raise a saturating count by k. -/
def State.sat (s : State) (f : Fld) (k : Nat) : State := s.wr f (satAdd (f.hi + 1 - f.lo) (s.rd f) k)

/-- Raise a wrapping count by k. -/
def State.inc (s : State) (f : Fld) (k : Nat) : State := s.wr f (s.rd f + k)

/-- Set or clear bit n of a field. -/
def State.wrBit (s : State) (f : Fld) (n : Nat) (b : Bool) : State :=
  s.wr f (if b then s.rd f ||| 2 ^ n else if (s.rd f).testBit n then s.rd f - 2 ^ n else s.rd f)

/-- Bit n of a field. -/
def State.rdBit (s : State) (f : Fld) (n : Nat) : Bool := (s.rd f).testBit n

/-! ### Power (R13, R504, R509, R516) -/

/-- Addresses of the register blocks outside the auxiliary domain: those from the transit block on, the error units West,
East and transit, and the doorbell windows (Table 20.6). -/
def outsideAux (a : Nat) : Bool :=
  0x30000100000 ≤ a || (0x30000003000 ≤ a && a < 0x30000006000) || (0x30000020000 ≤ a && a < 0x30000030000)

/-- Whether the domains outside the auxiliary one are unpowered: in P3, which Fallow mode is powered as, until the module
begins to leave it (R509, R544), and in P4. -/
def State.dark (s : State) : Bool := 3 ≤ s.rd Fd.pwrStatusState && !s.waking

/-- Whether an address lies in a domain that P3 powers down. -/
def State.asleepAt (s : State) (a : Nat) : Bool := s.dark && outsideAux a

/-- Whether a write reaches the register at an address: the module is powered, and so is the register's block. -/
def State.reaches (s : State) (a : Nat) : Bool := s.down.isNone && !s.asleepAt a

/-! ### Outputs, interrupt sources, free values -/

/-- Send something out of the module. -/
def State.emit (s : State) (o : Out) : State := { s with out := s.out ++ [o] }

/-- Raise an interrupt source of the management cores; it stays pending until cleared at the controller (R599). -/
def State.irq (s : State) (n : Nat) : State := { s with irqs := Nats.ins s.irqs n }

/-- A fresh free value (notes/assumptions/5.md). -/
def State.freeWord (s : State) : Word := Config.freeValue s.free

/-- Count a free value as taken. -/
def State.taken (s : State) : State := { s with free := s.free + 1 }

/-! ### Geometry (R23 to R39) -/

/-- Pen, Paddock and half of a physical Drover. -/
def penOf (d : Nat) : Nat := d / 8
def paddockOf (d : Nat) : Nat := d / 32
def halfOf (d : Nat) : Nat := d / 64

/-- Work for a Pen ungates its clock (R505). -/
def State.ungate (s : State) (p : Nat) : State := { s with penGated := Nats.del s.penGated p }

/-- Grid row and column of a Pen, and the hops between two Pens (Table 1.1, R26, R27). -/
def penRow (p : Nat) : Nat := p % 8 / 2
def penCol (p : Nat) : Nat := 2 * (p / 8) + p % 2
def penHops (p q : Nat) : Nat :=
  (penRow p - penRow q) + (penRow q - penRow p) + ((penCol p - penCol q) + (penCol q - penCol p))

/-! ### Time -/

/-- `BELL_COUNT` (R64). -/
def State.bellCount (s : State) : Word := s.reg Fd.bellCount.addr

/-- Lock states (Table 2.2). -/
def bsAcquiring : Nat := 0
def bsLocked : Nat := 1
def bsHoldover : Nat := 2
def bsUnlocked : Nat := 3
def bsBellwether : Nat := 4

/-- The lock state. -/
def State.bellState (s : State) : Nat := s.rd Fd.bellStatusState

/-! ### Strands -/

/-- The state of strand t of physical Drover d. -/
def State.strand (s : State) (d t : Nat) : Strand := Tab.get (fun _ => {}) s.strands (8 * d + t)

/-- Set the state of a strand. -/
def State.setStrand (s : State) (d t : Nat) (x : Strand) : State :=
  { s with strands := Tab.put (fun _ => {}) s.strands (8 * d + t) x }

/-- The rest of a Drover's state. -/
def State.drv (s : State) (d : Nat) : Drover := Tab.get (fun _ => {}) s.drovers d

/-- Set the rest of a Drover's state. -/
def State.setDrv (s : State) (d : Nat) (x : Drover) : State :=
  { s with drovers := Tab.put (fun _ => {}) s.drovers d x }

/-- Read a g register; g0 reads zero (R68, R108). -/
def Strand.rg (x : Strand) (n : Nat) : Word := if n = 0 then 0 else Tab.get (fun _ => 0) x.g n

/-- Write a g register; g0 discards (R68, R108). -/
def Strand.wg (x : Strand) (n : Nat) (v : Word) : Strand :=
  if n = 0 then x else { x with g := Tab.put (fun _ => 0) x.g n v }

/-- Read a d register. -/
def Strand.rdd (x : Strand) (n : Nat) : Desc := Tab.get (fun _ => 0) x.d n

/-- Write a d register. -/
def Strand.wdd (x : Strand) (n : Nat) (v : Desc) : Strand := { x with d := Tab.put (fun _ => 0) x.d n v }

/-- Read a completion counter. -/
def Strand.rc (x : Strand) (n : Nat) : BitVec 32 := Tab.get (fun _ => 0) x.c n

/-- Raise a completion counter modulo 2^32 (R75). -/
def Strand.raise (x : Strand) (n : Nat) (v : BitVec 32) : Strand :=
  { x with c := Tab.put (fun _ => 0) x.c n (x.rc n + v) }

/-- Strand phases (Table 3.2). -/
def phIdle : Nat := 0
def phRunning : Nat := 1
def phStalled : Nat := 2
def phEnding : Nat := 3
def phSaving : Nat := 4
def phFenced : Nat := 5

/-- Offer a status to `FIRST_FAIL`: it keeps the first that is not `OK` (R116). -/
def Strand.offer (x : Strand) (st : Nat) : Strand :=
  if x.firstFail = 0 then { x with firstFail := BitVec.ofNat 16 st } else x

/-- `CTX` and `NOTIFY` of the start record that began a strand. -/
def Strand.ctx (x : Strand) : Nat := x.start.ctx.toNat
def Strand.notify (x : Strand) : Nat := x.start.notify.toNat

/-! ### Operations in flight -/

/-- The operation in flight with a number. -/
def State.op? (s : State) (id : Nat) : Option Op := s.ops.find? fun o => o.id = id

/-- Replace an operation in flight. -/
def State.setOp (s : State) (o : Op) : State := { s with ops := s.ops.map fun p => if p.id = o.id then o else p }

/-- Remove an operation in flight: its tag is freed. -/
def State.dropOp (s : State) (id : Nat) : State := { s with ops := s.ops.filter fun p => p.id ≠ id }

/-- Add an operation in flight: it takes a tag. -/
def State.addOp (s : State) (o : Op) : State := { s with ops := s.ops ++ [o], nextOp := s.nextOp + 1 }

/-- The operations of a strand that hold it: those not detached. -/
def State.opsOf (s : State) (d t : Nat) : List Op :=
  s.ops.filter fun o => o.drover = d && o.strand = t && !o.detached

/-- Tags in use by a Drover (R73). -/
def State.tagsOf (s : State) (d : Nat) : Nat := (s.ops.filter fun o => o.drover = d && !o.detached && o.phase ≠ .untagged).length

/-- Whether a strand may take another tag: eight are its own, the other 192 shared (R73). -/
def State.tagFree (s : State) (d t : Nat) : Bool :=
  let held (u : Nat) : Nat := ((s.opsOf d u).filter (·.phase ≠ .untagged)).length
  let mine := held t
  let pool := ((List.range 8).map fun u => held u - 8).sum
  mine < 8 || pool < 192

/-! ### The Tally's answers (R93 to R102) -/

/-- The physical Drover that the routers' copies of the Tally bind to a logical number, if one is (R94, R96). -/
def State.physical? (s : State) (n : Nat) : Option Nat :=
  match Tab.get (fun _ => 0) s.tally.copies n with
  | 0 => none
  | k + 1 => some k

/-- The logical number that the Tally binds to a physical Drover, 0xFF when none (R93, R102). -/
def State.logicalOf (s : State) (d : Nat) : Nat :=
  ((List.range 128).find? fun n => s.rd (Fd.tallyEntryState n) = 0 && s.rd (Fd.tallyEntryPhysical n) = d).getD 0xFF

/-- `DRV_STATUS_k.STATE` of a physical Drover (Table 13.3). -/
def State.drvState (s : State) (d : Nat) : Nat := s.rd (Fd.drvStatusState (d / 8) (d % 8))

/-- Own device number (Table 12.1). -/
def State.device (s : State) : Nat := s.rd Fd.fabGeomDevice

end Sys2Proof.Machine
end

