-- ==== Sys2Proof/Machine/Recorder.lean ====
section
/-! DEFINITION. Machine/Recorder.lean: event records, coalescing, rate limits, notification and the log (chapter 19). -/
namespace Sys2Proof.Machine

/-! ### Unit words (Table 19.2) -/

def uwModule : Nat := 0
/-- Drover word without a strand: field [10:8] all ones, bit 11 zero (R559). -/
def uwDrover (d : Nat) : Nat := 0x10000700 + d
/-- Drover word naming a strand. -/
def uwStrand (d t : Nat) : Nat := 0x10000800 + d + 256 * t
def uwFold (bank set way : Nat) : Nat := 0x20000000 + bank + 2 ^ 9 * set + 2 ^ 19 * way
/-- DRAM word; 63 in `wire` where no single wire applies. -/
def uwDram (stack chan pch wire : Nat) : Nat := 0x30000000 + stack + 8 * chan + 512 * pch + 1024 * wire
def uwMesh (router : Nat) : Nat := 0x40000060 + router
def uwSeam (row : Nat) : Nat := 0x4000001F + 32 * row
def uwLane (port lane : Nat) : Nat := 0x50000000 + port + 16 * lane
def uwPort (port : Nat) : Nat := 0x500000F0 + port
/-- Optical word that names no port. -/
def uwNoPort : Nat := 0x5000007F
def uwLaser (m : Nat) : Nat := 0x60000000 + m
/-- Site word: bundle 31 and wire 0x1FF where they do not apply. -/
def uwSite (k : Nat) : Nat := 0x7001FF7C + k
def uwBundle (k b : Nat) (up : Bool) : Nat := 0x7001FF00 + k + 4 * b + 128 * b2n up
def uwZone (z : Nat) : Nat := 0x800001F0 + z
def uwSensor (z n : Nat) : Nat := 0x80000000 + z + 16 * n
/-- Management cores are 0 to 7, walker cores 8 to 11. -/
def uwCore (c : Nat) : Nat := 0x90000000 + c
def uwMgmt : Nat := 0x90000007
def uwCrook : Nat := 0xA0000000

/-- Error-unit numbers, and the sources Crook and firmware (Table 19.3). -/
def euTransit : Nat := 2
def euAux : Nat := 3
def srcCrook : Nat := 4
def srcFirmware : Nat := 5

/-- The severities of Table 19.4, by code; `none` outside the table. 0x0002 and 0x0003 carry another's severity. -/
def sevTable : List (Nat × Nat) := [
  (0x0001, 0), (0x0002, 0), (0x0003, 0), (0x0004, 2), (0x0005, 2), (0x0006, 0), (0x0010, 0), (0x0011, 5), (0x0012, 5),
  (0x0013, 5), (0x0014, 5), (0x0015, 0), (0x0016, 0), (0x0017, 2), (0x0018, 2), (0x0019, 2), (0x0101, 3), (0x0102, 3),
  (0x0103, 0), (0x0104, 2), (0x0105, 2), (0x0201, 1), (0x0202, 3), (0x0203, 2), (0x0204, 0), (0x0205, 3), (0x0301, 1),
  (0x0302, 3), (0x0303, 2), (0x0304, 4), (0x0305, 2), (0x0306, 3), (0x0307, 0), (0x0401, 1), (0x0402, 3), (0x0403, 5),
  (0x0404, 4), (0x0405, 4), (0x0406, 3), (0x0501, 0), (0x0502, 2), (0x0503, 1), (0x0504, 4), (0x0505, 4), (0x0506, 2),
  (0x0507, 0), (0x0508, 2), (0x0601, 2), (0x0602, 0), (0x0603, 2), (0x0604, 2), (0x0605, 0), (0x0606, 3), (0x0607, 3),
  (0x0701, 0), (0x0702, 4), (0x0703, 2), (0x0704, 2), (0x0801, 2), (0x0802, 2), (0x0803, 0), (0x0804, 2), (0x0805, 0),
  (0x0806, 0), (0x0901, 3), (0x0902, 0)]

def sevOf? (code : Nat) : Option Nat := (sevTable.find? fun e => e.1 = code).map (·.2)
def sevOf (code : Nat) : Nat := (sevOf? code).getD 0

/-- Codes without a bucket: Fatal ones and 0x0001 to 0x0006 (R567). -/
def noBucket (code : Nat) : Bool := sevOf code = 5 || (1 ≤ code && code ≤ 6)

/-- Firmware codes share the bucket of 0x8000 (R577). -/
def bucketKey (code : Nat) : Nat := if 0x8000 ≤ code then 0x8000 else code

/-- Buckets start full (R565). -/
def Recorder.bucket (l : Recorder) (code : Nat) : Bucket := Tab.get (fun _ => {}) l.buckets code

def Recorder.setBucket (l : Recorder) (k : Nat) (b : Bucket) : Recorder :=
  { l with buckets := Tab.put (fun _ => {}) l.buckets k b }

def State.setLog (s : State) (l : Recorder) : State := { s with log := l }
def State.setBuffer (s : State) (b : List Rec) : State := s.setLog { s.log with buffer := b }

/-- The error unit of a source (R558). -/
def unitOfSrc (src : Nat) : Nat := if src ≤ 3 then src else euAux

/-- The 32 bytes of a record (Table 19.3). -/
def Rec.bytes (r : Rec) : List Byte :=
  toBytes 4 r.seq ++ toBytes 2 r.code ++ toBytes 1 (16 * r.src + r.sev) ++
    toBytes 1 (b2n r.isOpen + 2 * b2n r.coalesced + 4 * b2n r.pf + 8 * b2n r.firmware) ++ toBytes 4 r.time ++
    toBytes 3 r.cycles ++ toBytes 1 r.frac ++ toBytes 4 r.p0 ++ toBytes 4 r.p1 ++ toBytes 4 r.p2 ++ toBytes 4 r.p3

/-- Operating time in seconds (R569). -/
def State.seconds (s : State) : Nat := s.log.time / 1000000000

/-! ### Notification (R561 to R564) -/

/-- The record in service of an error unit, and its queue. -/
def State.service (s : State) (u : Nat) : Option Rec := Tab.get (fun _ => none) s.log.service u
def State.queue (s : State) (u : Nat) : List Rec := Tab.get (fun _ => []) s.log.queues u

/-- Put a record in its place: severity first, then sequence number. -/
def insertRec (r : Rec) : List Rec → List Rec
  | [] => [r]
  | q :: t => if q.sev < r.sev ∨ (q.sev = r.sev ∧ r.seq < q.seq) then r :: q :: t else q :: insertRec r t

/-- A record enters service: its copy shows in `ERR_SVC_0` to `ERR_SVC_3` and the unit's source is raised (R561). -/
def State.enterService (s : State) (u : Nat) (r : Rec) : State :=
  let b := r.bytes
  let s := { s with log := { s.log with service := Tab.put (fun _ => none) s.log.service u (some r) } }
  let s := eachUpTo 4 (fun s i => s.wr (Fd.errSvc u i) (ofBytes ((b.drop (8 * i)).take 8))) s
  ((s.wr (Fd.errStatusInService u) 1).wr (Fd.errStatusSvcSev u) r.sev).irq (u + 1)

/-- Queue a notification; a 17th drops the last in order (R564). -/
def State.enqueue (s : State) (u : Nat) (r : Rec) : State :=
  let q := insertRec r (s.queue u)
  let l := s.log
  if q.length ≤ 16 then { s with log := { l with queues := Tab.put (fun _ => []) l.queues u q } }
  else
    let sv := ((q.drop 16).map (·.sev)).foldl max (Tab.get (fun _ => 0) l.lostSev u)
    let s := { s with log := { l with
      queues := Tab.put (fun _ => []) l.queues u (q.take 16)
      lostRun := Tab.put (fun _ => 0) l.lostRun u (Tab.get (fun _ => 0) l.lostRun u + 1)
      lostSev := Tab.put (fun _ => 0) l.lostSev u sv } }
    s.sat (Fd.errStatusLost u) 1

/-- Notify management firmware of a new record, and DFP subscribers (R455, R561, R562). -/
def State.notifyRec (s : State) (u : Nat) (r : Rec) : State :=
  let s := s.crook.subs.foldl (fun t p => t.emit (.dfpEvent p.1 p.2 r.bytes)) s
  match s.service u with
  | none => s.enterService u r
  | some q => if q.sev < r.sev then (s.enqueue u q).enterService u r else s.enqueue u r

/-! ### Creating records (R560, R565 to R571) -/

/-- Form a record with the next sequence number and the present operating time. -/
def State.formRec (s : State) (src code sev p0 p1 p2 : Nat) (fw : Bool) : Rec :=
  { seq := s.rd Fd.logEnd, code, unit := unitOfSrc src, src, sev, isOpen := true, coalesced := false, pf := false,
    firmware := fw, opened := s.log.time, time := s.seconds, cycles := s.log.cycles,
    frac := s.log.time % 1000000000 * 256 / 1000000000, p0, p1, p2, p3 := 1 }

/-- Create a record: it takes the next `SEQ` and a place in the buffer, and is notified. A full buffer drops it, or,
once the log is full, overwrites the oldest (R571, R573). -/
def State.createRec (s : State) (src code sev p0 p1 p2 : Nat) (fw : Bool := false) : State :=
  let r := s.formRec src code sev p0 p1 p2 fw
  let l := s.log
  if l.buffer.length < 4096 then
    ((s.setBuffer (l.buffer ++ [r])).inc Fd.logEnd 1).notifyRec r.unit r
  else if s.flag Fd.logStatusFull then
    (((s.setBuffer (l.buffer.drop 1 ++ [r])).inc Fd.logEnd 1).sat Fd.logStatusFullDropped 1).notifyRec r.unit r
  else (s.setLog { l with dropped := l.dropped + 1 }).sat Fd.logStatusBufDropped 1

/-- Whether a record is within 1 ms of its first event (R560). -/
def Rec.young (r : Rec) (now : Nat) : Bool := decide (now < r.opened + 1000000)

/-- Whether an open record takes the event in (R560). -/
def Rec.matches (r : Rec) (now u code p0 : Nat) : Bool :=
  r.isOpen && r.young now && r.unit = u && r.code = code && r.p0 = p0

/-- The size of a bucket (Table 19.7), and what it holds when a token is taken: a full one begins to gain (R565). -/
def Bucket.size (b : Bucket) : Nat := max b.burst 1
def Bucket.take (b : Bucket) (now : Nat) : Bucket :=
  { b with tokens := b.tokens - 1, since := if b.size ≤ b.tokens then now else b.since }

/-- Whether an event with parameter 0 finds its code's bucket empty, with no open record to take it in (R565, R567). -/
def State.suppresses (s : State) (src code p0 : Nat) : Bool :=
  let b := s.log.bucket (bucketKey code)
  !s.log.stopped && !s.log.buffer.any (fun r => r.matches s.log.time (unitOfSrc src) code p0) && !noBucket code &&
    b.rate ≠ 0 && b.tokens = 0

/-- An event with parameters reaches an error unit: it coalesces, is suppressed, or makes a record. -/
def State.recordSev (s : State) (src code sev p0 p1 p2 : Nat) (fw : Bool) : State :=
  let l := s.log
  let u := unitOfSrc src
  if l.stopped then s
  else if l.buffer.any (fun r => r.matches l.time u code p0) then
    s.setBuffer (updateWhere (fun r => r.matches l.time u code p0)
      (fun r => { r with p3 := satAdd 32 r.p3 1, coalesced := true }) l.buffer)
  else if noBucket code then s.createRec src code sev p0 p1 p2 fw
  else
    let k := bucketKey code
    let b := l.bucket k
    if b.rate = 0 then s.createRec src code sev p0 p1 p2 fw
    else if b.tokens = 0 then
      let b' := { b with waiting := satAdd 16 b.waiting 1, suppressed := satAdd 32 b.suppressed 1 }
      s.setLog (l.setBucket k (if b.waiting = 0 then { b' with first := s.seconds, src, sev } else b'))
    else (s.setLog (l.setBucket k (b.take l.time))).createRec src code sev p0 p1 p2 fw

/-- An event of Table 19.4. -/
def State.record (s : State) (src code p0 p1 p2 : Nat) : State := s.recordSev src code (sevOf code) p0 p1 p2 false

/-! ### The log (R570 to R575) -/

/-- Write one closed record to MRAM; the last place takes `LOG_FULL` (R573). -/
def State.writeLog (s : State) (r : Rec) : State :=
  let s := { s with log := { s.log with log := s.log.log ++ [r], written := s.log.written + 1 } }
  if s.log.written = 65535 then
    let f := { s.formRec euAux 0x0005 2 uwModule 0 0 false with isOpen := false }
    ((({ s with log := { s.log with log := s.log.log ++ [f], written := 65536 } }).inc Fd.logEnd 1).wr
      Fd.logStatusFull 1).notifyRec euAux f
  else s

/-- Move the closed records at the front of the buffer to MRAM, in `SEQ` order, until the log is full; then report
what a full buffer dropped (R570, R571). -/
def State.flushRecs (s : State) : State :=
  let n := (s.log.buffer.takeWhile fun r => !r.isOpen).length
  let s := eachUpTo n (fun s _ =>
    match s.log.buffer with
    | [] => s
    | r :: t => if s.flag Fd.logStatusFull then s else ({ s with log := { s.log with buffer := t } }).writeLog r) s
  if s.log.dropped ≠ 0 ∧ s.log.buffer.length < 4096 then
    let k := s.log.dropped
    ({ s with log := { s.log with dropped := 0 } }).createRec euAux 0x0004 2 uwModule k 0
  else s

/-- The record of a sequence number, if it is held: in MRAM, else in the buffer (R575). -/
def State.heldRec (s : State) (seq : Nat) : Option Rec :=
  if seq < s.rd Fd.logFirst ∨ s.rd Fd.logEnd ≤ seq then none
  else match s.log.log.find? (fun r => r.seq = seq) with
    | some r => some r
    | none => s.log.buffer.find? fun r => r.seq = seq

/-- Clearing the log, at a commit of `LOG_CLEAR` (R574). -/
def State.clearLog (s : State) : State :=
  let last := s.rd Fd.logEnd - 1
  let s := s.wr Fd.logFirst (s.rd Fd.logEnd)
  let s := (s.wr Fd.logStatusFull 0).wr Fd.logStatusFullDropped 0
  let r := { s.formRec euAux 0x0006 0 uwModule last 0 false with isOpen := false }
  (({ s with log := { s.log with log := [r], written := 1 } }).inc Fd.logEnd 1).notifyRec euAux r

/-- Close every record, at step 4 of a power-fail, and write the buffer with `PF` set at step 6 (R572). -/
def State.closeAll (s : State) : State :=
  s.setBuffer (s.log.buffer.map fun r => { r with isOpen := false })
def State.flushPf (s : State) : State :=
  let b := s.log.buffer.map fun r => { r with isOpen := false, pf := true }
  (s.setLog { s.log with buffer := b, stopped := true }).flushRecs

/-- `RATE_CFG` as `RATE_SEL` selects it (R580). -/
def State.rateCfg (s : State) : Word :=
  let c := s.rd Fd.rateSel
  if c = 0x8000 ∨ (sevOf? c).isSome then
    let b := s.log.bucket c
    BitVec.ofNat 64 (2 ^ 56 * b.rate + 2 ^ 48 * b.burst + 2 ^ 32 * b.waiting + b.suppressed)
  else 0

/-- A write of `RATE_CFG` sets the selected bucket's rate and burst; a bucket holds at most its size (Table 19.7, R580). -/
def State.setRateCfg (s : State) (v : Word) : State :=
  let c := s.rd Fd.rateSel
  if c = 0x8000 ∨ (sevOf? c).isSome then
    let b := s.log.bucket c
    let size := max (bits v 55 48) 1
    s.setLog (s.log.setBucket c { b with rate := bits v 63 56, burst := bits v 55 48, tokens := min b.tokens size })
  else s

/-! ### Commands -/

/-- RECORD_CLOSE: the record of `seq` closes 1 ms after its first event and is written in `SEQ` order (R560, R570). -/
def execRecordClose (seq : BitVec 32) (s : State) : Host.Outcome State Fault Refusal :=
  .next (s.setBuffer (updateWhere (fun r => r.seq = seq.toNat && r.isOpen && !r.young s.log.time)
    (fun r => { r with isOpen := false }) s.log.buffer)).flushRecs

/-- BUCKET_REFILL: the bucket of a code that is not full gains a token once its rate's share of a second has passed since
the token before, or since it was full. The token is spent at once on a `SUPPRESSED` record if events were suppressed
(R565, R566). -/
def execBucketRefill (code : BitVec 16) (s : State) : Host.Outcome State Fault Refusal :=
  let k := bucketKey code.toNat
  let b := s.log.bucket k
  let due := decide (1000000000 ≤ (s.log.time - b.since) * b.rate)
  let b' := { b with since := b.since + 1000000000 / b.rate }
  if noBucket k || b.size ≤ b.tokens || !due then .next s
  else if b.waiting ≠ 0 then
    .next ((s.setLog (s.log.setBucket k { b' with waiting := 0 })).createRec b.src 0x0002 b.sev k b.waiting b.first)
  else .next (s.setLog (s.log.setBucket k { b' with tokens := b.tokens + 1 }))

/-- The next notification enters service, or none does; then the notifications lost are reported, by a record that is never
dropped: while the buffer has no place for it, its count goes on (R563, R564). -/
def State.endService (s : State) (u : Nat) : State :=
  let l := s.log
  let s := match s.queue u with
    | [] =>
      ((s.setLog { l with service := Tab.put (fun _ => none) l.service u none }).wr (Fd.errStatusInService u) 0).wr
        (Fd.errStatusSvcSev u) 0
    | r :: t => (s.setLog { l with queues := Tab.put (fun _ => []) l.queues u t }).enterService u r
  let k := Tab.get (fun _ => 0) s.log.lostRun u
  let sv := Tab.get (fun _ => 0) s.log.lostSev u
  if k ≠ 0 ∧ (s.queue u).length < 16 ∧ (s.log.buffer.length < 4096 ∨ s.flag Fd.logStatusFull) then
    let l := s.log
    let l := { l with lostRun := Tab.put (fun _ => 0) l.lostRun u 0, lostSev := Tab.put (fun _ => 0) l.lostSev u 0 }
    (s.setLog l).createRec u 0x0003 sv u k 0
  else s

/-- ERR_ACK: the sequence number in service ends its service; any other sets `ACK_MISS` (R563). -/
def execErrAck (u : Fin 4) (seq : BitVec 32) (s : State) : Host.Outcome State Fault Refusal :=
  if s.down.isSome then .next s
  else match s.service u with
  | some r => if r.seq = seq.toNat then .next (s.endService u) else .next (s.wr (Fd.errStatusAckMiss u) 1)
  | none => .next (s.wr (Fd.errStatusAckMiss u) 1)

/-- A write of `LOG_FW_0`: its RW fields are set, and `GO` creates a record in the auxiliary error unit, or reads
suppressed; with a code or a severity that firmware may not write, it has no effect but `BAD_CODE` (R577, Table 19.8). -/
def execLogFwWrite (w0 : BitVec 64) (s : State) : Host.Outcome State Fault Refusal :=
  let code := bits w0 47 32
  let sev := bits w0 51 48
  let p0 := bits w0 31 0
  let s1 := ((s.wr Fd.logFw0Sev sev).wr Fd.logFw0Code code).wr Fd.logFw0P0 p0
  if s.down.isSome then .next s
  else if bit w0 63 = false then .next s1
  else if code < 0x8000 ∨ 5 < sev then .next (s.wr Fd.logFw0Result 1)
  else
    let s2 := s1.recordSev srcFirmware code sev p0 (s.rd Fd.logFw1P1) (s.rd Fd.logFw1P2) true
    .next (s2.wr Fd.logFw0Result (2 * b2n (s1.suppresses srcFirmware code p0)))

end Sys2Proof.Machine
end

