-- ==== Sys2Proof/Machine/Memory.lean ====
section
/-! DEFINITION. Machine/Memory.lean: local address regions (Table 1.7), DRAM bytes and poison below the Fold, with
the channel hash and the reserve stripe (chapter 9). -/
namespace Sys2Proof.Machine

/-! ### Regions (R40, R447) -/

def isStack (a : Nat) : Bool := a < 0x8000000000
def isScratch (a : Nat) : Bool := 0x10000000000 ≤ a && a < 0x10040000000
def isSiteWin (a : Nat) : Bool := 0x20000000000 ≤ a && a < 0x24000000000
def isRegSpace (a : Nat) : Bool := 0x30000000000 ≤ a && a < 0x40000000000
def isMgmtMem (a : Nat) : Bool := 0x40000000000 ≤ a && a < 0x40400000000
/-- Module-local memory: a stack range or the scratchpad window (R146). -/
def isLocalMem (a : Nat) : Bool := isStack a || isScratch a

/-- Site of a site window address. -/
def siteOf (a : Nat) : Nat := a / 2 ^ 36 % 4

/-- What a byte of memory reads as when no entry lists it: memory is zeroed in S2 (notes/assumptions/8.md). -/
def blank : Nat → Byte := fun _ => 0

/-- The canonical form of a byte memory. -/
def Memory.wf (m : List Host.Cell) : Bool := Tab.wf blank m

/-- One byte of a byte memory. -/
def Memory.read (m : List Host.Cell) (a : Nat) : Byte := Tab.get blank m a

/-- Write bytes from an address on. -/
def Memory.write (m : List Host.Cell) (a : Nat) : List Byte → List Host.Cell
  | [] => m
  | b :: t => Memory.write (Tab.put blank m a b) (a + 1) t

/-- Bytes from an address on. -/
def Memory.bytes (m : List Host.Cell) (a n : Nat) : List Byte := (List.range n).map fun i => Memory.read m (a + i)

/-! ### The channel hash (R278) and the stripe (R304 to R307) -/

/-- Line number within the stack. -/
def lineNo (a : Nat) : Nat := a / 128 % 2 ^ 29

/-- Field [hi:lo] of a number. -/
def fld (a hi lo : Nat) : Nat := a / 2 ^ lo % 2 ^ (hi + 1 - lo)

/-- Channel of line number `a` (R278). -/
def chanOf (a : Nat) : Nat :=
  Nat.xor (Nat.xor (Nat.xor (Nat.xor (fld a 5 0) (fld a 13 8)) (fld a 21 16)) (fld a 28 24))
    (16 * fld a 23 22 + 4 * fld a 15 14 + fld a 7 6)

/-- Column pair, bank and row of a line number (R278). -/
def colOf (a : Nat) : Nat := fld a 9 6
def dramBankOf (a : Nat) : Nat := Nat.xor (fld a 13 10) (fld a 17 14)
def rowOf (a : Nat) : Nat := fld a 28 14

/-- The top 1 GiB of a stack (R304). -/
def inStripe (a : Nat) : Bool := fld (lineNo a) 28 23 = 63

def State.stack (s : State) (k : Nat) : Stack := Tab.get (fun _ => {}) s.drams k
def State.setStack (s : State) (k : Nat) (x : Stack) : State := { s with drams := Tab.put (fun _ => {}) s.drams k x }

/-- A channel of a stack, by stack and channel. -/
def State.chan (s : State) (k c : Nat) : Chan := Tab.get (fun _ => {}) s.chans (64 * k + c)
def State.setChan (s : State) (k c : Nat) (x : Chan) : State :=
  { s with chans := Tab.put (fun _ => {}) s.chans (64 * k + c) x }

/-- Whether the stripe serves the channel of a line (R305). -/
def State.redirected (s : State) (a : Nat) : Bool :=
  let k := a / 2 ^ 36
  s.flag (Fd.dramStackStatusStripeUsed k) && !inStripe a && chanOf (lineNo a) = s.rd (Fd.dramStackStatusStripeChan k)

/-- Where a byte of a stack lies below the Fold; none when its channel is lost without a reserve (R305, R307). -/
def State.place (s : State) (a : Nat) : Option Nat :=
  let k := a / 2 ^ 36
  let p := if s.redirected a then k * 2 ^ 36 + 0xFC0000000 + a % 2 ^ 30 else a
  if (s.stack k).lost.contains (chanOf (lineNo p)) then none else some p

/-- A byte as DRAM holds it. -/
def State.dramByte (s : State) (a : Nat) : Byte :=
  match s.place a with
  | some p => Memory.read s.mem p
  | none => 0

/-- Whether a sector, where it lies, is written as poisoned: by a write, or by the retirement whose lines it serves (R282,
R306). -/
def State.isPoisoned (s : State) (p : Nat) : Bool :=
  let k := p / 2 ^ 36
  s.dramPoison.contains (p / 32) || (s.flag (Fd.dramStackStatusStripeUsed k) && inStripe p && !(s.stack k).clean &&
    !(s.stack k).cleaned.contains (p / 32))

/-- Whether the sector of an address reads poisoned from DRAM (R281, R282, R306, R307). -/
def State.dramBad (s : State) (a : Nat) : Bool :=
  match s.place a with
  | none => true
  | some p => s.isPoisoned p || s.dramUe.contains (p / 32)

/-- Write a whole 32-byte sector with its poison; a write to a lost channel is discarded (R282, R306, R307). -/
def State.dramWrite (s : State) (a : Nat) (bs : List Byte) (bad : Bool) : State :=
  match s.place a with
  | none => s
  | some p =>
    let k := a / 2 ^ 36
    let s := { s with mem := Memory.write s.mem p bs, dramPoison := Nats.set s.dramPoison (p / 32) bad, dramUe := Nats.del s.dramUe (p / 32) }
    if s.redirected a then s.setStack k { s.stack k with cleaned := Nats.ins (s.stack k).cleaned (p / 32) } else s

/-- Whether the line of an address lies in a channel lost without a reserve (R307). -/
def State.lostAt (s : State) (a : Nat) : Bool := isStack a && (s.place a).isNone

/-- The 32 bytes of a sector as DRAM holds them. -/
def State.dramSector (s : State) (a : Nat) : List Byte := (List.range 32).map fun i => s.dramByte (a + i)

/-- Replace bytes of a list from an offset on. -/
def splice (l : List Byte) (off : Nat) (bs : List Byte) : List Byte :=
  l.take off ++ bs ++ l.drop (off + bs.length)

/-- Write part of a sector of DRAM: the rest keeps its bytes, and a poisoned sector stays so unless the write covers
all of it. -/
def State.dramPatch (s : State) (a : Nat) (bs : List Byte) (bad : Bool) : State :=
  let b := a / 32 * 32
  if bs.length = 32 then s.dramWrite b bs bad
  else s.dramWrite b (splice (s.dramSector b) (a % 32) bs) (bad || s.dramBad b)

/-! ### The controllers' queues (R288 to R292, R295, R299) -/

/-- Local address of a line of a stack. -/
def lineAddr (k line : Nat) : Nat := k * 2 ^ 36 + 128 * line

/-- Whether a channel issues nothing now: from S to S + 91 of a window, during a retrain, or with its stack out of service
(Table 9.6, R302). -/
def State.chanHeld (s : State) (k c : Nat) : Bool :=
  let x := s.chan k c
  (x.isOpen && s.bellCount.toNat < (x.window.getD 0).toNat + 91) || x.training || s.rd (Fd.dramStackStatusState k) ≠ 1

/-- The channel below the Fold that serves a local address, if one does (R278, R305, R307). -/
def State.servingChan (s : State) (a : Nat) : Option Nat := (s.place a).map fun p => chanOf (lineNo p)

/-- Whether requests for lines the Fold does not hold wait at the controller (R299, R302, R548). -/
def State.dramHeld (s : State) (a : Nat) : Bool :=
  s.chanHeld (a / 2 ^ 36) ((s.servingChan a).getD (chanOf (lineNo a)))

/-- Whether a stack's pseudo-channels are commanded apart: capability 1; without it a sector request runs as a full line
(R295, R309). -/
def State.splits (s : State) (k : Nat) : Bool := (s.rd (Fd.dramStackIdCaps k)).testBit 1

/-- Data bus time, in units of 50 ps, that a request takes of pseudo-channel `q` of its channel (Table 9.1, R288, R295). -/
def burstOf (splits : Bool) (r : DramReq) (q : Nat) : Nat :=
  match r.sector with
  | none => 50
  | some i => if !splits then 50 else if i.val / 2 = q then 25 else 0

/-- A read as it enters its queue: bit q of `left`: pseudo-channel q has its part to serve. -/
def readOf (splits : Bool) (r : DramReq) : DramRead :=
  { req := r, left := BitVec.ofNat 2 (ofBits ([0, 1].filter fun q => burstOf splits r q ≠ 0)) }

/-- A channel in this Bell: what its pseudo-channels have served starts anew with each (Table 9.3). -/
def State.chanNow (s : State) (k c : Nat) : Chan :=
  let x := s.chan k c
  if x.bell = s.bellCount then x else { x with bell := s.bellCount, use0 := {}, use1 := {}, acts := 0 }

def Chan.use (x : Chan) (q : Nat) : BusUse := if q = 0 then x.use0 else x.use1
def Chan.setUse (x : Chan) (q : Nat) (u : BusUse) : Chan := if q = 0 then { x with use0 := u } else { x with use1 := u }

/-- The bulk cap of each pseudo-channel in a Bell by its stack's zone, in units of 50 ps: the whole Bell in Green, 89.6 ns
in Amber, 38.4 ns in Red (R291). -/
def State.bulkCap (s : State) (k : Nat) : Nat :=
  match s.rd (Fd.dramStackStatusThermal k) with
  | 0 => 2560
  | 1 => 1792
  | _ => 768

/-- Bank and row of a request where its line lies (R278, R305). -/
def State.seatOf (s : State) (k : Nat) (r : DramReq) : Nat × Nat :=
  let a := lineAddr k r.line.toNat
  let n := lineNo ((s.place a).getD a)
  (dramBankOf n, rowOf n)

/-- Whether a row is open in a bank of a pseudo-channel, and an access to it (R288). -/
def Chan.rowHit (x : Chan) (q : Nat) (b : Nat × Nat) : Bool := x.rows.contains (16 * q + b.1, b.2)
def Chan.access (x : Chan) (q : Nat) (b : Nat × Nat) : Chan :=
  { x with rows := x.rows.filter (fun e => e.1 ≠ 16 * q + b.1) ++ [(16 * q + b.1, b.2)] }

/-- A row stays open only while a queued request targets it (R288). -/
def State.settleRows (s : State) (k c : Nat) : State :=
  let x := s.chan k c
  let wants (r : DramReq) (q : Nat) (e : Nat × Nat) : Bool :=
    let b := s.seatOf k r
    burstOf (s.splits k) r q ≠ 0 && decide (e = (16 * q + b.1, b.2))
  let used (e : Nat × Nat) : Bool := [0, 1].any fun q =>
    x.reads.any (fun r => r.left.getLsbD q && wants r.req q e) || x.writes.any fun w => wants w q e
  s.setChan k c { x with rows := x.rows.filter used }

/-- Write bursts, oldest first, until the queue holds `least` entries or the zone's cap is used up (R291, R292). -/
def State.writeBursts (s : State) (k least : Nat) (fuel : Nat) (x : Chan) : Chan :=
  match fuel, x.writes with
  | 0, _ | _, [] => x
  | fuel + 1, r :: t =>
    let cost (q : Nat) : Nat := burstOf (s.splits k) r q
    if x.writes.length ≤ least || [0, 1].any fun q => s.bulkCap k < (x.use q).bulk + cost q then x
    else
      let put (x : Chan) (q : Nat) : Chan :=
        if cost q = 0 then x
        else (x.setUse q { x.use q with bulk := (x.use q).bulk + cost q }).access q (s.seatOf k r)
      s.writeBursts k least fuel (put (put { x with writes := t } 0) 1)

/-- The write queue drains once it holds 48 entries or when no read waits, down to 16; with a read of rank 1 or 2 waiting it
stops after 8 write bursts, to go on after that read (R292). -/
def State.drainWrites (s : State) (k c : Nat) : State :=
  let x := s.chanNow k c
  let n := x.writes.length
  if s.chanHeld k c || n ≤ 16 || !(48 ≤ n || x.reads = [] || x.drain) then s
  else
    let least := if x.reads.any (fun r => r.req.cls ≠ .bulk) then max 16 (n - 8) else 16
    let x := s.writeBursts k least n x
    (s.setChan k c { x with drain := decide (16 < x.writes.length) }).settleRows k c

/-- A number below 8. -/
def fin8 (k : Nat) : Fin 8 := ⟨k % 8, Nat.mod_lt _ (by decide)⟩

/-- The chosen sectors of a line as requests: the whole line, or each sector by the Graze path (R225, R295). -/
def lineReqs (l : Nat) (m : BitVec 4) (write : Bool) (cls : DramClass) : List DramReq :=
  let one (i : Option (Fin 4)) : DramReq :=
    { stack := fin8 (l / 2 ^ 29), line := BitVec.ofNat 29 l, sector := i, write, cls }
  if m = 0xF then [one none] else ([0, 1, 2, 3].filter fun i : Fin 4 => m.getLsbD i).map fun i => one (some i)

/-- Write-backs of a line's sectors are queued at its channel, in the bulk class (R221, R226). What they write is in `mem`
from then on, where every later read of the line finds it (R243, R292). -/
def State.queueWrites (s : State) (l : Nat) (m : BitVec 4) : State :=
  let k := l / 2 ^ 29
  match s.servingChan (128 * l) with
  | none => s
  | some c =>
    let x := s.chan k c
    (s.setChan k c { x with writes := x.writes ++ lineReqs l m true .bulk }).drainWrites k c

/-- Management memory (R447), one byte or more. -/
def State.mgmtRead (s : State) (a n : Nat) : List Byte := Memory.bytes s.mem a n
def State.mgmtWrite (s : State) (a : Nat) (bs : List Byte) : State := { s with mem := Memory.write s.mem a bs }

end Sys2Proof.Machine
end

