-- ==== Sys2Proof/Machine/Fold.lean ====
section
/-! DEFINITION. Machine/Fold.lean: homing, lines, victims, fills, write-backs and accumulator lines (chapters 7, 8),
and the one read and write of module-local memory that every requester uses. -/
namespace Sys2Proof.Machine

/-! ### Homing (R212, R213, R228) -/

/-- Bank selector H and set index S of a line number (R212). -/
def hashH (a : Nat) : Nat :=
  Nat.xor (Nat.xor (Nat.xor (Nat.xor (fld a 5 0) (fld a 11 6)) (fld a 17 12)) (fld a 23 18)) (fld a 28 24)
def hashS (a : Nat) : Nat := Nat.xor (Nat.xor (fld a 15 6) (fld a 25 16)) (fld a 28 26)

/-- Device bank of a stack address or scratchpad address (R213, Table 7.3). -/
def bankOf (a : Nat) : Nat :=
  if isStack a then 64 * (a / 2 ^ 36) + hashH (lineNo a) else 32 * fld a 29 26 + fld a 11 7

/-- Set of a line of a stack address. -/
def setOf (a : Nat) : Nat := hashS (lineNo a)

/-- Scratchpad slot of a scratchpad address (Table 7.3). -/
def slotOf (a : Nat) : Nat := fld a 25 22

/-- Pen, Paddock and half of a device bank. -/
def bankPen (b : Nat) : Nat := b / 32
def bankPaddock (b : Nat) : Nat := b / 128
def bankHalf (b : Nat) : Nat := b / 256

def State.bank (s : State) (b : Nat) : Bank := Tab.get (fun _ => {}) s.banks b
def State.setBank (s : State) (b : Nat) (x : Bank) : State := { s with banks := Tab.put (fun _ => {}) s.banks b x }
def State.penWays (s : State) (p : Nat) : PenWays := Tab.get (fun _ => {}) s.ways p
def State.setPenWays (s : State) (p : Nat) (x : PenWays) : State := { s with ways := Tab.put (fun _ => {}) s.ways p x }

/-- The line held for a line number (local address / 128). -/
def State.line (s : State) (l : Nat) : Option Line := Tab.get (fun _ => none) s.lines l
def State.setLine (s : State) (l : Nat) (x : Option Line) : State :=
  { s with lines := Tab.put (fun _ => none) s.lines l x }

/-! ### Accumulator lines (R260 to R266) -/

/-- Format code of Table 4.11 of an `ACC` code of Table 10.5. -/
def accFormat (acc : Nat) : Nat :=
  match acc with
  | 0x1 => 0x0B
  | 0x2 => 0x0A
  | 0x3 => 0x0C
  | 0x4 => 0x0D
  | 0x5 => 0x10
  | 0x6 => 0x11
  | 0x7 => 0x12
  | 0x8 => 0x13
  | 0x9 => 0x14
  | 0xA => 0x15
  | _ => 0x06

/-- Cache ways an accumulator line takes (Table 8.4). -/
def accWays (acc : Nat) : Nat := if acc = 3 ∨ acc = 4 then 4 else 2

/-- Pack element codes of w bits into bytes (R202). -/
def packElems (w : Nat) (cs : List Nat) (n : Nat) : List Byte :=
  toBytes n (cs.foldr (fun c v => c + 2 ^ w * v) 0)

/-- Unpack n element codes of w bits from bytes (R202). -/
def unpackElems (w n : Nat) (bs : List Byte) : List Nat :=
  let v := ofBytes bs
  (List.range n).map fun i => v / 2 ^ (w * i) % 2 ^ w

/-- A one-block row of an MX accumulator region from its 32 values: 64 bytes (R261). -/
def mxRow (f : Option FloatSpec) (w emax area : Nat) (vs : List Val) : List Byte :=
  let p := encodeMx f emax (fun _ => none) vs
  toBytes 1 p.1 ++ zeros 31 ++ packElems w p.2 area ++ zeros (32 - area)

/-- The external image of a wide image: rounded to nearest even and narrowed saturating (R266). -/
def extImage (acc : Nat) (wide : List Word) : List Byte :=
  match fmtOf (accFormat acc) with
  | .mx f w emax area =>
    let vs := wide.map fun x => valOf32 x.toNat
    mxRow f w emax area (vs.take 32) ++ mxRow f w emax area (vs.drop 32)
  | .flt g => wide.flatMap fun x =>
      toBytes ((Fmt.flt g).size) (encodeFloat g none false (valOf32 x.toNat))
  | f => wide.flatMap fun x => toBytes 4 (encode f none false (decodeSint 64 x.toNat))

/-- Widen a value to FP32 with magnitudes beyond its largest finite clamped; true when that happened (R262). -/
def widenVal (v : Val) : Word × Bool :=
  let c := encodeFloat fp32 none false v
  (BitVec.ofNat 64 c, v.isFinite && encodeFloat fp32 none true v % 2 ^ 31 = fp32.infCode)

/-- The wide image of 128 external bytes, and whether an MX element was clamped (R262 step 3). -/
def widen (acc : Nat) (bs : List Byte) : List Word × Bool :=
  match fmtOf (accFormat acc) with
  | .mx f w _ area =>
    let row (r : List Byte) := (unpackElems w 32 ((r.drop 32).take area)).map fun x =>
      widenVal (decodeMx f (ofBytes (r.take 1)) x)
    let ws := row (bs.take 64) ++ row (bs.drop 64)
    (ws.map (·.1), ws.any (·.2))
  | f =>
    let n := f.size
    let ws := (List.range (128 / n)).map fun i =>
      let x := ofBytes ((bs.drop (n * i)).take n)
      if f.isInt then sext (BitVec.ofNat 32 x) else (widenVal (decode f x)).1
    (ws, false)

/-! ### Reading bytes -/

/-- A byte of module-local memory as a read returns it: from the Fold where its sector is valid, as the external
view of an accumulator line, from the scratchpad, else from DRAM (R209, R216, R266). -/
def State.readByte (s : State) (a : Nat) : Byte :=
  if isStack a then
    match s.line (a / 128) with
    | some l =>
      if l.ways ≠ [] then (extImage l.fmt l.wide).getD (a % 128) 0
      else if l.valid.getLsbD (a % 128 / 32) then Memory.read s.fold a else s.dramByte a
    | none => s.dramByte a
  else if isScratch a then Memory.read s.fold a
  else if isMgmtMem a then Memory.read s.mem a
  else 0

/-- Whether the byte of an address reads poisoned (R249, R282); a line lost with its channel does, held or not (R307). -/
def State.readBad (s : State) (a : Nat) : Bool :=
  if isStack a then
    match s.line (a / 128) with
    | some l => s.lostAt a || if l.ways ≠ [] || l.valid.getLsbD (a % 128 / 32) then s.foldPoison.contains (a / 8) else s.dramBad a
    | none => s.dramBad a
  else s.foldPoison.contains (a / 8)

/-- n bytes from an address on, and whether any is poisoned. -/
def State.readBytes (s : State) (a n : Nat) : List Byte := (List.range n).map fun i => s.readByte (a + i)
def State.anyBad (s : State) (a n : Nat) : Bool := (List.range n).any fun i => s.readBad (a + i)

/-! ### Lines in and out -/

/-- The Fold's bytes and poison of a line forgotten. -/
def State.eraseLine (s : State) (l : Nat) : State :=
  { s with fold := Tab.keep (fun k => k / 128 ≠ l) s.fold, foldPoison := s.foldPoison.filter fun k => k / 16 ≠ l }

/-- Set or clear the poison of a Fold word. -/
def State.setBad (s : State) (w : Nat) (b : Bool) : State := { s with foldPoison := Nats.set s.foldPoison w b }

/-- Unit word of a stack line's place in its bank. -/
def uwLine (l way : Nat) : Nat := uwFold (bankOf (128 * l)) (setOf (128 * l)) way

/-- Write back a held line's valid sectors: they are queued at its channel, poison with them (R221, R225, R226, R248, R249). -/
def State.writeBack (s : State) (l : Nat) (x : Line) : State :=
  let img := if x.ways ≠ [] then extImage x.fmt x.wide else s.readBytes (128 * l) 128
  let secs := (List.range 4).filter fun i => x.ways ≠ [] || x.valid.getLsbD i
  let bad (i : Nat) : Bool := (List.range 4).any fun j => s.foldPoison.contains (16 * l + 4 * i + j)
  let s1 := secs.foldl (fun t i => t.dramWrite (128 * l + 32 * i) ((img.drop (32 * i)).take 32) (bad i)) s
  let s2 := (s1.queueWrites l (BitVec.ofNat 4 (ofBits secs))).inc (Fd.foldWritebacks (bankPen (bankOf (128 * l)))) secs.length
  if secs.any bad then s2.record (bankHalf (bankOf (128 * l))) 0x0205 (uwLine l x.way) l 0 else s2

/-- Discard a line: its entry, bytes and poison. A pinned entry stays, with its tag and its mark, its sectors invalid (R233,
R263). -/
def State.discard (s : State) (l : Nat) (x : Line) : State :=
  (s.eraseLine l).setLine l
    (if x.pinned then some { way := x.way, valid := 0, dirty := false, pinned := true, age := x.age, early := x.early }
     else none)

/-- Evict a line chosen as victim (R221, R225). -/
def State.evict (s : State) (l : Nat) (x : Line) : State :=
  let s := if x.dirty then s.writeBack l x else s
  (s.eraseLine l).setLine l none

/-- Cache ways of a Pen that may take lines now (R227): powered, not scratchpad, cache not disabled. -/
def State.cacheWay (s : State) (p w : Nat) : Bool :=
  !s.flag (Fd.foldWaycfgCacheOff p) && w + s.rd (Fd.foldWaycfgScratch p) < 16 &&
    !(s.rd (Fd.foldWaycfgOff p)).testBit w && !(s.rd (Fd.foldWaystatOffActive p)).testBit w

/-- The lines of a set. -/
def State.setLines (s : State) (b st : Nat) : List (Nat × Line) :=
  s.lines.filterMap fun e => match e.2 with
    | some x => if bankOf (128 * e.1) = b ∧ setOf (128 * e.1) = st then some (e.1, x) else none
    | none => none

/-- Whether a way of a set holds a pinned entry or part of an accumulator line. -/
def Line.holds (x : Line) (w : Nat) : Bool := x.ways.contains w || (x.pinned && x.way = w)

/-- Candidate ways of a set for a victim, lowest first (R227). -/
def State.candidates (s : State) (b st : Nat) : List Nat :=
  let ls := s.setLines b st
  let rs := ((s.bank b).misses.filter fun m => setOf (128 * m.line) = st).filterMap (·.way)
  (List.range 16).filter fun w => s.cacheWay (bankPen b) w && !rs.contains w && ls.all fun e => !e.2.holds w

/-- The plain line in a way of a set, if one is. -/
def State.inWay (s : State) (b st w : Nat) : Option (Nat × Line) :=
  (s.setLines b st).find? fun e => e.2.ways = [] && e.2.way = w

/-- Choose a victim among candidate ways: one that holds no valid sector, else age 3 after raising every candidate's age
alike (R227). -/
def State.chooseWay (s : State) (b st : Nat) (ws : List Nat) : Option (Nat × State) :=
  match ws.find? fun w => ((s.inWay b st w).map fun e => decide (e.2.valid = 0)).getD true with
  | some w => some (w, s)
  | none =>
    let held := ws.filterMap fun w => s.inWay b st w
    let top := (held.map (·.2.age)).foldl max 0
    match held.find? fun e => e.2.age = top with
    | none => none
    | some v =>
      let s := held.foldl (fun t e => t.setLine e.1 (some { e.2 with age := min 3 (e.2.age + (3 - top)) })) s
      some (v.2.way, s)

/-- Make room for a line: choose a victim's way and evict it. None when the set has no candidate (R227). -/
def State.makeRoom (s : State) (l : Nat) : Option (Nat × State) :=
  let b := bankOf (128 * l)
  let st := setOf (128 * l)
  match s.chooseWay b st (s.candidates b st) with
  | none => none
  | some (w, s) =>
    match s.inWay b st w with
    | some v => some (w, s.evict v.1 v.2)
    | none => some (w, s)

/-- Copy sectors of a line from DRAM into the Fold, poison with them (R220, R281). -/
def State.fillSectors (s : State) (l : Nat) (mask : BitVec 4) : State :=
  ((List.range 4).filter mask.getLsbD).foldl (fun t i =>
    let a := 128 * l + 32 * i
    let bad := s.dramBad a
    let t := { t with fold := Memory.write t.fold a (s.dramSector a) }
    eachUpTo 4 (fun t j => t.setBad (a / 8 + j) bad) t) s

/-- Count in a Pen's Fold counter. -/
def State.foldCount (s : State) (f : Nat → Fld) (l : Nat) : State := s.inc (f (bankPen (bankOf (128 * l)))) 1

/-- A read's hit: the age returns to 0 unless the read streams, and a merge buffer keeps the line (R216, R222). -/
def State.hitLine (s : State) (l : Nat) (x : Line) (stream : Bool) : State :=
  let b := bankOf (128 * l)
  let m := (s.bank b).merge
  let s := s.foldCount Fd.foldHits l
  let s := if m.contains l then s.foldCount Fd.foldMerged l
    else s.setBank b { s.bank b with merge := if m.length < 4 then m ++ [l] else m.drop 1 ++ [l] }
  if stream then s else s.setLine l (some { x with age := 0 })

/-- What an access does to a line: a read, a write, or an update that reads what it writes. -/
inductive Use where
  | read | write | update
  deriving DecidableEq, Repr

/-- A hit of an access: only a read uses the merge buffers (R216, R222, R251). -/
def State.hitBy (s : State) (l : Nat) (x : Line) (stream : Bool) (u : Use) : State :=
  if u = .read then s.hitLine l x stream else s.foldCount Fd.foldHits l

/-- Bring the needed sectors of a line into the Fold, if it can hold the line: a hit, a sector miss, or a miss with
allocation, whose request carries its class (R217, R289). A `GRAZE` miss fills its sector alone (R158, R216 to R221). -/
def State.ensure (s : State) (l : Nat) (mask : BitVec 4) (stream graze : Bool) (cls : DramClass := .bulk)
    (u : Use := .read) : State :=
  match s.line l with
  | some x =>
    if x.ways ≠ [] then s.foldCount Fd.foldHits l
    else if mask &&& ~~~x.valid = 0 then s.hitBy l x stream u
    else
      let need := if graze then mask &&& ~~~x.valid else ~~~x.valid
      ((((s.foldCount Fd.foldMisses l).emit (.dramRead l need cls)).fillSectors l need)).setLine l
        (some { x with valid := x.valid ||| need, age := if stream then x.age else 0 })
  | none =>
    let need := if graze then mask else 0xF
    let s := (s.foldCount Fd.foldMisses l).emit (.dramRead l need cls)
    match s.makeRoom l with
    | none => s
    | some (w, s) =>
      (s.fillSectors l need).setLine l
        (some { way := w, valid := need, dirty := false, pinned := false, age := if stream then 3 else 0 })

/-- Sectors a span of bytes within a line touches, and those it covers whole. -/
def sectorsOf (off n : Nat) : BitVec 4 :=
  BitVec.ofNat 4 (ofBits ((List.range 4).filter fun i => off < 32 * i + 32 && 32 * i < off + n))
def wholeSectors (off n : Nat) : BitVec 4 :=
  BitVec.ofNat 4 (ofBits ((List.range 4).filter fun i => off ≤ 32 * i && 32 * i + 32 ≤ off + n))

/-- Whether writes to a Pen's lines go through to DRAM (R238). -/
def State.writesThrough (s : State) (p : Nat) : Bool := s.rd (Fd.foldWaystatPhase p) = 2

/-- Poison of the words a write touches: a word written whole takes the write's, one written in part keeps its own or
takes the write's (R249, R256). -/
def State.poisonSpan (s : State) (a n : Nat) (bad : Bool) : State :=
  ((List.range ((a + n + 7) / 8 - a / 8)).map (· + a / 8)).foldl (fun t w =>
    if a ≤ 8 * w ∧ 8 * w + 8 ≤ a + n then t.setBad w bad else if bad then t.setBad w true else t) s

/-- Write bytes to a line the Fold does not hold: they are applied to the line read from DRAM, which is written back at
once, poison with it (R227, R239, R248). -/
def State.writeUnheld (s : State) (a : Nat) (bs : List Byte) (bad : Bool) : State :=
  let l := a / 128
  let s := ((List.range 4).filter (sectorsOf (a % 128) bs.length).getLsbD).foldl (fun t i =>
    let lo := max a (128 * l + 32 * i)
    let hi := min (a + bs.length) (128 * l + 32 * i + 32)
    t.dramPatch lo ((bs.drop (lo - a)).take (hi - lo)) bad) s
  let s := (s.queueWrites l 0xF).inc (Fd.foldWritebacks (bankPen (bankOf (128 * l)))) 4
  if (List.range 4).any fun i => s.dramBad (128 * l + 32 * i) then
    s.record (bankHalf (bankOf (128 * l))) 0x0205 (uwLine l 0xF) l 0
  else s

/-- A line's merge buffer empties (R222). -/
def State.unmerge (s : State) (l : Nat) : State :=
  let b := bankOf (128 * l)
  s.setBank b { s.bank b with merge := (s.bank b).merge.filter (· ≠ l) }

/-- Write bytes that lie in one line, already held or bypassing the Fold. A held line becomes dirty, or, while the
Pen's cache is being disabled, is written through; `keep`: its age stays, as a streaming fill's does (R222, R224, R227,
R238, R259). -/
def State.pokeLine (s : State) (a : Nat) (bs : List Byte) (bad : Bool) (keep : Bool := false) : State :=
  let l := a / 128
  match s.line l with
  | some x =>
    let s := (({ s with fold := Memory.write s.fold a bs }).poisonSpan a bs.length bad).unmerge l
    let x := { x with
      valid := x.valid ||| sectorsOf (a % 128) bs.length, age := if keep then x.age else 0, dirty := true }
    if s.writesThrough (bankPen (bankOf (128 * l))) then (s.writeBack l x).setLine l (some { x with dirty := false })
    else s.setLine l (some x)
  | none => s.writeUnheld a bs bad

/-- Write bytes that lie in one line of a stack range (R224); a line lost with its channel discards them (R307). The fill a
streaming write causes enters with age 3 (R227). -/
def State.writeLine (s : State) (a : Nat) (bs : List Byte) (bad stream : Bool) (cls : DramClass := .bulk) : State :=
  if s.lostAt a then s
  else
  let l := a / 128
  let touched := sectorsOf (a % 128) bs.length
  let whole := wholeSectors (a % 128) bs.length
  match s.line l with
    | some x =>
      if touched &&& ~~~whole &&& ~~~x.valid = 0 then (s.foldCount Fd.foldHits l).pokeLine a bs bad
      else (s.ensure l touched stream false cls .write).pokeLine a bs bad stream
    | none =>
      if touched = whole then
        let s := s.foldCount Fd.foldMisses l
        match s.makeRoom l with
        | none => s.pokeLine a bs bad
        | some (w, s) => (s.setLine l
            (some { way := w, valid := 0, dirty := true, pinned := false, age := if stream then 3 else 0 })).pokeLine a bs bad stream
      else (s.ensure l touched stream false cls .write).pokeLine a bs bad stream

/-- The controller takes the request of a line's miss entry into its channel's queue, if there is room. A read of a line
whose write is queued is answered from that queue, and of a lost line at once (R217, R292, R299, R307). -/
def State.askChan (s : State) (b l : Nat) : State :=
  let put (s : State) (asked back : Bool) : State :=
    s.setBank b { s.bank b with
      misses := updateWhere (fun q => q.line = l) (fun q => { q with asked, back }) (s.bank b).misses }
  match (s.bank b).misses.find? (·.line = l), s.servingChan (128 * l) with
  | some m, some c =>
    let k := l / 2 ^ 29
    let x := s.chan k c
    if m.asked then s
    else if x.writes.any (fun w => w.line = BitVec.ofNat 29 l) then put s true true
    else if 64 ≤ x.reads.length then s
    else put (s.setChan k c { x with reads := x.reads ++ (lineReqs l m.sectors false m.cls).map (readOf (s.splits k)) }) true false
  | some _, none => put s true true
  | none, _ => s

/-- Split bytes at line boundaries: the pieces with their addresses. -/
def pieces (fuel a : Nat) (bs : List Byte) : List (Nat × List Byte) :=
  match fuel with
  | 0 => []
  | fuel + 1 =>
    if bs = [] then []
    else
      let n := 128 - a % 128
      (a, bs.take n) :: pieces fuel (a + n) (bs.drop n)

/-- Write bytes to module-local memory through the home banks, or to a scratchpad slot (R209, R210, R224). -/
def State.writeBytes (s : State) (a : Nat) (bs : List Byte) (bad stream : Bool) (cls : DramClass := .bulk) : State :=
  if isStack a then (pieces (bs.length / 128 + 2) a bs).foldl (fun t p => t.writeLine p.1 p.2 bad stream cls) s
  else if isScratch a then ({ s with fold := Memory.write s.fold a bs }).poisonSpan a bs.length bad
  else if isMgmtMem a then s.mgmtWrite a bs
  else s

/-- The lines a span touches, with the sectors of each. -/
def linesOf (a n : Nat) : List (Nat × BitVec 4) :=
  (List.range ((a + n + 127) / 128 - a / 128)).map fun i =>
    let l := a / 128 + i
    let lo := max a (128 * l)
    (l, sectorsOf (lo % 128) (min (a + n) (128 * l + 128) - lo))

/-- The effect on the Fold of the reading of a span: hits, misses and fills. -/
def State.touch (s : State) (a n : Nat) (stream graze : Bool) (cls : DramClass := .bulk) (u : Use := .read) : State :=
  if isStack a then (linesOf a n).foldl (fun t p => t.ensure p.1 p.2 stream graze cls u) s else s

/-! ### Whether an access can be served (R29, R40, R173, R229, R250, R304, R388, R506, R548) -/

/-- The outcome of asking for a span of local addresses: served, waiting at the bank or the Pen boundary, or completed
at once with a status. -/
inductive Served where
  | ok
  | waits
  | fails (st : Nat)
  deriving DecidableEq, Repr

/-- Whether a bank's scrub window is open, in which it serves no other request (R250). -/
def State.scrubbing (s : State) (b : Nat) : Bool := (s.bank b).window.any (·.2)

/-- Outcome of a request of a half at the bank of an address, whatever the bank then needs of DRAM. -/
def State.atBank (s : State) (half a : Nat) : Served :=
  if 2 ≤ s.rd Fd.pwrStatusState then .fails 0x13
  else if isStack a then
    let k := a / 2 ^ 36
    let b := bankOf a
    if s.flag (Fd.dramStackStatusStripeOn k) && inStripe a then .fails 3
    else if s.zeroPads.contains (bankPaddock b) || s.zeroPads.contains (k / 2) then .fails 2
    else if s.flag Fd.seamStatusIsolated && bankHalf b ≠ half then .fails 6
    else if s.fab.faulty.contains (bankPen b) then .fails 6
    else if s.closed.contains (bankPen b) || s.scrubbing b then .waits
    else .ok
  else if isScratch a then
    let p := bankPen (bankOf a)
    if s.flag Fd.seamStatusIsolated && p / 8 ≠ half then .fails 6
    else if s.fab.faulty.contains p then .fails 6
    else if s.closed.contains p || s.resetPaddocks.contains (p / 4) then .fails 2
    else if s.rd (Fd.foldWaycfgScratch p) ≤ slotOf a then .fails 3
    else if (s.rd (Fd.foldWaystatOffActive p)).testBit (15 - slotOf a) then .fails 0x13
    else if s.rd (Fd.foldWaystatScratchActive p) ≤ slotOf a || s.scrubbing (bankOf a) then .waits
    else .ok
  else if isRegSpace a then .fails 0x15
  else if isSiteWin a then .ok
  else .fails 3

/-- Sectors of a line that an access needs from DRAM: those it touches, of a write those it does not cover whole, and that
the Fold does not hold valid (R216, R220, R224). -/
def State.wants (s : State) (l : Nat) (touched whole : BitVec 4) (u : Use) : BitVec 4 :=
  let need := if u = .write then touched &&& ~~~whole else touched
  match s.line l with
  | some x => if x.ways ≠ [] then 0 else need &&& ~~~x.valid
  | none => need

/-- Whether an access finds its line held with all it needs (R216). -/
def State.hits (s : State) (l : Nat) (touched whole : BitVec 4) (u : Use) : Bool :=
  (s.line l).isSome && s.wants l touched whole u = 0

/-- Whether an access that does not hit needs a miss entry: it reads DRAM, or its set can allocate no way (R217, R224,
R227, R239). -/
def State.needsEntry (s : State) (l : Nat) (touched whole : BitVec 4) (u : Use) : Bool :=
  s.wants l touched whole u ≠ 0 || s.candidates (bankOf (128 * l)) (setOf (128 * l)) = []

/-- Whether an access waits at its bank: on its line's miss entry, which only a read that hits passes; as a miss, on the
outstanding miss of its set, on a free entry, or on its channel (R218 to R220, R258, R299, R302; notes/assumptions/143.md). -/
def State.waitsAt (s : State) (l : Nat) (touched whole : BitVec 4) (u : Use) : Bool :=
  let x := s.bank (bankOf (128 * l))
  let hit := s.hits l touched whole u
  if x.misses.any (·.line = l) then !(u = .read && hit)
  else if hit then false
  else x.misses.any (fun m => setOf (128 * m.line) = setOf (128 * l)) ||
    (s.needsEntry l touched whole u && (32 ≤ x.misses.length || s.dramHeld (128 * l)))

/-- Outcome of an access by a requester of a half to n bytes that lie in one line, or beyond the banks. -/
def State.served (s : State) (half a n : Nat) (u : Use) : Served :=
  match s.atBank half a with
  | .ok => if isStack a && s.waitsAt (a / 128) (sectorsOf (a % 128) n) (wholeSectors (a % 128) n) u then .waits else .ok
  | r => r

/-- A span cut at line boundaries: addresses and lengths. -/
def lineSpans (a n : Nat) : List (Nat × Nat) :=
  (List.range ((a + n + 127) / 128 - a / 128)).map fun i =>
    let lo := max a (128 * (a / 128 + i))
    (lo, min (a + n) (128 * (a / 128 + i) + 128) - lo)

/-- Outcome of an access to a span: the first line that is not served decides. -/
def State.servedSpan (s : State) (half a n : Nat) (u : Use := .read) : Served :=
  match (lineSpans a n).find? fun p => s.served half p.1 p.2 u ≠ .ok with
  | some p => s.served half p.1 p.2 u
  | none => .ok

end Sys2Proof.Machine
end

