-- ==== Sys2Proof/Machine/Xlat.lean ====
section
/-! DEFINITION. Machine/Xlat.lean: translation contexts, buffers, leaves, tickets and the walker ring (R312 to R328). -/
namespace Sys2Proof.Machine

/-- Status codes of Table 4.16. -/
def stOk : Nat := 0x0
def stAbsent : Nat := 0x1
def stReset : Nat := 0x2
def stUnmapped : Nat := 0x3
def stFault : Nat := 0x4
def stTenancy : Nat := 0x5
def stPoison : Nat := 0x6
def stBadDesc : Nat := 0x7
def stDescKind : Nat := 0x8
def stAccRegion : Nat := 0x9
def stMisaligned : Nat := 0xA
def stPreempted : Nat := 0xB
def stUnlocked : Nat := 0xC
def stBellNear : Nat := 0xD
def stBellFar : Nat := 0xE
def stRefused : Nat := 0xF
def stLate : Nat := 0x10
def stTimeout : Nat := 0x11
def stTargetIdle : Nat := 0x12
def stAsleep : Nat := 0x13
def stSite : Nat := 0x14
def stNotPermitted : Nat := 0x15
def stBadTarget : Nat := 0x16
def stCursorBad : Nat := 0x17
def stIllegal : Nat := 0x18
def stFetchAddr : Nat := 0x19
def stFetchPoison : Nat := 0x1A
def stRegWidth : Nat := 0x1B

/-! ### Leaves (Table 10.4) -/

def leafV (l : Word) : Bool := bit l 63
def leafType (l : Word) : Nat := bits l 62 61
def leafW (l : Word) : Bool := bit l 60
def leafAcc (l : Word) : Nat := bits l 59 56
def leafTen (l : Word) : Nat := bits l 40 33
def leafFrame (l : Word) : Nat := bits l 31 0

/-- 64 KiB pages of a page size code (Table 10.3). -/
def sizePages (size : Nat) : Nat := if size = 1 then 1 else if size = 2 then 32 else 16384

/-- Whether an entry translates a virtual 64 KiB page for a Paddock's context. -/
def XlEntry.covers (e : XlEntry) (paddock page : Nat) : Bool :=
  e.paddock = paddock && e.page ≤ page && page < e.page + sizePages e.size

/-- Set index of an entry in the second level (R321). -/
def XlEntry.set (e : XlEntry) : Nat :=
  if e.size = 1 then e.page % 512 else if e.size = 2 then e.page / 32 % 512 else e.page / 16384 % 512

/-! ### Buffers (R321, R322) -/

def State.l1 (s : State) (d : Nat) : List XlEntry := Tab.get (fun _ => []) s.xl.l1 d
def State.l2 (s : State) (p : Nat) : List XlEntry := Tab.get (fun _ => []) s.xl.l2 p
def State.shadowXl (s : State) (p : Nat) : List XlEntry := Tab.get (fun _ => []) s.xl.shadow p
def State.inboundXl (s : State) (h : Nat) : List XlEntry := Tab.get (fun _ => []) s.xl.inbound h
def State.setXl (s : State) (x : Xlat) : State := { s with xl := x }
def State.setL1 (s : State) (d : Nat) (t : List XlEntry) : State :=
  s.setXl { s.xl with l1 := Tab.put (fun _ => []) s.xl.l1 d t }
def State.setL2 (s : State) (p : Nat) (t : List XlEntry) : State :=
  s.setXl { s.xl with l2 := Tab.put (fun _ => []) s.xl.l2 p t }
def State.setShadow (s : State) (p : Nat) (t : List XlEntry) : State :=
  s.setXl { s.xl with shadow := Tab.put (fun _ => []) s.xl.shadow p t }
def State.setInbound (s : State) (h : Nat) (t : List XlEntry) : State :=
  s.setXl { s.xl with inbound := Tab.put (fun _ => []) s.xl.inbound h t }

/-- Find the entry for a page. -/
def findXl (t : List XlEntry) (paddock page : Nat) : Option XlEntry := t.find? fun e => e.covers paddock page

/-- Mark the entries for a page used. -/
def markXl (t : List XlEntry) (paddock page : Nat) : List XlEntry :=
  updateWhere (fun e => e.covers paddock page) (fun e => { e with used := true }) t

/-- Insert an entry among those of one set: it replaces an entry of the same page, else, past `cap`, the first not
recently used; when all are used their marks are cleared first (R321, R325; notes/assumptions/9.md). -/
def insertXl (cap : Nat) (same : XlEntry → Bool) (e : XlEntry) (t : List XlEntry) : List XlEntry :=
  let t := t.filter fun x => !(x.paddock = e.paddock && x.page = e.page && x.size = e.size)
  if (t.filter same).length < cap then t ++ [e]
  else
    let t := if t.all (fun x => !same x || x.used) then updateWhere same (fun x => { x with used := false }) t else t
    match t.find? fun x => same x && !x.used with
    | some v => t.erase v ++ [e]
    | none => t ++ [e]

def insertL1 (e : XlEntry) (t : List XlEntry) : List XlEntry := insertXl 64 (fun _ => true) e t
def insertL2 (e : XlEntry) (t : List XlEntry) : List XlEntry := insertXl 8 (fun x => x.set = e.set) e t
def insertInbound (e : XlEntry) (t : List XlEntry) : List XlEntry := insertXl 1024 (fun _ => true) e t

/-! ### Lookup (R313, R314, R320) -/

/-- The kinds of access a request makes (Table 10.6). -/
inductive Acc where
  | read | write | update
  deriving DecidableEq, Repr

def Acc.code : Acc → Nat
  | .read => 1
  | .write => 2
  | .update => 3

/-- The answer of a lookup: a local address with its leaf and page size code, a miss with its cause, or a status at
once. -/
inductive Xres where
  | hit (pa : Nat) (leaf : Word) (size : Nat)
  | miss (cause : Nat)
  | fails (st : Nat)
  deriving DecidableEq, Repr

/-- Local address of a virtual address under an entry. -/
def XlEntry.local (e : XlEntry) (va : Nat) : Nat :=
  (leafFrame e.leaf + (va / 65536 - e.page)) * 65536 + va % 65536

/-- Judge an entry found for an access (R320). -/
def XlEntry.judge (e : XlEntry) (ten va : Nat) (acc : Acc) : Xres :=
  if leafTen e.leaf ≠ ten then .fails stTenancy
  else if acc ≠ .read ∧ leafW e.leaf = false then .miss 2
  else .hit (e.local va) e.leaf e.size

/-- Tenancy of a Paddock's context. -/
def State.tenancy (s : State) (k : Nat) : Nat := s.rd (Fd.xlatCtxTenancy k)

/-- What a Drover's translation of a virtual address answers (R312 to R321). -/
def State.lookup (s : State) (d : Nat) (va : Word) (acc : Acc) : Xres :=
  let k := paddockOf d
  let page := va.toNat / 65536
  if bits va 63 48 ≠ 0 then .fails stUnmapped
  else if !s.flag (Fd.xlatCtxEn k) then .fails stUnmapped
  else match findXl (s.l1 d) k page with
    | some e => e.judge (s.tenancy k) va.toNat acc
    | none => match findXl (s.l2 (penOf d)) k page with
      | some e => e.judge (s.tenancy k) va.toNat acc
      | none => .miss 1

/-- The effect of a lookup on the buffers: marks, and the copy of a second-level hit into the first (R321). -/
def State.looked (s : State) (d : Nat) (va : Word) : State :=
  let k := paddockOf d
  let page := va.toNat / 65536
  if bits va 63 48 ≠ 0 || !s.flag (Fd.xlatCtxEn k) then s
  else match findXl (s.l1 d) k page with
    | some _ => s.setL1 d (markXl (s.l1 d) k page)
    | none =>
      let s := s.inc (Fd.dbgXlatL1Miss (penOf d)) 1
      match findXl (s.l2 (penOf d)) k page with
      | some e =>
        (s.setL2 (penOf d) (markXl (s.l2 (penOf d)) k page)).setL1 d (insertL1 { e with used := true } (s.l1 d))
      | none => s.inc (Fd.dbgXlatL2Miss (penOf d)) 1

/-! ### Tickets and the ring (R324, R338) -/

/-- Size of the ring in records (R338). -/
def State.ringSize (s : State) : Nat := 2 ^ (s.rd Fd.xlatRingPtrSize + 6)

/-- Whether the ring is full (R338). -/
def State.ringFull (s : State) : Bool :=
  (s.rd Fd.xlatRingPtrHead + 1) % s.ringSize = s.rd Fd.xlatRingPtrTail % s.ringSize

/-- Write one record where `HEAD` points and advance it (R338, R599). A ring may run past the end of management memory: a
record whose place lies there is not stored (notes/assumptions/26.md). -/
def State.ringWrite (s : State) (r : List Byte) : State :=
  let h := s.rd Fd.xlatRingPtrHead
  let a := (s.reg Fd.xlatRingBase.addr).toNat / 4096 * 4096 + 32 * (h % s.ringSize)
  let s := if isMgmtMem a then s.mgmtWrite a r else s
  (s.wr Fd.xlatRingPtrHead ((h + 1) % s.ringSize)).irq 5

/-- Send a record to the walker ring: it waits in hardware while the ring is full (R324). -/
def State.ringPut (s : State) (r : List Byte) : State :=
  if s.ringFull || !s.xl.stalled.isEmpty then
    let s := (s.setXl { s.xl with stalled := s.xl.stalled ++ [r] }).sat Fd.xlatStatusRingStalls 1
    s.record euAux 0x0902 uwMgmt (s.rd Fd.xlatStatusRingStalls) 0
  else s.ringWrite r

/-- Who asks, as a walker record names it (Table 10.6). -/
structure Asker where
  source  : Nat
  paddock : Nat
  kind    : Nat
  logical : Nat := 0xFF
  strand  : Nat := 0xFF
  dreg    : Nat := 0xFF
  ten     : Nat := 0
  extra   : Nat := 0
  sched   : Bool := false
  deriving DecidableEq, Repr

/-- A walker record (Table 10.6). -/
def walkerRec (a : Asker) (va ticket cause acc : Nat) : List Byte :=
  toBytes 8 va ++ toBytes 4 ticket ++ toBytes 1 cause ++ toBytes 1 a.kind ++ toBytes 1 acc ++
    toBytes 1 (a.paddock + 128 * b2n a.sched) ++ toBytes 1 a.logical ++ toBytes 1 a.strand ++ toBytes 1 a.dreg ++
    toBytes 1 a.ten ++ toBytes 8 a.extra ++ zeros 4

/-- Pending tickets of a source. -/
def State.ticketsOf (s : State) (src : Nat) : List Ticket := s.xl.tickets.filter fun t => t.id / 2 ^ 24 = src

/-- The ticket with a number. -/
def State.ticket? (s : State) (id : Nat) : Option Ticket := s.xl.tickets.find? fun t => t.id = id

/-- Report a miss: it attaches to the ticket of its context, granule and cause, or takes a new one with a record;
beyond 64 pending tickets of a Pen it waits without one (R324). -/
def State.askTicket (s : State) (a : Asker) (va cause acc : Nat) : Option Nat × State :=
  let page := va / 65536
  match (s.ticketsOf a.source).find? fun t => t.paddock = a.paddock && t.page = page && t.cause = cause with
  | some t => (some t.id, s)
  | none =>
    if 64 ≤ (s.ticketsOf a.source).length ∧ a.source < 16 then (none, s)
    else
      let q := Tab.get (fun _ => 0) s.xl.seqs a.source
      let id := a.source * 2 ^ 24 + q
      let t : Ticket := { id, paddock := a.paddock, page, cause, va, sched := a.sched }
      let s := s.setXl { s.xl with
        tickets := s.xl.tickets ++ [t], seqs := Tab.put (fun _ => 0) s.xl.seqs a.source ((q + 1) % 2 ^ 24) }
      (some id, s.ringPut (walkerRec a va id cause acc))

/-- Whether any request waits on a ticket. -/
def State.ticketUsed (s : State) (id : Nat) : Bool :=
  s.ops.any fun o => (o.ticket = some id) || (o.curTick = some id) || o.chunks.any fun c => c.ticket = some id

/-- End the tickets that no request of an operation or an inbound request waits on: they become stale (R326). -/
def State.pruneTickets (s : State) : State :=
  s.setXl { s.xl with tickets := s.xl.tickets.filter fun t => 16 ≤ t.id / 2 ^ 24 || s.ticketUsed t.id }

end Sys2Proof.Machine
end

