-- ==== Sys2Proof/Machine/Operands.lean ====
section
/-! DEFINITION. Machine/Operands.lean: KEIS operand forms, encodings of operations, and which words are illegal
(R105 to R113, Table 4.3, and the chapters of each operation). -/
namespace Sys2Proof.Machine

/-- Predicate of an instruction on a strand (R109). -/
def Strand.pred (x : Strand) (pn : Bool) (pg : BitVec 5) : Bool :=
  pg = 0 || ((x.rg pg.toNat ≠ 0) != pn)

/-- Second source of formats 0x0 and 0x1 (R112). -/
def Strand.src2 (x : Strand) : AluSrc → Word
  | .reg gc => x.rg gc.toNat
  | .imm v => sext v

/-- The g register a second source reads. -/
def srcReads : AluSrc → List Nat
  | .reg gc => [gc.toNat]
  | .imm _ => []

/-- Whether a second source is the zero that `ALWAYS` asks for (R113). -/
def srcIsZero : AluSrc → Bool
  | .reg gc => gc = 0
  | .imm v => v = 0

/-- g[gp] + imm16 (R117, R254). -/
def Strand.memAddr (x : Strand) (o : MemOps) : Word := x.rg o.gp.toNat + sext o.imm

/-- A completion counter named by `CE` and cn (R108). -/
def counterOf (ce : Bool) (cn : BitVec 4) : Option Nat := if ce then some cn.toNat else none

/-- Width in bytes of an `LD` or `ST` by `SUB`; none: not admitted (Table 4.8). -/
def ldWidth? (sub : Nat) : Option Nat :=
  match sub with
  | 0x00 => some 1
  | 0x04 => some 1
  | 0x01 => some 2
  | 0x05 => some 2
  | 0x02 => some 4
  | 0x06 => some 4
  | 0x03 => some 8
  | 0x07 => some 8
  | 0x08 => some 8
  | 0x09 => some 4
  | 0x0A => some 2
  | 0x0B => some 2
  | 0x0C => some 1
  | 0x0D => some 1
  | _ => none

/-- Extension of a loaded element (Table 4.8): sign for 0x04 to 0x06, else zero. -/
def ldExtend (sub : Nat) (v : Nat) : Word :=
  match sub with
  | 0x04 => sext (BitVec.ofNat 8 v)
  | 0x05 => sext (BitVec.ofNat 16 v)
  | 0x06 => sext (BitVec.ofNat 32 v)
  | _ => BitVec.ofNat 64 v

/-- Formats a scalar atomic admits (Table 8.3): integers of 32 and 64 bits, FP32, FP64; and FP16, BF16 for add, min
and max. -/
def atomicFmtOk (arith : Bool) (sub : Nat) : Bool :=
  [0x02, 0x06, 0x03, 0x07, 0x08, 0x09].contains sub || (arith && [0x0A, 0x0B].contains sub)

/-- Opcode byte of an operation (Table 4.3). -/
def opByte : OpCode → Nat
  | .ld => 0x1E
  | .st => 0x1F
  | .dld => 0x20
  | .dst => 0x21
  | .move => 0x30
  | .gather => 0x31
  | .scatter => 0x32
  | .graze => 0x33
  | .compact => 0x34
  | .isect => 0x40
  | .union => 0x41
  | .merge => 0x42
  | .segred => 0x43
  | .ebag => 0x44
  | .hist => 0x45
  | .topk => 0x46
  | .aadd => 0x50
  | .amin => 0x51
  | .amax => 0x52
  | .axch => 0x53
  | .acas => 0x54
  | .aacc => 0x55
  | .settle => 0x56
  | .put => 0x60
  | .get => 0x61
  | .racc => 0x62
  | .ratom => 0x63
  | .signal => 0x70
  | .frange => 0x80
  | .ttouch => 0x88

/-- Whether an operation's word is of format 0x3; the others are of format 0x4 (Table 4.3). -/
def usesXfer : OpCode → Bool
  | .dld => true
  | .dst => true
  | .move => true
  | .gather => true
  | .scatter => true
  | .graze => true
  | .compact => true
  | .isect => true
  | .union => true
  | .merge => true
  | .segred => true
  | .ebag => true
  | .hist => true
  | .topk => true
  | .put => true
  | .get => true
  | .racc => true
  | _ => false

/-- An instruction word from its fields (Table 4.1). -/
def keisWord (op fmt : Nat) (pn : Bool) (pg : BitVec 5) (rest : Nat) : Word :=
  BitVec.ofNat 64 (op * 2 ^ 56 + fmt * 2 ^ 52 + b2n pn * 2 ^ 51 + pg.toNat * 2 ^ 46 + rest)

/-- Bits [45:0] of formats 0x4 and 0x3 (Table 4.2). -/
def memRest (o : MemOps) : Nat :=
  o.ga.toNat * 2 ^ 41 + o.gp.toNat * 2 ^ 36 + o.gv.toNat * 2 ^ 31 + o.gk.toNat * 2 ^ 26 + b2n o.ce * 2 ^ 25 +
    o.cn.toNat * 2 ^ 21 + o.sub.toNat * 2 ^ 16 + o.imm.toNat
def xferRest (o : XferOps) : Nat :=
  o.dn.toNat * 2 ^ 42 + b2n o.ce * 2 ^ 41 + o.cn.toNat * 2 ^ 37 + o.gs.toNat * 2 ^ 32 + o.gx.toNat * 2 ^ 27 +
    o.gy.toNat * 2 ^ 22

/-- The instruction word of a format 0x4 operation; it stands in a pending fault record (R328). -/
def memWord (c : OpCode) (pn : Bool) (pg : BitVec 5) (o : MemOps) : Word := keisWord (opByte c) 4 pn pg (memRest o)

/-- The instruction word of a format 0x3 operation. -/
def xferWord (c : OpCode) (pn : Bool) (pg : BitVec 5) (o : XferOps) : Word := keisWord (opByte c) 3 pn pg (xferRest o)

/-- Kind of a transfer's descriptor (Table 5.1, Table 6.1, R391); none for an operation that reads no descriptor. -/
def kindOf? : OpCode → Option Nat
  | .move => some 0x1
  | .gather => some 0x2
  | .scatter => some 0x3
  | .graze => some 0x4
  | .compact => some 0x5
  | .isect => some 0x6
  | .union => some 0x6
  | .merge => some 0x6
  | .segred => some 0x7
  | .ebag => some 0x8
  | .hist => some 0x9
  | .topk => some 0xA
  | .put => some 0x1
  | .get => some 0x1
  | .racc => some 0x1
  | _ => none

/-- Whether an operation is a transfer. -/
def isXferOp (c : OpCode) : Bool := (kindOf? c).isSome

/-- Whether an operation acts on another module (R391). -/
def isRemoteOp : OpCode → Bool
  | .put => true
  | .get => true
  | .racc => true
  | .ratom => true
  | .signal => true
  | _ => false

/-- Whether a format 0x3 word is illegal beyond the predicate rule: gx and gy unassigned, `CE` 0 with cn, an assigned
code out of range (R108, R111, R144, R175, R391). -/
def xferIllegal (c : OpCode) (o : XferOps) : Bool :=
  (!o.ce && o.cn ≠ 0) ||
  match c with
  | .dld => o.gy ≠ 0
  | .dst => o.gy ≠ 0
  | .segred => o.gy ≠ 0 || 3 < o.gx.toNat
  | .topk => o.gy ≠ 0 || 1 < o.gx.toNat
  | .put => false
  | .get => false
  | .racc => false
  | _ => o.gx ≠ 0 || o.gy ≠ 0

/-- Whether a format 0x4 word is illegal beyond the predicate rule (R108, R111, and each operation's rule). -/
def memIllegal (c : OpCode) (o : MemOps) : Bool :=
  (!o.ce && o.cn ≠ 0) ||
  match c with
  | .ld => o.gk ≠ 0 || o.gv ≠ 0 || (ldWidth? o.sub.toNat).isNone
  | .st => o.gk ≠ 0 || o.ga ≠ 0 || (ldWidth? o.sub.toNat).isNone
  | .aadd => o.gk ≠ 0 || !atomicFmtOk true o.sub.toNat
  | .amin => o.gk ≠ 0 || !atomicFmtOk true o.sub.toNat
  | .amax => o.gk ≠ 0 || !atomicFmtOk true o.sub.toNat
  | .axch => o.gk ≠ 0 || !atomicFmtOk false o.sub.toNat
  | .acas => !atomicFmtOk false o.sub.toNat
  | .aacc => o.ga ≠ 0 || !(o.sub = 0x09 || o.sub = 0x07)
  | .settle => o.gk ≠ 0 || o.sub ≠ 0 || o.imm ≠ 0
  | .frange => o.gk ≠ 0 || o.imm ≠ 0 || o.sub = 0 || 6 < o.sub.toNat
  | .ttouch => o.gv ≠ 0 || o.gk ≠ 0 || 1 < o.sub.toNat
  | .ratom =>
    4 < o.imm.toNat || !atomicFmtOk (o.imm.toNat ≤ 2) o.sub.toNat || (o.imm ≠ 4 && o.gk ≠ 0)
  | .signal => o.ga ≠ 0 || o.gk ≠ 0 || o.sub ≠ 0 || o.imm ≠ 0
  | _ => false

/-! ### Fields of a transfer descriptor (Tables 4.10 to 4.14) -/

/-- Field of a descriptor at a byte offset. -/
def descAt (d : Desc) (off n : Nat) : Nat := bits d (8 * off + 8 * n - 1) (8 * off)

def dSrc (d : Desc) : Nat := descAt d 0x00 8
def dDst (d : Desc) : Nat := descAt d 0x08 8
def dCtl (d : Desc) : Word := BitVec.ofNat 64 (descAt d 0x10 8)
def dCursor (d : Desc) : Nat := descAt d 0x18 8
def dP0 (d : Desc) : Nat := descAt d 0x20 4
def dP1 (d : Desc) : Nat := descAt d 0x24 4
def dP2 (d : Desc) : Nat := descAt d 0x28 4
def dP3 (d : Desc) : Nat := descAt d 0x2C 4
def dP4 (d : Desc) : Nat := descAt d 0x30 8
def dP5 (d : Desc) : Nat := descAt d 0x38 8
def dKind (d : Desc) : Nat := bits (dCtl d) 63 60
def dSfmt (d : Desc) : Nat := bits (dCtl d) 59 55
def dDfmt (d : Desc) : Nat := bits (dCtl d) 54 50
def dRnd (d : Desc) : Nat := bits (dCtl d) 49 48
def dWrap (d : Desc) : Bool := bit (dCtl d) 47
def dStream (d : Desc) : Bool := bit (dCtl d) 46
def dClass (d : Desc) : Nat := bits (dCtl d) 45 44
def dAcc (d : Desc) : Nat := bits (dCtl d) 43 41
def dIdx64 (d : Desc) : Bool := bit (dCtl d) 40
def dChunksig (d : Desc) : Bool := bit (dCtl d) 39
def dExt (d : Desc) : Bool := bit (dCtl d) 38
def dDims (d : Desc) : Nat := bits (dCtl d) 37 35

/-- The d registers a transfer uses: dn, of a `MOVE` with `EXT` also the next. -/
def xferD (c : OpCode) (x : Strand) (dn : Nat) : List Nat :=
  if c = .move && dExt (x.rdd dn) && dn < 15 then [dn, dn + 1] else [dn]

end Sys2Proof.Machine
end

