-- ==== Sys2Proof/Machine/Atomics.lean ====
section
/-! DEFINITION. Machine/Atomics.lean: the bank's atomic unit and accumulator lines (chapter 8). -/
namespace Sys2Proof.Machine

/-- The element after an update (R254, R256): integers wrap, floats round to nearest even; `wrap` says whether a
floating overflow becomes infinity or saturates. -/
def atomValue (k : AtomKind) (f : Fmt) (wrap : Bool) (m v cmp : Nat) : Nat :=
  match k with
  | .xchg => v
  | .cas => if m = cmp then v else m
  | .add => if f.isInt then (m + v) % 2 ^ (8 * f.size) else encode f none wrap ((decode f m).add (decode f v))
  | .min => encode f none true ((decode f m).min (decode f v))
  | .max => encode f none true ((decode f m).max (decode f v))

/-- Apply an update to the element at a local address: the old value, whether it was poisoned, and the state. A
poisoned word stays poisoned; a poisoned operand poisons the element (R256); on a line lost with its channel the update is
discarded (R307). -/
def State.atomAt (s : State) (k : AtomKind) (f : Fmt) (wrap : Bool) (a v cmp : Nat) (opBad stream : Bool)
    (cls : DramClass := .bulk) : Nat × Bool × State :=
  let n := f.size
  if s.lostAt a then (0, true, s)
  else
    let fills := isStack a && !s.hits (a / 128) (sectorsOf (a % 128) n) 0 .update
    let s := s.touch a n stream false cls .update
    let m := ofBytes (s.readBytes a n)
    let bad := s.anyBad a n
    let bs := toBytes n (atomValue k f wrap m v cmp)
    let s := if bad then s else if isStack a then s.pokeLine a bs opBad (stream && fills) else s.writeBytes a bs opBad stream
    (m, bad, s)

/-! ### Accumulator lines -/

/-- Index in the wide image of an element at a local address; `idx` is the MX element index (R261, R264). -/
def accIndex (acc a idx : Nat) : Nat :=
  match fmtOf (accFormat acc) with
  | .mx _ _ _ _ => 32 * (a % 128 / 64) + idx
  | f => a % 128 / f.size

/-- One accumulation into a wide element: FP32 or INT64 (R260, R256). -/
def accElem (acc : Nat) (wrap : Bool) (w v : Word) : Word :=
  if acc = 0xB then w + v
  else BitVec.ofNat 64 (encodeFloat fp32 none wrap ((valOf32 (w.toNat % 2 ^ 32)).add (valOf32 (v.toNat % 2 ^ 32))))

/-- Choose and empty n victim ways of a line's set, other than `own` (R262 step 1); none if the set cannot. -/
def State.takeWays (s : State) (l : Nat) (own : List Nat) : Nat → Option (List Nat × State)
  | 0 => some ([], s)
  | n + 1 =>
    let b := bankOf (128 * l)
    let st := setOf (128 * l)
    match s.chooseWay b st ((s.candidates b st).filter fun w => !own.contains w) with
    | none => none
    | some (w, t) =>
      let t := match t.inWay b st w with
        | some v => t.evict v.1 v.2
        | none => t
      match t.takeWays l (w :: own) n with
      | none => none
      | some (ws, t) => some (w :: ws, t)

/-- Create the accumulator line of a line that has none, the line's poison with it; none when the set cannot supply its ways
(R222, R262, R263). -/
def State.createAcc (s : State) (l acc : Nat) (cls : DramClass) : Option State :=
  let p := bankPen (bankOf (128 * l))
  let img := s.readBytes (128 * l) 128
  let bads := (List.range 16).filter fun i => s.readBad (128 * l + 8 * i)
  if s.flag (Fd.foldWaycfgCacheOff p) then none
  else
    let own := match s.line l with
      | some x => if x.pinned then [] else [x.way]
      | none => []
    match s.takeWays l own (accWays acc - own.length) with
    | none => none
    | some (ws, t) =>
      let w := widen acc img
      let t := if s.hits l 0xF 0 .update then t.foldCount Fd.foldHits l
        else (t.foldCount Fd.foldMisses l).emit (.dramRead l (s.wants l 0xF 0 .update) cls)
      let pin := (s.line l).any (·.pinned)
      let way := match s.line l with
        | some x => x.way
        | none => ws.headD 0
      let early := (s.line l).any (·.early) || w.2
      let t := ((t.unmerge l).eraseLine l).setLine l
        (some { way, valid := 0, dirty := true, pinned := pin, age := 0, ways := own ++ ws, fmt := acc, wide := w.1, early })
      some (bads.foldl (fun t i => t.setBad (16 * l + i) true) t)

/-- Apply an accumulation directly to the external line, rounding early; words of an MX row that were poisoned stay so
(R256, R263). -/
def State.accDirect (s : State) (a acc idx : Nat) (v : Word) (opBad : Bool) (cls : DramClass) : State :=
  let l := a / 128
  let s := s.touch a 1 false false cls .update
  let s := match fmtOf (accFormat acc) with
    | .mx f w emax area =>
      let r := a / 64 * 64
      let row := s.readBytes r 64
      let bads := (List.range 8).filter fun i => s.readBad (r + 8 * i)
      let vs := (unpackElems w 32 ((row.drop 32).take area)).map fun x => decodeMx f (ofBytes (row.take 1)) x
      let vs := vs.zipIdx.map fun (p : Val × Nat) => if p.2 = idx then p.1.add (valOf32 (v.toNat % 2 ^ 32)) else p.1
      let new := mxRow f w emax area vs
      (List.range 8).foldl (fun (t : State) i =>
        t.pokeLine (r + 8 * i) ((new.drop (8 * i)).take 8) (bads.contains i || opBad)) s
    | f =>
      let n := f.size
      let m := ofBytes (s.readBytes a n)
      let x := if f.isInt then (decode f m).add (decodeSint 64 v.toNat) else (decode f m).add (valOf32 (v.toNat % 2 ^ 32))
      s.pokeLine a (toBytes n (encode f none false x)) opBad
  let s := match s.line l with
    | some x => s.setLine l (some { x with early := true })
    | none => s
  let way := match s.line l with
    | some x => x.way
    | none => 0xF
  s.record (bankHalf (bankOf a)) 0x0105 (uwLine l way) l 0

/-- The bytes an element of an accumulator region stands in: of an MX row, its scale byte and its element bits (R261). -/
def accBytes (acc a idx : Nat) : List Nat :=
  match fmtOf (accFormat acc) with
  | .mx _ w _ _ =>
    let r := a / 64 * 64
    [r, r + 32 + w * idx / 8, r + 32 + (w * idx + w - 1) / 8]
  | f => (List.range f.size).map (a + ·)

/-- Poison of an accumulator element's words in its line. -/
def State.setAccBad (s : State) (acc a idx : Nat) : State := (accBytes acc a idx).foldl (fun t b => t.setBad (b / 8) true) s

/-- Accumulate into a held accumulator line; while its Pen's cache is being disabled it is written through (R238, R256,
R259, R264). -/
def State.accInto (s : State) (l a acc idx : Nat) (wrap : Bool) (v : Word) (opBad : Bool) (x : Line) : State :=
  let i := accIndex acc a idx
  let s := if opBad then s.setAccBad acc a idx else s
  let x := { x with wide := x.wide.set i (accElem acc wrap (x.wide.getD i 0) v), dirty := true }
  if s.writesThrough (bankPen (bankOf (128 * l))) then (s.writeBack l x).setLine l (some { x with dirty := false })
  else s.setLine l (some x)

/-- One accumulation at the home bank: into the accumulator line, created if need be, else directly (R262 to R264).
True when a word of the element is poisoned or its line is lost, and nothing is applied (R256, R307). -/
def State.accumulate (s : State) (a acc idx : Nat) (wrap : Bool) (v : Word) (opBad : Bool) (cls : DramClass := .bulk) :
    Bool × State :=
  let l := a / 128
  if s.lostAt a || (accBytes acc a idx).any s.readBad then (true, s)
  else
    let fresh (s : State) : State := match s.createAcc l acc cls with
      | some t => match t.line l with
        | some y => t.accInto l a acc idx wrap v opBad y
        | none => t
      | none => s.accDirect a acc idx v opBad cls
    match s.line l with
    | some x =>
      if x.ways ≠ [] then (false, (s.foldCount Fd.foldHits l).accInto l a acc idx wrap v opBad x) else (false, fresh s)
    | none => (false, fresh s)

/-- Convert an accumulator line to a present, dirty line in one of its ways or its pinned entry (R267, R270). -/
def State.settleLine (s : State) (l : Nat) (x : Line) : State :=
  let img := extImage x.fmt x.wide
  let bads := s.foldPoison.filter fun w => w / 16 = l
  let way := if x.pinned then x.way else x.ways.headD x.way
  let s := (s.eraseLine l).setLine l
    (some { way, valid := 0xF, dirty := true, pinned := x.pinned, age := 0 })
  let s := { s with fold := Memory.write s.fold (128 * l) img }
  bads.foldl (fun t w => t.setBad w true) s

end Sys2Proof.Machine
end

