-- ==== Sys2Proof/Machine/Fabric.lean ====
section
/-! DEFINITION. Machine/Fabric.lean: ports, routes, control messages, packets, Rotas, streams and admission
(R360 to R387). -/
namespace Sys2Proof.Machine

def State.setFab (s : State) (f : Fabric) : State := { s with fab := f }
def State.port (s : State) (p : Nat) : Port := Tab.get (fun _ => {}) s.fab.ports p
def State.setPort (s : State) (p : Nat) (x : Port) : State :=
  s.setFab { s.fab with ports := Tab.put (fun _ => {}) s.fab.ports p x }

/-! ### Ports (Table 11.14) -/

def psDown : Nat := 0
def psTraining : Nat := 1
def psInService : Nat := 2
def psDegraded : Nat := 3
def psBroken : Nat := 4
def psMiswired : Nat := 5
def psDisabled : Nat := 6

/-- Whether a port is in service. -/
def State.portUp (s : State) (p : Nat) : Bool :=
  s.rd (Fd.optPortState p) = psInService || s.rd (Fd.optPortState p) = psDegraded

/-- Whether a port still trains (Table 11.6). -/
def State.portsTrain (s : State) : Bool := (List.range 16).any fun p => s.rd (Fd.optPortState p) = psTraining

/-- Lanes of a port in service. -/
def State.lanesIn (s : State) (p : Nat) : List Nat := setBitsOf 8 (s.rd (Fd.optPortLanesIn p))

/-- The other port of a pair. -/
def pairOf (p : Nat) : Nat := if p % 2 = 0 then p + 1 else p - 1

/-! ### Geometry and routes (R359, R360, R385, R387) -/

/-- Ring size of a dimension and coordinate of a device in it. -/
def State.ringSizeOf (s : State) (dim : Nat) : Nat :=
  1 + (if dim = 0 then s.rd Fd.fabGeomSizeX else if dim = 1 then s.rd Fd.fabGeomSizeY
    else if dim = 2 then s.rd Fd.fabGeomSizeZ else s.rd Fd.fabGeomSizeW)
def coord (dev dim : Nat) : Nat :=
  if dim = 0 then dev / 1024 % 16 else if dim = 1 then dev / 64 % 16 else if dim = 2 then dev / 8 % 8 else dev % 8

/-- Whether a device number lies inside the geometry. -/
def State.inGeometry (s : State) (dev : Nat) : Bool :=
  dev < 16384 && (List.range 4).all fun k => coord dev k < s.ringSizeOf k

/-- The default route byte of a device (R360); 0 for none. -/
def State.defaultRoute (s : State) (dev : Nat) : Nat :=
  if !s.inGeometry dev || dev = s.device then 0
  else match (List.range 4).find? fun k => coord dev k ≠ coord s.device k with
    | none => 0
    | some k =>
      let n := s.ringSizeOf k
      let fwd := (coord dev k + n - coord s.device k) % n
      0x80 + 32 * k + (if 2 * fwd ≤ n then 0 else 16)

/-- Dimension and direction towards a device, if its route entry is valid; a direction whose ports were both out of service
at the last boundary gives way to the opposite one (R385, R387). -/
def State.routeTo (s : State) (dev : Nat) : Option (Nat × Nat) :=
  let r := s.rd (Fd.route dev)
  if r < 128 then none
  else
    let dim := r / 32 % 4
    let dir := r / 16 % 2
    some (dim, if s.fab.outDirs.contains (2 * dim + dir) then 1 - dir else dir)

/-! ### Control messages (R364, R365) -/

/-- Put a control message at a port: markers and acknowledgements are sent once, others twice. -/
def State.ctlAt (s : State) (p : Nat) (m : Ctl) : State :=
  let x := s.port p
  s.setPort p { x with ctl := x.ctl ++ [{ msg := m, left := if m.kind ≤ 2 then 1 else 2 }] }

/-- Put a message for the neighbour at a port. -/
def State.tellNeighbour (s : State) (p kind : Nat) (body : List Byte) : State :=
  s.ctlAt p { kind, routed := false, dest := 0, src := s.device, body }

/-- Count and record a flit or message for want of a route (R385); its unit is the port it came by, or an optical word that
names none (R559, Table 19.4; notes/assumptions/10.md). -/
def State.noRoute (s : State) (unit dest : Nat) : State := (s.inc Fd.fabNoroute 1).record euTransit 0x0406 unit dest 0

/-- Route a control message: out of the lower port in service of its pair (R385). -/
def State.routeCtl (s : State) (m : Ctl) : State :=
  match s.routeTo m.dest with
  | none => s.noRoute uwNoPort m.dest
  | some (dim, dir) =>
    let p := 4 * dim + 2 * dir
    s.ctlAt (if s.portUp p || !s.portUp (p + 1) then p else p + 1) m

/-- A control message heard at a port: none if an identical copy came within the previous 2 Bells (R365). -/
def State.hear (s : State) (p : Nat) (m : Ctl) : Option State :=
  let x := s.port p
  let old := x.heard.filter fun e => s.bellCount.toNat ≤ e.2.toNat + 2
  if old.any fun e => e.1 = m then none
  else some (s.setPort p { x with heard := old ++ [(m, s.bellCount)] })

/-- A 26-byte body from its leading bytes. -/
def ctlBody (bs : List Byte) : List Byte := bs ++ zeros (26 - bs.length)

/-! ### Rotas and streams (R372 to R375) -/

/-- A Rota entry. -/
structure Slot where
  entry : Nat
  flow  : Nat
  phase : Nat
  pos   : Nat
  lanes : Nat
  deriving DecidableEq, Repr

/-- The valid entries of a port's Rota among a register file. -/
def slotsIn (regs : List (Nat × Word)) (p : Nat) : List Slot :=
  regs.filterMap fun e =>
    if rotaAddr p 0 ≤ e.1 ∧ e.1 < rotaAddr p 0 + 0x8000 ∧ bit e.2 63 then
      some { entry := (e.1 - rotaAddr p 0) / 8, flow := bits e.2 51 36, phase := bits e.2 35 28,
             pos := bits e.2 27 24, lanes := bits e.2 23 16 }
    else none

/-- The active Rota of a port. -/
def State.rota (s : State) (p : Nat) : List Slot := slotsIn s.regs p

/-- Rota period in Bells. -/
def State.period (s : State) : Nat := 2 ^ s.rd Fd.fabSchedPeriodLog2

/-- Slots of a flow on a port in the Bell of a count. -/
def State.flowSlots (s : State) (p flow bell : Nat) : Nat :=
  ((s.rota p).filterMap fun e =>
    if e.flow = flow ∧ e.phase = bell % s.period then some (popCount 8 e.lanes) else none).sum

def State.outStream (s : State) (n : Nat) : OutStream := Tab.get (fun _ => {}) s.fab.streams n
def State.setOutStream (s : State) (n : Nat) (x : OutStream) : State :=
  s.setFab { s.fab with streams := Tab.put (fun _ => {}) s.fab.streams n x }

/-- The enabled inbound stream that matches a scheduled request, if one does (R374, R380). -/
def State.inStream (s : State) (src flow : Nat) : Option Nat :=
  (List.range 256).find? fun n => s.flag (Fd.isEn n) && s.rd (Fd.isSource n) = src && s.rd (Fd.isFlow n) = flow

/-! ### Admission (R376 to R379) -/

/-- Thermal state of a stack of a device, as admission knows it: 0 Green to 3 Trip (R379). A half at
Trip reports each of its stacks so (Table 17.4). -/
def State.stackHeat (s : State) (dev k : Nat) : Nat :=
  if dev = s.device then
    if s.rd (Fd.thermZoneState (12 + k / 4)) = 3 then 3 else s.rd (Fd.dramStackStatusThermal k)
  else Tab.get (fun _ => 0) s.fab.thermal (8 * dev + k)

/-- The stack a window makes unavailable: the channel's, or the one the bank homes (R379). -/
def windowStack (w : Window) : Nat := if w.kind = 1 then w.unit.toNat / 64 else w.unit.toNat / 256 / 2

/-- Whether a window can delay a stream's operations. -/
def State.windowHits (s : State) (n : Nat) (w : Window) : Bool :=
  (w.device.toNat = s.rd (Fd.osDest n) && (s.rd (Fd.osStacks n)).testBit (windowStack w)) ||
    (w.device.toNat = s.device && (s.rd (Fd.osLstacks n)).testBit (windowStack w))

/-- Total length of a stream's known windows that overlap a span of Bells. -/
def State.windowLength (s : State) (n lo hi : Nat) : Nat :=
  ((s.bell.windows.filter fun w =>
    s.windowHits n w && w.start.toNat ≤ hi && lo < w.start.toNat + w.length.toNat).map (·.length.toNat)).sum

/-- The deadline with the windows that overlap it, repeated until none is added. -/
def State.deadline (s : State) (n lo base : Nat) : Nat → Nat → Nat
  | 0, d => d
  | fuel + 1, d =>
    let d' := base + s.windowLength n lo d
    if d' = d then d else s.deadline n lo base fuel d'

/-- The Bell of the f-th uncommitted slot of a stream's flow from a Bell on, with the slots it commits, Bell by Bell. -/
def State.takeSlots (s : State) (n p flow : Nat) : Nat → Nat → Nat → List (Nat × Nat) → Option (Nat × List (Nat × Nat))
  | 0, _, _, _ => none
  | fuel + 1, bell, f, acc =>
    if f = 0 then some (bell - 1, acc)
    else
      let free := s.flowSlots p flow bell - Tab.get (fun _ => 0) acc bell
      if f ≤ free then some (bell, Tab.put (fun _ => 0) acc bell (Tab.get (fun _ => 0) acc bell + f))
      else s.takeSlots n p flow fuel (bell + 1) (f - free)
        (Tab.put (fun _ => 0) acc bell (Tab.get (fun _ => 0) acc bell + free))

/-- Whether an armed commit of the fabric block changes a stream (R377). -/
def State.commitChanges (s : State) (n : Nat) : Bool :=
  let p := s.rd (Fd.osPort n)
  let f := s.rd (Fd.osFlow n)
  s.rd (Fd.gateState fabricBlk.base) = 1 &&
    (s.stg (outStreamAddr n 0) ≠ s.reg (outStreamAddr n 0) || s.stg (outStreamAddr n 1) ≠ s.reg (outStreamAddr n 1) ||
      (slotsIn s.staged p).filter (·.flow = f) ≠ (s.rota p).filter (·.flow = f))

/-- Refusal reasons (Table 12.8). -/
def rrUnlocked : Nat := 1
def rrNoStream : Nat := 2
def rrNoRoute : Nat := 3
def rrThermal : Nat := 4
def rrCapacity : Nat := 5
def rrQueueFull : Nat := 6
def rrFlip : Nat := 7

/-- The half a port sits in (R29, R335). -/
def portHalf (p : Nat) : Nat := if Config.portEast p then 1 else 0

/-- Whether the Seam is isolated between a stream's first port and its local stacks (R29). -/
def State.cutOff (s : State) (n p : Nat) : Bool :=
  s.flag Fd.seamStatusIsolated && (setBitsOf 8 (s.rd (Fd.osLstacks n))).any fun k => k / 4 ≠ portHalf p

/-- The outcome of admission: a deadline and the Bell from which flits may leave, or a reason. -/
inductive Admit where
  | admitted (deadline start : Nat)
  | refused (reason : Nat)
  deriving DecidableEq, Repr

/-- Admission of an operation of `f` flits and `u` units on stream n (R377); `live`, the stream's operations admitted
and undelivered. Counts the outcome (Table 12.12). -/
def State.admission (s : State) (n ten f u : Nat) (isGet : Bool) (live : Nat) : Admit × State :=
  let now := s.bellCount.toNat
  let p := s.rd (Fd.osPort n)
  let flow := s.rd (Fd.osFlow n)
  let no (r : Nat) : Admit × State := (.refused r, s.inc Fd.fabRefused 1)
  let hot := (setBitsOf 8 (s.rd (Fd.osStacks n))).any (fun k => 2 ≤ s.stackHeat (s.rd (Fd.osDest n)) k) ||
    (setBitsOf 8 (s.rd (Fd.osLstacks n))).any (fun k => 2 ≤ s.stackHeat s.device k)
  if !s.flag Fd.bellStatusSchedOk then no rrUnlocked
  else if !s.flag Fd.fabSchedEn || !s.flag (Fd.osEn n) || s.rd (Fd.osTen n) ≠ ten then no rrNoStream
  else if isGet && s.rd (Fd.osRetLatency n) = 0 then no rrNoStream
  else if !s.portUp p || !(s.rota p).any (·.flow = flow) || s.cutOff n p then no rrNoRoute
  else if hot then no rrThermal
  else if 256 ≤ live then no rrQueueFull
  else
    let x := s.outStream n
    let start := max x.ucur (now + 4)
    let horizon := s.rd (Fd.osHorizon n)
    let old := x.slots.filter fun e => now ≤ e.1
    match (if f = 0 then some (start, old) else s.takeSlots n p flow (horizon + 2) start f old) with
    | none => no rrCapacity
    | some (tSlot, slots) =>
      let tUnit := start + (16 * u + s.rd (Fd.osUnits n) - 1) / s.rd (Fd.osUnits n)
      let depart := max tSlot tUnit
      if horizon < depart - now then no rrCapacity
      else if s.commitChanges n && s.rd (Fd.gateBell fabricBlk.base) ≤ depart then no rrFlip
      else
        let base := depart + s.rd (Fd.osLatency n) + 10 + 32 + (if isGet then s.rd (Fd.osRetLatency n) else 0)
        let d := s.deadline n now base (s.bell.windows.length + 1) base
        if 262144 < d - now then no rrCapacity
        else (.admitted d start, (s.setOutStream n { ucur := tUnit, slots }).inc Fd.fabAdmitted 1)

/-! ### Announcements and thermal notices (R62, R379) -/

/-- Sources of the enabled inbound streams that name a stack, each once. -/
def State.stackPeers (s : State) (k : Nat) : List Nat :=
  (((List.range 256).filter fun n => s.flag (Fd.isEn n) && (s.rd (Fd.isStacks n)).testBit k).map
    fun n => s.rd (Fd.isSource n)).eraseDups

/-- The 26-byte body of a window announcement (Table 12.3). -/
def windowBody (w : Window) : List Byte :=
  ctlBody (toBytes 8 w.start.toNat ++ toBytes 2 w.length.toNat ++ toBytes 1 w.kind.toNat ++ toBytes 2 w.unit.toNat ++
    toBytes 2 w.device.toNat)

/-- Hold an announced window; at most 4,096 are held (R379). Windows over are forgotten. -/
def State.holdWindow (s : State) (w : Window) : State :=
  let ws := s.bell.windows.filter fun v => s.bellCount.toNat < v.start.toNat + v.length.toNat
  if ws.contains w || 4096 ≤ ws.length then s else { s with bell := { s.bell with windows := ws ++ [w] } }

/-- Announce a window of this module. -/
def State.announce (s : State) (w : Window) : State :=
  let src := s.device
  let body := windowBody w
  (s.stackPeers (windowStack w)).foldl (fun t dev => t.routeCtl { kind := 4, routed := true, dest := dev, src, body })
    (s.holdWindow w)

/-- Send a thermal notice of a stack (R379, Table 12.3). -/
def State.thermalNotice (s : State) (k state : Nat) : State :=
  let src := s.device
  let body := ctlBody (toBytes 1 k ++ toBytes 1 state ++ toBytes 8 s.bellCount.toNat)
  (s.stackPeers k).foldl (fun t dev => t.routeCtl { kind := 7, routed := true, dest := dev, src, body }) s

/-! ### Packets (R361, R362, R397) -/

/-- The 32-byte request record (Table 13.2). -/
def remRecord (op fmt ratom ten : Nat) (notify sched latency : Bool) (expiry : Nat) (addr a b : Nat) : List Byte :=
  toBytes 1 op ++ toBytes 1 (fmt + 32 * ratom) ++ toBytes 1 ten ++
    toBytes 1 (b2n notify + 2 * b2n sched + 4 * b2n latency) ++ toBytes 4 expiry ++ toBytes 8 addr ++ toBytes 8 a ++
    toBytes 8 b

/-- Flits of a packet of b payload bytes (R362). -/
def packetFlits (b : Nat) : Nat := (b + 32 + 223) / 224

/-- The flits of a packet: 224 bytes of payload each, poison by 32-byte sector. `poison` lists the poisoned sectors
of the data. -/
def flitsOf (cls : BitVec 2) (dest src flow packet : Nat) (record data : List Byte) (poison : List Nat) : List Flit :=
  let all := record ++ data
  let n := (all.length + 223) / 224
  (List.range n).map fun i =>
    let body := (all.drop (224 * i)).take 224
    { kind := if i = 0 then 1 else 2, cls, vc := false, last := decide (i + 1 = n),
      poison := BitVec.ofNat 7 (ofBits ((List.range 7).filter fun j => 1 ≤ 7 * i + j && poison.contains (7 * i + j - 1))),
      orphan := false, seq := 0, dest := BitVec.ofNat 14 dest, src := BitVec.ofNat 14 src,
      flow := BitVec.ofNat 16 flow, packet := BitVec.ofNat 32 packet, index := BitVec.ofNat 8 i,
      bytes := BitVec.ofNat 8 (if all.length = 32 then 0 else body.length), payload := body }

/-- Whether the hop from a port crosses between coordinate 0 and the highest coordinate of its ring (R370): its far
device's coordinate lies behind this module's in the direction the port faces. -/
def State.wraps (s : State) (p : Nat) : Bool :=
  let a := coord s.device (p / 4)
  let b := coord (s.rd (Fd.optPortFarDevice p)) (p / 4)
  if p % 4 < 2 then b < a else a < b

/-- Whether the module's Bell count is one that others share (Table 2.2). -/
def State.bellCounts (s : State) : Bool :=
  s.bellState = bsLocked || s.bellState = bsHoldover || s.bellState = bsBellwether

/-- A scheduled flit of a module that has lost Bell time goes on as bulk (R59; notes/assumptions/133.md). -/
def FlitOut.asBulk (f : FlitOut) : FlitOut := { f with flit := { f.flit with cls := 0, flow := 0, orphan := false }, start := 0 }

/-- Queue flits at a port; a bulk flit that crosses the dateline takes `VC` 1. Without Bell time the scheduled class goes
as bulk. Scheduled flits of this module leave from Bell `start` on (R377). -/
def State.queueFlits (s : State) (p : Nat) (sched orphan reply : Bool) (fs : List Flit) (start : Word := 0) : State :=
  let x := s.port p
  let timed := s.bellCounts
  let sched := sched && timed
  let vc (f : Flit) : Bool := !sched && (f.vc || s.wraps p)
  let fs := fs.map fun f =>
    let o : FlitOut := { flit := { f with orphan := f.orphan || orphan, vc := vc f }, reply, start }
    if timed then o else o.asBulk
  s.setPort p (if sched && !orphan then { x with sched := x.sched ++ fs }
    else if sched then { x with orphans := x.orphans ++ fs } else { x with bulk := x.bulk ++ fs })

/-- The port of a pair a bulk packet leaves on: they alternate, and a port out of service is passed over (R385). -/
def State.bulkPort (s : State) (dim dir : Nat) : Nat × State :=
  let p := 4 * dim + 2 * dir
  let a := Tab.get (fun _ => 0) s.fab.alt (2 * dim + dir)
  let q := if s.portUp (p + a) || !s.portUp (p + 1 - a) then p + a else p + 1 - a
  (q, s.setFab { s.fab with alt := Tab.put (fun _ => 0) s.fab.alt (2 * dim + dir) (1 - (q - p)) })

/-- Send flits towards a device by the route table. -/
def State.routeFlits (s : State) (dest : Nat) (sched reply : Bool) (fs : List Flit) : State :=
  match s.routeTo dest with
  | none => fs.foldl (fun t _ => t.noRoute uwNoPort dest) s
  | some (dim, dir) =>
    let (p, s) := s.bulkPort dim dir
    s.queueFlits p sched sched reply fs

/-- The port of a flow's slots, if the module's Rotas hold the flow. -/
def State.flowPort (s : State) (flow : Nat) : Option Nat :=
  (List.range 16).find? fun p => (s.rota p).any (·.flow = flow)

/-- Send flits of a flow: in its slots, or as orphans where the module holds none, or beyond two periods' worth of
them (R372). -/
def State.flowFlits (s : State) (flow dest : Nat) (reply : Bool) (fs : List Flit) : State :=
  match s.flowPort flow with
  | none => s.routeFlits dest true reply fs
  | some p =>
    let held := ((s.port p).sched.filter fun f => f.flit.flow.toNat = flow).length
    let cap := 2 * (((s.rota p).filter (·.flow = flow)).map fun e => popCount 8 e.lanes).sum
    let s := s.queueFlits p true false reply (fs.take (cap - held))
    if fs.length ≤ cap - held then s else s.routeFlits dest true reply (fs.drop (cap - held))

/-- Send a packet: scheduled by its flow, else as bulk. The source holds its own scheduled flits for the slots
committed to them, none before Bell `start` (R377). -/
def State.sendPacket (s : State) (flow : Option Nat) (dest packet : Nat) (record data : List Byte) (poison : List Nat)
    (reply : Bool) (start : Word) : State :=
  match flow with
  | none => s.routeFlits dest false reply (flitsOf 0 dest s.device 0 packet record data poison)
  | some f =>
    let fs := flitsOf 1 dest s.device f packet record data poison
    match s.flowPort f with
    | none => s.routeFlits dest true reply fs
    | some p => s.queueFlits p true false reply fs start

end Sys2Proof.Machine
end

