-- ==== Sys2Proof/Machine/Keis.lean ====
section
/-! DEFINITION. Machine/Keis.lean: KEIS instruction words: formats, the opcode map, encoding and decoding, and which words
are illegal (R105 to R113, R124). -/
namespace Sys2Proof.Machine

/-! ### Instructions (Table 4.3) -/

/-- Opcodes of formats 0x0 and 0x1. -/
inductive AluOp where
  | add | sub | mul | and | or | xor | shl | shr | sra | min | max | minu | maxu | cmp
  deriving DecidableEq, Repr

/-- Opcodes of format 0x5. -/
inductive SyncOp where
  | nop | stop | bell | self | failrd | waitc | fence | waitbell | at_
  deriving DecidableEq, Repr

/-- Opcodes of format 0x7. -/
inductive DfldOp where
  | dset | dget | dadd
  deriving DecidableEq, Repr

/-- An instruction as its first word spells it, its predicate apart. -/
inductive KInstr where
  | jr (o : JrOps)
  | alu (f : AluOp) (o : AluOps)
  | br (o : BrOps)
  | loop (o : BrOps)
  | xfer (c : OpCode) (o : XferOps)
  | mem (c : OpCode) (o : MemOps)
  | sync (k : SyncOp) (o : SyncOps)
  | li (ga : BitVec 5)
  | dfld (k : DfldOp) (o : DfldOps)
  deriving DecidableEq, Repr

def AluOp.code : AluOp → Nat
  | .add => 0x08
  | .sub => 0x09
  | .mul => 0x0A
  | .and => 0x0B
  | .or => 0x0C
  | .xor => 0x0D
  | .shl => 0x0E
  | .shr => 0x0F
  | .sra => 0x10
  | .min => 0x11
  | .max => 0x12
  | .minu => 0x13
  | .maxu => 0x14
  | .cmp => 0x15

def SyncOp.code : SyncOp → Nat
  | .nop => 0x00
  | .stop => 0x01
  | .bell => 0x1A
  | .self => 0x1B
  | .failrd => 0x1C
  | .waitc => 0x71
  | .fence => 0x72
  | .waitbell => 0x73
  | .at_ => 0x74

def DfldOp.code : DfldOp → Nat
  | .dset => 0x22
  | .dget => 0x23
  | .dadd => 0x24

/-- `OP` of an instruction (Table 4.3). -/
def KInstr.op : KInstr → Nat
  | .jr _ => 0x04
  | .alu f _ => f.code
  | .br _ => 0x02
  | .loop _ => 0x03
  | .xfer c _ => opByte c
  | .mem c _ => opByte c
  | .sync k _ => k.code
  | .li _ => 0x18
  | .dfld k _ => k.code

/-- `FMT` of an instruction. -/
def KInstr.fmt : KInstr → Nat
  | .jr _ => 0
  | .alu _ o => match o.src with
    | .reg _ => 0
    | .imm _ => 1
  | .br _ => 2
  | .loop _ => 2
  | .xfer _ _ => 3
  | .mem _ _ => 4
  | .sync _ _ => 5
  | .li _ => 6
  | .dfld _ _ => 7

/-! ### Encoding (Tables 4.1 and 4.2) -/

/-- Bits [45:0] of an instruction. -/
def KInstr.rest : KInstr → Nat
  | .jr o => o.ga.toNat * 2 ^ 41 + o.gb.toNat * 2 ^ 36 + o.gc.toNat * 2 ^ 31 + o.cond.toNat * 2 ^ 27
  | .alu _ o => match o.src with
    | .reg gc => o.ga.toNat * 2 ^ 41 + o.gb.toNat * 2 ^ 36 + gc.toNat * 2 ^ 31 + o.cond.toNat * 2 ^ 27
    | .imm v => o.ga.toNat * 2 ^ 41 + o.gb.toNat * 2 ^ 36 + o.cond.toNat * 2 ^ 32 + v.toNat
  | .br o => o.ga.toNat * 2 ^ 41 + o.gb.toNat * 2 ^ 36 + o.cond.toNat * 2 ^ 32 + o.offset.toNat
  | .loop o => o.ga.toNat * 2 ^ 41 + o.gb.toNat * 2 ^ 36 + o.cond.toNat * 2 ^ 32 + o.offset.toNat
  | .xfer _ o => xferRest o
  | .mem _ o => memRest o
  | .sync _ o => o.ga.toNat * 2 ^ 41 + o.cn.toNat * 2 ^ 37 + o.varnt.toNat * 2 ^ 35 + o.imm.toNat
  | .li ga => ga.toNat * 2 ^ 41
  | .dfld _ o => o.dn.toNat * 2 ^ 42 + o.off.toNat * 2 ^ 36 + o.w.toNat * 2 ^ 34 + o.gb.toNat * 2 ^ 29

/-- The first word of an instruction under a predicate. -/
def KInstr.word (i : KInstr) (pn : Bool) (pg : BitVec 5) : Word := keisWord i.op i.fmt pn pg i.rest

/-- Whether a second word belongs to the instruction: `LI`'s extension word and the operation after `AT` (R105, R124). -/
def KInstr.long : KInstr → Bool
  | .li _ => true
  | .sync k _ => k = .at_
  | _ => false

/-- Bytes of an instruction. -/
def KInstr.len (i : KInstr) : Nat := if i.long then 16 else 8

/-! ### Decoding -/

def aluOps : List AluOp := [.add, .sub, .mul, .and, .or, .xor, .shl, .shr, .sra, .min, .max, .minu, .maxu, .cmp]
def syncOps : List SyncOp := [.nop, .stop, .bell, .self, .failrd, .waitc, .fence, .waitbell, .at_]
def dfldOps : List DfldOp := [.dset, .dget, .dadd]

/-- Every operation of Table 4.3. -/
def opCodes : List OpCode := [.ld, .st, .dld, .dst, .move, .gather, .scatter, .graze, .compact, .isect, .union, .merge,
  .segred, .ebag, .hist, .topk, .aadd, .amin, .amax, .axch, .acas, .aacc, .settle, .put, .get, .racc, .ratom, .signal,
  .frange, .ttouch]

/-- The operation of an opcode byte. -/
def opOfByte (b : Nat) : Option OpCode := opCodes.find? fun c => opByte c = b

/-- A field of a word as operands hold it. -/
def fieldOf (n : Nat) (w : Word) (lo : Nat) : BitVec n := BitVec.ofNat n (w.toNat / 2 ^ lo)

/-- Operand fields of a word by format (Table 4.2). -/
def aluOfWord (w : Word) (imm : Bool) : AluOps :=
  { ga := fieldOf 5 w 41, gb := fieldOf 5 w 36,
    src := if imm then .imm (fieldOf 32 w 0) else .reg (fieldOf 5 w 31), cond := fieldOf 4 w (if imm then 32 else 27) }
def jrOfWord (w : Word) : JrOps :=
  { ga := fieldOf 5 w 41, gb := fieldOf 5 w 36, gc := fieldOf 5 w 31, cond := fieldOf 4 w 27 }
def brOfWord (w : Word) : BrOps :=
  { ga := fieldOf 5 w 41, gb := fieldOf 5 w 36, cond := fieldOf 4 w 32, offset := fieldOf 32 w 0 }
def xferOfWord (w : Word) : XferOps :=
  { dn := fieldOf 4 w 42, ce := bit w 41, cn := fieldOf 4 w 37, gs := fieldOf 5 w 32, gx := fieldOf 5 w 27, gy := fieldOf 5 w 22 }
def memOfWord (w : Word) : MemOps :=
  { ga := fieldOf 5 w 41, gp := fieldOf 5 w 36, gv := fieldOf 5 w 31, gk := fieldOf 5 w 26, ce := bit w 25,
    cn := fieldOf 4 w 21, sub := fieldOf 5 w 16, imm := fieldOf 16 w 0 }
def syncOfWord (w : Word) : SyncOps := { ga := fieldOf 5 w 41, cn := fieldOf 4 w 37, varnt := fieldOf 2 w 35, imm := fieldOf 32 w 0 }
def dfldOfWord (w : Word) : DfldOps := { dn := fieldOf 4 w 42, off := fieldOf 6 w 36, w := fieldOf 2 w 34, gb := fieldOf 5 w 29 }

/-- The instruction a first word spells; none where its `OP` or `FMT` is not assigned, the opcode does not admit the
format, or a reserved field is not 0 (R106, R110). -/
def keisDecode (w : Word) : Option KInstr :=
  let op := bits w 63 56
  match bits w 55 52 with
  | 0 =>
    if bits w 26 0 ≠ 0 then none
    else if op = 0x04 then some (.jr (jrOfWord w))
    else (aluOps.find? fun f => f.code = op).map fun f => .alu f (aluOfWord w false)
  | 1 => (aluOps.find? fun f => f.code = op).map fun f => .alu f (aluOfWord w true)
  | 2 => if op = 0x02 then some (.br (brOfWord w)) else if op = 0x03 then some (.loop (brOfWord w)) else none
  | 3 =>
    if bits w 21 0 ≠ 0 then none
    else match opOfByte op with
      | some c => if usesXfer c then some (.xfer c (xferOfWord w)) else none
      | none => none
  | 4 => match opOfByte op with
    | some c => if usesXfer c then none else some (.mem c (memOfWord w))
    | none => none
  | 5 =>
    if bits w 34 32 ≠ 0 then none else (syncOps.find? fun k => k.code = op).map fun k => .sync k (syncOfWord w)
  | 6 => if op = 0x18 ∧ bits w 40 0 = 0 then some (.li (fieldOf 5 w 41)) else none
  | 7 => if bits w 28 0 ≠ 0 then none else (dfldOps.find? fun k => k.code = op).map fun k => .dfld k (dfldOfWord w)
  | _ => none

/-- The predicate of a word. -/
def predOf (w : Word) : Bool × BitVec 5 := (bit w 51, fieldOf 5 w 46)

/-! ### Illegal words (R106, R108, R111 to R113, and each instruction's rule) -/

/-- Whether a SYNC word has a non-zero field that its instruction does not use (R111). -/
def syncUnused (o : SyncOps) (ga imm : Bool) : Bool :=
  (!ga && o.ga ≠ 0) || o.cn ≠ 0 || o.varnt ≠ 0 || (!imm && o.imm ≠ 0)

/-- Width in bits of a descriptor field. -/
def dfldBits (o : DfldOps) : Nat := 8 * 2 ^ o.w.toNat

/-- Whether the field is aligned to its width. -/
def dfldAligned (o : DfldOps) : Bool := o.off.toNat % 2 ^ o.w.toNat = 0

/-- The word after `AT` as a pair's second half (R124). -/
def pairOfWord (w : Word) : PairOp :=
  match keisDecode w with
  | some (.xfer c o) => if bit w 51 then .other w else .xfer c (fieldOf 5 w 46) o
  | some (.mem c o) => if bit w 51 then .other w else .mem c (fieldOf 5 w 46) o
  | _ => .other w

/-- Whether a pair's second word is not one that may follow `AT`: an operation with `PG` 0 that is itself legal. -/
def pairBad : PairOp → Bool
  | .other _ => true
  | .xfer c pg o => pg ≠ 0 || xferIllegal c o || !usesXfer c
  | .mem c pg o => pg ≠ 0 || memIllegal c o || usesXfer c

/-- The word of a pair's second half. -/
def pairWord : PairOp → Word
  | .xfer c pg o => (KInstr.xfer c o).word false pg
  | .mem c pg o => (KInstr.mem c o).word false pg
  | .other w => w

/-- Whether an instruction's operands, with the second word of a pair, make it illegal. -/
def KInstr.bad (i : KInstr) (second : PairOp) : Bool :=
  match i with
  | .jr o => o.gc ≠ 0 || o.cond ≠ 0
  | .alu .cmp o => !condOk o.cond || (o.cond = condAlways && !(o.gb = 0 && srcIsZero o.src))
  | .alu _ o => o.cond ≠ 0
  | .br o => !condOk o.cond || (o.cond = condAlways && !(o.ga = 0 && o.gb = 0))
  | .loop o => o.gb ≠ 0 || o.cond ≠ 0
  | .xfer c o => xferIllegal c o
  | .mem c o => memIllegal c o
  | .sync .nop o => syncUnused o false false
  | .sync .stop o => syncUnused o false false
  | .sync .bell o => syncUnused o true false
  | .sync .self o => syncUnused o true false
  | .sync .failrd o => syncUnused o true false
  | .sync .waitc o => o.varnt ≠ 0
  | .sync .fence o => o.varnt = 3 || o.ga ≠ 0 || o.cn ≠ 0 || o.imm ≠ 0
  | .sync .waitbell o => o.cn ≠ 0 || o.varnt ≠ 0
  | .sync .at_ o => o.cn ≠ 0 || o.varnt ≠ 0 || pairBad second
  | .li _ => false
  | .dfld _ o => !dfldAligned o

/-- Whether a first word, with the word after it, is illegal. -/
def keisIllegal (w second : Word) : Bool :=
  (bit w 51 && (predOf w).2 = 0) || match keisDecode w with
    | some i => i.bad (pairOfWord second)
    | none => true

end Sys2Proof.Machine
end

