-- ==== Sys2Proof/Machine/Issue.lean ====
section
/-! DEFINITION. Machine/Issue.lean: issue, the scoreboard, strand faults, waits and the completion of operations
(R71 to R78, R106, R109, R115, R121 to R123, R138 to R141). -/
namespace Sys2Proof.Machine

/-! ### The scoreboard (R73, R74) -/

/-- Registers of a strand marked busy by its operations in flight. -/
def State.busyG (s : State) (d t n : Nat) : Bool := n ≠ 0 && (s.opsOf d t).any fun o => o.hold.contains n
def State.busyD (s : State) (d t n : Nat) : Bool := (s.opsOf d t).any fun o => o.holdD.contains n

/-- The registers an instruction reads or writes, whether it takes a tag, and whether something else than a register or
a tag holds it at issue: its strand's fault slot, the selection store, a full Bell queue (R124, R198, R327). -/
structure Uses where
  g    : List Nat := []
  d    : List Nat := []
  tag  : Bool := false
  slot : Bool := false
  deriving DecidableEq, Repr

/-- The access of an operation that is not a transfer (Table 10.6; notes/assumptions/12.md for range commands). -/
def accOf (c : OpCode) (sub : Nat) : Acc :=
  match c with
  | .ld => .read
  | .dld => .read
  | .st => .write
  | .dst => .write
  | .frange => if sub = 2 ∨ sub = 4 then .write else .read
  | .ttouch => if sub = 1 then .write else .read
  | _ => .update

/-- Whether an operation takes its strand's fault slot on a miss (R327). -/
def takesSlot (c : OpCode) : Bool := !isXferOp c && c ≠ .ttouch && c ≠ .signal && c ≠ .ratom

/-- Whether a strand's fault slot is occupied: by an operation that missed, until it completes (R327). -/
def State.slotTaken (s : State) (d t : Nat) : Bool :=
  (s.opsOf d t).any (·.slotted)

/-- Whether a lookup would miss both levels. -/
def State.wouldMiss (s : State) (d : Nat) (va : Word) (acc : Acc) : Bool :=
  match s.lookup d va acc with
  | .miss _ => true
  | _ => false

/-- The virtual address an operation of format 0x4 translates: g[gp] for a range, else g[gp] + imm16. -/
def memVa (c : OpCode) (x : Strand) (o : MemOps) : Word :=
  if c = .settle ∨ c = .frange then x.rg o.gp.toNat else x.memAddr o

/-- Whether an operation that is not a transfer would need its strand's fault slot while another holds it. -/
def State.slotWait (s : State) (d t : Nat) (c : OpCode) (va : Word) (sub : Nat) : Bool :=
  takesSlot c && s.slotTaken d t && s.wouldMiss d va (accOf c sub)

/-- Whether an operation is a held pair, and the pairs a Pen's Bell queue holds. -/
def Op.isHeld (o : Op) : Bool :=
  match o.phase with
  | .held _ _ => true
  | _ => false
def State.heldIn (s : State) (pen : Nat) : Nat := (s.ops.filter fun o => o.isHeld && penOf o.drover = pen).length

/-- Opcode of a pair's operation. -/
def pairCode : PairOp → OpCode
  | .xfer c _ _ => c
  | .mem c _ _ => c
  | .other _ => .ld

/-- The g and d registers of a pair's second word. -/
def pairG : PairOp → List Nat
  | .xfer c _ o =>
    if c = .segred || c = .topk then [o.gs.toNat] else [o.gs.toNat, o.gx.toNat, o.gy.toNat]
  | .mem _ _ o => [o.ga.toNat, o.gp.toNat, o.gv.toNat, o.gk.toNat]
  | .other _ => []
def pairD (x : Strand) : PairOp → List Nat
  | .xfer c _ o => xferD c x o.dn.toNat
  | _ => []

/-- Counter and status register a pair names. -/
def pairCn : PairOp → Option Nat
  | .xfer _ _ o => counterOf o.ce o.cn
  | .mem _ _ o => counterOf o.ce o.cn
  | .other _ => none
def pairGs : PairOp → Nat
  | .xfer _ _ o => o.gs.toNat
  | _ => 0

/-- What an instruction of a strand uses; `second`, the word after it. -/
def State.uses (s : State) (d t : Nat) (i : KInstr) (second : PairOp) : Uses :=
  let x := s.strand d t
  match i with
  | .jr o => { g := [o.ga.toNat, o.gb.toNat] }
  | .alu _ o => { g := o.ga.toNat :: o.gb.toNat :: srcReads o.src }
  | .br o => { g := [o.ga.toNat, o.gb.toNat] }
  | .loop o => { g := [o.ga.toNat] }
  | .xfer c o =>
    { g := pairG (.xfer c 0 o), d := xferD c x o.dn.toNat, tag := true,
      slot := if c = .dld || c = .dst then s.slotWait d t c (x.rg o.gx.toNat) 0
              else c = .topk && (s.drv d).selHold.isSome }
  | .mem c o =>
    { g := pairG (.mem c 0 o), tag := true, slot := s.slotWait d t c (memVa c x o) o.sub.toNat }
  | .sync .at_ o =>
    { g := o.ga.toNat :: pairG second, d := pairD x second, tag := true, slot := decide (256 ≤ s.heldIn (penOf d)) }
  | .sync _ o => { g := [o.ga.toNat] }
  | .li ga => { g := [ga.toNat] }
  | .dfld _ o => { g := [o.gb.toNat], d := [o.dn.toNat] }

/-- Whether a register an instruction uses is busy. -/
def State.blocked (s : State) (d t : Nat) (u : Uses) : Bool :=
  u.g.any (s.busyG d t ·) || u.d.any (s.busyD d t ·)

/-! ### The instruction store (R70) -/

/-- A line of a Drover's instruction store as it was fetched, which later writes do not change (R70). -/
def State.storeLine (s : State) (d line : Nat) : Option (List Byte) :=
  ((s.drv d).store.find? fun e => e.1 = line).map (·.2)

/-- The instruction word at an address, if its line is in the store. -/
def State.storeWord (s : State) (d a : Nat) : Option Word :=
  (s.storeLine d (a / 128)).map fun b => BitVec.ofNat 64 (ofBytes ((b.drop (a % 128)).take 8))

/-- Whether a first word has a second (R105, R124). -/
def isLong (w : Word) : Bool :=
  match keisDecode w with
  | some i => i.long
  | none => false

/-- The instruction at a strand's address: its first word, and its second or 0; none while a line it needs is not in the
store (R70, R107). -/
def State.fetched (s : State) (d t : Nat) : Option (Word × Word) :=
  let a := (s.strand d t).pc.toNat
  match s.storeWord d a with
  | none => none
  | some w => if isLong w then (s.storeWord d (a + 8)).map fun e => (w, e) else some (w, 0)

/-! ### Issue (R69, R71, R73, R74, R106, R109) -/

/-- A strand issues while it is `RUNNING`; a stalled one stands at a wait instruction. -/
def Strand.canIssue (x : Strand) : Bool := x.phase = phRunning && x.wait.isNone

/-- Whether a legal instruction at a strand's address waits: on its predicate's register, or, its predicate true, on a
register, a tag or what its operation waits for. -/
def State.heldBack (s : State) (d t : Nat) : Bool :=
  match s.fetched d t with
  | none => false
  | some (w, e) =>
    !keisIllegal w e && match keisDecode w with
    | none => false
    | some i =>
      let (pn, pg) := predOf w
      let u := s.uses d t i (pairOfWord e)
      s.busyG d t pg.toNat ||
        ((s.strand d t).pred pn pg && (s.blocked d t u || (u.tag && !s.tagFree d t) || u.slot))

/-- The state a strand shows: `STALLED` also on a busy register or for a tag (R69, Table 3.2). -/
def State.strandState (s : State) (d t : Nat) : Nat :=
  if (s.strand d t).canIssue && s.heldBack d t then phStalled else (s.strand d t).phase

/-- Whether a strand is ready to issue. -/
def State.ready (s : State) (d t : Nat) : Bool :=
  (s.strand d t).canIssue && (s.fetched d t).isSome && !s.heldBack d t

/-- Whether it is a ready strand's turn: no ready strand has a higher priority, and it is the first of the ready ones of
its priority from the Drover's turn on (R71). -/
def State.myTurn (s : State) (d t : Nat) : Bool :=
  let p := (s.strand d t).prio
  (List.range 8).all (fun u => (s.strand d u).prio ≤ p || !s.ready d u) &&
    ((List.range 8).map fun i => ((s.drv d).turn + i) % 8).find? (fun u => (s.strand d u).prio = p && s.ready d u) = some t

/-- Move a strand past the instruction at its address. -/
def State.advance (s : State) (d t len : Nat) : State :=
  let x := s.strand d t
  s.setStrand d t { x with pc := x.pc + BitVec.ofNat 48 len, phase := phRunning }

/-- Write a strand's registers and move it past its instruction. -/
def State.retire (s : State) (d t len : Nat) (x : Strand) : State := (s.setStrand d t x).advance d t len

/-- A strand fault (R115): g1 takes the instruction's address, `FIRST_FAIL` the status, the strand ends. -/
def State.strandFault (s : State) (d t st : Nat) (at_ : BitVec 48) : State :=
  let x := ((s.strand d t).wg 1 (at_.setWidth 64)).offer st
  let s := s.setStrand d t { x with phase := phEnding, wait := none }
  s.record (halfOf d) 0x0101 (uwStrand d t) st (at_.toNat % 2 ^ 32)

/-- The strand after this one is the first in turn (R71). -/
def State.passTurn (s : State) (d t : Nat) : State := s.setDrv d { s.drv d with turn := (t + 1) % 8 }

/-- Issue of the instruction `i`, with second word `ext` or 0, by its strand: `eff`, its effect when it is legal and its
predicate holds. The strand issues only what stands in the instruction store at its address, when it is ready and its
turn has come; at anything else nothing happens (R70, R71, R74, R106, R109). -/
def State.issue (s : State) (w : Issue) (i : KInstr) (ext : Word) (eff : State → State) : State :=
  let d := w.drover.val
  let t := w.strand.val
  let x := s.strand d t
  let first := i.word w.pn w.pg
  if s.fetched d t ≠ some (first, ext) || !s.ready d t || !s.myTurn d t then s
  else
    let s := s.passTurn d t
    if keisIllegal first ext then s.strandFault d t stIllegal x.pc
    else if !x.pred w.pn w.pg then s.advance d t i.len
    else eff (s.inc (Fd.dbgIssued (penOf d) (d % 8)) 1)

/-- Program address of a strand as a target: 8-byte aligned and in module-local memory (R115, Table 4.7). -/
def targetOk (v : Word) : Bool := bits v 2 0 = 0 && isLocalMem v.toNat

/-- A taken branch: to its target, or the strand fault `FETCH_ADDR` at the branch itself, which then has no effect
(R115). `x` is the strand with the branch's own register writes. -/
def State.branch (s : State) (d t : Nat) (x : Strand) (target : Word) : State :=
  if targetOk target then s.setStrand d t { x with pc := target.setWidth 48, phase := phRunning }
  else s.strandFault d t stFetchAddr (s.strand d t).pc

/-! ### Waits (Table 3.4, R75, R121 to R123, R328) -/

/-- Whether a counter has reached a value (R75). -/
def reached (c v : BitVec 32) : Bool := !(c - v).msb

/-- Whether an operation has read its sources and has no register result to come (the local fence). -/
def Op.localDone (o : Op) : Bool :=
  let out := o.chunks.all (·.sent) && o.mark + o.chunks.length + o.done.length = o.n
  match o.phase with
  | .held _ _ => false
  | .untagged => false
  | _ => match o.code with
    | .st => true
    | .dst => o.gs = 0
    | .aacc => true
    | .settle => o.ga = 0
    | .frange => o.ga = 0
    | .signal => true
    | .aadd => o.ga = 0
    | .amin => o.ga = 0
    | .amax => o.ga = 0
    | .axch => o.ga = 0
    | .acas => o.ga = 0
    | .ttouch => o.ga = 0
    | .ratom => o.ga = 0
    | .put => o.gs = 0 && out
    | .racc => o.gs = 0 && out
    | _ => false

/-- Whether a local address an operation accesses lies in a site window. -/
def Op.atSite (o : Op) : Bool := isSiteWin o.pa

/-- Whether an operation keeps a fence of a variant waiting (Table 3.4). -/
def Op.fences (o : Op) (variant : Nat) : Bool :=
  if !o.localDone then true
  else match variant with
    | 0 => false
    | 1 => !(isRemoteOp o.code || o.code = .ttouch || o.atSite)
    | _ => o.code ≠ .ttouch

/-- Whether a strand's wait is over. -/
def State.waitOver (s : State) (d t : Nat) : Wait → Bool
  | .counter cn v => reached ((s.strand d t).rc cn) v
  | .fence k => (s.opsOf d t).all fun o => !o.fences k
  | .bell b => !s.bellCount.ult b || s.bellState = bsUnlocked
  | .slot id => match s.op? id with
    | some o => o.phase ≠ .missed
    | none => true

/-- Release a strand whose wait is over: it moves past its wait instruction; a `WAITBELL` released in `UNLOCKED` short
of its target leaves `UNLOCKED` in `FIRST_FAIL` (R123). -/
def State.wake (s : State) (d t : Nat) : State :=
  let x := s.strand d t
  match x.wait with
  | none => s
  | some wt =>
    if x.phase = phStalled ∧ s.waitOver d t wt then
      match wt with
      | .slot _ => s.setStrand d t { x with wait := none, phase := phRunning }
      | .bell _ =>
        let x := if s.bellState = bsUnlocked then x.offer stUnlocked else x
        (s.setStrand d t { x with wait := none }).advance d t 8
      | _ => (s.setStrand d t { x with wait := none }).advance d t 8
    else s

/-- Release every strand of the module whose wait is over. -/
def State.wakeAll (s : State) : State := s.strands.foldl (fun t e => t.wake (e.1 / 8) (e.1 % 8)) s

/-- Begin a wait; one already over releases at once. -/
def State.beginWait (s : State) (d t : Nat) (wt : Wait) : State :=
  (s.setStrand d t { s.strand d t with wait := some wt, phase := phStalled }).wake d t

/-! ### Completion (R138 to R141) -/

/-- The status word of Table of R139. -/
def statusWord (st reason hi : Nat) : Word := BitVec.ofNat 64 (st + 2 ^ 16 * reason + 2 ^ 32 * hi)

/-- Complete an operation: its counter rises by k, gs takes the status word, a status that is not `OK` is offered to
`FIRST_FAIL`, its tag and registers are freed, and waits that are over release. A detached operation has no strand:
its end waits to be credited (R86); a lost one only ends (R92). -/
def State.finish (s : State) (o : Op) (st hi k : Nat) : State :=
  let st := if st = stOk && o.poisoned then stPoison else st
  if o.lost then (s.dropOp o.id).pruneTickets
  else if o.detached then s.setOp { o with phase := .served, status := st } else
  let x := s.strand o.drover o.strand
  let x := match o.cn with
    | some c => x.raise c (BitVec.ofNat 32 k)
    | none => x
  let x := x.wg o.gs (statusWord st (if st = stRefused then o.reason else 0) hi)
  let x := if st = stOk then x else x.offer st
  let s := (s.setStrand o.drover o.strand x).dropOp o.id
  let s := if st = stLate then s.inc Fd.fabLate 1 else s
  let s := s.inc (Fd.dbgCompleted (penOf o.drover) (o.drover % 8)) 1
  (s.wake o.drover o.strand).pruneTickets

/-- Write the register result of an operation. -/
def State.result (s : State) (o : Op) (v : Word) : State :=
  if o.detached then s else s.setStrand o.drover o.strand ((s.strand o.drover o.strand).wg o.ga v)

/-- Complete an operation that failed: its register result is 0 (R117, R254, R332). -/
def State.failOp (s : State) (o : Op) (st : Nat) : State := (s.result o 0).finish o st 0 1

/-- A new operation of a strand, or one that a held pair has reserved: it takes the next number. -/
def State.freshOp (s : State) (d t : Nat) (c : OpCode) (w : Word) : Op :=
  { id := s.nextOp, drover := d, strand := t, logical := s.logicalOf d, code := c, word := w, phase := .ready }

/-- Put an operation among those in flight, in place of the one with its number if there is one. -/
def State.putOp (s : State) (o : Op) : State := if (s.op? o.id).isSome then s.setOp o else s.addOp o

end Sys2Proof.Machine
end

