-- ==== Sys2Proof/Machine/Muster.lean ====
section
/-! DEFINITION. Machine/Muster.lean: signals to strands and Muster groups (R120, R405 to R410). -/
namespace Sys2Proof.Machine

/-! ### Signals at the target (Table 4.9) -/

/-- Whether a target word keeps the layout of R120. -/
def targetWordOk (w : Word) : Bool := bits w 63 62 = 0 && bits w 36 36 = 0 && bits w 31 0 = 0

/-- Whether a Drover, its Pen or its Paddock is in reset. -/
def State.droverInReset (s : State) (d : Nat) : Bool :=
  s.drvState d = 4 || s.closed.contains (penOf d) || s.resetPaddocks.contains (paddockOf d)

/-- Raise a counter of a strand of this module, named by logical Drover (Table 4.9): the status and the state. -/
def State.signalHere (s : State) (logical t cn : Nat) (v : BitVec 32) : Nat × State :=
  match s.physical? logical with
  | none => (stAbsent, s)
  | some d =>
    let x := s.strand d t
    if s.drvState d = 1 then (stAbsent, s)
    else if s.droverInReset d then (stReset, s)
    else if x.phase = phIdle then (stTargetIdle, s)
    else if x.phase = phSaving then
      (stOk, s.setStrand d t { x with
        heldSig := Tab.put (fun _ => 0) x.heldSig cn (Tab.get (fun _ => 0) x.heldSig cn + v) })
    else if x.phase = phFenced then (stAbsent, s)
    else (stOk, (s.setStrand d t (x.raise cn v)).wake d t)

/-- Whether an isolated Seam lies between a half and a logical Drover's Pen (R29). -/
def State.cutFrom (s : State) (half logical : Nat) : Bool :=
  s.flag Fd.seamStatusIsolated && (s.physical? logical).any fun d => halfOf d ≠ half

/-- Raise the counter a word of R120 names by v. -/
def State.signalWord (s : State) (w : Word) (v : BitVec 32) : Nat × State :=
  s.signalHere (bits w 47 40) (bits w 39 37) (bits w 35 32) v

/-! ### Groups -/

def State.group (s : State) (n : Nat) : Group := Tab.get (fun _ => {}) s.fab.groups n
def State.setGroup (s : State) (n : Nat) (x : Group) : State :=
  s.setFab { s.fab with groups := Tab.put (fun _ => {}) s.fab.groups n x }

/-- Local address of a group's line (Table 13.6). -/
def State.groupLine (s : State) (n : Nat) : Nat := 128 * s.rd (Fd.musterLineLine n)

/-- A group keeps the first status other than `OK`, and of `LATE` the greatest lateness (R409). -/
def Group.note (g : Group) (st hi : Nat) : Group :=
  if st = stOk then g
  else if g.status = stOk then { g with status := st, hi }
  else if g.status = stLate ∧ st = stLate then { g with hi := max g.hi hi }
  else g

/-- The 26-byte body of a Muster message (Table 13.10). -/
def musterBody (dest kind ten src st gen : Nat) (release : Word) (deadline hi : Nat) : List Byte :=
  toBytes 1 dest ++ toBytes 1 kind ++ toBytes 1 ten ++ toBytes 1 src ++ toBytes 2 st ++ toBytes 4 gen ++
    toBytes 8 release.toNat ++ toBytes 4 deadline ++ toBytes 4 hi

/-- A message that a group sends, before it is routed: destination device and body fields. -/
structure MusterOut where
  dest : Nat
  msg  : MusterMsg
  deriving DecidableEq, Repr

/-- Admit a group's message (R409) and give it its status: whatever the outcome, it is sent. -/
def State.musterSend (s : State) (n dest destGroup : Nat) (isRelease : Bool) (r : Word) : State × MusterOut :=
  let ten := s.rd (Fd.musterCfgTen n)
  let (a, s) := s.admission (s.rd (Fd.musterCfgStream n)) ten 0 0 false 0
  let g := s.group n
  let (d, g) := match a with
    | .admitted d _ => (d, g)
    | .refused k => (0, g.note stRefused k)
  let s := s.setGroup n g
  (s, { dest, msg := {
    group := BitVec.ofNat 6 destGroup, release := isRelease, ten := BitVec.ofNat 8 ten, fromGroup := BitVec.ofNat 8 n,
    source := BitVec.ofNat 14 s.device, status := BitVec.ofNat 16 g.status,
    generation := BitVec.ofNat 32 (s.rd (Fd.musterStatGen n)), bell := r, deadline := BitVec.ofNat 32 d,
    lateness := BitVec.ofNat 32 g.hi } })

/-- Act on a release (R408): the release word is written, local counters rise, and the release goes down. The messages
to send are answered. -/
def State.actRelease (s : State) (n : Nat) (r : Word) (extraStatus extraHi : Nat) : State × List MusterOut :=
  let line := s.groupLine n
  let g := (s.group n).note extraStatus extraHi
  let w := g.status * 2 ^ 48 + min g.hi 0xFFFF * 2 ^ 32 + s.rd (Fd.musterStatGen n)
  let s := (s.setGroup n g).writeBytes (line + 8) (toBytes 8 w) false false
  let s := eachUpTo (min (s.rd (Fd.musterLineLocal n)) 6) (fun s i =>
    let t := BitVec.ofNat 64 (ofBytes (s.readBytes (line + 0x50 + 8 * i) 8))
    if targetWordOk t then (s.signalWord t 1).2 else s) s
  let s := s.inc Fd.musterReleases 1
  let (s, out) := (List.range (min (s.rd (Fd.musterLineDown n)) 16)).foldl (fun (p : State × List MusterOut) i =>
    let e := ofBytes (p.1.readBytes (line + 0x10 + 4 * i) 4)
    let (s, m) := p.1.musterSend n (e / 2 ^ 16 % 2 ^ 14) (e % 64) true r
    (s, p.2 ++ [m])) (s, [])
  (s.setGroup n { s.group n with status := 0, hi := 0, release := none, force := false }, out)

/-- A group takes a release naming Bell R: at R's boundary, or at once with its lateness (R408). -/
def State.takeRelease (s : State) (n : Nat) (r : Word) : State × List MusterOut :=
  if r.toNat ≤ s.bellCount.toNat then
    let late := s.bellCount.toNat - r.toNat
    s.actRelease n r (if late = 0 then stOk else stLate) late
  else (s.setGroup n { s.group n with release := some r }, [])

/-- Test a group after an update of its count word; it fires once when the word has reached `TARGET` (R407). -/
def State.testGroup (s : State) (n : Nat) : State × List MusterOut :=
  let c := BitVec.ofNat 32 (ofBytes (s.readBytes (s.groupLine n) 4))
  let target := s.rd (Fd.musterStatTarget n)
  if !reached c (BitVec.ofNat 32 target) then (s, [])
  else
    let s := (s.wr (Fd.musterStatTarget n) (target + s.rd (Fd.musterCfgStep n))).inc (Fd.musterStatGen n) 1
    if s.flag (Fd.musterCfgRoot n) then
      s.takeRelease n (BitVec.ofNat 64 (s.bellCount.toNat + s.rd (Fd.musterCfgAlign n)))
    else
      let (s, m) := s.musterSend n (s.rd (Fd.musterCfgUpDevice n)) (s.rd (Fd.musterCfgUpGroup n)) false 0
      (s.setGroup n { s.group n with status := 0, hi := 0 }, [m])

/-- Add 1 to a group's count word at its bank, or hold the arrival at a closed Pen boundary (R401, R407). The spec puts the
Muster engine in no half: the bank's own half is asked, so an isolated Seam cuts no arrival (R29;
notes/assumptions/134.md). -/
def State.arrive (s : State) (n : Nat) : State × List MusterOut :=
  let a := s.groupLine n
  match s.servedSpan (bankHalf (bankOf a)) a 8 .update with
  | .ok => (s.atomAt .add (.uint 64) false a 1 0 false false).2.2.testGroup n
  | .waits => (s.setGroup n { s.group n with arrivals := (s.group n).arrivals + 1 }, [])
  | .fails _ => (s, [])

/-- Apply a Muster message to its group (R407 to R409). A message whose tenancy differs is discarded. -/
def State.musterApply (s : State) (m : MusterMsg) : State × List MusterOut :=
  let n := m.group.toNat
  if !s.flag (Fd.musterCfgEn n) || s.rd (Fd.musterCfgTen n) ≠ m.ten.toNat then (s, [])
  else
    let late := (BitVec.ofNat 32 s.bellCount.toNat - m.deadline).toInt
    let g := (s.group n).note m.status.toNat m.lateness.toNat
    let g := if m.status.toNat ≠ stRefused ∧ m.deadline ≠ 0 ∧ 0 < late then g.note stLate late.toNat else g
    let s := s.setGroup n g
    if m.release then s.takeRelease n m.bell else s.arrive n

/-- Deliver messages: to this module's own groups at once, to others by the route table. -/
def State.musterOut : Nat → State → List MusterOut → State
  | 0, s, _ => s
  | _, s, [] => s
  | fuel + 1, s, o :: t =>
    if o.dest = s.device then
      let (s, more) := s.musterApply o.msg
      State.musterOut fuel s (t ++ more)
    else
      let m := o.msg
      let body := musterBody m.group.toNat (if m.release then 2 else 1) m.ten.toNat m.fromGroup.toNat m.status.toNat
        m.generation.toNat m.bell m.deadline.toNat m.lateness.toNat
      let s := s.routeCtl { kind := 9, routed := true, dest := o.dest, src := s.device, body }
      State.musterOut fuel s t

/-- Messages one event can cause within the module: each group fires at most once for each of its own arrivals. -/
def musterFuel : Nat := 4096

/-- After an update of the word at a local address: an enabled group whose count word it is is tested (R407). -/
def State.afterUpdate (s : State) (a n : Nat) : State :=
  match (List.range 64).find? fun k =>
      s.flag (Fd.musterCfgEn k) && s.groupLine k < a + n && a < s.groupLine k + 8 with
  | none => s
  | some k => let (s, out) := s.testGroup k; State.musterOut musterFuel s out

/-- A scalar update at a bank with what it may set off: old value, whether it was poisoned, and the state. -/
def State.update (s : State) (k : AtomKind) (f : Fmt) (wrap : Bool) (a v cmp : Nat) (opBad stream : Bool)
    (cls : DramClass := .bulk) : Nat × Bool × State :=
  let (m, bad, s) := s.atomAt k f wrap a v cmp opBad stream cls
  (m, bad, if bad then s else s.afterUpdate a f.size)

/-- Apply the arrivals held at Pen boundaries now open. -/
def State.heldArrivals (s : State) : State :=
  eachUpTo 64 (fun s n =>
    let k := (s.group n).arrivals
    if k = 0 then s
    else eachUpTo k (fun s _ => let (s, o) := s.arrive n; State.musterOut musterFuel s o)
      (s.setGroup n { s.group n with arrivals := 0 })) s

/-! ### Commands -/

/-- A group acts on the release it holds once the count has reached R: at R with `OK`, later with `LATE`, forced with
`TIMEOUT` (R408, R410). -/
def State.releaseDue (s : State) (n : Nat) : State :=
  let g := s.group n
  match g.release with
  | none => s
  | some r =>
    if s.bellCount.toNat < r.toNat then s
    else
      let late := s.bellCount.toNat - r.toNat
      let (t, out) := if g.force then s.actRelease n r stTimeout 0
        else s.actRelease n r (if late = 0 then stOk else stLate) late
      let t := State.musterOut musterFuel t out
      if g.force then (t.wr Fd.musterCmdState 2).irq 42 else t

/-- MUSTER_RELEASE: a group acts on the release it holds at the boundary of Bell R, or, forced, at the next boundary
(R408, R410). -/
def execMusterRelease (n : Fin 64) (s : State) : Host.Outcome State Fault Refusal := .next (s.releaseDue n)

/-- FORCE_RELEASE: the group is released at the next Bell boundary with status `TIMEOUT` (R410, Table 13.12). -/
def execMusterForceRelease (n : Fin 64) (s : State) : Host.Outcome State Fault Refusal :=
  if !s.reaches Fd.musterCmdGo.addr then .next s
  else if s.rd Fd.musterCmdState = 1 then .next (s.wr Fd.musterCmdResult 1)
  else
  let s := (s.wr Fd.musterCmdOp 1).wr Fd.musterCmdGroup n
  if !s.flag (Fd.musterCfgEn n) then .next (((s.wr Fd.musterCmdState 3).wr Fd.musterCmdResult 3).irq 42)
  else
    .next (((s.setGroup n { s.group n with release := some (s.bellCount + 1), force := true }).wr
      Fd.musterCmdState 1).wr Fd.musterCmdResult 0)

end Sys2Proof.Machine
end

