-- ==== Sys2Proof/Machine/SiteLink.lean ====
section
/-! DEFINITION. Machine/SiteLink.lean: a site's bundles, its sideband and its state (R412 to R442). The CRC of packets and
frames is checked outside: a packet that fails it is a command of its own. -/
namespace Sys2Proof.Machine

def State.site (s : State) (k : Nat) : Site := Tab.get (fun _ => {}) s.sites k
def State.setSite (s : State) (k : Nat) (x : Site) : State := { s with sites := Tab.put (fun _ => {}) s.sites k x }
def Site.up (x : Site) (j : Nat) : UpLink := Tab.get (fun _ => {}) x.ups j
def Site.down (x : Site) (j : Nat) : DownLink := Tab.get (fun _ => {}) x.downs j
def State.setUp (s : State) (k j : Nat) (u : UpLink) : State :=
  s.setSite k { s.site k with ups := Tab.put (fun _ => {}) (s.site k).ups j u }
def State.setDown (s : State) (k j : Nat) (u : DownLink) : State :=
  s.setSite k { s.site k with downs := Tab.put (fun _ => {}) (s.site k).downs j u }

/-! ### Site states (Table 14.18) -/

def ssUnpopulated : Nat := 0
def ssLinkReset : Nat := 1
def ssTraining : Nat := 2
def ssHsFailed : Nat := 3
def ssHeld : Nat := 4
def ssRunning : Nat := 5
def ssLinkDown : Nat := 6

/-- Change `SITE_STATUS.STATE`; a change raises the block's interrupt source (R599). -/
def State.siteState (s : State) (k st : Nat) : State :=
  if s.rd (Fd.siteStatusState k) = st then s else (s.wr (Fd.siteStatusState k) st).irq (27 + k)

/-- Drive a site's control wires (Table 14.14). -/
def State.siteWires (s : State) (k : Nat) (pg lrst rst : Bool) : State :=
  let x := s.site k
  if x.pg = pg ∧ x.lrst = lrst ∧ x.rst = rst then s
  else (s.setSite k { x with pg, lrst, rst }).emit (.siteWire k pg lrst rst)

/-- An event of a site, at the error unit of its half (R558). -/
def State.siteRecord (s : State) (k code p1 p2 : Nat) : State := s.record (k / 2) code (uwSite k) p1 p2

/-! ### Bundles (R412 to R414) -/

/-- Whether a bundle carries traffic: in service, and not closed for a repair (R435). -/
def State.upIn (s : State) (k j : Nat) : Bool := s.rdBit (Fd.siteBundlesIn k) (32 + j) && !((s.site k).up j).due
def State.downIn (s : State) (k j : Nat) : Bool := s.rdBit (Fd.siteBundlesIn k) j && !((s.site k).down j).shut

/-- The up bundle that a reply to down bundle j leaves on (R414, R421). -/
def State.replyBundle (s : State) (k j : Nat) : Option Nat :=
  if s.upIn k j then some j
  else match ((List.range 8).map (8 * (j / 8) + ·)).find? (s.upIn k) with
    | some i => some i
    | none => (List.range 32).find? (s.upIn k)

/-- The up bundle of a request to the site: the lowest in service (notes/assumptions/49.md). -/
def State.requestBundle (s : State) (k : Nat) : Option Nat := (List.range 32).find? (s.upIn k)

/-! ### Sending (R416, R418, R421, R422) -/

/-- The packets of a command: itself, then its data by 60 bytes, the last filled with zeros. -/
def slpData : Nat → List Byte → List (List Byte)
  | 0, _ => []
  | fuel + 1, bs => if bs = [] then [] else (bs.take 60 ++ zeros (60 - bs.length)) :: slpData fuel (bs.drop 60)
def slpPackets (vc : Nat) (c : SiteOut) : List Slp :=
  { seq := 0, vc, cmd := some c, data := [] } ::
    (slpData (c.data.length / 60 + 1) c.data).map fun d => { seq := 0, vc, cmd := none, data := d }

/-- One waiting packet leaves if its `VC` has a credit, no earlier packet of the `VC` waits and the retry buffer of 256
has room: what still waits, in reverse, and the state. -/
def State.trySlp (k j : Nat) (r : List Slp × State) (p : Slp) : List Slp × State :=
  let s := r.2
  let u := (s.site k).up j
  let c := Tab.get (fun _ => 0) u.credit p.vc
  if c = 0 ∨ 256 ≤ u.held.length ∨ r.1.any (·.vc = p.vc) then (p :: r.1, s)
  else
    let q := { p with seq := u.seq }
    let credit := Tab.put (fun _ => 0) u.credit p.vc (c - 1)
    let u := { u with seq := (u.seq + 1) % 1024, held := u.held ++ [q], credit, run := (u.run + 1) % 4096 }
    let s := (s.setUp k j u).emit (.slp k j q)
    (r.1, if u.run = 0 then s.emit (.checkPattern k j) else s)

/-- Send what may be sent on an up bundle. Idle packets go out while nothing waits; a check-pattern packet follows 4,096
packets without one (R416). -/
def State.drainUp (s : State) (k j : Nat) : State :=
  let u := (s.site k).up j
  let (w, t) := u.wait.foldl (State.trySlp k j) ([], s.setUp k j { u with wait := [] })
  let u := (t.site k).up j
  t.setUp k j { u with wait := w.reverse, run := if w = [] then 0 else u.run }

/-- Queue packets on an up bundle. -/
def State.sendSlp (s : State) (k j : Nat) (ps : List Slp) : State :=
  let u := (s.site k).up j
  (s.setUp k j { u with wait := u.wait ++ ps }).drainUp k j

/-- The reply to a site's command (R414, R424): none to a site in reset or not running, or once muted (R444). Muted
commands carry bundle 32. -/
def State.siteReply (s : State) (k bundle tag status : Nat) (aux : Word) (data : List Byte) (poison cmd : Nat) : State :=
  if 32 ≤ bundle || s.resetPaddocks.contains k || s.rd (Fd.siteStatusState k) ≠ ssRunning then s
  else match s.replyBundle k bundle with
    | none => s
    | some j => s.sendSlp k j (slpPackets 1
        { cmd, tag, status, cls := 0, len := data.length / 32 - 1, addr := 0, aux, poison, data })

/-- A `DONE` reply. -/
def State.siteDone (s : State) (k bundle tag status : Nat) (aux : Word) : State :=
  s.siteReply k bundle tag status aux [] 0 0x42

/-- The reply to a command that has no effect, in the form of its own reply (Table 14.6): `DATA` of zeros for a `READ` and an
`ATOMIC` (codes 1 and 3), `DONE` for any other. -/
def State.siteFails (s : State) (code k bundle tag sectors status : Nat) : State :=
  if code = 1 ∨ code = 3 then s.siteReply k bundle tag status 0 (zeros (if code = 1 then 32 * sectors else 32)) 0 0x41
  else s.siteDone k bundle tag status 0

/-- Packets of a bundle that stops being used travel again on other bundles of the Pen, or of the site, as new packets
(Table 14.11 step 2). -/
def State.moveSlp (s : State) (k j : Nat) : State :=
  let u := (s.site k).up j
  match s.replyBundle k j with
  | none => s
  | some i => if i = j then s else (s.setUp k j { u with held := [], wait := [] }).sendSlp k i (u.held ++ u.wait)

/-! ### Receiving (R421, R422) -/

/-- A link-control packet for a down bundle, on its partner's way (R421, Table 14.7). -/
def State.sendLinkCtl (s : State) (k j : Nat) (nak closed : Bool) : State :=
  match s.replyBundle k j with
  | none => s
  | some i =>
    let u := (s.site k).down j
    let credits := (List.range 8).map fun v => Tab.get (fun _ => 0) u.owed v
    (s.setDown k j { u with owed := [], since := 0 }).emit
      (.linkCtl k i u.next nak closed (s.rdBit (Fd.siteBundlesHalf k) j) credits)

/-- Count the packets of a command: the next `SEQ` expected, and credits of its `VC` to return; a link-control packet goes
back at least every 64 packets (R421). -/
def State.tookSlp (s : State) (k j vc n : Nat) : State :=
  let u := (s.site k).down j
  let owed := Tab.put (fun _ => 0) u.owed vc (min 255 (Tab.get (fun _ => 0) u.owed vc + n))
  let s := s.setDown k j { u with next := (u.next + n) % 1024, owed, since := u.since + n }
  if 64 ≤ u.since + n then s.sendLinkCtl k j false false else s

/-- A down bundle whose repair is due is closed: the site is told what was accepted and sends the rest elsewhere (Table
14.11, step 1). -/
def State.shutDown (s : State) (k j : Nat) : State :=
  let u := (s.site k).down j
  if u.due && !u.shut then (s.sendLinkCtl k j false true).setDown k j { (s.site k).down j with owed := [], since := 0, shut := true }
  else s

/-- Whether a site's links are up. -/
def State.linksUp (s : State) (k : Nat) : Bool := (s.site k).lrst && s.rd (Fd.siteStatusState k) ≠ ssLinkDown

/-! ### The sideband (R437, R442) -/

/-- The bundle of a direction that carries the sideband: the lowest in service whose C2 is good (R437). -/
def State.sideband? (s : State) (k : Nat) (up : Bool) : Option Nat :=
  (List.range 32).find? fun j =>
    let b := if up then 32 + j else j
    s.rdBit (Fd.siteBundlesIn k) b && !(s.site k).badC2.contains b

/-- Put a frame on the sideband, if there is one. -/
def State.emitFrame (s : State) (k : Nat) (f : List Byte) : State :=
  match s.sideband? k true with
  | some j => s.emit (.sideband k j f)
  | none => s

/-- Send a frame and repeat it until another of its type replaces it (notes/assumptions/53.md). -/
def State.sendFrame (s : State) (k kind : Nat) (body : List Byte) : State :=
  let f := toBytes 1 kind ++ body ++ zeros (13 - body.length)
  (s.setSite k { s.site k with frames := Tab.put (fun _ => []) (s.site k).frames kind f }).emitFrame k f

/-- Frame 0x04 to every site with a sideband: the count of the next pulse and the lock state. -/
def State.bellFrames (s : State) : State :=
  eachUpTo 4 (fun s k =>
    if s.linksUp k then s.sendFrame k 4 (toBytes 8 (s.bellCount + 1).toNat ++ toBytes 1 s.bellState) else s) s

/-- At a boundary: down bundles whose repair is due close; the pulse, unless `ACQUIRING`, and each Round a frame; counts of a
Round begin anew (R435, R442). -/
def State.siteBell (s : State) : State :=
  let s := eachUpTo 4 (fun s k => (s.site k).downs.foldl (fun t e => t.shutDown k e.1) s) s
  let s := if s.bellState = bsAcquiring then s else s.emit .bellPulse
  if s.bellCount.toNat % 65536 ≠ 0 then s
  else
    let clear (_ : Nat) (u : DownLink) : DownLink := { u with wires := [], crc := 0 }
    (eachUpTo 4 (fun s k =>
      s.setSite k { s.site k with downs := Tab.mapv (fun _ => {}) clear (s.site k).downs }) s).bellFrames

end Sys2Proof.Machine
end

