-- ==== Sys2Proof/Machine/SiteWin.lean ====
section
/-! DEFINITION. Machine/SiteWin.lean: requests the base die sends to a site on `VC` 0x2 (R418 to R427). -/
namespace Sys2Proof.Machine

/-- Whether a capability bit is enabled with a site (Table 14.13). -/
def State.siteHas (s : State) (k bitNo : Nat) : Bool := (s.rd (Fd.siteCapsEnabled k)).testBit bitNo

/-- Status of a request from a half that the base die cannot send to a site; `OK` when it can (R29, R427). -/
def State.siteStatus (s : State) (half k : Nat) : Nat :=
  if s.flag Fd.seamStatusIsolated && k / 2 ≠ half then stPoison
  else if s.resetPaddocks.contains k then stReset
  else if s.rd (Fd.siteStatusState k) ≠ ssRunning || !s.siteHas k 6 then stUnmapped
  else stOk

/-- Who issues a request to a site (R427): device, logical Drover, strand, tenancy. -/
def siteIdentity (device logical strand ten : Nat) : Word :=
  BitVec.ofNat 64 (device + 2 ^ 14 * logical + 2 ^ 22 * strand + 2 ^ 32 * ten)

/-- The lowest free tag at a site (R425). -/
def State.freeTag (s : State) (k : Nat) : Option Nat :=
  (List.range 0x2000).find? fun t => !s.siteReqs.any fun q => q.site = k && q.tag = t

/-- Send one request of at most eight sectors to a site; `addr` is the local address. None while no tag is free. The
request leaves on the lowest up bundle in service (notes/assumptions/49.md). -/
def State.siteSend (s : State) (op chunk : Nat) (write : Bool) (addr bytes cls : Nat) (ident : Word)
    (data : List Byte) (poison : Nat) (inb : Option (Nat × Nat) := none) : Option State :=
  let k := siteOf addr
  match s.freeTag k, s.requestBundle k with
  | some tag, some j =>
    let q : SiteReq := { site := k, tag, op, chunk, write, addr, bytes, mbox := none, sent := s.bellCount, inb }
    let s := { s with siteReqs := s.siteReqs ++ [q] }
    let c : SiteOut := { cmd := if write then 0x82 else 0x81, tag, status := 0, cls, len := (bytes + 31) / 32 - 1,
                         addr := addr % 2 ^ 36, aux := ident, poison, data }
    some (s.sendSlp k j (slpPackets 2 c))
  | _, _ => none

/-- Split a span into pieces of at most 256 bytes that do not cross a multiple of 256. -/
def sitePieces : Nat → Nat → Nat → List (Nat × Nat)
  | 0, _, _ => []
  | fuel + 1, a, n =>
    if n = 0 then []
    else
      let k := min n (256 - a % 256)
      (a, k) :: sitePieces fuel (a + k) (n - k)

/-- Bytes padded with zeros to whole sectors. -/
def padSectors (bs : List Byte) : List Byte := bs ++ zeros ((32 - bs.length % 32) % 32)

/-- Poisoned sectors of a piece, as a mask. -/
def poisonMask (bad : List Nat) (a n : Nat) : Nat :=
  ofBits ((List.range ((n + 31) / 32)).filter fun i => bad.contains (a / 32 + i))

/-- Send a span to or from a site in pieces; none while tags run out. `bad` lists poisoned sectors by local address
/ 32. A write of part of a sector carries its byte address in `ADDR` and zeros after its bytes
(notes/assumptions/11.md). -/
def State.siteSpan (s : State) (op chunk : Nat) (write : Bool) (a n cls : Nat) (ident : Word) (data : List Byte)
    (bad : List Nat) (inb : Option (Nat × Nat) := none) : Option State :=
  (sitePieces (n / 256 + 2) a n).foldl (fun t p =>
    match t with
    | none => none
    | some t =>
      if write then
        t.siteSend op chunk true p.1 p.2 cls ident (padSectors ((data.drop (p.1 - a)).take p.2)) (poisonMask bad p.1 p.2) inb
      else t.siteSend op chunk false (p.1 / 32 * 32) ((p.1 + p.2 + 31) / 32 * 32 - p.1 / 32 * 32) cls ident [] 0 inb)
    (some s)

end Sys2Proof.Machine
end

