-- ==== Sys2Proof/Machine/Access.lean ====
section
/-! DEFINITION. Machine/Access.lean: the operations that are not transfers, on module-local memory and site windows:
their issue, translation, access and completion (R117, R118, R246, R254 to R268, R324 to R332). -/
namespace Sys2Proof.Machine

/-! ### What an operation asks of translation -/

/-- Who asks, for an operation of a strand (Table 10.6). -/
def State.asker (s : State) (o : Op) (kind dreg extra : Nat) : Asker :=
  { source := penOf o.drover, paddock := paddockOf o.drover, kind, logical := o.logical, strand := o.strand, dreg,
    ten := s.tenancy (paddockOf o.drover), extra }

/-- Bytes an operation accesses. -/
def Op.width (o : Op) : Nat :=
  match o.code with
  | .ld => (ldWidth? o.sub).getD 1
  | .st => (ldWidth? o.sub).getD 1
  | .dld => 64
  | .dst => 64
  | _ => (fmtOf o.sub).size

/-- What an operation does to the memory it accesses. -/
def Op.use (o : Op) : Use :=
  match o.code with
  | .ld => .read
  | .dld => .read
  | .st => .write
  | .dst => .write
  | _ => .update

/-- The bytes a store writes. -/
def Op.stored (o : Op) : List Byte :=
  if o.code = .dst then toBytes 64 o.data.toNat else toBytes o.width o.val.toNat

/-- Low bytes of a register value in a width. -/
def lowBytes (n : Nat) (v : Word) : Nat := v.toNat % 2 ^ (8 * n)

/-- Record the outcome of an operation's access: its completion is due. -/
def State.setServed (s : State) (o : Op) (st : Nat) (r : Word) (data : Desc) : State :=
  s.setOp { o with phase := .served, status := st, result := r, data }

/-! ### Range commands of programs (R246, R247, R267, R268) -/

def State.rangeQ (s : State) (h : Nat) : List RangeReq := Tab.get (fun _ => []) s.ranges h
def State.setRangeQ (s : State) (h : Nat) (q : List RangeReq) : State :=
  { s with ranges := Tab.put (fun _ => []) s.ranges h q }

/-- Join the home half's queue, or wait at the Pen's interface while it is full; an isolated Seam cuts the other half's off
(R29). -/
def State.joinRange (s : State) (o : Op) : State :=
  let h := o.pa / 2 ^ 38
  let q := s.rangeQ h
  if s.flag Fd.seamStatusIsolated && h ≠ halfOf o.drover then (s.putOp o).setServed o stPoison 0 0
  else if 64 ≤ q.length then s.putOp { o with phase := .ready }
  else
    (s.putOp { o with phase := .queued }).setRangeQ h (q ++
      [{ cmd := if o.code = .settle then 7 else o.sub, line := o.pa / 128, count := o.val.toNat / 128, op := some o.id,
         begun := false, touched := 0, fails := 0 }])

/-- A translated range: it must lie in one page and one stack range, and, for `SETTLE`, in an accumulator region. -/
def State.startRange (s : State) (o : Op) (size : Nat) : State :=
  let page := 65536 * sizePages size
  if !isStack o.pa || page < o.va.toNat % page + o.val.toNat ||
      (s.flag (Fd.dramStackStatusStripeOn (o.pa / 2 ^ 36)) && inStripe (o.pa + o.val.toNat - 1)) then
    s.failOp o stUnmapped
  else if o.code = .settle ∧ o.leafAcc = 0 then s.failOp o stAccRegion
  else s.joinRange o

/-! ### The access itself -/

/-- Status of an access that its kind or its region forbids (R257, R264, R266); `OK` when none does. -/
def Op.refusal (o : Op) : Nat :=
  match o.code with
  | .ld => stOk
  | .dld => stOk
  | .aacc =>
    if o.leafAcc = 0 then stAccRegion
    else
      let mx := (fmtOf (accFormat o.leafAcc)).isMx
      if (o.leafAcc = 0xB) ≠ (o.sub = 7) then stAccRegion
      else if mx && 31 < o.cmp.toNat then stAccRegion
      else if !mx && o.gk ≠ 0 then stNotPermitted
      else if o.va.toNat % (if mx then 64 else (fmtOf (accFormat o.leafAcc)).size) ≠ 0 then stMisaligned
      else stOk
  | .st => if o.leafAcc ≠ 0 then stAccRegion else stOk
  | .dst => if o.leafAcc ≠ 0 then stAccRegion else stOk
  | _ => if isSiteWin o.pa then stNotPermitted else if o.leafAcc ≠ 0 then stAccRegion else stOk

/-- The update an atomic makes. -/
def atomOf : OpCode → AtomKind
  | .amin => .min
  | .amax => .max
  | .axch => .xchg
  | .acas => .cas
  | _ => .add

/-- Make the access of an operation at its bank; none while the bank or its Pen's boundary holds it. -/
def State.perform (s : State) (o : Op) : Option State :=
  let n := o.width
  let h := halfOf o.drover
  match o.code with
  | .ttouch => some (s.setServed o stOk (BitVec.ofNat 64 o.n) 0)
  | c =>
    if o.refusal ≠ stOk then some (s.setServed o o.refusal 0 0)
    else match (if c = .aacc then s.servedSpan h (o.pa / 128 * 128) 128 .update else s.servedSpan h o.pa n o.use) with
      | .waits => none
      | .fails st => some (s.setServed o st 0 0)
      | .ok => match c with
        | .ld =>
          let t := s.touch o.pa n false false
          let bad := s.anyBad o.pa n
          some (t.setServed o (if bad then stPoison else stOk)
            (if bad then 0 else ldExtend o.sub (ofBytes (s.readBytes o.pa n))) 0)
        | .dld =>
          let t := s.touch o.pa n false false
          let bad := s.anyBad o.pa n
          some (t.setServed o (if bad then stPoison else stOk) 0 (BitVec.ofNat 512 (ofBytes (s.readBytes o.pa n))))
        | .st => some ((s.writeBytes o.pa o.stored o.poisoned false).setServed o (if s.lostAt o.pa then stPoison else stOk) 0 0)
        | .dst => some ((s.writeBytes o.pa o.stored o.poisoned false).setServed o (if s.lostAt o.pa then stPoison else stOk) 0 0)
        | .aacc =>
          let (bad, t) := s.accumulate o.pa o.leafAcc o.cmp.toNat false
            (if o.leafAcc = 0xB then o.val else o.val &&& 0xFFFFFFFF) o.poisoned
          some (t.setServed o (if bad then stPoison else stOk) 0 0)
        | c =>
          let (m, bad, t) := s.update (atomOf c) (fmtOf o.sub) false o.pa (lowBytes n o.val) (lowBytes n o.cmp) o.poisoned false
          some (t.setServed o (if bad then stPoison else stOk) (if bad then 0 else BitVec.ofNat 64 m) 0)

/-- Send an operation on a site window to its site; it stays ready while the site has no free tag (R425 to R427). -/
def State.toSite (s : State) (o : Op) : State :=
  let st := if o.refusal ≠ stOk then o.refusal else s.siteStatus (halfOf o.drover) (siteOf o.pa)
  if st ≠ stOk then s.setServed o st 0 0
  else
    let wr := decide (o.code = .st ∨ o.code = .dst)
    match s.siteSpan o.id 0 wr o.pa o.width 0
        (siteIdentity s.device o.logical o.strand (s.tenancy (paddockOf o.drover))) (if wr then o.stored else []) [] with
    | some t => t.setOp { o with phase := .remote }
    | none => s

/-- Translate an operation and set it on its way: ready, waiting on a ticket, or completed with a status (R320 to R327).
A second operation of a strand that misses while its slot is occupied waits for the slot (R124, R327). -/
def State.translate (s : State) (o : Op) : State :=
  let acc := accOf o.code o.sub
  let t := s.looked o.drover o.va
  match s.lookup o.drover o.va acc with
  | .fails st => t.failOp o st
  | .miss cause =>
    if takesSlot o.code && (s.opsOf o.drover o.strand).any fun q => q.id ≠ o.id && q.slotted then
      t.putOp { o with phase := .missed, ticket := none }
    else
      let kind := if o.code = .ttouch then 3 else 2
      let (tk, t) := t.askTicket (t.asker o kind 0xFF 0) o.va.toNat cause acc.code
      t.putOp { o with phase := .missed, ticket := tk, slotted := takesSlot o.code }
  | .hit pa leaf size =>
    let o := { o with phase := .ready, ticket := none, pa, leafAcc := leafAcc leaf, n := size }
    match o.code with
    | .frange => (t.putOp o).startRange o size
    | .settle => (t.putOp o).startRange o size
    | _ => (if isSiteWin pa && o.code ≠ .ttouch then (t.putOp o).toSite o else t.putOp o).wake o.drover o.strand

/-- Complete an operation that is not a transfer: its register results, then R138 to R141. A failed `DLD` leaves dn as
it was (notes/assumptions/13.md). -/
def State.complete (s : State) (o : Op) : State :=
  if o.status ≠ stOk then s.failOp o o.status
  else if o.poisoned then s.failOp o stPoison
  else
    let s := if o.code = .dld && !o.detached then
        s.setStrand o.drover o.strand ((s.strand o.drover o.strand).wdd o.dn o.data)
      else s.result o o.result
    s.finish o stOk 0 1

/-! ### Beginning an operation -/

/-- Begin an operation of format 0x4 on local memory (R117, R246, R254, R264, R267, R332). -/
def State.beginMem (s : State) (o : Op) (m : MemOps) : State :=
  let x := s.strand o.drover o.strand
  let c := o.code
  let va := memVa c x m
  let o := { o with
    va, val := x.rg m.gv.toNat, cmp := x.rg m.gk.toNat, sub := m.sub.toNat, ga := m.ga.toNat, gk := m.gk.toNat,
    cn := counterOf m.ce m.cn, hold := [m.ga.toNat], holdD := [] }
  if c = .settle ∨ c = .frange then
    if va.toNat % 128 ≠ 0 ∨ o.val.toNat % 128 ≠ 0 ∨ o.val = 0 then s.failOp o stMisaligned else s.translate o
  else if c = .ttouch ∨ c = .aacc then s.translate o
  else if va.toNat % o.width ≠ 0 then s.failOp o stMisaligned
  else s.translate o

/-- Begin a `DLD` or `DST`: `DST` reads dn at issue, `DLD` keeps it busy until it completes (R74, R118). -/
def State.beginDesc (s : State) (o : Op) (m : XferOps) : State :=
  let x := s.strand o.drover o.strand
  let o := { o with
    va := x.rg m.gx.toNat, dn := m.dn.toNat, gs := m.gs.toNat, data := x.rdd m.dn.toNat,
    cn := counterOf m.ce m.cn, hold := [m.gs.toNat], holdD := if o.code = .dst then [] else [m.dn.toNat] }
  if o.va.toNat % 64 ≠ 0 then s.failOp o stMisaligned else s.translate o

/-- Once the slot of a strand is free, the oldest operation that waits for it looks up again (R124, R327). -/
def State.slotFreed (s : State) (d t : Nat) : State :=
  if s.slotTaken d t then s
  else match (s.opsOf d t).find? fun q => q.phase = .missed && takesSlot q.code with
    | some q => s.translate q
    | none => s

end Sys2Proof.Machine
end

