-- ==== Sys2Proof/Machine/Ways.lean ====
section
/-! DEFINITION. Machine/Ways.lean: scratchpad conversion, way power and cache disable of a Pen (R228 to R240, R271). -/
namespace Sys2Proof.Machine

/-! ### Lines of a Pen -/

/-- Whether a held line takes a way. -/
def Line.takes (x : Line) (w : Nat) : Bool := if x.ways = [] then x.way = w else x.ways.contains w || (x.pinned && x.way = w)

/-- The lines a Pen's banks hold that pass a test. -/
def State.penLines (s : State) (p : Nat) (f : Line → Bool) : List (Nat × Line) :=
  s.lines.filterMap fun e => match e.2 with
    | some x => if bankPen (bankOf (128 * e.1)) = p && f x then some (e.1, x) else none
    | none => none

/-- Settle a line if it is an accumulator line, and write it back if it is dirty (R225, R271). -/
def State.cleanLine (s : State) (l : Nat) : State :=
  match s.line l with
  | none => s
  | some x =>
    let s := if x.ways = [] then s else s.settleLine l x
    match s.line l with
    | some y => if y.dirty then (s.writeBack l y).setLine l (some { y with dirty := false }) else s
    | none => s

/-- Settle, clean and invalidate the lines of a Pen that pass a test; a line that, once settled, no longer passes it stays,
as a pinned one does whose own way is not covered (R231, R270, R271). -/
def State.emptyLines (s : State) (p : Nat) (f : Line → Bool) : State :=
  (s.penLines p f).foldl (fun t e =>
    let t := t.cleanLine e.1
    if (t.line e.1).any f then (t.eraseLine e.1).setLine e.1 none else t) s

/-- Whether an outstanding miss of a Pen has reserved a way that passes a test. -/
def State.wayReserved (s : State) (p : Nat) (f : Nat → Bool) : Bool :=
  (List.range 32).any fun i => (s.bank (32 * p + i)).misses.any fun m => m.way.any f

/-- Zero a scratchpad slot of a Pen. -/
def State.zeroSlot (s : State) (p j : Nat) : State :=
  let a := 0x10000000000 + 2 ^ 26 * p + 2 ^ 22 * j
  { s with
    fold := Tab.keep (fun k => k < a || a + 2 ^ 22 ≤ k) s.fold
    foldPoison := s.foldPoison.filter fun w => 8 * w < a || a + 2 ^ 22 ≤ 8 * w }

/-! ### Configuration (R234 to R238) -/

/-- Ways powered and used as cache under a way configuration. -/
def cacheWays (scratch off : Nat) : List Nat := (List.range (16 - scratch)).filter fun w => !off.testBit w

/-- Whether staged values of `FOLD_WAYCFG` are inconsistent (R236). -/
def State.wayCfgBad (s : State) (p : Nat) : Bool :=
  let co := s.rdS (Fd.foldWaycfgCacheOff p)
  let w := s.rdS (Fd.foldWaycfgScratch p)
  let pin := s.rdS (Fd.foldWaycfgPin p)
  let off := s.rdS (Fd.foldWaycfgOff p)
  (co = 0 && 12 < w) || (co = 1 && (w ≠ 16 || pin ≠ 0)) ||
    (List.range pin).any (fun x => 16 - w ≤ x || off.testBit x) ||
    (co = 0 && ((cacheWays w off).length < 4 || ((cacheWays w off).filter (pin ≤ ·)).length < 2)) ||
    !(s.penLines p fun x => x.pinned && (pin ≤ x.way || 16 - w ≤ x.way || off.testBit x.way)).isEmpty ||
    s.rd (Fd.foldWaystatPhase p) ≠ 0 || 8 < pin

/-- A commit of `FOLD_WAYCFG` has applied: conversions, cache disable and way power begin. A way goes down that is on and
listed, and comes up that is off and not listed (R234). -/
def State.wayCfgApplied (s : State) (p oldScratch : Nat) (wasOff : Bool) : State :=
  let w := s.rd (Fd.foldWaycfgScratch p)
  let off := s.rd (Fd.foldWaycfgOff p)
  let co := s.flag (Fd.foldWaycfgCacheOff p)
  let q := s.penWays p
  let now := s.rd (Fd.foldWaystatOffActive p)
  let downs := (List.range 16).filter fun x => off.testBit x && !now.testBit x
  let ups := (List.range 16).filter fun x => !off.testBit x && now.testBit x
  let s := s.setPenWays p { q with downs, ups }
  let s := ((List.range 16).filter fun j => w ≤ j ∧ j < oldScratch).foldl (fun t j => t.zeroSlot p j) s
  let s := if w < s.rd (Fd.foldWaystatScratchActive p) then s.wr (Fd.foldWaystatScratchActive p) w else s
  if co && !wasOff then
    (s.setPenWays p { s.penWays p with disable := true }).wr (Fd.foldWaystatPhase p) 2
  else
    let s := if co then s else s.wr (Fd.foldWaystatCacheOffActive p) 0
    let slots := (List.range 16).filter fun j => oldScratch ≤ j ∧ j < w
    if slots = [] then s
    else (s.setPenWays p { s.penWays p with slots }).wr (Fd.foldWaystatPhase p) 1

end Sys2Proof.Machine
end

