-- ==== Sys2Proof/Machine/RangeEng.lean ====
section
/-! DEFINITION. Machine/RangeEng.lean: the range engines (R241 to R248, R267 to R270). -/
namespace Sys2Proof.Machine

/-! ### One line (Table 7.7, Table 8.5, R232, R233, R267) -/

/-- Eligible ways of a line's set that are free for a pin: pin-eligible, powered, holding no pinned line and no part of
an accumulator line, and not reserved (R231, R232). -/
def State.pinWays (s : State) (l : Nat) : List Nat :=
  let b := bankOf (128 * l)
  (s.candidates b (setOf (128 * l))).filter (· < s.rd (Fd.foldWaycfgPin (bankPen b)))

/-- Move a line to a free eligible way, or give it one, and pin it; none when there is none. An absent line's fill is a
bulk-class miss, whose request goes to its channel (R232). -/
def State.pinLine (s : State) (l : Nat) : Option State :=
  let b := bankOf (128 * l)
  let st := setOf (128 * l)
  match s.chooseWay b st (s.pinWays l) with
  | none => none
  | some (w, t) =>
    let t := match t.inWay b st w with
      | some v => if v.1 = l then t else t.evict v.1 v.2
      | none => t
    match t.line l with
    | some x => some (t.setLine l (some { x with way := w, pinned := true }))
    | none =>
      let t := t.setLine l (some { way := w, valid := 0, dirty := false, pinned := true, age := 0 })
      let m : Miss := { line := l, way := some w, sectors := 0xF, stream := false, cls := .bulk, range := true, attached := [] }
      some (((t.setBank b { t.bank b with misses := (t.bank b).misses ++ [m] }).foldCount Fd.foldMisses l).askChan b l)

/-- Write zero to a line in DRAM and clear its poison. -/
def State.zeroDram (s : State) (l : Nat) : State :=
  (eachUpTo 4 (fun t i => t.dramWrite (128 * l + 32 * i) (zeros 32) false) s).queueWrites l 0xF

/-- A command at a line the Fold does not hold (R245): pinned lines touched, pin failures, and the state. -/
def State.rangeAbsent (s : State) (cmd l : Nat) : Nat × Nat × State :=
  if cmd = 4 then (0, 0, s.zeroDram l)
  else if cmd = 5 then match s.pinLine l with
    | some t => (0, 0, t)
    | none => (0, 1, s)
  else (0, 0, s)

/-- A command at an accumulator line. -/
def State.rangeAcc (s : State) (cmd l : Nat) (x : Line) : Nat × Nat × State :=
  let p := b2n x.pinned
  match cmd with
  | 1 => (p, 0, s.writeBack l x)
  | 2 => (p, 0, s.discard l x)
  | 3 =>
    let t := s.settleLine l x
    match t.line l with
    | some y => (p, 0, (t.writeBack l y).discard l y)
    | none => (p, 0, t)
  | 4 =>
    let t := s.setLine l (some { x with wide := x.wide.map fun _ => 0 })
    (p, 0, { t with foldPoison := t.foldPoison.filter fun w => w / 16 ≠ l })
  | 5 => (p, 1, s)
  | 6 => (p, 0, s.setLine l (some { x with pinned := false }))
  | _ => (1, b2n x.early, s.settleLine l x)

/-- A command at any other line the Fold holds. -/
def State.rangeHeld (s : State) (cmd l : Nat) (x : Line) : Nat × Nat × State :=
  let p := b2n x.pinned
  match cmd with
  | 1 => (p, 0, if x.dirty then (s.writeBack l x).setLine l (some { x with dirty := false }) else s)
  | 2 => (p, 0, s.discard l x)
  | 3 => (p, 0, (if x.dirty then s.writeBack l x else s).discard l x)
  | 4 => (p, 0, (s.eraseLine l).setLine l (some { x with valid := 0xF, dirty := true }))
  | 5 =>
    if x.pinned then (1, 0, s)
    else if x.way < s.rd (Fd.foldWaycfgPin (bankPen (bankOf (128 * l)))) then
      (0, 0, s.setLine l (some { x with pinned := true }))
    else match s.pinLine l with
      | some t => (0, 0, t)
      | none => (0, 1, s)
  | 6 => (p, 0, s.setLine l (some { x with pinned := false, age := 3 }))
  | _ => (0, b2n x.early, s.setLine l (some { x with early := false }))

/-- Apply a command to one line: pinned lines touched and pin failures (`SETTLE`: lines settled and marks) it adds. -/
def State.rangeLine (s : State) (cmd l : Nat) : Nat × Nat × State :=
  match s.line l with
  | none => s.rangeAbsent cmd l
  | some x => if x.ways ≠ [] then s.rangeAcc cmd l x else s.rangeHeld cmd l x

/-- Whether the engine waits at a line: an outstanding miss in its set, a closed Pen boundary, an open scrub window, a stack
out of service, or, to fill a line for `PIN`, a free miss entry (R232, R242, R250, R524, R548). -/
def State.rangeWaits (s : State) (cmd l : Nat) : Bool :=
  let a := 128 * l
  let b := bankOf a
  (s.bank b).misses.any (fun m => setOf (128 * m.line) = setOf a) || s.closed.contains (bankPen b) ||
    s.scrubbing b || s.rd (Fd.dramStackStatusState (a / 2 ^ 36)) ≠ 1 ||
    (cmd = 5 && (s.line l).isNone && 32 ≤ (s.bank b).misses.length)

/-- Walk lines in ascending order: a line that waits holds back the later lines of its bank. -/
def State.walk (s : State) (r : RangeReq) (ls : List Nat) : RangeReq × State :=
  ls.foldl (fun (q : RangeReq × State) l =>
    if q.2.rangeWaits r.cmd l || q.1.left.any (fun k => bankOf (128 * k) = bankOf (128 * l)) then
      ({ q.1 with left := q.1.left ++ [l] }, q.2)
    else
      let (a, b, t) := q.2.rangeLine r.cmd l
      ({ q.1 with touched := q.1.touched + a, fails := q.1.fails + b, lines := q.1.lines + 1 }, t)) ({ r with left := [] }, s)

/-- The lines a command walks: every line, or, for a range over 128 MiB of a command without effect on absent lines,
the lines found held (R244). -/
def State.rangeLines (s : State) (r : RangeReq) : List Nat :=
  if 2 ^ 20 < r.count ∧ r.cmd ≠ 4 ∧ r.cmd ≠ 5 then
    (s.lines.map (·.1)).filter fun l => r.line ≤ l && l < r.line + r.count
  else (List.range r.count).map (r.line + ·)

/-! ### The queue -/

/-- Replace the head of a half's queue. -/
def State.setHead (s : State) (h : Nat) (r : RangeReq) : State := s.setRangeQ h (r :: (s.rangeQ h).drop 1)

/-- Operations that wait at a Pen's interface for room in a half's queue join it, oldest first (R247). -/
def State.rangeRoom (s : State) (h : Nat) : State :=
  if 64 ≤ (s.rangeQ h).length then s
  else match s.ops.find? fun o => o.phase = .ready && (o.code = .frange || o.code = .settle) && o.pa / 2 ^ 38 = h with
    | some o => s.joinRange o
    | none => s

/-- Counts of a completed request, each saturating (R246, R267). -/
def RangeReq.counts (r : RangeReq) : Word := BitVec.ofNat 64 (2 ^ 32 * min r.touched (2 ^ 32 - 1) + min r.fails (2 ^ 32 - 1))

/-- The request at the head of a queue ends with a status: its operation's completion is due, its site is answered, or
the range block shows the outcome (R243, R245). -/
def State.rangeDone (s : State) (h : Nat) (r : RangeReq) (st : Nat) : State :=
  let s := s.setRangeQ h ((s.rangeQ h).drop 1)
  let s := match r.op, r.site with
    | some id, _ => match s.op? id with
      | some o => s.setServed o st (if st = stOk then r.counts else 0) 0
      | none => s
    | none, some (k, j, tag) => s.siteDone k j tag st (if st = stOk then r.counts else 0)
    | none, none =>
      let s := ((s.wr (Fd.frangeStatusBusy h) 0).wr (Fd.frangeStatusResult h) 0).wr (Fd.frangeLines h) r.lines
      let s := (s.wr (Fd.frangeStatusPinnedTouched h) (min r.touched (2 ^ 20 - 1))).wr (Fd.frangeStatusPinFail h)
        (min r.fails (2 ^ 20 - 1))
      s.irq (8 + h)
  s.rangeRoom h

/-- RANGE_ENGINE_START: the request at the head of a half's queue is walked; a program's request whose Paddock is under
reset ends with `RESET` (R242, R247). -/
def execRangeEngineStart (half : Fin 2) (s : State) : Host.Outcome State Fault Refusal :=
  match s.rangeQ half with
  | [] => .next s
  | r :: _ =>
    if r.begun then .next s
    else if (r.op.isSome || r.site.isSome) && s.resetPaddocks.contains (bankPaddock (bankOf (128 * r.line))) then
      .next (s.rangeDone half r stReset)
    else
      let (r, s) := s.walk { r with begun := true } (s.rangeLines r)
      .next (s.setHead half r)

/-- Whether a request's lines are filled and the write-backs of its stack accepted by the controller's queues (R232, R243). -/
def State.rangeSettled (s : State) (r : RangeReq) : Bool :=
  let k := r.line / 2 ^ 29
  (List.range 64).all (fun i => (s.bank (64 * k + i)).misses.all fun m => !m.range) &&
    (List.range 64).all fun c => (s.chan k c).writes.length ≤ 64

/-- RANGE_COMPLETE: the lines that waited are walked, and a command with none left completes once what it caused is done
(R242, R243). -/
def execRangeComplete (half : Fin 2) (s : State) : Host.Outcome State Fault Refusal :=
  match s.rangeQ half with
  | [] => .next s
  | r :: _ =>
    if !r.begun then .next s
    else
      let (r, s) := s.walk r r.left
      .next (if r.left = [] && s.rangeSettled r then s.rangeDone half r stOk else s.setHead half r)

/-- The engine takes up a line that waited for a miss, once the miss entry has freed (R242). -/
def State.rangeAfterMiss (s : State) (h : Nat) : State :=
  match s.rangeQ h with
  | r :: _ =>
    if !r.begun || r.left = [] then s
    else
      let (r, s) := s.walk r r.left
      s.setHead h r
  | [] => s

/-! ### Commands of firmware (R245, Table 7.8) -/

/-- A write of `FRANGE_CMD` with `GO`: `RESULT` of the first check that fails, else the command is queued. A range that
reaches the reserve stripe, which the Fold never holds by its own address (R304), is a `BAD_RANGE` (DEDUCED,
notes/assumptions/144.md). -/
def State.frangeGo (s : State) (h op : Nat) : State :=
  if !s.reaches (Fd.frangeCmdGo h).addr then s
  else if s.flag (Fd.frangeStatusBusy h) || 64 ≤ (s.rangeQ h).length then s.wr (Fd.frangeStatusResult h) 1
  else
    let s := s.wr (Fd.frangeCmdOp h) op
    let base := 128 * s.rd (Fd.frangeBaseBase h)
    let len := s.rd (Fd.frangeLen h)
    if op = 0 ∨ 6 < op then s.wr (Fd.frangeStatusResult h) 2
    else if len = 0 ∨ len % 128 ≠ 0 ∨ !isStack base ∨ base / 2 ^ 36 ≠ (base + len - 1) / 2 ^ 36 ∨
        (s.flag (Fd.dramStackStatusStripeOn (base / 2 ^ 36)) && inStripe (base + len - 1)) then
      s.wr (Fd.frangeStatusResult h) 3
    else if base / 2 ^ 38 ≠ h then s.wr (Fd.frangeStatusResult h) 4
    else
      ((s.wr (Fd.frangeStatusBusy h) 1).wr (Fd.frangeStatusResult h) 0).setRangeQ h (s.rangeQ h ++
        [{ cmd := op, line := base / 128, count := len / 128, op := none, begun := false, touched := 0, fails := 0 }])

/-- CLEAN through the range block. -/
def execFrClean (half : Fin 2) (s : State) : Host.Outcome State Fault Refusal := .next (s.frangeGo half 1)
/-- INVALIDATE through the range block. -/
def execFrInvalidate (half : Fin 2) (s : State) : Host.Outcome State Fault Refusal := .next (s.frangeGo half 2)
/-- CLEAN_INV through the range block. -/
def execFrCleanInv (half : Fin 2) (s : State) : Host.Outcome State Fault Refusal := .next (s.frangeGo half 3)
/-- ZERO through the range block. -/
def execFrZero (half : Fin 2) (s : State) : Host.Outcome State Fault Refusal := .next (s.frangeGo half 4)
/-- PIN through the range block. -/
def execFrPin (half : Fin 2) (s : State) : Host.Outcome State Fault Refusal := .next (s.frangeGo half 5)
/-- UNPIN through the range block. -/
def execFrUnpin (half : Fin 2) (s : State) : Host.Outcome State Fault Refusal := .next (s.frangeGo half 6)

end Sys2Proof.Machine
end

