-- ==== Sys2Proof/Machine/Banks.lean ====
section
/-! DEFINITION. Machine/Banks.lean: requests at a Fold bank, miss entries, fills, merge buffers and scrub (R215 to R223,
R239, R250, R259). -/
namespace Sys2Proof.Machine

/-! ### What a request finds -/

/-- Local address, bytes and use of a request. -/
def State.askSpan (s : State) (r : BankReq) : Nat × Nat × Use :=
  match r.ask with
  | .read n => (r.addr.toNat, n, .read)
  | .write d => (r.addr.toNat, d.length, .write)
  | .operation id => match s.op? id with
    | some o => if o.code = .aacc then (o.pa / 128 * 128, 128, .update) else (o.pa, o.width, o.use)
    | none => (r.addr.toNat, 1, .read)

/-- Sectors a request touches in its line, those it covers whole, and its use. -/
def State.askSectors (s : State) (r : BankReq) : BitVec 4 × BitVec 4 × Use :=
  let (a, n, u) := s.askSpan r
  (sectorsOf (a % 128) n, wholeSectors (a % 128) n, u)

/-- Serve a request whose line the bank holds, or that bypasses the Fold. -/
def State.serve (s : State) (r : BankReq) : State :=
  let a := r.addr.toNat
  match r.ask with
  | .read n =>
    (s.touch a n r.stream r.graze r.cls).emit
      (.bankReply [r.who.toNat] a (if s.anyBad a n then stPoison else stOk) (s.readBytes a n))
  | .write d =>
    (s.writeBytes a d false r.stream r.cls).emit (.bankReply [r.who.toNat] a (if s.lostAt a then stPoison else stOk) [])
  | .operation id => match s.op? id with
    | some o => if o.phase = .ready then (s.perform o).getD s else s
    | none => s

/-! ### Errors of the arrays (R249) -/

/-- Device bank, set or row, and way of the array word of a local address; none when the Fold does not hold it. -/
def State.arrayPlace (s : State) (a : Nat) : Option (Nat × Nat × Nat) :=
  if isScratch a then
    if slotOf a < s.rd (Fd.foldWaystatScratchActive (bankPen (bankOf a))) then some (bankOf a, fld a 21 12, 15 - slotOf a)
    else none
  else if isStack a then match s.line (a / 128) with
    | some x => if x.ways ≠ [] || x.valid.getLsbD (a % 128 / 32) then some (bankOf a, setOf a, x.way) else none
    | none => none
  else none

/-- An error met in a word: a single-bit one is corrected, a double-bit one poisons the word; both are counted and
recorded (R249, Table 19.4). -/
def State.foldError (s : State) (e : FoldError) : State :=
  let a := e.addr.toNat
  match s.arrayPlace a with
  | none => s
  | some (b, st, w) =>
    let unit := uwFold b st w
    let line := a / 128 % 2 ^ 32
    if e.double then
      ((s.setBad (a / 8) true).inc (Fd.foldEccUe (bankPen b)) 1).record (bankHalf b) 0x0202 unit line 0
    else (s.inc (Fd.foldEccCe (bankPen b)) 1).record (bankHalf b) 0x0201 unit line 0

/-- Keep the counters of a Pen over an effect: a request that waited for a miss is no hit. -/
def State.uncounted (s : State) (p : Nat) (f : State → State) : State :=
  let t := f s
  ((t.wr (Fd.foldHits p) (s.rd (Fd.foldHits p))).wr (Fd.foldMisses p) (s.rd (Fd.foldMisses p))).wr (Fd.foldMerged p)
    (s.rd (Fd.foldMerged p))

/-- A request waits in the bank's queue, in arrival order; a full queue takes no more. A miss that begins to wait is
counted (R218, R251). -/
def State.waitAt (s : State) (b : Nat) (r : BankReq) (count : Bool) : State :=
  let x := s.bank b
  if 64 ≤ x.queue.length then s
  else
    let s := s.setBank b { x with queue := x.queue ++ [r] }
    if count then s.inc (Fd.foldSetwait (bankPen b)) 1 else s

/-- A request attaches to its line's entry; a read that does is a merged read and counts as a hit (R219, R251). -/
def State.attach (s : State) (b l : Nat) (r : BankReq) : State :=
  let x := s.bank b
  let ms := updateWhere (fun q => q.line = l) (fun q => { q with attached := q.attached ++ [r] }) x.misses
  let s := s.setBank b { x with misses := ms }
  if (s.askSpan r).2.2 = .read then (s.inc (Fd.foldMerged (bankPen b)) 1).inc (Fd.foldHits (bankPen b)) 1 else s

/-- A miss takes an entry: its victim's way is reserved and its request leaves to the stack's controller with its class
(R217, R220, R221). -/
def State.newMiss (s : State) (b l : Nat) (r : BankReq) (need : BitVec 4) : State :=
  let s := s.inc (Fd.foldMisses (bankPen b)) 1
  let (way, sectors, s) := match s.line l with
    | some y => (some y.way, (if r.graze then need else ~~~y.valid), s)
    | none => match s.makeRoom l with
      | some (w, t) => (some w, (if r.graze then need else 0xF), t)
      | none => (none, (if r.graze then need else 0xF), s)
  (s.setBank b { s.bank b with misses := (s.bank b).misses ++
    [{ line := l, way, sectors, stream := r.stream, cls := r.cls, attached := [r] }] }).askChan b l

/-- Look a request up at its bank: it is served, attaches to its line's miss entry, takes an entry, or waits (R215 to
R221, R224, R227, R229, R239); `again`: it has waited before. -/
def State.lookAt (s : State) (r : BankReq) (again : Bool := false) : State :=
  let (a, _, _) := s.askSpan r
  let (touched, whole, u) := s.askSectors r
  let b := bankOf a
  let l := a / 128
  let s := s.ungate (bankPen b)
  let now (s : State) : State :=
    ((r.ecc.filter fun e => decide (e.addr.toNat / 128 = l)).foldl (fun t e => t.foldError e) s).serve r
  match s.atBank (bankHalf b) a with
  | .fails st => match r.ask with
    | .operation _ => s.serve r
    | _ => s.emit (.bankReply [r.who.toNat] a st [])
  | .waits => if isLocalMem a then s.waitAt b r false else s
  | .ok =>
    let x := s.bank b
    let hit := s.hits l touched whole u
    if !isStack a then now s
    else match x.misses.find? fun m => setOf (128 * m.line) = setOf a with
      | some m =>
        if hit && (m.line ≠ l || u = .read) then now s
        else if m.line = l ∧ m.attached.length < 16 then s.attach b l r
        else s.waitAt b r !again
      | none =>
        if hit || !s.needsEntry l touched whole u then now s
        else if 32 ≤ x.misses.length then s.waitAt b r !again
        else s.newMiss b l r (s.wants l touched whole u)

/-- Look up again every request that waits at a bank, in arrival order (R218). -/
def State.lookAgain (s : State) (b : Nat) : State :=
  let q := (s.bank b).queue
  q.foldl (fun t r => t.lookAt r true) (s.setBank b { s.bank b with queue := [] })

/-- Look up again what waits at the banks of a Pen. -/
def State.lookPen (s : State) (p : Nat) : State := eachUpTo 32 (fun t i => t.lookAgain (32 * p + i)) s

/-- BANK_REQUEST: a read, write or update arrives at its home bank. One for an operation that does not wait to access
memory, or for an address outside the banks, is none (R210). -/
def execBankRequest (r : BankReq) (s : State) : Host.Outcome State Fault Refusal :=
  let (a, _, _) := s.askSpan r
  let live := match r.ask with
    | .operation id => (s.op? id).any fun o => o.phase = .ready && !isXferOp o.code
    | _ => true
  if live && isLocalMem a then .next (s.lookAt r) else .next s

/-- One reply packet for each 16 of the reads of one fill that return the same bytes (R223). -/
def State.multicast (s : State) (a n : Nat) (who : List Nat) : Nat → State
  | 0 => s
  | fuel + 1 =>
    if who = [] then s
    else
      (s.emit (.bankReply (who.take 16) a (if s.anyBad a n then stPoison else stOk) (s.readBytes a n))).multicast a n
        (who.drop 16) fuel

/-- The requests attached to a miss are served in arrival order; reads that follow one another share their replies
(R219, R223). -/
def State.serveAll (fuel : Nat) (l : List BankReq) (s : State) : State :=
  match fuel, l with
  | 0, _ | _, [] => s
  | fuel + 1, r :: t =>
    match r.ask with
    | .read n =>
      let same := t.takeWhile fun q => q.addr = r.addr && q.ask = r.ask
      let s := (s.touch r.addr.toNat n r.stream r.graze r.cls).multicast r.addr.toNat n ((r :: same).map (·.who.toNat))
        (same.length + 1)
      State.serveAll fuel (t.drop same.length) s
    | _ => State.serveAll fuel t (s.serve r)

/-- A miss ends: its fill is written to its way, the requests attached are served in order, the entry frees and the range
engine's line is taken up (R217 to R219, R242). -/
def State.endMiss (s : State) (b : Nat) (m : Miss) : State :=
  let p := bankPen b
  let line := m.line
  let s := s.ungate p
  let s := s.setBank b { s.bank b with misses := (s.bank b).misses.filter fun q => q.line ≠ line }
  let s := match s.line line, m.way with
    | some x, _ =>
      let need := m.sectors &&& ~~~x.valid
      if x.ways ≠ [] then s
      else (s.fillSectors line need).setLine line
        (some { x with valid := x.valid ||| need, age := if m.stream then x.age else 0 })
    | none, some way => (s.fillSectors line m.sectors).setLine line
        (some { way, valid := m.sectors, dirty := false, pinned := false, age := if m.stream then 3 else 0 })
    | none, none => s
  (s.uncounted p (State.serveAll m.attached.length m.attached)).rangeAfterMiss (bankHalf b)

/-- FOLD_FILL: a miss whose data has come back from its channel ends, and what waits at the bank is looked up again, the
oldest first (R217, R218); a bank in a scrub window does nothing (R250). -/
def execFoldFill (bank : Fin 512) (line : Nat) (s : State) : Host.Outcome State Fault Refusal :=
  let b := bank.val
  match (s.bank b).misses.find? fun m => m.line = line with
  | none => .next s
  | some m =>
    if !m.back || s.scrubbing b then .next s else .next ((s.endMiss b m).lookAgain b)

/-- MERGE_BUFFER_EXPIRY: a merge buffer empties (R222). -/
def execMergeBufferExpiry (bank : Fin 512) (line : Nat) (s : State) : Host.Outcome State Fault Refusal :=
  let x := s.bank bank
  .next (s.setBank bank { x with merge := x.merge.filter (· ≠ line) })

/-! ### Scrub (R249, R250) -/

/-- FOLD_SCRUB_PASS: a bank's patrol scrub, every 16 Rounds, with the errors it meets in that bank; 16 corrections or more
ask for a window 4 Rounds ahead. -/
def execFoldScrubPass (bank : Fin 512) (errors : List FoldError) (s : State) : Host.Outcome State Fault Refusal :=
  let b := bank.val
  let p := bankPen b
  let met := errors.filter fun e => (s.arrayPlace e.addr.toNat).any fun q => decide (q.1 = b)
  let corrected := (met.filter fun e => !e.double).length
  let early := (s.bank b).passAt.any fun t => decide (s.bellCount.toNat < t.toNat + 16 * 65536)
  if early || s.scrubbing b then .next s else
  let s := (s.ungate p).setBank b { s.bank b with fixed := corrected, passAt := some s.bellCount }
  let s := met.foldl (fun t e => t.foldError e) s
  if corrected < 16 ∨ (s.bank b).window.isSome then .next s
  else
    let start := s.bellCount + 262144
    let unit := BitVec.ofNat 12 (256 * p + b % 32)
    let w : Window := { start, length := 130, kind := 2, unit, device := BitVec.ofNat 14 s.device }
    let s := s.setBank b { s.bank b with window := some (start, false) }
    .next ((s.announce w).record (bankHalf b) 0x0204 (uwFold b 0x3FF 0xF) corrected (start.toNat % 2 ^ 32))

/-- A bank's announced window opens once its start has come; the bank serves no request until it closes. -/
def State.openScrub (s : State) (b : Nat) : State :=
  match (s.bank b).window with
  | none => s
  | some (start, _) =>
    if s.bellCount.toNat < start.toNat then s else s.setBank b { s.bank b with window := some (start, true) }

/-- At a boundary every scrub window that is due opens. -/
def State.openScrubs (s : State) : State := s.banks.foldl (fun t e => t.openScrub e.1) s

/-- FOLD_SCRUB_WINDOW: the announced window opens. -/
def execFoldScrubWindow (bank : Fin 512) (s : State) : Host.Outcome State Fault Refusal := .next (s.openScrub bank)

/-- At a boundary: scrub windows that have lasted 130 Bells close, and the requests that waited are looked up. -/
def State.closeScrubs (s : State) : State :=
  s.banks.foldl (fun t e => match e.2.window with
    | some (start, true) =>
      if start.toNat + 130 ≤ t.bellCount.toNat then
        (t.setBank e.1 { (t.bank e.1) with window := none }).lookAgain e.1
      else t
    | _ => t) s

/-! ### Way changes (R229, R234, R237, R238) -/

/-- SLOT_CONVERSION_DONE: the lowest converting slot's way is clean, empty and zero in every bank, and the slot becomes
addressable, and what waited for it at the banks is looked up; after the last one the Pen is `STEADY`. A miss that reserved
the way before the commit ends first (R229, R237). -/
def execSlotConversionDone (pen : Fin 16) (s : State) : Host.Outcome State Fault Refusal :=
  let p := pen.val
  let q := s.penWays p
  match q.slots with
  | [] => .next s
  | j :: t =>
    if s.wayReserved p (· = 15 - j) then .next s else
    let s := (s.emptyLines p fun x => x.takes (15 - j)).zeroSlot p j
    let s := (s.setPenWays p { q with slots := t }).inc (Fd.foldWaystatScratchActive p) 1
    .next ((if t = [] then s.wr (Fd.foldWaystatPhase p) 0 else s).lookPen p)

/-- CACHE_DISABLE_DONE: the Pen's clean ends, every cache way converts and is zeroed, and the Pen is `STEADY`; a miss that
reserved a way before the commit ends first, and what waited at the banks is looked up (R229, R238). -/
def execCacheDisableDone (pen : Fin 16) (s : State) : Host.Outcome State Fault Refusal :=
  let p := pen.val
  let q := s.penWays p
  if !q.disable || s.wayReserved p (fun _ => true) then .next s
  else
    let old := s.rd (Fd.foldWaystatScratchActive p)
    let s := s.emptyLines p fun _ => true
    let s := ((List.range 16).filter (old ≤ ·)).foldl (fun t j => t.zeroSlot p j) s
    let s := (s.setPenWays p { q with disable := false }).wr (Fd.foldWaystatScratchActive p) 16
    .next (((s.wr (Fd.foldWaystatCacheOffActive p) 1).wr (Fd.foldWaystatPhase p) 0).lookPen p)

/-- A cache way, clean and empty, which no outstanding miss has reserved, powers down; a scratchpad way loses its contents. -/
def State.wayDown (s : State) (p w : Nat) : State :=
  let q := s.penWays p
  if !q.downs.contains w || s.wayReserved p (· = w) then s
  else
    let s := if 16 - s.rd (Fd.foldWaystatScratchActive p) ≤ w then s.zeroSlot p (15 - w)
      else s.emptyLines p fun x => x.takes w
    (s.setPenWays p { q with downs := Nats.del q.downs w }).wrBit (Fd.foldWaystatOffActive p) w true

/-- A way returns, invalid as a cache way and zeroed as a scratchpad way. -/
def State.wayUp (s : State) (p w : Nat) : State :=
  let q := s.penWays p
  if !q.ups.contains w then s
  else ((s.setPenWays p { q with ups := Nats.del q.ups w }).zeroSlot p (15 - w)).wrBit (Fd.foldWaystatOffActive p) w false

/-- At a boundary the ways that a commit asked for power down and return (R60, R234). -/
def State.waysDue (s : State) : State :=
  eachUpTo 16 (fun s p =>
    let q := s.penWays p
    q.ups.foldl (fun t w => t.wayUp p w) (q.downs.foldl (fun t w => t.wayDown p w) s)) s

/-- WAY_POWER_DOWN: a way powers down at a boundary (R234). -/
def execWayPowerDown (pen : Fin 16) (way : Fin 16) (s : State) : Host.Outcome State Fault Refusal :=
  .next (s.wayDown pen way)

/-- WAY_POWER_UP: a way returns at a boundary (R234). -/
def execWayPowerUp (pen : Fin 16) (way : Fin 16) (s : State) : Host.Outcome State Fault Refusal := .next (s.wayUp pen way)

end Sys2Proof.Machine
end

