-- ==== Sys2Proof/Machine/Dram.lean ====
section
/-! DEFINITION. Machine/Dram.lean: the DRAM controllers: ECC, the service order of the queues, refresh, scrub, re-centring
windows, forced retrains and retirement (R276 to R311). -/
namespace Sys2Proof.Machine

/-- Stack states (Table 9.10). -/
def dsUntrained : Nat := 0
def dsInService : Nat := 1
def dsSelfRefresh : Nat := 2
def dsZeroising : Nat := 3

/-- The error unit of a stack's half. -/
def stackUnit (k : Nat) : Nat := k / 4

/-- The channel below the Fold that serves a line, if one does (R278, R305, R307). -/
def State.servedBy (s : State) (k line : Nat) : Option Nat := s.servingChan (lineAddr k line)

/-- Whether a channel is retired. -/
def State.isRetired (s : State) (k c : Nat) : Bool := bit (s.reg (Fd.dramRetired k).addr) c

/-- Ask for a forced retrain of a channel: the first trigger stands (R301). -/
def State.askRetrain (s : State) (k c trig : Nat) : State :=
  let x := s.chan k c
  if x.trigger.isSome || x.training || s.isRetired k c then s else s.setChan k c { x with trigger := some trig }

/-! ### ECC (R280 to R282, R285) -/

/-- Wires whose symbol of a sector's code word came back wrong, but for that which erasure mode knows bad. -/
def State.wrongWires (s : State) (k c i : Nat) (e : EccResult) : List Nat :=
  let known := Tab.get (fun _ => 36) (s.stack k).erased (2 * c + i / 2)
  ((e.wrong.filter fun w => w.1.val = i && w.2.val ≠ known).map (·.2.val)).eraseDups

/-- Whether a code word is uncorrectable: the code corrects one symbol besides an erased one (R280, R285); it is taken to
detect three or more as it does two (notes/assumptions/145.md). -/
def uncorrectable (wrong : List Nat) : Bool := 2 ≤ wrong.length

/-- Reading a sector of a channel, where it lies: a corrected symbol is counted against its wire and an uncorrectable code
word reads poisoned; both are recorded and may ask for a forced retrain (R281, R301). A poisoned one is no error (R282). -/
def State.eccSector (s : State) (k c line p i : Nat) (e : EccResult) : State :=
  let ws := s.wrongWires k c i e
  if s.isPoisoned (p + 32 * i) then s
  else if uncorrectable ws then
    let x := s.chan k c
    let s := s.setChan k c { x with ue := x.ue + 1 }
    let s := { s with dramUe := Nats.ins s.dramUe (p / 32 + i) }
    let s := (s.inc (Fd.dramEccUe k) 1).record (stackUnit k) 0x0302 (uwDram k c (i / 2) 63) line 0
    if 2 ≤ x.ue + 1 then s.askRetrain k c 2 else s
  else match ws.head? with
    | none => s
    | some w =>
      let key := 64 * (i / 2) + w
      let x := s.chan k c
      let n := Tab.get (fun _ => 0) x.wires key + 1
      let s := (s.setChan k c { x with wires := Tab.put (fun _ => 0) x.wires key n }).inc (Fd.dramEccCe k) 1
      let s := s.record (stackUnit k) 0x0301 (uwDram k c (i / 2) w) line 0
      if 256 ≤ n then s.askRetrain k c 1 else s

/-- Reading sectors of a line. -/
def State.eccRead (s : State) (k line : Nat) (secs : List Nat) (e : EccResult) : State :=
  match s.place (lineAddr k line) with
  | none => s
  | some p => secs.foldl (fun t i => t.eccSector k (chanOf (lineNo p)) line p i e) s

/-- Sectors of a request. -/
def reqSectors (r : DramReq) : List Nat :=
  match r.sector with
  | some i => [i.val]
  | none => [0, 1, 2, 3]

/-- Data of a request on its way to the bank, with its poisoned sectors (R281, R282). -/
def State.returnData (s : State) (r : DramReq) : State :=
  let a := lineAddr r.stack.val r.line.toNat
  let is := reqSectors r
  s.emit (.dramData (a + 32 * is.headD 0) (is.flatMap fun i => s.dramSector (a + 32 * i))
    (ofBits (is.zipIdx.filterMap fun (x : Nat × Nat) => if s.dramBad (a + 32 * x.1) then some x.2 else none)))

/-! ### The queues (R288 to R292) -/

/-- A read is answered: its data goes to the bank, whose miss entry has it when no other read of the line waits (R217). -/
def State.answered (s : State) (r : DramReq) : State :=
  let k := r.stack.val
  let l := k * 2 ^ 29 + r.line.toNat
  let s := s.returnData r
  let waits := ((s.servedBy k r.line.toNat).map fun c => (s.chan k c).reads.any fun q => q.req.line = r.line).getD false
  let b := bankOf (128 * l)
  if waits then s
  else s.setBank b { s.bank b with
    misses := updateWhere (fun m => m.line = l && m.asked) (fun m => { m with back := true }) (s.bank b).misses }

/-- A queue that has room takes the requests of the miss entries that wait for it, and writes drain (R288, R292). -/
def State.feed (s : State) (k c : Nat) : State :=
  let ms := (s.banks.filter fun e => e.1 / 64 = k).flatMap fun e =>
    (e.2.misses.filter fun m => !m.asked && s.servingChan (128 * m.line) = some c).map fun m => (e.1, m.line)
  ((ms.foldl (fun t m => t.askChan m.1 m.2) s).drainWrites k c).settleRows k c

/-- DRAM_REQUEST: a request enters its channel's queue, with its class; a full queue leaves it with the Fold. A read of
a line whose write is queued is answered from the write queue, and one of a lost line at once (R288, R289, R292, R307). -/
def execDramRequest (r : DramReq) (s : State) : Host.Outcome State Fault Refusal :=
  let k := r.stack.val
  match s.servedBy k r.line.toNat with
  | none => if r.write then .next s else .next (s.returnData r)
  | some c =>
    let x := s.chan k c
    let r := { r with cls := if r.write && r.cls = .critical then .bulk else r.cls }
    if r.write then
      if 64 ≤ x.writes.length then .next s
      else .next ((s.setChan k c { x with writes := x.writes ++ [r] }).drainWrites k c)
    else if x.writes.any (fun w => w.line = r.line) then .next (s.returnData r)
    else if 64 ≤ x.reads.length then .next s
    else .next (s.setChan k c { x with reads := x.reads ++ [readOf (s.splits k) r] })

/-- Rank of a request of a class on a pseudo-channel, by what that has served in the Bell, the bus time and activations it
takes and the zone's cap; none when the cap holds it back (Table 9.3, R291). -/
def Chan.rank (x : Chan) (q cost acts cap : Nat) (cls : DramClass) : Option Nat :=
  match cls with
  | .scheduled => if (x.use q).sched + cost ≤ 640 && x.acts + acts ≤ 3 then some 1 else some 4
  | .critical => some 2
  | .bulk => if (x.use q).bulk < 256 then some 3 else if (x.use q).bulk + cost ≤ cap then some 5 else none

/-- Rank of a queued read on a pseudo-channel that has a part of it to serve. -/
def State.rankOf (s : State) (k : Nat) (x : Chan) (q : Nat) (r : DramRead) : Option Nat :=
  if !r.left.getLsbD q then none
  else x.rank q (burstOf (s.splits k) r.req q) (b2n (!x.rowHit q (s.seatOf k r.req))) (s.bulkCap k) r.req.cls

/-- Whether a pseudo-channel serves the queue's read `i` next: no other has a lower rank; within its rank it is the oldest,
or it hits an open row and passes older ones, none of them for the fifth time (R290). -/
def State.inTurn (s : State) (k : Nat) (x : Chan) (q i : Nat) : Bool :=
  match x.reads[i]? with
  | none => false
  | some r =>
    match s.rankOf k x q r with
    | none => false
    | some n =>
      let hit := x.rowHit q (s.seatOf k r.req)
      x.reads.all (fun o => (s.rankOf k x q o).all fun m => decide (n ≤ m)) &&
        (x.reads.take i).all fun o => s.rankOf k x q o ≠ some n || (hit && decide (o.passed < 4))

/-- A pseudo-channel serves its part of read `i`, which counts in its Bell; the read that needs no more of the other is
answered (R276, R290, R293, R295). -/
def State.servePart (s : State) (k c : Nat) (x : Chan) (q i : Nat) (r : DramRead) (e : EccResult) : State :=
  let n := s.rankOf k x q r
  let b := s.seatOf k r.req
  let cost := burstOf (s.splits k) r.req q
  let u := x.use q
  let y := x.setUse q { u with
    sched := if n = some 1 then u.sched + cost else u.sched
    bulk := if r.req.cls = .bulk then u.bulk + cost else u.bulk }
  let y := { y with acts := if n = some 1 ∧ !x.rowHit q b then y.acts + 1 else y.acts }
  let left := r.left &&& ~~~(BitVec.ofNat 2 (2 ^ q))
  let older := (x.reads.take i).map fun o => if s.rankOf k x q o = n then { o with passed := o.passed + 1 } else o
  let reads := older ++ (if left = 0 then [] else [{ r with left }]) ++ x.reads.drop (i + 1)
  let s := s.setChan k c ({ y with reads }.access q b)
  let s := s.eccRead k r.req.line.toNat ((reqSectors r.req).filter fun j => j / 2 = q) e
  (if left = 0 then s.answered r.req else s).feed k c

/-- DRAM_DATA_RETURN: a pseudo-channel ends its part of the oldest queued read of a line whose turn it is, after check and
correction (R281, R290, R293). A channel in a window or retraining returns none, and one out of turn nothing
(notes/assumptions/147.md). -/
def execDramDataReturn (stack : Fin 8) (line : BitVec 29) (d : HalfData) (s : State) : Host.Outcome State Fault Refusal :=
  let k := stack.val
  match s.servedBy k line.toNat with
  | none => .next s
  | some c =>
    let x := s.chanNow k c
    match x.reads.findIdx? fun r => r.req.line = line && r.left.getLsbD d.half with
    | none => .next s
    | some i =>
      match x.reads[i]? with
      | some r => if s.chanHeld k c || !s.inTurn k x d.half i then .next s else .next (s.servePart k c x d.half i r d.ecc)
      | none => .next s

/-- Whether a channel is in self-refresh: in a window from S + 1 until S + 91 at the latest, in a retrain, or with its
stack (Table 9.6, R302). -/
def State.sleeps (s : State) (k c : Nat) : Bool :=
  let x := s.chan k c
  let start := (x.window.getD 0).toNat
  (x.isOpen && start + 1 ≤ s.bellCount.toNat && s.bellCount.toNat < start + 91) || x.training ||
    s.rd (Fd.dramStackStatusState k) = dsSelfRefresh || s.rd (Fd.dramStackStatusState k) = dsUntrained

/-- DRAM_REFRESH: a pseudo-channel refreshes 8 rows of its next bank, every second Bell in Green and every Bell in Amber and
Red, whatever waits; none while the channel is in self-refresh (R297). -/
def execDramRefresh (stack : Fin 8) (pch : Fin 128) (s : State) : Host.Outcome State Fault Refusal :=
  let k := stack.val
  let c := pch.val / 2
  let x := s.stack k
  let period := if s.rd (Fd.dramStackStatusRefresh2x k) = 1 then 1 else 2
  let early := (x.refreshAt.find? (·.1 = pch.val)).any fun e => decide (s.bellCount.toNat < e.2.toNat + period)
  if s.sleeps k c || early then .next s
  else
    let n := Tab.get (fun _ => 0) x.refresh pch.val
    let s := s.setStack k { x with
      refresh := Tab.put (fun _ => 0) x.refresh pch.val ((n + 1) % 65536)
      refreshAt := Tab.ins x.refreshAt pch.val s.bellCount }
    let y := s.chan k c
    .next (s.setChan k c { y with rows := y.rows.filter fun e => e.1 ≠ 16 * (pch.val % 2) + n % 16 })

/-- Whether a bulk line is served now on both pseudo-channels of a channel. -/
def State.bulkSlot (s : State) (k : Nat) (x : Chan) : Bool :=
  [0, 1].all fun q => match x.rank q 50 0 (s.bulkCap k) .bulk with
    | none => false
    | some n => x.reads.all fun o => (s.rankOf k x q o).all fun m => decide (n ≤ m)

/-- DRAM_PATROL_SCRUB: the channel's scrub reads its next line, in a bulk slot, and writes back what it corrected. Every line
comes once in 4,096 Rounds (R283). -/
def execDramPatrolScrub (stack : Fin 8) (chan : Fin 64) (e : EccResult) (s : State) :
    Host.Outcome State Fault Refusal :=
  let k := stack.val
  let c := chan.val
  let x := s.chanNow k c
  let x := match x.patrolAt with
    | none => { x with patrol := 0, patrolAt := some s.bellCount }
    | some t => if x.patrol = 2 ^ 23 ∧ t.toNat + 2 ^ 28 ≤ s.bellCount.toNat then { x with patrol := 0, patrolAt := some s.bellCount }
      else x
  if s.chanHeld k c || s.isRetired k c || x.patrol = 2 ^ 23 || !s.bulkSlot k x then .next s
  else
    let line := 64 * x.patrol + Nat.xor (chanOf (64 * x.patrol)) c
    let use (y : Chan) (q : Nat) : Chan := y.setUse q { y.use q with bulk := (y.use q).bulk + 50 }
    let s := s.setChan k c (use (use { x with patrol := x.patrol + 1 } 0) 1)
    .next ([0, 1, 2, 3].foldl (fun t i => t.eccSector k c line (lineAddr k line) i e) s)

/-! ### Re-centring windows (R298 to R300, R62, R63) -/

/-- Show the next announced window of a stack. -/
def State.showWindow (s : State) (k : Nat) : State :=
  let ws := (List.range 64).filterMap fun c =>
    if (s.chan k c).isOpen then none else (s.chan k c).window.map fun w => (w.toNat, c)
  match ws with
  | [] => (s.setReg (Fd.dramWindowNext k).addr 0).wr (Fd.dramStackStatusWindowChan k) 0
  | w :: t =>
    let b := t.foldl (fun b v => if v.1 < b.1 then v else b) w
    (s.setReg (Fd.dramWindowNext k).addr (BitVec.ofNat 64 b.1)).wr (Fd.dramStackStatusWindowChan k) b.2

/-- A channel's window as announced (R62). -/
def State.windowOf (s : State) (k c : Nat) (start : Word) : Window :=
  { start, length := 94, kind := 1, unit := BitVec.ofNat 12 (64 * k + c), device := BitVec.ofNat 14 s.device }

/-- Announce a channel's window. -/
def State.announceWindow (s : State) (k c : Nat) (start : Word) : State :=
  let s := (s.setChan k c { s.chan k c with window := some start, owed := false }).setStack k
    { s.stack k with lastWin := some start }
  (s.announce (s.windowOf k c start)).showWindow k

/-- The first start that R298 allows a stack's next window. -/
def State.firstStart (s : State) (k : Nat) : Word :=
  BitVec.ofNat 64 (max s.bellCount.toNat (((s.stack k).lastWin.map (·.toNat)).getD 0) + 262144)

/-- RECENTRE_ANNOUNCE: a window of 94 Bells is announced at least 4 Rounds ahead, and at least 4 Rounds after the
stack's last; one with less lead is refused with `BELL_NEAR` (R62, R298). -/
def execRecentreAnnounce (stack : Fin 8) (chan : Fin 64) (start : BitVec 64) (s : State) :
    Host.Outcome State Fault Refusal :=
  let k := stack.val
  let c := chan.val
  if (s.chan k c).window.isSome || s.isRetired k c || s.dark then .next s
  else if start.toNat < s.bellCount.toNat + 262144 then .next (s.emit (.windowRefused (s.windowOf k c start) 2))
  else if start.toNat < (s.firstStart k).toNat then .next s
  else .next (s.announceWindow k c start)

/-- Whether a stack's temperature has moved by 10 °C or more since a channel's last window (R298). -/
def State.hasMoved (s : State) (k : Nat) (x : Chan) : Bool :=
  let deg (n : Nat) : Int := (BitVec.ofNat 16 n).toInt
  x.lastWin.isSome && decide (40 ≤ (deg (s.rd (Fd.thermZoneTemp k)) - deg x.lastTemp).natAbs)

/-- At a Round's first boundary the half controllers announce the window of a channel that is due: one that was skipped or
whose stack's temperature moved, or one whose last is 256 Rounds back, so that the 64 of a stack, 4 Rounds apart, each get
theirs within 512 (R298, R300; notes/assumptions/148.md). -/
def State.cadence (s : State) : State :=
  if s.bellCount.toNat % 65536 ≠ 0 then s
  else eachUpTo 8 (fun s k =>
    let cs := (List.range 64).filter fun c => (s.chan k c).window.isNone && !s.isRetired k c
    let soon (c : Nat) : Bool := (s.chan k c).owed || s.hasMoved k (s.chan k c)
    let due (c : Nat) : Bool := ((s.chan k c).lastWin.getD 0).toNat + 256 * 65536 ≤ s.bellCount.toNat
    let start := s.firstStart k
    if s.rd (Fd.dramStackStatusState k) ≠ dsInService || start.toNat ≠ s.bellCount.toNat + 262144 then s
    else match (cs.find? soon).orElse fun _ => cs.find? due with
      | none => s
      | some c => s.announceWindow k c start) s

/-- A window is skipped, counted and recorded, under a reason code the spec does not give; the channel's next is announced at
the first start allowed, from P3 once it has ended (R300; notes/assumptions/35.md). -/
def State.skipWindow (s : State) (k c : Nat) : State :=
  let x := s.chan k c
  let start := x.window.getD 0
  let reason := s.freeWord.toNat % 2 ^ 32
  let s := (s.taken.setChan k c { x with window := none, owed := true }).inc (Fd.dramWindowsSkipped k) 1
  let s := s.record (stackUnit k) 0x0307 (uwDram k c 0 63) reason (start.toNat % 2 ^ 32)
  if s.dark || s.isRetired k c then s.showWindow k else s.announceWindow k c (s.firstStart k)

/-- A window opens at its start and holds the channel; during zeroising or a retrain of the channel it is skipped (R299,
R300). -/
def State.openWindow (s : State) (k c : Nat) (narrow : Bool) : State :=
  let x := s.chan k c
  let st := s.rd (Fd.dramStackStatusState k)
  if st = dsZeroising || st = dsUntrained || x.training then s.skipWindow k c
  else
    let x := { x with
      isOpen := true, narrow, rows := [], lastWin := x.window, lastTemp := s.rd (Fd.thermZoneTemp k) }
    ((s.setChan k c x).wr (Fd.dramStackStatusWindowOpen k) 1).showWindow k

/-- The channel of a stack whose window is open, and that whose announced window is the next that `p` takes. -/
def State.openChan (s : State) (k : Nat) : Option Nat := (List.range 64).find? fun c => (s.chan k c).isOpen
def State.nextWindow (s : State) (k : Nat) (p : Nat → Bool) : Option Nat :=
  let ws := (List.range 64).filterMap fun c => (s.chan k c).window.bind fun w =>
    if !(s.chan k c).isOpen && p w.toNat then some (w.toNat, c) else none
  match ws with
  | [] => none
  | w :: t => some (t.foldl (fun b v => if v.1 < b.1 then v else b) w).2

/-- RECENTRE_WINDOW: the stack's due window opens, or the one open meets a narrow eye; in P3, which counts no Bells, the next
announced window is skipped (R299, R300). -/
def execRecentreWindow (stack : Fin 8) (narrowEye : Bool) (s : State) : Host.Outcome State Fault Refusal :=
  let k := stack.val
  if s.dark then
    match s.nextWindow k fun _ => true with
    | none => .next s
    | some c => .next (s.skipWindow k c)
  else
    match s.openChan k, s.nextWindow k fun w => decide (w ≤ s.bellCount.toNat) with
    | some c, _ => .next (s.setChan k c { s.chan k c with narrow := (s.chan k c).narrow || narrowEye })
    | none, some c => .next (s.openWindow k c narrowEye)
    | none, none => .next s

/-- At a boundary each stack's due window opens, none while another of it is open (R298, R299). -/
def State.openWindows (s : State) : State :=
  eachUpTo 8 (fun s k => match s.openChan k, s.nextWindow k fun w => decide (w ≤ s.bellCount.toNat) with
    | none, some c => s.openWindow k c false
    | _, _ => s) s

/-- A stack's contents become zero, poison included, but for a channel that a window holds (R300, R306). -/
def State.zeroStack (s : State) (k : Nat) : State :=
  let held := s.openChan k
  let out (a : Nat) : Bool := a / 2 ^ 36 ≠ k || some (chanOf (lineNo a)) = held
  let s := { s with
    mem := Tab.keep out s.mem
    dramPoison := s.dramPoison.filter fun w => out (32 * w)
    dramUe := s.dramUe.filter fun w => out (32 * w) }
  let s := if held.isNone then s.setStack k { s.stack k with clean := true, cleaned := [] } else s
  (List.range 64).foldl (fun t c => t.setChan k c { t.chan k c with reads := [], writes := [] }) s

/-- At a boundary: windows that have lasted 94 Bells close; a narrow eye asks for a forced retrain, and a zeroising that
waited goes on (Table 9.6, R300). -/
def State.closeWindows (s : State) : State :=
  s.chans.foldl (fun t e =>
    let k := e.1 / 64
    let c := e.1 % 64
    let x := t.chan k c
    if x.isOpen && (x.window.getD 0).toNat + 94 ≤ t.bellCount.toNat then
      let t := (t.setChan k c { x with isOpen := false, window := none, narrow := false }).inc (Fd.dramWindows k) 1
      let t := t.wr (Fd.dramStackStatusWindowOpen k) 0
      let t := if t.rd (Fd.dramStackStatusState k) = dsZeroising then t.zeroStack k else t
      if x.narrow then t.askRetrain k c 4 else t
    else t) s

/-- At a Round's first boundary the counts of corrected symbols and uncorrectable code words start again
(notes/assumptions/36.md). -/
def State.newRound (s : State) : State :=
  if s.bellCount.toNat % 65536 ≠ 0 then s
  else { s with chans := Tab.mapv (fun _ => {}) (fun _ (x : Chan) => { x with wires := [], ue := 0 }) s.chans }

/-! ### Retirement (R303 to R307) -/

/-- The queued requests of a channel go to the new placement of their lines: writes with what they hold, reads in order; of a
line that is lost a write is dropped and a read answered at once (R303, R307). `ds`: the sectors the writes hold. -/
def State.requeue (s : State) (k : Nat) (x : Chan) (ds : List (Nat × List Byte × Bool)) : State :=
  let s := ds.foldl (fun t d => t.dramWrite d.1 d.2.1 d.2.2) s
  let s := x.writes.foldl (fun t w => match t.servedBy k w.line.toNat with
    | some c => t.setChan k c { t.chan k c with writes := (t.chan k c).writes ++ [w] }
    | none => t) s
  x.reads.foldl (fun t r => match t.servedBy k r.req.line.toNat with
    | some c => t.setChan k c { t.chan k c with reads := (t.chan k c).reads ++ [r] }
    | none => t.answered r.req) s

/-- Retire a channel: its lines go to the reserve stripe, zero and poisoned, with the Fold's copies marked dirty; or, without
a reserve, they are lost. -/
def State.retireChan (s : State) (k c trig : Nat) : State :=
  if s.isRetired k c then s
  else
    let x := s.chan k c
    let ds := x.writes.flatMap fun w => (reqSectors w).map fun i =>
      let a := lineAddr k w.line.toNat + 32 * i
      (a, s.dramSector a, s.dramBad a)
    let s := (s.setReg (Fd.dramRetired k).addr (s.reg (Fd.dramRetired k).addr ||| BitVec.ofNat 64 (2 ^ c))).inc
      (Fd.dramStackStatusRetiredCount k) 1
    let s := (s.setChan k c { x with reads := [], writes := [], rows := [], trigger := none }).irq (31 + k)
    if s.flag (Fd.dramStackStatusStripeOn k) && !s.flag (Fd.dramStackStatusStripeUsed k) then
      let s := (s.wr (Fd.dramStackStatusStripeUsed k) 1).wr (Fd.dramStackStatusStripeChan k) c
      let out (a : Nat) : Bool := a / 2 ^ 36 ≠ k || !inStripe a
      let mark (l : Nat) (y : Option Line) : Option Line :=
        if l / 2 ^ 29 = k ∧ chanOf (l % 2 ^ 29) = c then
          y.map fun y => if y.ways = [] then { y with dirty := true } else y
        else y
      let s := s.setStack k { s.stack k with cleaned := [], clean := false }
      let s := { s with
        mem := Tab.keep out s.mem
        dramPoison := s.dramPoison.filter fun w => out (32 * w)
        dramUe := s.dramUe.filter fun w => out (32 * w)
        lines := Tab.mapv (fun _ => none) mark s.lines }
      (s.requeue k x ds).record (stackUnit k) 0x0305 (uwDram k c 0 63) trig c
    else
      let s := (s.setStack k { s.stack k with lost := Nats.ins (s.stack k).lost c }).wr (Fd.dramStackStatusDegraded k) 1
      (s.requeue k x ds).record (stackUnit k) 0x0306 (uwDram k c 0 63) trig 0

/-! ### Forced retraining (R301, R302) -/

/-- A channel begins the forced retrain it was asked for; a second within one Round of the last will retire it (R301 to
R303). -/
def State.startRetrain (s : State) (k c : Nat) : State :=
  let x := s.chan k c
  match x.trigger with
  | none => s
  | some code =>
    if x.training || s.rd (Fd.dramStackStatusState k) ≠ dsInService then s
    else
      let again := x.lastRun.any fun b => decide (s.bellCount.toNat < b.toNat + 65536)
      let s := s.setChan k c { x with
        trigger := none, training := true, cause := code, retire := x.retire || again, lastRun := some s.bellCount, rows := [] }
      (s.sat (Fd.dramStackStatusForced k) 1).wr (Fd.dramStackStatusRetraining k) 1

/-- At a boundary every channel that was asked to begins its forced retrain (R301). -/
def State.startRetrains (s : State) : State := s.chans.foldl (fun t e => t.startRetrain (e.1 / 64) (e.1 % 64)) s

/-- FORCED_RETRAIN: a channel begins the forced retrain that a trigger asked for (R301, R302). -/
def execForcedRetrain (stack : Fin 8) (chan : Fin 64) (trigger : RetrainTrigger) (s : State) :
    Host.Outcome State Fault Refusal :=
  let code := match trigger with
    | .correctedSymbols => 1
    | .uncorrectable => 2
    | .caParity => 3
    | .narrowEye => 4
    | .command => 5
  if (s.chan stack chan).trigger = some code then .next (s.startRetrain stack chan) else .next s

/-- DRAM_CA_PARITY: the stack reports a command-address parity error (R301). -/
def execDramCaParity (stack : Fin 8) (chan : Fin 64) (s : State) : Host.Outcome State Fault Refusal :=
  if s.rd (Fd.dramStackStatusState stack) = dsUntrained then .next s else .next (s.askRetrain stack chan 3)

/-- The spares the repair map gives a stack: a DQ spare by its pseudo-channel, a CA spare by 128 more. -/
def State.mapSpares (s : State) (k : Nat) : List Nat :=
  (s.loaded.map fun r => (r.spares.filter (·.1 = k)).map (·.2)).getD []

/-- A spare or an erasure mode differs or not from the repair map: recorded (Table 19.4, R284). -/
def State.spareRecord (s : State) (k p : Nat) (isCa er differs : Bool) : State :=
  s.record (stackUnit k) 0x0303 (uwDram k (p / 2) (p % 2) 63) (b2n isCa + 2 * b2n er + 4 * b2n differs) 0

/-- Spares and erasure mode of a pseudo-channel, from the wires of it that failed training: the first DQ wire gets the spare,
the second is erased; what comes newly into use is recorded (R284, R285). -/
def State.spareWires (s : State) (k p : Nat) (w : WireFaults) : State :=
  let dq := w.dq.eraseDups
  let put (s : State) (f : Fld) (on isCa er : Bool) : State :=
    let s1 := s.wr f (b2n on)
    if on && s.rd f = 0 then s1.spareRecord k p isCa er (!(s.mapSpares k).contains (if isCa then 128 + p else p)) else s1
  let s := put s (Fd.dramSpareDq k p) (decide (1 ≤ dq.length)) false false
  let s := put s (Fd.dramSpareCa k p) (decide (1 ≤ w.ca)) true false
  let s := put s (Fd.dramErased k p) (decide (2 ≤ dq.length)) false true
  let er := Tab.put (fun _ => 36) (s.stack k).erased p ((dq[1]?.map (·.val)).getD 36)
  (s.setStack k { s.stack k with erased := er }).wr (Fd.dramStackStatusErasedCount k) er.length

/-- Whether a pseudo-channel's failing wires retire its channel (R286). -/
def wiresFail (w : WireFaults) : Bool := 3 ≤ w.dq.eraseDups.length || 2 ≤ w.ca

/-- `DRAM_CHAN_CMD` completes. -/
def State.chanDone (s : State) (k st res : Nat) : State :=
  ((s.wr (Fd.dramChanCmdState k) st).wr (Fd.dramChanCmdResult k) res).irq (31 + k)

/-- Whether step 4 of a retrain finds an uncorrectable code word in a line of the channel that was not poisoned (R303). -/
def State.foundUe (s : State) (k c : Nat) (f : BitVec 29 × EccResult) : Bool :=
  (List.range 4).any fun i =>
    !s.isPoisoned (lineAddr k f.1.toNat + 32 * i) && uncorrectable (s.wrongWires k c i f.2)

/-- RETRAIN_COMPLETE: a forced retrain ends: its wires are assigned anew, what step 4 read is counted, the channel may be
retired, and held requests issue (R281, R302, R303). -/
def execRetrainComplete (stack : Fin 8) (chan : Fin 64) (r : ChannelTraining) (s : State) :
    Host.Outcome State Fault Refusal :=
  let k := stack.val
  let c := chan.val
  let x := s.chan k c
  if !x.training then .next s
  else
    let s := s.setChan k c { x with training := false, retire := false, cmd := false }
    let s := (s.spareWires k (2 * c) r.even).spareWires k (2 * c + 1) r.odd
    let found := r.found.filter fun f => decide (chanOf f.1.toNat = c)
    let ue := found.any (s.foundUe k c)
    let s := found.foldl (fun t f => [0, 1, 2, 3].foldl (fun t i =>
      t.eccSector k c f.1.toNat (lineAddr k f.1.toNat) i f.2) t) s
    let s := s.record (stackUnit k) 0x0304 (uwDram k c 0 63) x.cause r.micros.toNat
    let s := if wiresFail r.even || wiresFail r.odd || ue || x.retire then s.retireChan k c x.cause else s
    let s := s.wr (Fd.dramStackStatusRetraining k) (b2n ((List.range 64).any fun q => (s.chan k q).training))
    .next ((if x.cmd then s.chanDone k 2 0 else s.irq (31 + k)).feed k c)

/-- A write of `DRAM_CHAN_CMD` with `GO` (R311). -/
def State.chanGo (s : State) (k op c : Nat) (eff : State → State) : State :=
  if !s.reaches (Fd.dramChanCmdGo k).addr then s
  else if s.rd (Fd.dramChanCmdState k) = 1 then s.wr (Fd.dramChanCmdResult k) 1
  else
    let s := (s.wr (Fd.dramChanCmdOp k) op).wr (Fd.dramChanCmdChannel k) c
    if s.rd (Fd.dramStackStatusState k) ≠ dsInService then s.chanDone k 3 3
    else if s.isRetired k c then s.chanDone k 3 4
    else eff s

/-- RETRAIN: a forced retrain of a channel is asked for (R301, R311). -/
def execChanRetrain (stack : Fin 8) (chan : Fin 64) (s : State) : Host.Outcome State Fault Refusal :=
  let k := stack.val
  let c := chan.val
  .next (s.chanGo k 1 c fun s =>
    let s := s.askRetrain k c 5
    ((s.setChan k c { s.chan k c with cmd := true }).wr (Fd.dramChanCmdState k) 1).wr (Fd.dramChanCmdResult k) 0)

/-- RETIRE: the channel is retired, or, while it retrains, at the end of that (R303, R311). -/
def execChanRetire (stack : Fin 8) (chan : Fin 64) (s : State) : Host.Outcome State Fault Refusal :=
  let k := stack.val
  let c := chan.val
  .next (s.chanGo k 2 c fun s =>
    let x := s.chan k c
    if x.training then
      ((s.setChan k c { x with retire := true, cmd := true }).wr (Fd.dramChanCmdState k) 1).wr (Fd.dramChanCmdResult k) 0
    else (s.retireChan k c 5).chanDone k 2 0)

end Sys2Proof.Machine
end

