-- ==== Sys2Proof/Machine/Ports.lean ====
section
/-! DEFINITION. Machine/Ports.lean: optical ports, lanes, laser sources and Stiles (R340 to R358, R387), and the notices
about them. -/
namespace Sys2Proof.Machine

/-! ### Geometry (Table 11.1) -/

def dimOf (p : Nat) : Nat := p / 4
/-- The laser source of a port. -/
def laserOf (p : Nat) : Nat := p % 4
/-- The port of the far end that a port expects, which is also its through-state partner. -/
def partnerOf (p : Nat) : Nat := if p % 4 < 2 then p + 2 else p - 2

/-- Laser source states (Table 11.4). -/
def lsAbsent : Nat := 0
def lsDisabled : Nat := 1
def lsOn : Nat := 2
def lsLow : Nat := 3
def lsFailed : Nat := 4
def lsFault : Nat := 5

/-- Whether a source gives light. -/
def State.lit (s : State) (m : Nat) : Bool :=
  s.rd (Fd.optLaserState m) = lsOn || s.rd (Fd.optLaserState m) = lsLow || s.rd (Fd.optLaserState m) = lsFailed

/-! ### Port states -/

/-- Change a port's state: it raises source 40 (R599). -/
def State.portState (s : State) (p st : Nat) : State :=
  if s.rd (Fd.optPortState p) = st then s else (s.wr (Fd.optPortState p) st).irq 40

/-- Record a port's state (notes/assumptions/20.md). -/
def State.portRecord (s : State) (p : Nat) : State :=
  s.record euTransit 0x0505 (uwPort p) (s.rd (Fd.optPortState p)) (s.rd (Fd.optPortFarDevice p))

/-- Put flits that were sent or waited back in front of their queues, to be sent under fresh numbers. -/
def Port.requeue (x : Port) (fs : List FlitOut) : Port :=
  let sch := fs.filter fun f => f.flit.cls = 1
  { x with
    sched := sch.filter (!·.flit.orphan) ++ x.sched, orphans := sch.filter (·.flit.orphan) ++ x.orphans,
    bulk := fs.filter (fun f => f.flit.cls ≠ 1) ++ x.bulk }

/-- Every flit a port holds, unacknowledged ones first. -/
def Port.held (x : Port) : List FlitOut := x.retry.map (·.1) ++ x.sched ++ x.orphans ++ x.bulk

/-- A port leaves service in a new state. Its flits go to its pair port when that is in service, unless the far end's
light was lost, when it keeps them (R371, R389); its reservations move at the next boundary (R387). -/
def State.portOut (s : State) (p st : Nat) (dark : Bool) : State :=
  let was := s.portUp p
  let s := ((s.portState p st).wr (Fd.optPortLanesIn p) 0).wr (Fd.optPortMarginal p) 0
  let x := s.port p
  let x := { x with removal := [], retrain := [], resend := [], dark }
  if !was then s.setPort p x
  else
    let x := { x with moving := true }
    let q := pairOf p
    if dark || !s.portUp q then s.setPort p x
    else
      let s := s.setPort q ((s.port q).requeue x.held)
      s.setPort p { x with retry := [], sched := [], orphans := [], bulk := [] }

/-- A port starts training if its dimension has more than one module, its source gives light and its Stile is not
forced through. -/
def State.trainPort (s : State) (p : Nat) : State :=
  if s.ringSizeOf (dimOf p) ≤ 1 || !s.lit (laserOf p) || s.rdBit Fd.optStileForceThrough (dimOf p) then s
  else s.portOut p psTraining (s.port p).dark

/-- Ports of a laser source leave service in a state. -/
def State.sourceOut (s : State) (m st : Nat) : State :=
  eachUpTo 4 (fun s d => if s.ringSizeOf d ≤ 1 then s else
    let up := s.portUp (4 * d + m)
    let s := s.portOut (4 * d + m) st false
    if up then s.portRecord (4 * d + m) else s) s

/-- Change a laser source's state, with its record. -/
def State.laserState (s : State) (m st : Nat) : State :=
  let old := s.rd (Fd.optLaserState m)
  if old = st then s
  else ((s.wr (Fd.optLaserState m) st).irq 40).record euTransit 0x0508 (uwLaser m) (old + 16 * st)
    (s.rd (Fd.optLaserMinPower m))

/-! ### `OPT_CMD` (R358) -/

/-- The command in progress completes. -/
def State.optDone (s : State) (res : Nat) : State :=
  if s.rd Fd.optCmdState = 1 then ((s.wr Fd.optCmdState 2).wr Fd.optCmdResult res).irq 40 else s

/-- Whether `OPT_CMD` runs an operation on a port and lane. -/
def State.optRuns (s : State) (op p l : Nat) : Bool :=
  s.rd Fd.optCmdState = 1 && s.rd Fd.optCmdOp = op && s.rd Fd.optCmdPort = p && s.rd Fd.optCmdLane = l

/-- A write of `OPT_CMD` with `GO`: refused while `BUSY`, else its fields are set and it is busy or refused. -/
def State.optGo (s : State) (op : Nat) (p l m : Option Nat) (refusal : Nat) (eff : State → State) : State :=
  if !s.reaches Fd.optCmdGo.addr then s
  else if s.rd Fd.optCmdState = 1 then s.wr Fd.optCmdResult 1
  else
    let s := (((s.wr Fd.optCmdOp op).wrSome Fd.optCmdPort p).wrSome Fd.optCmdLane l).wrSome Fd.optCmdLaser m
    if refusal ≠ 0 then ((s.wr Fd.optCmdState 3).wr Fd.optCmdResult refusal).irq 40
    else eff ((s.wr Fd.optCmdState 1).wr Fd.optCmdResult 0)

/-! ### Reservations (R387) -/

/-- Lanes of a port in service that no reservation of a phase and position names. -/
def State.freeLanes (s : State) (p phase pos : Nat) : List Nat :=
  let used := ((s.rota p).filter fun e => e.phase = phase ∧ e.pos = pos).foldl (fun v e => v ||| e.lanes) 0
  (s.lanesIn p).filter fun l => !used.testBit l

/-- The word of a Rota entry (Table 12.4); an entry that reserves no lane is not valid. -/
def Slot.word (e : Slot) : Word :=
  if e.lanes = 0 then 0
  else BitVec.ofNat 64 (2 ^ 63 + 2 ^ 36 * e.flow + 2 ^ 28 * e.phase + 2 ^ 24 * e.pos + 2 ^ 16 * e.lanes)

/-- Write an active Rota entry. -/
def State.setSlot (s : State) (p : Nat) (e : Slot) : State := s.setReg (rotaAddr p e.entry) e.word

/-- Move the reservation of one lane within a port, or drop it. -/
def State.moveLane (s : State) (p l : Nat) (e : Slot) : State :=
  let e' := { e with lanes := e.lanes - 2 ^ l }
  match s.freeLanes p e.phase e.pos with
  | a :: _ :: _ => s.setSlot p { e' with lanes := e'.lanes + 2 ^ a }
  | _ => (s.setSlot p e').sat Fd.fabStatusLostSlots 1

/-- Place one reservation on another port, or drop it. -/
def State.placeSlot (s : State) (q : Nat) (e : Slot) : State :=
  match s.freeLanes q e.phase e.pos with
  | a :: _ :: _ =>
    match (s.rota q).find? fun x => x.flow = e.flow ∧ x.phase = e.phase ∧ x.pos = e.pos with
    | some x => s.setSlot q { x with lanes := x.lanes + 2 ^ a }
    | none => match (List.range 4096).find? fun i => !bit (s.reg (rotaAddr q i)) 63 with
      | some i => s.setSlot q { e with entry := i, lanes := 2 ^ a }
      | none => s.sat Fd.fabStatusLostSlots 1
  | _ => s.sat Fd.fabStatusLostSlots 1

/-- At a boundary: a port that left service gives its reservations to its pair port in service. -/
def State.movePort (s : State) (p : Nat) : State :=
  let x := s.port p
  if !x.moving then s
  else
    let s := s.setPort p { x with moving := false }
    if s.portUp p || !s.portUp (pairOf p) then s
    else (s.rota p).foldl (fun t e =>
      (setBitsOf 8 e.lanes).foldl (fun t _ => t.placeSlot (pairOf p) e) (t.setSlot p { e with lanes := 0 })) s

/-- Directions whose ports are both out of service. -/
def State.deadDirs (s : State) : List Nat :=
  (List.range 8).filter fun k =>
    1 < s.ringSizeOf (k / 2) && !s.portUp (4 * (k / 2) + 2 * (k % 2)) && !s.portUp (4 * (k / 2) + 2 * (k % 2) + 1)

/-- At a boundary: route substitution takes effect for a direction that has lost both ports. -/
def State.substitute (s : State) : State :=
  let cur := s.deadDirs
  let s := if cur.all s.fab.outDirs.contains then s else s.wr Fd.fabStatusSubst 1
  s.setFab { s.fab with outDirs := cur }

/-! ### Lanes (R350, R351) -/

/-- A lane is judged failed: both ends are told, and it is due for removal. -/
def State.laneFail (s : State) (p l cause : Nat) : State :=
  let x := s.port p
  if !s.portUp p || !(s.lanesIn p).contains l || x.removal.any (·.1 = l) then s
  else
    let b := s.bellCount + 5
    (s.setPort p { x with removal := x.removal ++ [(l, cause, b)] }).tellNeighbour p 5
      (ctlBody (toBytes 1 l ++ toBytes 1 1 ++ toBytes 8 b.toNat))

/-- A lane leaves service; with fewer than two lanes left the port does. -/
def State.removeLane (s : State) (p l cause : Nat) : State :=
  let x := s.port p
  let s := s.setPort p { x with removal := x.removal.filter (·.1 ≠ l) }
  let s := ((s.wrBit (Fd.optPortLanesIn p) l false).wrBit (Fd.optPortMarginal p) l false).sat (Fd.optPortErrLaneFails p) 1
  let s := s.record euTransit 0x0504 (uwLane p l) cause (s.bellCount.toNat % 2 ^ 32)
  let s := if (s.lanesIn p).length < 2 then (s.portOut p psDown false).portRecord p
    else ((s.rota p).filter (·.lanes.testBit l)).foldl (fun t e => t.moveLane p l e) (s.portState p psDegraded)
  if s.optRuns 1 p l then s.optDone 0 else s

/-- A lane due for removal is removed once the boundary that the notice named has come; an acquiring module, whose count
means nothing yet, does not wait. -/
def State.removalDue (s : State) (p l : Nat) : State :=
  match (s.port p).removal.find? fun e => e.1 = l with
  | none => s
  | some (_, cause, b) => if s.bellCount.toNat < b.toNat ∧ s.bellState ≠ bsAcquiring then s else s.removeLane p l cause

/-- At a boundary every lane that is due is removed. -/
def State.removalsDue (s : State) : State :=
  eachUpTo 16 (fun s p => (s.port p).removal.foldl (fun t e => t.removalDue p e.1) s) s

/-- LANE_REMOVAL: at the boundary that the notice named, both ends stop using a failed lane (Table 11.8). -/
def execLaneRemoval (port : Fin 16) (lane : Fin 8) (s : State) : Host.Outcome State Fault Refusal :=
  .next (s.removalDue port lane)

/-- LANE_JUDGE: a lane's counts of one Round judge it good, `MARGINAL` or failed (Table 11.7). -/
def execLaneJudge (port : Fin 16) (lane : Fin 8) (corrected uncorrectable : Nat) (s : State) :
    Host.Outcome State Fault Refusal :=
  let p := port.val
  let l := lane.val
  if !s.portUp p || !(s.lanesIn p).contains l then .next s
  else
    let x := s.port p
    let ce := Tab.put (fun _ => 0) x.ce l corrected
    let s := (s.setPort p { x with ce }).wr (Fd.optPortErrCeRound p) ((ce.map (·.2)).sum)
    if 65536 < corrected ∨ 16 ≤ uncorrectable then .next ((s.wrBit (Fd.optPortMarginal p) l false).laneFail p l 2)
    else if 2048 < corrected then
      .next ((s.wrBit (Fd.optPortMarginal p) l true).record euTransit 0x0503 (uwLane p l) corrected 0)
    else .next (s.wrBit (Fd.optPortMarginal p) l false)

/-- LANE_LOSS_OF_SIGNAL: no signal, lost lock or an alignment outside the window fails a lane (Table 11.7). -/
def execLaneLossOfSignal (port : Fin 16) (lane : Fin 8) (s : State) : Host.Outcome State Fault Refusal :=
  .next (s.laneFail port lane 3)

/-- LANE_NOTICE: the far end names a lane to remove at a boundary, or to retrain. The cause is the far end's own
(notes/assumptions/21.md). -/
def execLaneNotice (port : Fin 16) (lane : Fin 8) (action : BitVec 8) (bell : BitVec 64) (s : State) :
    Host.Outcome State Fault Refusal :=
  let x := s.port port
  if !s.portUp port then .next s
  else if action = 1 then
    if !(s.lanesIn port).contains lane.val || x.removal.any (·.1 = lane.val) then .next s
    else .next ((s.setPort port { x with
      removal := x.removal ++ [(lane.val, s.freeWord.toNat % 2 ^ 32, bell)] }).taken)
  else if action = 2 then
    if (s.lanesIn port).contains lane.val then .next s
    else .next (s.setPort port { x with retrain := Nats.ins x.retrain lane.val })
  else .next s

/-- LANE_RETRAIN_DONE: the lane returns at a boundary, or stays removed (R351). -/
def execLaneRetrainDone (port : Fin 16) (lane : Fin 8) (ok : Bool) (s : State) : Host.Outcome State Fault Refusal :=
  let p := port.val
  let l := lane.val
  let x := s.port p
  if !x.retrain.contains l || !s.portUp p then .next s
  else
    let s := s.setPort p { x with retrain := Nats.del x.retrain l }
    let s := if ok then
        let s := s.wrBit (Fd.optPortLanesIn p) l true
        s.portState p (if (s.lanesIn p).length = 8 then psInService else psDegraded)
      else s
    .next (if s.optRuns 2 p l then s.optDone (if ok then 0 else 5) else s)

/-! ### Acquisition (R348, R349, R354, R355) -/

/-- Dark modules seen across a port: one less than the distance of the far device in the direction the port faces. -/
def State.bypassOf (s : State) (p far : Nat) : Nat :=
  let d := dimOf p
  let n := s.ringSizeOf d
  let a := coord s.device d
  let b := coord far d
  (if p % 4 < 2 then b + n - a + n - 1 else a + n - b + n - 1) % n

/-- The identity exchange and the delay measurement of an acquired port; it goes into service, or reads `MISWIRED`. -/
def State.acquire (s : State) (p : Nat) (r : PortTraining) : State :=
  let far := r.farDevice.toNat
  let fw := (Config.farWord far r.farPort.toNat).toNat
  let s := ((s.wr (Fd.optPortFarDevice p) far).wr (Fd.optPortFarPort p) r.farPort.toNat).wr (Fd.optPortRxMin p)
    r.rxMin.toNat
  let s := if s.flag Fd.modStatusReady then s.sat (Fd.optPortRetrains p) 1 else s
  if r.farPort.toNat ≠ partnerOf p then
    (s.portOut p psMiswired false).record euTransit 0x0506 (uwPort p) 1 fw
  else
    let lanes := setBitsOf 8 r.lanes.toNat
    let x := s.port p
    let y : Port := { ctl := x.ctl, ce := x.ce, disable := x.disable }
    let s := s.setPort p (y.requeue x.held)
    let s := { s with bell := { s.bell with heard := Nats.del s.bell.heard p } }
    let inRange := decide (r.roundTrip.toNat ≤ 256000)
    let s := (s.wr (Fd.bellPortDelayRoundTrip p) r.roundTrip.toNat).wr (Fd.bellPortDelayValid p) (b2n inRange)
    let s := if inRange then s else s.record euTransit 0x0506 (uwPort p) 2 fw
    let s := (s.wr (Fd.optPortBypass p) (s.bypassOf p far)).wr (Fd.optPortLanesIn p) r.lanes.toNat
    let s := s.portState p (if lanes.length = 8 then psInService else psDegraded)
    if s.flag Fd.modStatusReady then s.portRecord p else s

/-- `OPT_CMD` `PORT_ENABLE` and `LASER_ENABLE` are done when no port they name trains any longer. -/
def State.trainingOver (s : State) (p : Nat) : State :=
  if s.rd Fd.optCmdState ≠ 1 then s
  else if s.rd Fd.optCmdOp = 4 ∧ s.rd Fd.optCmdPort = p then s.optDone 0
  else if s.rd Fd.optCmdOp = 6 ∧ (List.range 4).all (fun d =>
      s.rd (Fd.optPortState (4 * d + s.rd Fd.optCmdLaser)) ≠ psTraining) then s.optDone 0
  else s

/-- PORT_TRAINING_DONE: a port that trains goes into service with every lane that passed, or reads `DOWN`
(Table 11.6, R349). A port that reads `DOWN` retrains of itself (R351). -/
def execPortTrainingDone (port : Fin 16) (r : PortTraining) (s : State) : Host.Outcome State Fault Refusal :=
  let p := port.val
  let d := dimOf p
  let st := s.rd (Fd.optPortState p)
  let still := s.rdBit Fd.optStileThrough d && !s.rdBit Fd.optStileMoving d
  if (st ≠ psTraining ∧ st ≠ psDown) ∨ s.ringSizeOf d ≤ 1 ∨ !s.lit (laserOf p) ∨ s.rdBit Fd.optStileForceThrough d ∨
      (s.port p).dark ∨ still then .next s
  else
    let s := (s.wrBit Fd.optStileThrough d false).wrBit Fd.optStileMoving d false
    let s := if r.acquired ∧ 2 ≤ popCount 8 r.lanes.toNat then s.acquire p r
      else ((s.portOut p psDown false).wr (Fd.optPortRxMin p) r.rxMin.toNat).portRecord p
    .next (s.trainingOver p)

/-- PORT_BUFFER_STALL: a port whose retry buffer stays full leaves service and trains from step 4 (R371). -/
def execPortBufferStall (port : Fin 16) (s : State) : Host.Outcome State Fault Refusal :=
  if !s.portUp port || (s.port port).retry.length < 4800 then .next s
  else .next ((s.portOut port psTraining false).portRecord port)

/-- NEIGHBOUR_LOSS_OF_SIGNAL: a port whose neighbour went dark leaves service to acquire the module beyond it. It keeps
its flits (R354, R371). -/
def execNeighbourLossOfSignal (port : Fin 16) (s : State) : Host.Outcome State Fault Refusal :=
  if !s.portUp port then .next s else .next ((s.portOut port psTraining true).portRecord port)

/-- NEIGHBOUR_REACQUIRE: the port acquires the far module across the bypass and returns to service (Table 11.10,
R355). -/
def execNeighbourReacquire (port : Fin 16) (r : PortTraining) (s : State) : Host.Outcome State Fault Refusal :=
  let p := port.val
  if (!(s.port p).dark && s.rd (Fd.optPortState p) ≠ psBroken) || !r.acquired || popCount 8 r.lanes.toNat < 2 then .next s
  else .next (s.acquire p r)

/-- PORT_BROKEN: no acquisition within 1 ms: the port reads `BROKEN`, and every port in service sends a fault notice
(R355). The notice's kind byte is not given (notes/assumptions/22.md). -/
def execPortBroken (port : Fin 16) (s : State) : Host.Outcome State Fault Refusal :=
  let p := port.val
  if !(s.port p).dark || s.rd (Fd.optPortState p) = psBroken then .next s
  else
    let far := s.rd (Fd.optPortFarDevice p)
    let kind := s.freeWord.toNat % 256
    let s := ((s.taken.portOut p psBroken true).wr (Fd.optPortRxMin p) 0x80).portRecord p
    let body := ctlBody (toBytes 1 (dimOf p) ++ toBytes 1 p ++ toBytes 2 far ++ toBytes 1 kind)
    .next (eachUpTo 16 (fun s q => if s.portUp q then s.tellNeighbour q 6 body else s) s)

/-! ### Laser sources (R345) -/

/-- LASER_POLL: a source is classified by its outputs, and lanes of a failed output fail (Table 11.4). -/
def execLaserPoll (src : Fin 4) (r : LaserReading) (s : State) : Host.Outcome State Fault Refusal :=
  let m := src.val
  let st := s.rd (Fd.optLaserState m)
  if st = lsAbsent ∨ st = lsDisabled then .next s
  else
    let drop (w : Nat) : Nat := r.drops.getD w 0
    let bad (w : Nat) : Bool := 30 ≤ drop w || r.belowMin.getLsbD w
    let ok := (List.range 8).filter fun w => drop w ≤ 10
    let low := (List.range 8).filter fun w => 10 < drop w || bad w
    let s := (((s.wr (Fd.optLaserOutOk m) (ofBits ok)).wr (Fd.optLaserOutLow m) (ofBits low)).wr (Fd.optLaserTemp m)
      r.temp.toNat).wr (Fd.optLaserMinPower m) r.minPower.toNat
    let failed := (List.range 8).filter bad
    let st' := if r.faulty then lsFault else if failed ≠ [] then lsFailed else if low ≠ [] then lsLow else lsOn
    let s := s.laserState m st'
    if st' = lsFault then .next (s.sourceOut m psDown)
    else .next (failed.foldl (fun t w => eachUpTo 4 (fun t d => t.laneFail (4 * d + m) w 4) t) s)

/-- LASER_PRESENCE_CHANGE: an unplugged source leaves service and reads `ABSENT`; one that is plugged in is held
`DISABLED` until it is enabled (R345). -/
def execLaserPresenceChange (src : Fin 4) (present : Bool) (s : State) : Host.Outcome State Fault Refusal :=
  let m := src.val
  if present then
    .next (if s.rd (Fd.optLaserState m) = lsAbsent then s.laserState m lsDisabled else s)
  else
    let s := ((s.laserState m lsAbsent).wr (Fd.optLaserOutOk m) 0).wr (Fd.optLaserOutLow m) 0
    .next (s.sourceOut m psDisabled)

/-! ### Commands of `OPT_CMD` (Table 11.16) -/

/-- REMOVE_LANE: refused for a port out of service, or when fewer than two lanes would stay. -/
def execOptRemoveLane (port : Fin 16) (lane : Fin 8) (s : State) : Host.Outcome State Fault Refusal :=
  let left := (s.lanesIn port).filter fun l => l ≠ lane.val ∧ !(s.port port).removal.any (·.1 = l)
  let no := if !s.portUp port || !(s.lanesIn port).contains lane.val then 4 else if left.length < 2 then 3 else 0
  .next (s.optGo 1 (some port.val) (some lane.val) none no fun s => s.laneFail port lane 4)

/-- RETRAIN_LANE: the far end is told, and the lane retrains at both ends (R351). -/
def execOptRetrainLane (port : Fin 16) (lane : Fin 8) (s : State) : Host.Outcome State Fault Refusal :=
  let p := port.val
  .next (s.optGo 2 (some p) (some lane.val) none (if s.portUp p then 0 else 4) fun s =>
    if (s.lanesIn p).contains lane.val then s.optDone 0
    else
      let x := s.port p
      (s.setPort p { x with retrain := Nats.ins x.retrain lane.val }).tellNeighbour p 5
        (ctlBody (toBytes 1 lane.val ++ toBytes 1 2 ++ toBytes 8 (s.bellCount + 5).toNat)))

/-- PORT_DISABLE: at the 8th boundary the port leaves service; the far end is told by a release notice
(notes/assumptions/23.md). -/
def execOptPortDisable (port : Fin 16) (s : State) : Host.Outcome State Fault Refusal :=
  .next (s.optGo 3 (some port.val) none none 0 fun s =>
    (s.setPort port { s.port port with disable := some 8 }).tellNeighbour port 8
      (ctlBody (toBytes 1 (dimOf port) ++ zeros 1 ++ toBytes 8 (s.bellCount + 8).toNat)))

/-- PORT_ENABLE: the port trains from step 4; one whose source is dark or whose dimension has one module cannot
(notes/assumptions/24.md). -/
def execOptPortEnable (port : Fin 16) (s : State) : Host.Outcome State Fault Refusal :=
  let p := port.val
  let no := if s.ringSizeOf (dimOf p) ≤ 1 || !s.lit (laserOf p) || s.rdBit Fd.optStileForceThrough (dimOf p) then 4 else 0
  .next (s.optGo 4 (some p) none none no fun s => (s.setPort p { s.port p with dark := false, disable := none }).trainPort p)

/-- LASER_DISABLE: the source is disabled at the 8th boundary. -/
def execOptLaserDisable (src : Fin 4) (s : State) : Host.Outcome State Fault Refusal :=
  .next (s.optGo 5 none none (some src.val) 0 fun s => s.setFab { s.fab with lasers := Tab.put (fun _ => 0) s.fab.lasers src 8 })

/-- LASER_ENABLE: the source is enabled and its ports train; an absent source cannot be enabled. -/
def execOptLaserEnable (src : Fin 4) (s : State) : Host.Outcome State Fault Refusal :=
  let m := src.val
  .next (s.optGo 6 none none (some m) (if s.rd (Fd.optLaserState m) = lsAbsent then 4 else 0) fun s =>
    let s := s.setFab { s.fab with lasers := Tab.del s.fab.lasers m }
    let s := eachUpTo 4 (fun s d => s.trainPort (4 * d + m)) (s.laserState m lsOn)
    s.trainingOver 16)

/-- At a boundary: commanded disables count down and take effect at their 8th (R358). -/
def State.disables (s : State) : State :=
  let s := eachUpTo 16 (fun s p => match (s.port p).disable with
    | none => s
    | some k =>
      if 1 < k then s.setPort p { s.port p with disable := some (k - 1) }
      else
        let s := (s.setPort p { s.port p with disable := none }).portOut p psDisabled false
        let s := s.portRecord p
        if s.rd Fd.optCmdOp = 3 ∧ s.rd Fd.optCmdPort = p then s.optDone 0 else s) s
  eachUpTo 4 (fun s m =>
    let k := Tab.get (fun _ => 0) s.fab.lasers m
    if k = 0 then s
    else
      let s := s.setFab { s.fab with lasers := Tab.put (fun _ => 0) s.fab.lasers m (k - 1) }
      if 1 < k then s
      else
        let s := if s.rd (Fd.optLaserState m) = lsAbsent then s else (s.laserState m lsDisabled).sourceOut m psDisabled
        if s.rd Fd.optCmdOp = 5 ∧ s.rd Fd.optCmdLaser = m then s.optDone 0 else s) s

/-! ### Stiles (R352 to R357) -/

/-- At a boundary: a Stile that switches arrives (notes/assumptions/25.md). -/
def State.stilesArrive (s : State) : State :=
  let m := s.rd Fd.optStileMoving
  (setBitsOf 4 m).foldl (fun t d => t.wrBit Fd.optStileThrough d (!t.rdBit Fd.optStileThrough d))
    (s.wr Fd.optStileMoving 0)

/-- A change of `FORCE_THROUGH` takes effect (R357): ports of a dimension forced through leave service, those of a
dimension released train. -/
def State.forceThrough (s : State) (old : Nat) : State :=
  eachUpTo 4 (fun s d =>
    let now := s.rdBit Fd.optStileForceThrough d
    if now = old.testBit d then s
    else
      let s := if s.rdBit Fd.optStileThrough d = now then s else s.wrBit Fd.optStileMoving d true
      eachUpTo 4 (fun s k =>
        let p := 4 * d + k
        if now then
          let up := s.portUp p
          let s := s.portOut p psDown false
          if up then s.portRecord p else s
        else (s.setPort p { s.port p with dark := false }).trainPort p) s) s

/-- A release of a dimension's Stile named ahead is told to the neighbours (R354, Table 12.3). -/
def State.tellRelease (s : State) (d : Nat) (bell : Nat) : State :=
  eachUpTo 4 (fun s k => if s.portUp (4 * d + k) then
    s.tellNeighbour (4 * d + k) 8 (ctlBody (toBytes 1 d ++ zeros 1 ++ toBytes 8 bell)) else s) s

/-! ### Notices received -/

/-- FAULT_NOTICE: a fault notice is recorded (R355, R389). -/
def execFaultNotice (port : Fin 16) (dim farPort : BitVec 8) (lastFar : BitVec 14) (kind : BitVec 8) (s : State) :
    Host.Outcome State Fault Refusal :=
  let body := ctlBody (toBytes 1 dim.toNat ++ toBytes 1 farPort.toNat ++ toBytes 2 lastFar.toNat ++ toBytes 1 kind.toNat)
  if !s.portUp port then .next s
  else match s.hear port { kind := 6, routed := false, dest := 0, src := 0, body } with
    | none => .next s
    | some s => .next (s.record euTransit 0x0507 (uwPort port) (dim.toNat + 256 * farPort.toNat) lastFar.toNat)

/-- RELEASE_NOTICE: new traffic for the port is held from the boundary named (R354). -/
def execReleaseNotice (port : Fin 16) (_dim : Fin 4) (bell : BitVec 64) (s : State) :
    Host.Outcome State Fault Refusal :=
  if !s.portUp port then .next s else .next (s.setPort port { s.port port with hold := some bell })

end Sys2Proof.Machine
end

