-- ==== Sys2Proof/Machine/Gate.lean ====
section
/-! DEFINITION. Machine/Gate.lean: staging and the gate (R14 to R22), the consistency rules of each block and what a
commit of each sets off; and the lock state's own change, which a role commit makes (R53, R58, R66). -/
namespace Sys2Proof.Machine

/-! ### Lock state changes (R53, R58) -/

def State.setBellLogic (s : State) (b : BellLogic) : State := { s with bell := b }

/-- Change the lock state, with its record, its interrupt, `SCHED_OK` and the frame that tells the sites (R442). -/
def State.setLock (s : State) (new : Nat) : State :=
  let old := s.bellState
  if old = new then s
  else
    let s := (s.wr Fd.bellStatusState new).irq 39
    let s := s.record euTransit 0x0501 (uwPort (s.rd Fd.bellStatusSource)) (old + 16 * new) (s.bellCount.toNat % 2 ^ 32)
    let b := s.bell
    let keeps := (old = bsLocked || old = bsHoldover) && (new = bsLocked || new = bsHoldover)
    let stable := if keeps then b.stable else 0
    let s := s.setBellLogic { b with held := 0, stable }
    let s := if new = bsBellwether then s.wr Fd.bellStatusSchedOk 1
      else if new = bsHoldover then s.sat Fd.bellStatusLost 1
      else if new = bsLocked then s.wr Fd.bellStatusSchedOk (b2n (decide (65536 ≤ stable)))
      else s.wr Fd.bellStatusSchedOk 0
    s.bellFrames

/-- Become the Bellwether: it originates Bells and names itself (R46, R52). -/
def State.becomeBellwether (s : State) : State :=
  ((s.setLock bsBellwether).wr Fd.bellStatusHops 0).wr Fd.bellStatusBellwether s.device

/-! ### Consistency rules -/

/-- Valid staged Rota entries of a port. -/
def State.rotaS (s : State) (p : Nat) : List Slot := slotsIn s.staged p

/-- Rules 1 and 2 of R375 for one port. -/
def State.rotaBad (s : State) (p : Nat) : Bool :=
  let period := 2 ^ s.rdS Fd.fabSchedPeriodLog2
  let es := s.rotaS p
  es.any (fun e => e.pos = 0 || period ≤ e.phase || e.lanes = 0 || e.flow = 0) ||
    es.any fun e =>
      let same := es.filter fun x => x.phase = e.phase ∧ x.pos = e.pos
      same.any (fun x => x.entry ≠ e.entry && x.lanes &&& e.lanes ≠ 0) ||
        6 < popCount 8 (same.foldl (fun v x => v ||| x.lanes) 0)

/-- Enabled staged outbound and inbound streams. -/
def State.outS (s : State) : List Nat := (List.range 256).filter fun n => s.rdS (Fd.osEn n) = 1
def State.inS (s : State) : List Nat := (List.range 256).filter fun n => s.rdS (Fd.isEn n) = 1

/-- Whether the staged fabric configuration breaks a rule of R375. -/
def State.fabricBad (s : State) : Bool :=
  let ports := List.range 16
  let outs := s.outS
  let ins := s.inS
  ports.any s.rotaBad ||
    ports.any (fun p => (s.rotaS p).any fun e => ports.any fun q => q ≠ p && (s.rotaS q).any (·.flow = e.flow)) ||
    outs.any (fun n => s.rdS (Fd.osTen n) = 0 || s.rdS (Fd.osUnits n) = 0 || s.rdS (Fd.osDest n) = s.device ||
      !s.inGeometry (s.rdS (Fd.osDest n)) || !(s.rotaS (s.rdS (Fd.osPort n))).any (·.flow = s.rdS (Fd.osFlow n))) ||
    outs.any (fun n => outs.any fun m => n ≠ m && s.rdS (Fd.osFlow n) = s.rdS (Fd.osFlow m)) ||
    ins.any (fun n => ins.any fun m => n ≠ m && s.rdS (Fd.isSource n) = s.rdS (Fd.isSource m) &&
      s.rdS (Fd.isFlow n) = s.rdS (Fd.isFlow m)) ||
    (List.range 8).any (fun k => 3072 <
      ((ins.filter fun n => (s.rdS (Fd.isStacks n)).testBit k).map fun n => s.rdS (Fd.isUnits n)).sum +
      ((outs.filter fun n => (s.rdS (Fd.osLstacks n)).testBit k).map fun n => s.rdS (Fd.osUnits n)).sum) ||
    (s.staged.filter fun e => (Fd.route 0).addr ≤ e.1 && e.1 ≤ (Fd.route 16383).addr).any (fun e =>
      (List.range 8).any fun i => bit e.2 (8 * i + 7) && s.ringSizeOf (bits e.2 (8 * i + 6) (8 * i + 5)) ≤ 1) ||
    (s.rdS Fd.fabSchedEn = 1 && ports.all fun p => (s.rotaS p).isEmpty)

/-- Whether a staged group is inconsistent (R406). -/
def State.groupBad (s : State) (n : Nat) : Bool :=
  let line := s.rdS (Fd.musterLineLine n)
  s.rdS (Fd.musterCfgEn n) = 1 &&
    (s.rdS (Fd.musterCfgStep n) = 0 || s.rdS (Fd.musterCfgTen n) = 0 || line = 0 || !isLocalMem (128 * line) ||
      16 < s.rdS (Fd.musterLineDown n) || 6 < s.rdS (Fd.musterLineLocal n) ||
      (s.rdS (Fd.musterCfgRoot n) = 0 && !s.inGeometry (s.rdS (Fd.musterCfgUpDevice n))))

/-- Whether an address lies in a reserve stripe that is on (R304). -/
def State.stripeOn (s : State) (a : Nat) : Bool := isStack a && s.flag (Fd.dramStackStatusStripeOn (a / 2 ^ 36)) && inStripe a

/-- Whether a Paddock's staged context is inconsistent (R315). -/
def State.ctxBad (s : State) (k : Nat) : Bool :=
  let en := s.rdS (Fd.xlatCtxEn k) = 1
  let ten := s.rdS (Fd.xlatCtxTenancy k)
  let root := s.rdS (Fd.xlatCtxRoot k)
  (en && ten = 0) || (en && (!isStack (4096 * root) || s.stripeOn (4096 * root))) ||
    (List.range 4).any (fun j => j ≠ k && s.flag (Fd.xlatCtxEn j) && s.rd (Fd.xlatCtxTenancy j) = ten &&
      s.rd (Fd.xlatCtxRoot j) ≠ root) ||
    (List.range 256).any fun i => (s.strand (32 * k + i / 8) (i % 8)).phase ≠ phIdle

/-- Whether a site's staged Hurdle is inconsistent (R429, R432). Windows are in units of 64 KiB. -/
def State.hurdleBad (s : State) (k : Nat) : Bool :=
  (List.range 32).any (fun n =>
    let lo := 65536 * s.rdS (Fd.hurdleWinBase k n)
    let hi := 65536 * s.rdS (Fd.hurdleLimLimit k n) + 65535
    let acc := s.rdS (Fd.hurdleWinAcc k n)
    s.rdS (Fd.hurdleWinEn k n) = 1 &&
      (s.rdS (Fd.hurdleLimLimit k n) < s.rdS (Fd.hurdleWinBase k n) || 0xB < acc ||
        (s.rdS (Fd.hurdleWinAccum k n) = 1 && acc = 0) || s.rdS (Fd.hurdleWinTen k n) = 0 ||
        !((isStack lo && isStack hi) || (isScratch lo && isScratch hi)) ||
        (List.range 8).any fun j => s.flag (Fd.dramStackStatusStripeOn j) && lo < 2 ^ 36 * (j + 1) &&
          2 ^ 36 * j + 0xFC0000000 ≤ hi)) ||
    (s.rdS (Fd.hurdleDbEn k) = 1 && (s.rdS (Fd.hurdleDbTen k) = 0 || s.rdS (Fd.hurdleDbHi k) < s.rdS (Fd.hurdleDbLo k)))

/-- Whether the staged copy of a block instance breaks a rule of the block. -/
def State.gateBad (s : State) (kind i : Nat) : Bool :=
  match kind with
  | 0x0011 => s.rdS Fd.bellCfgRole = 3 || s.rdS Fd.bellCfgTakeover = 0
  | 0x0012 => (s.rdS Fd.optStileForceThrough ^^^ s.rd Fd.optStileForceThrough) &&& s.rd Fd.optStileMoving ≠ 0
  | 0x0013 => s.fabricBad
  | 0x0014 => (List.range 64).any s.groupBad
  | 0x0031 => s.wayCfgBad i
  | 0x0032 => s.xl.shoot.isSome
  | 0x0033 => s.ctxBad i
  | 0x0034 => s.hurdleBad i
  | _ => false

/-! ### Applying a commit (R16) -/

/-- Whether an address belongs to the block instance at a base: the fabric block's gate serves the fabric tables too
(R375, R597). -/
def inGate (base a : Nat) : Bool :=
  (base ≤ a && a < base + 0x1000) ||
    (base = fabricBlk.base && fabtableBlk.base ≤ a && a < fabtableBlk.base + 0x1000 * fabtableBlk.instances)

/-- ST bits of the register at an address. -/
def stMask (a : Nat) : Word := ((regSpec a).map (·.st)).getD 0

/-- Registers of a block instance whose active or staged value is not its reset value. -/
def State.gateKeys (s : State) (base : Nat) : List Nat :=
  ((s.regs.map (·.1)) ++ (s.staged.map (·.1))).filter (inGate base)

/-- Every ST field of a block takes its staged value; other fields keep theirs. -/
def State.applyStaged (s : State) (base : Nat) : State :=
  (s.gateKeys base).foldl (fun t a => t.setReg a ((t.reg a &&& ~~~stMask a) ||| (t.stg a &&& stMask a))) s

/-- Every ST field's staging copy takes the active value. -/
def State.unstage (s : State) (base : Nat) : State :=
  (s.gateKeys base).foldl (fun t a => t.setStg a ((t.stg a &&& ~~~stMask a) ||| (t.reg a &&& stMask a))) s

/-- Remove a context's entries from every buffer (R315, R321, R335). -/
def State.dropContext (s : State) (k : Nat) : State :=
  let f (t : List (Nat × List XlEntry)) : List (Nat × List XlEntry) :=
    Tab.mapv (fun _ => []) (fun _ l => l.filter fun e => e.paddock ≠ k) t
  s.setXl { s.xl with l1 := f s.xl.l1, l2 := f s.xl.l2, shadow := f s.xl.shadow, inbound := f s.xl.inbound }

/-- The flip of a Pen's second level (R322). -/
def State.flipL2 (s : State) (p : Nat) : State :=
  let s := (s.setL2 p (s.shadowXl p)).setShadow p []
  eachUpTo 8 (fun t k => t.setL1 (8 * p + k) []) s

/-- Groups after a commit: one that the commit changed counts its firings anew; one not enabled holds nothing (R406,
Table 13.9). `old` is the register file before. -/
def State.groupsCommitted (s old : State) : State :=
  eachUpTo 64 (fun s n =>
    let a := (Fd.musterCfgEn n).addr
    let changed := s.reg a ≠ old.reg a || s.reg (a + 8) ≠ old.reg (a + 8) || s.rd (Fd.musterStatTarget n) ≠ old.rd (Fd.musterStatTarget n)
    let s := if changed then s.wr (Fd.musterStatGen n) 0 else s
    if s.flag (Fd.musterCfgEn n) then s
    else
      let s := if (s.group n).force then ((s.wr Fd.musterCmdState 3).wr Fd.musterCmdResult 3).irq 42 else s
      s.setGroup n {}) s

/-- What a commit of a block sets off once its values are active. A standby that has taken over and is made follower stays
`BELLWETHER`: it never had the role it would leave (DESIGN CHOICE, notes/assumptions/137.md). -/
def State.committed (s old : State) (kind i : Nat) : State :=
  match kind with
  | 0x0002 => if s.flag Fd.logClear then s.clearLog else s
  | 0x0011 =>
    let was := old.rd Fd.bellCfgRole
    let now := s.rd Fd.bellCfgRole
    if now = 1 ∧ was ≠ 1 then s.becomeBellwether
    else if was = 1 ∧ now ≠ 1 then s.setLock bsHoldover else s
  | 0x0012 => s.forceThrough (old.rd Fd.optStileForceThrough)
  | 0x0013 => (((s.setFab { s.fab with outDirs := [] }).wr Fd.fabStatusSubst 0).wr Fd.fabStatusLostSlots 0).irq 41
  | 0x0014 => s.groupsCommitted old
  | 0x0031 => s.wayCfgApplied i (old.rd (Fd.foldWaycfgScratch i)) (old.flag (Fd.foldWaycfgCacheOff i))
  | 0x0032 => s.flipL2 i
  | 0x0033 => s.dropContext i
  | _ => s

/-- A commit applies: every staged field together, `STATE` `DONE` and `COUNT` one more (R16 to R18). -/
def State.applyGate (s : State) (kind i base : Nat) : State :=
  ((((s.applyStaged base).committed s kind i).wr (Fd.gateState base) 2).inc (Fd.gateCount base) 1)

/-- A refusal: `REASON`, and `STATE` `REFUSED` unless a commit stays armed (R16, R19; notes/assumptions/27.md). -/
def State.refuseGate (s : State) (kind base reason : Nat) : State :=
  let s := s.wr (Fd.gateReason base) reason
  if s.rd (Fd.gateState base) = 1 then s
  else
    let s := s.wr (Fd.gateState base) 3
    if kind = 0x0013 then s.irq 41 else s

/-- `COMMIT` on a block instance with `MODE` as its register holds it (R16 to R21). -/
def State.commitGate (s : State) (b : Blk) (i : Nat) (crook : Bool) : State :=
  let base := b.base + 0x1000 * i
  let target := s.rd (Fd.gateBell base)
  let now := s.bellCount.toNat
  let at_ := s.flag (Fd.gateMode base)
  if b.signed && !crook then s.refuseGate b.kind base 8
  else if s.rd (Fd.gateState base) = 1 then s.refuseGate b.kind base 7
  else if at_ && !s.bellCounts then s.refuseGate b.kind base 4
  else if at_ && target < now + 2 then s.refuseGate b.kind base 2
  else if at_ && now + 1048576 < target then s.refuseGate b.kind base 3
  else if s.gateBad b.kind i then s.refuseGate b.kind base 1
  else if at_ then
    let s := s.wr (Fd.gateState base) 1
    if b.kind = 0x0012 then
      (setBitsOf 4 (s.rdS Fd.optStileForceThrough)).foldl (fun t d =>
        if t.rdBit Fd.optStileForceThrough d then t else t.tellRelease d target) s
    else s
  else s.applyGate b.kind i base

/-- Cancel an armed commit (R20). -/
def State.cancelGate (s : State) (base reason : Nat) : State :=
  (s.wr (Fd.gateState base) 3).wr (Fd.gateReason base) reason

/-- `ABORT`: staging takes the active values; an armed commit is cancelled (R15, R20). -/
def State.abortGate (s : State) (b : Blk) (i : Nat) : State :=
  let base := b.base + 0x1000 * i
  let s := s.unstage base
  if s.rd (Fd.gateState base) = 1 then
    let s := s.cancelGate base 6
    if b.kind = 0x0013 then s.irq 41 else s
  else s

/-- Block instances with a gate: their row and instance. -/
def gates : List (Blk × Nat) :=
  (blocks.filter (·.gate)).flatMap fun b => (List.range b.instances).map fun i => (b, i)

/-- Cancel every armed commit, on entry to `UNLOCKED` (R20). -/
def State.cancelGates (s : State) : State :=
  gates.foldl (fun t g =>
    let base := g.1.base + 0x1000 * g.2
    if t.rd (Fd.gateState base) = 1 then
      let t := t.cancelGate base 4
      if g.1.kind = 0x0013 then t.irq 41 else t
    else t) s

/-- Write the RW and W1C fields of `GATE_CTL` (Table 0.4). -/
def State.writeGateCtl (s : State) (base : Nat) (val : Word) : State :=
  let s := (s.wr (Fd.gateMode base) (bits val 61 61)).wr (Fd.gateView base) (bits val 60 60)
  if bit val 47 then s.wr (Fd.gateBlocked base) 0 else s

/-- Whether a requester may not reach a gate: the module is unpowered, its block is powered down, or Crook has staged
fields there and not yet committed (R591). -/
def State.gateShut (s : State) (who : Master) (base : Nat) : Bool :=
  !s.reaches base || (s.crook.staging.contains base && who ≠ .crook)

/-- A write of `GATE_CTL` with `COMMIT`, with `ABORT`, or with both, which acts as `ABORT` (R15). -/
def State.gateCtl (s : State) (who : Master) (b : Blk) (i : Nat) (val : Word) (commit abort : Bool) : State :=
  let base := b.base + 0x1000 * i
  if s.gateShut who base then s
  else
    let s := s.writeGateCtl base val
    let s := if who = .crook then { s with crook := { s.crook with staging := Nats.del s.crook.staging base } } else s
    if abort then s.abortGate b i else if commit then s.commitGate b i (decide (who = .crook)) else s

/-- The gate of the block instance an address names, if it has one. -/
def gateAt (a : Nat) : Option (Blk × Nat) :=
  match findBlk a with
  | some (b, i) => if b.gate then some (b, i) else none
  | none => none

/-- COMMIT: a write of `GATE_CTL` with `COMMIT` 1. -/
def execCommit (who : Master) (block val : BitVec 64) (s : State) : Host.Outcome State Fault Refusal :=
  match gateAt block.toNat with
  | none => .next s
  | some (b, i) => .next (s.gateCtl who b i val true (bit val 62))

/-- ABORT: a write of `GATE_CTL` with `ABORT` 1. -/
def execAbort (who : Master) (block val : BitVec 64) (s : State) : Host.Outcome State Fault Refusal :=
  match gateAt block.toNat with
  | none => .next s
  | some (b, i) => .next (s.gateCtl who b i val (bit val 63) true)

/-- A block instance's armed commit applies once its target Bell has come. -/
def State.commitDue (s : State) (b : Blk) (i : Nat) : State :=
  let base := b.base + 0x1000 * i
  if s.rd (Fd.gateState base) ≠ 1 ∨ s.bellCount.toNat < s.rd (Fd.gateBell base) then s else s.applyGate b.kind i base

/-- At a boundary every armed commit that is due applies (R18, R61). -/
def State.commitsDue (s : State) : State := gates.foldl (fun t g => t.commitDue g.1 g.2) s

/-- GATE_APPLY_AT_BELL: an armed commit applies at the boundary of its target Bell (R18). -/
def execGateApplyAtBell (block : BitVec 64) (s : State) : Host.Outcome State Fault Refusal :=
  match gateAt block.toNat with
  | none => .next s
  | some (b, i) => .next (s.commitDue b i)

end Sys2Proof.Machine
end

