-- ==== Sys2Proof/Machine/Xfer.lean ====
section
/-! DEFINITION. Machine/Xfer.lean: transfer descriptors, their issue checks and their chunks (R125 to R131, R144 to
R166, R175 to R178, R197, R620). -/
namespace Sys2Proof.Machine

/-! ### Fields (Table 4.10 to Table 4.14) -/

/-- Source and destination formats, and bytes of an index. -/
def dSf (d : Desc) : Fmt := fmtOf (dSfmt d)
def dDf (d : Desc) : Fmt := fmtOf (dDfmt d)
def dIdx (d : Desc) : Nat := if dIdx64 d then 8 else 4

/-- A value of w bits as a signed distance. -/
def signedOf (w v : Nat) : Int := (BitVec.ofNat w v).toInt

/-- The five sizes and the five signed strides of each side of a `MOVE` (R129, R150). -/
def moveSizes (d e : Desc) : List Nat :=
  if dExt d then [dP0 d, dP1 d, descAt e 0x00 4, descAt e 0x04 4, descAt e 0x08 4] else [dP0 d, dP1 d, 1, 1, 1]
def moveSstr (d e : Desc) : List Int :=
  [signedOf 32 (dP2 d), signedOf 64 (dP4 d)] ++
    if dExt d then [signedOf 64 (descAt e 0x10 8), signedOf 64 (descAt e 0x20 8), signedOf 64 (descAt e 0x30 8)]
    else [0, 0, 0]
def moveDstr (d e : Desc) : List Int :=
  [signedOf 32 (dP3 d), signedOf 64 (dP5 d)] ++
    if dExt d then [signedOf 64 (descAt e 0x18 8), signedOf 64 (descAt e 0x28 8), signedOf 64 (descAt e 0x38 8)]
    else [0, 0, 0]

/-- Product of a list. -/
def prodOf (l : List Nat) : Nat := l.foldl (· * ·) 1

/-- Quotient rounded up. -/
def ceilDiv (a b : Nat) : Nat := (a + b - 1) / b

/-- Bytes of the block area of an MX format, and of a packed row of n elements (R202). -/
def mxArea : Fmt → Nat
  | .mx _ _ _ a => a
  | _ => 0
def mxHead (n : Nat) : Nat := 32 * ceilDiv (n / 32) 32
def rowBytes (f : Fmt) (n : Nat) : Nat := if f.isMx then mxHead n + n / 32 * mxArea f else n * f.size

/-! ### Issue checks (R129, R130, R147, R151 to R160, R176, R177, R185, R194, R197) -/

/-- Formats a transfer's `ACC` admits at its destination (Table 8.3). -/
def accFmtOk (acc dfmt : Nat) : Bool :=
  if acc = 0 then true
  else if acc ≤ 3 then [0x02, 0x06, 0x03, 0x07, 0x08, 0x09, 0x0A, 0x0B, 0x0C, 0x0D].contains dfmt
  else [0x06, 0x0A, 0x0B, 0x0C, 0x0D, 0x10, 0x11, 0x12, 0x13, 0x14, 0x15].contains dfmt

def isFltFmt (code : Nat) : Bool := 0x08 ≤ code && code ≤ 0x0D
def keyFmt (code : Nat) : Bool := code = 0x02 || code = 0x03 || code = 0x06 || code = 0x07

/-- Row bytes b of Table 5.4 and Table 6.3: `ROWLEN` × e for the movement kinds, the packed row for the others. -/
def destRow (d : Desc) : Nat :=
  if dKind d = 7 ∨ dKind d = 8 then rowBytes (dDf d) (dP0 d) else dP0 d * (dDf d).size

/-- Whether a `MOVE` keeps R129, R151 and R153. -/
def moveOk (dn : Nat) (d e : Desc) : Bool :=
  let n := dDims d
  let sz := moveSizes d e
  let ss := moveSstr d e
  let ds := moveDstr d e
  1 ≤ n && n ≤ 5 && dExt d == decide (3 ≤ n) && (!dExt d || (dn ≤ 14 && descAt e 0x0C 4 = 0xB0000000)) &&
    sz.all (· ≠ 0) &&
    (List.range 5).all (fun i => i < n || (sz.getD i 0 = 1 && ss.getD i 0 = 0 && ds.getD i 0 = 0)) &&
    (!(dSf d).isMx || (dP0 d % 32 = 0 && ss.getD 0 0 = 0)) && (!(dDf d).isMx || (dP0 d % 32 = 0 && ds.getD 0 0 = 0))

/-- Bytes of a transfer's destination stream. -/
def destStream (c : OpCode) (d e : Desc) : Nat :=
  match c with
  | .move => prodOf (moveSizes d e) * (dDf d).size
  | .compact => dP0 d * (dDf d).size
  | .isect => min (dP0 d) (dP1 d) * (dDf d).size
  | .union => (dP0 d + dP1 d) * (dDf d).size
  | .merge => (dP0 d + dP1 d) * (dDf d).size
  | .ebag => destRow d
  | .hist => 8 * (dP1 d + 1)
  | .topk => dP1 d * (dDf d).size
  | _ => dP1 d * destRow d

/-- Fields of a set operation (Table 4.13, Table 6.2, R185). -/
def setOk (d : Desc) : Bool :=
  dP2 d = 0 && dP3 d = 0 && dP5 d ≠ 0 && keyFmt (dSfmt d) && dDfmt d = dSfmt d && !dIdx64 d && dAcc d = 0

/-- Whether a descriptor keeps the rules of its kind that end in `BAD_DESC`; `gx`, the operation code. -/
def kindOk (c : OpCode) (gx dn : Nat) (d e : Desc) : Bool :=
  let sf := dSf d
  let df := dDf d
  let mxRow := (!sf.isMx && !df.isMx) || dP0 d % 32 = 0
  match c with
  | .move => moveOk dn d e
  | .gather => dP0 d ≠ 0 && dP1 d ≠ 0 && dP5 d = 0 && mxRow
  | .scatter => dP0 d ≠ 0 && dP1 d ≠ 0 && dP5 d = 0 && mxRow
  | .graze => dP0 d ≠ 0 && dP1 d ≠ 0 && dP5 d = 0 && !sf.isMx && !df.isMx && dP0 d * sf.size = 32
  | .compact => dP0 d ≠ 0 && dP1 d = 0 && dP2 d = 0 && dP3 d = 0 && !sf.isMx && !df.isMx && dAcc d = 0
  | .isect => setOk d
  | .union => setOk d
  | .merge => setOk d
  | .segred => dP0 d ≠ 0 && dP1 d ≠ 0 && dP5 d = 0 && mxRow && (gx ≠ 3 || isFltFmt (dSfmt d) || sf.isMx)
  | .ebag =>
    dP0 d ≠ 0 && dP1 d ≠ 0 && dP3 d ≤ 2 && mxRow && ((0x09 ≤ dSfmt d && isFltFmt (dSfmt d)) || sf.isMx) &&
      (isFltFmt (dDfmt d) || df.isMx)
  | .hist =>
    dP0 d ≠ 0 && dP1 d ≠ 0 && dP2 d < 64 && dP3 d = 0 && dP5 d = 0 && keyFmt (dSfmt d) && dDfmt d = 0x03 &&
      !dIdx64 d && dAcc d = 0
  | .topk =>
    dP0 d ≠ 0 && 1 ≤ dP1 d && dP1 d ≤ 4096 && dP1 d ≤ dP0 d && dP2 d = 0 && dP3 d = 0 && dP5 d = 0 && !sf.isMx &&
      dDfmt d = dSfmt d && dAcc d = 0
  | _ => true

/-- Alignment of a side's addresses and strides (R147, R202). -/
def sideAlign (f : Fmt) : Nat := if f.isMx then 32 else f.size

/-- Whether a descriptor's addresses and steps are aligned (R147, R176). -/
def aligned (c : OpCode) (d e : Desc) : Bool :=
  let sa := sideAlign (dSf d)
  let da := sideAlign (dDf d)
  let mul (v a : Nat) : Bool := v % a = 0
  let muls (l : List Int) (a : Nat) : Bool := l.all fun v => v % (a : Int) = 0
  mul (dCursor d) 64 && mul (dSrc d) sa &&
  match c with
  | .move => mul (dDst d) da && muls (moveSstr d e) sa && muls (moveDstr d e) da
  | .gather => mul (dDst d) da && mul (dP2 d) sa && mul (dP3 d) da && mul (dP4 d) (dIdx d)
  | .graze =>
    mul (dDst d) da && mul (dSrc d) 32 && mul (dP2 d) 32 && mul (dP3 d) da && mul (dP4 d) (dIdx d)
  | .scatter => mul (dDst d) da && mul (dP2 d) da && mul (dP3 d) sa && mul (dP4 d) (dIdx d)
  | .compact => mul (dDst d) da && mul (dP4 d) 8 && mul (dP5 d) 8
  | .segred => mul (dDst d) da && mul (dP2 d) sa && mul (dP3 d) da && mul (dP4 d) (dIdx d)
  | .ebag => mul (dDst d) da && mul (dP2 d) sa && mul (dP4 d) (dIdx d) && mul (dP5 d) 4
  | .hist => mul (dDst d) 8
  | .topk => mul (dDst d) da && mul (dP4 d) (dIdx d)
  | _ => mul (dDst d) da && mul (dP4 d) sa && mul (dP5 d) 8

/-- Index positions of one chunk, or 4 KiB pieces of one position (Table 5.4). -/
def rowsPer (b : Nat) : Nat := 4096 / b
def piecesPer (b : Nat) : Nat := ceilDiv b 4096

/-- N of a transfer (Table 5.4, Table 6.3). -/
def chunksOf (c : OpCode) (d e : Desc) : Nat :=
  let b := destRow d
  let rows := if b ≤ 4096 then ceilDiv (dP1 d) (rowsPer b) else dP1 d * piecesPer b
  let z := (dDf d).size
  match c with
  | .move => ceilDiv (prodOf (moveSizes d e)) (4096 / z)
  | .compact => ceilDiv (dP0 d) (4096 / z)
  | .ebag => ceilDiv b 4096
  | .hist => ceilDiv (dP0 d) (4096 / (dSf d).size)
  | .topk => 1
  | .gather => rows
  | .scatter => rows
  | .graze => rows
  | .segred => rows
  | .isect => if dDst d = 0 then 1 else max 1 (ceilDiv (destStream c d e) 4096)
  | .union => if dDst d = 0 then 1 else max 1 (ceilDiv (destStream c d e) 4096)
  | .merge => if dDst d = 0 then 1 else max 1 (ceilDiv (destStream c d e) 4096)
  | _ => 1

/-- Position of the first element of chunk k (Table 5.4, Table 6.3); set operations keep their own. -/
def chunkFirst (c : OpCode) (d : Desc) (k : Nat) : Nat :=
  let b := destRow d
  let z := (dDf d).size
  match c with
  | .move => k * (4096 / z)
  | .compact => k * (4096 / z)
  | .hist => k * (4096 / (dSf d).size)
  | .ebag => 0
  | .topk => 0
  | _ => if b ≤ 4096 then k * rowsPer b else k / piecesPer b

/-- The whole issue check of a transfer on local memory: `OK` or its status, in the order `DESC_KIND`, `BAD_DESC`,
`MISALIGNED` (notes/assumptions/15.md). -/
def checkDesc (c : OpCode) (gx dn : Nat) (d e : Desc) : Nat :=
  let ctl := dCtl d
  if kindOf? c ≠ some (dKind d) then stDescKind
  else if 1 < dRnd d || dClass d = 3 || 4 < dAcc d || bits ctl 34 0 ≠ 0 || (fmtOf? (dSfmt d)).isNone ||
      (fmtOf? (dDfmt d)).isNone || (c ≠ .move && (dExt d || dDims d ≠ 0)) || !kindOk c gx dn d e ||
      !accFmtOk (dAcc d) (dDfmt d) || 2 ^ 40 < destStream c d e ||
      (dCursor d = 0 && (chunksOf c d e ≠ 1 || dAcc d ≠ 0)) then stBadDesc
  else if !aligned c d e then stMisaligned
  else stOk

/-- Whether a transfer is one of the irregular instructions (Table 6.1), a set operation, or has an output count. -/
def isIrregular : OpCode → Bool
  | .isect => true
  | .union => true
  | .merge => true
  | .segred => true
  | .ebag => true
  | .hist => true
  | .topk => true
  | _ => false
def isSetOp : OpCode → Bool
  | .isect => true
  | .union => true
  | .merge => true
  | _ => false
def hasCount (c : OpCode) : Bool := isSetOp c || c = .compact

end Sys2Proof.Machine
end

