-- ==== Sys2Proof/Machine/Plan.lean ====
section
/-! DEFINITION. Machine/Plan.lean: what one chunk of a transfer reads and writes, worked out without changing the
machine (R146 to R164, R167, R172, R173, R183 to R198, R202 to R206, R265). A chunk that stops writes nothing. -/
namespace Sys2Proof.Machine

/-- Why a chunk stops before it writes: a translation miss, a status, or a bank or Pen boundary that holds it. -/
inductive Stop where
  | miss (cause : Nat) (va : Word) (acc : Acc) (pos : Nat)
  | fails (st : Nat)
  | held
  deriving DecidableEq, Repr

/-- A chunk worked out: the virtual addresses looked up, lines read (sectors, Graze path), site-window spans still to
be read, the writes in order (last first), poison delivered, random draws, output elements, and a set operation's
position after it. -/
structure Plan where
  vas    : List Word := []
  reads  : List (Nat × BitVec 4 × Bool) := []
  sites  : List (Nat × Nat) := []
  puts   : List Put := []
  bad    : Bool := false
  draws  : Nat := 0
  outs   : Nat := 0
  pos    : Nat := 0
  split  : Bool := false
  count  : Nat := 0
  deriving DecidableEq, Repr

/-- The planning of a chunk: it may stop. -/
abbrev XM := StateT Plan (Except Stop)

/-- What a plan looks at: the state, the operation, the chunk's number. -/
structure Env where
  s : State
  o : Op
  k : Nat

def stop {α : Type} (x : Stop) : XM α := throw x

/-- An element read: its code, its MX scale, its value, and whether it is poisoned. -/
structure Elem where
  code  : Nat
  scale : Nat
  val   : Val
  bad   : Bool
  deriving DecidableEq, Repr

/-! ### Addresses -/

/-- A virtual address from an integer sum (R150, R156: wrapping modulo 2^64). -/
def vaOf (z : Int) : Word := BitVec.ofInt 64 z

/-- Translate for a transfer; a miss names the position of its element. -/
def xlat (e : Env) (acc : Acc) (pos : Nat) (va : Word) : XM (Nat × Word) := do
  match e.s.lookup e.o.drover va acc with
  | .fails st => stop (.fails st)
  | .miss c => stop (.miss c va acc pos)
  | .hit pa leaf _ =>
    modify fun p => if p.vas.any (fun v => v.toNat / 65536 = va.toNat / 65536) then p else { p with vas := va :: p.vas }
    pure (pa, leaf)

/-- Whether an address can be served now (R173). -/
def servedOr (e : Env) (pa n : Nat) (u : Use) : XM Unit := do
  if isSiteWin pa then
    let st := e.s.siteStatus (halfOf e.o.drover) (siteOf pa)
    if st ≠ stOk then stop (.fails st)
  else match e.s.servedSpan (halfOf e.o.drover) pa n u with
    | .ok => pure ()
    | .waits => stop .held
    | .fails st => stop (.fails st)

/-! ### Reading -/

/-- Key of a byte read from a site window for a chunk. -/
def siteKey (k a : Nat) : Nat := k * 2 ^ 48 + a

/-- Key of the sector of a byte read for a chunk. -/
def secKey (k a : Nat) : Nat := siteKey k a / 32

/-- Note a span of a line as read. -/
def noteRead (a n : Nat) (graze : Bool) (p : Plan) : Plan :=
  let m := sectorsOf (a % 128) n
  match p.reads with
  | (l, k, g) :: t =>
    if l = a / 128 ∧ g = graze then { p with reads := (l, k ||| m, g) :: t }
    else { p with reads := (a / 128, m, graze) :: p.reads }
  | [] => { p with reads := [(a / 128, m, graze)] }

/-- Read n bytes that lie in one page: the bytes and whether any is poisoned. Bytes of a site window not yet at hand
read as zero and are asked for; `GRAZE` alone refuses them (R157). -/
def readVa (e : Env) (pos : Nat) (va : Word) (n : Nat) (graze : Bool) : XM (List Byte × Bool) := do
  let (pa, _) ← xlat e .read pos va
  if graze && isSiteWin pa && e.o.code = .graze then stop (.fails stNotPermitted)
  servedOr e pa n .read
  if isSiteWin pa then
    let has := (List.range n).all fun i => e.o.got.contains (secKey e.k (pa + i))
    if has then
      pure (Memory.bytes e.o.buf (siteKey e.k pa) n, (List.range n).any fun i => e.o.bufBad.contains (secKey e.k (pa + i)))
    else
      modify fun p => { p with sites := (pa, n) :: p.sites }
      pure (zeros n, false)
  else
    modify (noteRead pa n graze)
    pure (e.s.readBytes pa n, e.s.anyBad pa n)

/-- Read a little-endian number. -/
def readNum (e : Env) (pos : Nat) (va : Word) (n : Nat) : XM (Nat × Bool) := do
  let (b, bad) ← readVa e pos va n false
  pure (ofBytes b, bad)

/-- Read a number that fails the transfer when poisoned (R159, R187, R190, R193, R196, R199). -/
def readSure (e : Env) (pos : Nat) (va : Word) (n : Nat) : XM Nat := do
  let (v, bad) ← readNum e pos va n
  if bad then stop (.fails stPoison) else pure v

/-- Read element i of a row of n elements in format f (R201, R202). `step`: bytes between elements of a format that is
not packed. -/
def readElem (e : Env) (pos : Nat) (f : Fmt) (row : Word) (n i : Nat) (step : Int) (graze : Bool) : XM Elem := do
  match f with
  | .mx g w _ area =>
    let b0 := mxHead n + i / 32 * area + w * (i % 32) / 8
    let (sc, bad0) ← readVa e pos (row + BitVec.ofNat 64 (i / 32)) 1 graze
    let (lo, bad1) ← readVa e pos (row + BitVec.ofNat 64 b0) 1 graze
    let straddles := 8 < w * (i % 32) % 8 + w
    let (hi, bad2) ← if straddles then readVa e pos (row + BitVec.ofNat 64 (b0 + 1)) 1 graze else pure ([0], false)
    let x := ofBytes (lo ++ hi) / 2 ^ (w * (i % 32) % 8) % 2 ^ w
    pure { code := x, scale := ofBytes sc, val := decodeMx g (ofBytes sc) x, bad := bad0 || bad1 || bad2 }
  | f =>
    let (b, bad) ← readVa e pos (row + vaOf (i * step)) f.size graze
    pure { code := ofBytes b, scale := 0, val := decode f (ofBytes b), bad }

/-! ### Writing -/

/-- Note a write of bytes, joined to the one before when it follows it. -/
def putBytes (pa : Nat) (bs : List Byte) (bad : Bool) (p : Plan) : Plan :=
  match p.puts with
  | .bytes q ds b :: t =>
    if q + ds.length = pa ∧ b = bad ∧ pa % 65536 ≠ 0 then { p with puts := .bytes q (ds ++ bs) b :: t }
    else { p with puts := .bytes pa bs bad :: p.puts }
  | _ => { p with puts := .bytes pa bs bad :: p.puts }

/-- Translate a destination and judge its page (R173, R265, Table 8.6). -/
def destPage (e : Env) (pos : Nat) (va : Word) : XM (Nat × Nat) := do
  let acc := dAcc e.o.desc
  let (pa, leaf) ← xlat e (if acc = 0 then .write else .update) pos va
  let reg := leafAcc leaf
  if acc ≠ 4 ∧ reg ≠ 0 then stop (.fails stAccRegion)
  if acc = 4 ∧ (reg = 0 ∨ accFormat reg ≠ dDfmt e.o.desc) then stop (.fails stAccRegion)
  if acc ≠ 0 ∧ isSiteWin pa then stop (.fails stNotPermitted)
  pure (pa, reg)

/-- A destination that can be written now. -/
def destAt (e : Env) (pos : Nat) (va : Word) (n : Nat) : XM (Nat × Nat) := do
  let (pa, reg) ← destPage e pos va
  match dAcc e.o.desc with
  | 0 => servedOr e pa n .write
  | 4 => servedOr e (pa / 128 * 128) 128 .update
  | _ => servedOr e pa n .update
  pure (pa, reg)

/-- Write bytes at a virtual address. -/
def putVa (e : Env) (pos : Nat) (va : Word) (bs : List Byte) (bad : Bool) : XM Unit := do
  let (pa, _) ← destAt e pos va bs.length
  modify (putBytes pa bs bad)

/-- The state of a Drover's generator n draws on (R207). -/
def rndAt (x : Word) : Nat → Word
  | 0 => x
  | n + 1 => Config.rndNext (rndAt x n)

/-- The 16 bits of a Drover's draw n of a chunk (R206, R207). -/
def Env.drawn (e : Env) (n : Nat) : Nat := (Config.rndBits (rndAt (e.s.drv e.o.drover).rnd n)).toNat

/-- The random bits of one conversion (R163, R206). -/
def draw (e : Env) : XM (Option Nat) := do
  if dRnd e.o.desc = 0 then pure none
  else
    let n := (← get).draws
    modify fun p => { p with draws := n + 1 }
    pure (some (e.drawn n))

/-- Convert a value to the destination's format, of any kind but MX (R162, R203). -/
def convertVal (e : Env) (x : Val) : XM Nat := do
  let r ← draw e
  pure (encode (dDf e.o.desc) r (dWrap e.o.desc) x)

/-- An element decoded to FP32: an MX element converts as Table 6.5 gives; the other formats widen exactly (R191, R204). -/
def toFp32 (e : Env) (x : Val) : XM Val := do
  if (dSf e.o.desc).isMx then
    let r ← draw e
    pure (decodeFloat fp32 (encodeFloat fp32 r (dWrap e.o.desc) x))
  else pure (x.rnd fp32)

/-- Convert an element: a copy between equal formats is bit for bit. -/
def convertElem (e : Env) (same : Bool) (x : Elem) : XM Nat :=
  if same then pure x.code else convertVal e x.val

/-- The operand of an accumulation: FP32, or INT64 for an INT32 region (R265). -/
def accOperand (e : Env) (x : Val) : XM Word := do
  let r ← draw e
  let w := dWrap e.o.desc
  pure (BitVec.ofNat 64 (if dDfmt e.o.desc = 6 then encodeInt 64 true r w x else encodeFloat fp32 r w x))

/-- Write one element that is not in an MX destination, as `ACC` directs. -/
def putElem (e : Env) (pos : Nat) (va : Word) (same : Bool) (x : Elem) : XM Unit := do
  let f := dDf e.o.desc
  if x.bad then modify fun p => { p with bad := true }
  match dAcc e.o.desc with
  | 0 => putVa e pos va (toBytes f.size (← convertElem e same x)) x.bad
  | 4 =>
    let (pa, reg) ← destAt e pos va f.size
    let v ← accOperand e x.val
    modify fun p => { p with puts := .acc pa reg 0 v x.bad :: p.puts }
  | k =>
    let (pa, _) ← destAt e pos va f.size
    let v ← convertElem e same x
    modify fun p => { p with puts := .update (if k = 1 then .add else if k = 2 then .min else .max) pa v x.bad :: p.puts }

/-- The random bits of the 32 elements of a block. -/
def drawBlock (e : Env) : XM (Nat → Option Nat) := do
  if dRnd e.o.desc = 0 then pure fun _ => none
  else
    let n := (← get).draws
    modify fun p => { p with draws := n + 32 }
    pure fun i => some (e.drawn (n + i))

/-- The outer strides of a transfer's destination side (R265). -/
def outerStrides (d e : Desc) : List Int :=
  match dKind d with
  | 1 => (moveDstr d e).drop 1
  | 3 => [dP2 d]
  | 8 => []
  | _ => [dP3 d]

/-- Write block m of a packed MX row of n elements, or, towards an accumulator region, its one-block row (R202, R204,
R265). The last block writes the row's padding. -/
def putBlock (e : Env) (pos : Nat) (row : Word) (n m : Nat) (same : Bool) (xs : List Elem) : XM Unit := do
  let bad := xs.any (·.bad)
  if bad then modify fun p => { p with bad := true }
  match dDf e.o.desc with
  | .mx f w emax area =>
    if dAcc e.o.desc = 4 then
      if row.toNat % 64 ≠ 0 ∨ (outerStrides e.o.desc e.o.ext).any (· % 64 ≠ 0) then stop (.fails stAccRegion)
      let (pa, reg) ← destAt e pos (row + BitVec.ofNat 64 (64 * m)) 64
      xs.zipIdx.forM fun (x : Elem × Nat) => do
        let v ← accOperand e x.1.val
        modify fun p => { p with puts := .acc pa reg x.2 v bad :: p.puts }
    else
      let rnd ← drawBlock e
      let (sc, cs) := if same then ((xs.headD ⟨0, 0, .nan false, false⟩).scale, xs.map (·.code))
        else encodeMx f emax rnd (xs.map (·.val))
      putVa e pos (row + BitVec.ofNat 64 m) (toBytes 1 sc) bad
      if m + 1 = n / 32 then
        putVa e pos (row + BitVec.ofNat 64 (n / 32)) (zeros (mxHead n - n / 32)) false
      let a := row + BitVec.ofNat 64 (mxHead n + m * area)
      -- an area may lie across two pages
      let k := min area (65536 - a.toNat % 65536)
      let bs := packElems w cs area
      putVa e pos a (bs.take k) bad
      if k < area then putVa e pos (a + BitVec.ofNat 64 k) (bs.drop k) bad
  | _ => pure ()

/-! ### The movement kinds (R150 to R161) -/

/-- The five indices of element t of a `MOVE`. -/
def moveIndex (sz : List Nat) (t : Nat) : List Nat :=
  (sz.foldl (fun (p : List Nat × Nat) n => (p.1 ++ [p.2 % n], p.2 / n)) ([], t)).1

/-- Sum of index × stride over some dimensions. -/
def dotIdx (is : List Nat) (ss : List Int) : Int := ((is.zip ss).map fun p => (p.1 : Int) * p.2).sum

/-- Read element t of a `MOVE`: along a packed dimension 0, or at its own address. -/
def moveElem (e : Env) (sz : List Nat) (ss : List Int) (t : Nat) : XM Elem := do
  let f := dSf e.o.desc
  let is := moveIndex sz t
  let base := vaOf (dSrc e.o.desc + dotIdx (is.drop 1) (ss.drop 1))
  readElem e t f base (sz.headD 1) (is.headD 0) (ss.headD 0) false

/-- `MOVE` (R150, R153). -/
def planMove (e : Env) : XM Unit := do
  let d := e.o.desc
  let sz := moveSizes d e.o.ext
  let ss := moveSstr d e.o.ext
  let ds := moveDstr d e.o.ext
  let per := 4096 / (dDf d).size
  let same := decide (dSfmt d = dDfmt d)
  let lo := e.k * per
  let hi := min (lo + per) (prodOf sz)
  if (dDf d).isMx then
    (List.range ((hi - lo) / 32)).forM fun b => do
      let t := lo + 32 * b
      let is := moveIndex sz t
      let row := vaOf (dDst d + dotIdx (is.drop 1) (ds.drop 1))
      let xs ← (List.range 32).mapM fun i => moveElem e sz ss (t + i)
      putBlock e t row (sz.headD 32) (is.headD 0 / 32) same xs
  else
    (List.range (hi - lo)).forM fun i => do
      let x ← moveElem e sz ss (lo + i)
      putElem e (lo + i) (vaOf (dDst d + dotIdx (moveIndex sz (lo + i)) ds)) same x

/-- Elements c0 to c1 − 1 of one row, copied from a source row to a destination row. -/
def copyRow (e : Env) (pos : Nat) (src dst : Word) (c0 c1 : Nat) (graze : Bool) : XM Unit := do
  let d := e.o.desc
  let n := dP0 d
  let same := decide (dSfmt d = dDfmt d)
  if (dDf d).isMx then
    (List.range ((c1 - c0) / 32)).forM fun b => do
      let xs ← (List.range 32).mapM fun i => readElem e pos (dSf d) src n (c0 + 32 * b + i) (dSf d).size graze
      putBlock e pos dst n (c0 / 32 + b) same xs
  else
    (List.range (c1 - c0)).forM fun i => do
      let x ← readElem e pos (dSf d) src n (c0 + i) (dSf d).size graze
      putElem e pos (dst + BitVec.ofNat 64 ((c0 + i) * (dDf d).size)) same x

/-- The index positions and the elements of their rows that a chunk holds (Table 5.4). -/
def rowSpan (d : Desc) (k : Nat) : List Nat × Nat × Nat :=
  let b := destRow d
  let n := dP0 d
  if b ≤ 4096 then
    ((List.range (min (rowsPer b) (dP1 d - k * rowsPer b))).map (· + k * rowsPer b), 0, n)
  else
    let per := 4096 / (dDf d).size
    let j := k % piecesPer b
    ([k / piecesPer b], j * per, min n ((j + 1) * per))

/-- Index i of a list at `P4`. -/
def readIndex (e : Env) (i : Nat) (pos : Nat) : XM Nat :=
  readSure e pos (BitVec.ofNat 64 (dP4 e.o.desc + i * dIdx e.o.desc)) (dIdx e.o.desc)

/-- Stop here when part of a list lies in a site window and is not at hand. -/
def haveLists : XM Bool := do pure (← get).sites.isEmpty

/-- `GATHER`, `SCATTER` and `GRAZE` (R154 to R159). -/
def planRows (e : Env) : XM Unit := do
  let d := e.o.desc
  let (is, c0, c1) := rowSpan d e.k
  let xs ← is.mapM fun i => do pure (i, ← readIndex e i i)
  if ← haveLists then
    xs.forM fun (p : Nat × Nat) => do
      let table (base : Nat) : Word := BitVec.ofNat 64 (base + p.2 * dP2 d)
      let linear (base : Nat) : Word := BitVec.ofNat 64 (base + p.1 * dP3 d)
      if dKind d = 3 then copyRow e p.1 (linear (dSrc d)) (table (dDst d)) c0 c1 false
      else copyRow e p.1 (table (dSrc d)) (linear (dDst d)) c0 c1 (dKind d = 4)

/-- Set mask bits below element j of a `COMPACT`, from the words of the mask list (R161). A fault on an earlier chunk's mask
word names the first position of that word (DESIGN CHOICE, notes/assumptions/140.md). -/
def maskCount (e : Env) (j : Nat) : XM Nat := do
  let ns ← (List.range (ceilDiv j 64)).mapM fun w => do
    let v ← readSure e (64 * w) (BitVec.ofNat 64 (dP4 e.o.desc + 8 * w)) 8
    pure (popCount (min 64 (j - 64 * w)) v)
  pure ns.sum

/-- Translate the output-count address; it takes 8 bytes at completion, when its bank is asked (R146, R161, R185). A fault
there names the position of the chunk's first element, the count being no element's address (DESIGN CHOICE,
notes/assumptions/140.md); of a set operation, its list positions (Table 6.3). -/
def planCount (e : Env) : XM Unit := do
  let pos := if isSetOp e.o.code then e.o.position else chunkFirst e.o.code e.o.desc e.k
  let (pa, _) ← destPage e pos (BitVec.ofNat 64 (dP5 e.o.desc))
  modify fun p => { p with count := pa }

/-- `COMPACT` (R160, R161). -/
def planCompact (e : Env) : XM Unit := do
  let d := e.o.desc
  let per := 4096 / (dDf d).size
  let lo := e.k * per
  let hi := min (lo + per) (dP0 d)
  let base ← maskCount e lo
  let js ← (List.range (hi - lo)).filterMapM fun i => do
    let j := lo + i
    let v ← readSure e j (BitVec.ofNat 64 (dP4 d + 8 * (j / 64))) 8
    pure (if v.testBit (j % 64) then some j else none)
  planCount e
  if ← haveLists then
    js.zipIdx.forM fun (p : Nat × Nat) => do
      let x ← readElem e p.1 (dSf d) (BitVec.ofNat 64 (dSrc d)) 1 p.1 (dSf d).size false
      putElem e p.1 (BitVec.ofNat 64 (dDst d + (base + p.2) * (dDf d).size)) (dSfmt d = dDfmt d) x
    modify fun p => { p with outs := js.length }

/-! ### Set operations (R183 to R187) -/

/-- One step of the merge at positions i and j: the keys it emits and the positions after it; none at its end. -/
def setStep (e : Env) (i j : Nat) : XM (Option (List Nat × Nat × Nat)) := do
  let d := e.o.desc
  let z := (dSf d).size
  let la := dP0 d
  let lb := dP1 d
  let keyA := readSure e e.o.position (BitVec.ofNat 64 (dSrc d + i * z)) z
  let keyB := readSure e e.o.position (BitVec.ofNat 64 (dP4 d + j * z)) z
  let isect := e.o.code = .isect
  if i < la ∧ j < lb then
    let a ← keyA
    let b ← keyB
    if (decode (dSf d) a).lt (decode (dSf d) b) then pure (some (if isect then [] else [a], i + 1, j))
    else if (decode (dSf d) b).lt (decode (dSf d) a) then pure (some (if isect then [] else [b], i, j + 1))
    else pure (some (if e.o.code = .merge then [a, b] else [a], i + 1, j + 1))
  else if isect then pure none
  else if i < la then pure (some ([← keyA], i + 1, j))
  else if j < lb then pure (some ([← keyB], i, j + 1))
  else pure none

/-- Steps until `room` keys are out or the lists end; `skip`: the first step's first key is already out. Answers the
keys, the positions and whether a step is half out. -/
def setRun (e : Env) (room : Option Nat) : Nat → Nat → Nat → Bool → List Nat → XM (List Nat × Nat × Nat × Bool)
  | 0, i, j, sp, acc => pure (acc, i, j, sp)
  | fuel + 1, i, j, sp, acc => do
    if room = some acc.length then pure (acc, i, j, sp)
    else match ← setStep e i j with
      | none => pure (acc, i, j, false)
      | some (ks, i', j') =>
        let ks := if sp then ks.drop 1 else ks
        match room with
        | none => setRun e room fuel i' j' false (acc ++ ks)
        | some r =>
          if acc.length + ks.length ≤ r then setRun e room fuel i' j' false (acc ++ ks)
          else pure (acc ++ ks.take (r - acc.length), i, j, true)

/-- `ISECT`, `UNION` and `MERGE`: the chunk's part of the output, in order (R186). -/
def planSet (e : Env) : XM Unit := do
  let d := e.o.desc
  let z := (dDf d).size
  let i := e.o.position / 2 ^ 32
  let j := e.o.position % 2 ^ 32
  let n := e.o.outCount
  let room := if dDst d = 0 then none else some ((e.k + 1) * (4096 / z) - n)
  planCount e
  let (ks, i', j', sp) ← setRun e room (dP0 d + dP1 d + 1 - i - j) i j e.o.split []
  if ← haveLists then
    if dDst d ≠ 0 then
      ks.zipIdx.forM fun (p : Nat × Nat) =>
        putVa e e.o.position (BitVec.ofNat 64 (dDst d + (n + p.2) * z)) (toBytes z p.1) false
    modify fun p => { p with outs := ks.length, pos := if dDst d = 0 then 0 else i' * 2 ^ 32 + j', split := sp }

/-! ### SEGRED and EBAG (R188 to R193, R620) -/

/-- Format a reduction accumulates in; none for integers (R182). -/
def redFmt (f : Nat) : Option FloatSpec :=
  if f = 0x08 then some fp64 else if (fmtOf f).isInt then none else some fp32

/-- A value in the accumulating format; integers wrap modulo 2^64 (R182; notes/assumptions/16.md). -/
def redRound (f : Nat) (v : Val) : Val :=
  match redFmt f with
  | some g => v.rnd g
  | none => decodeSint 64 (encodeInt 64 true none true v)

/-- A value read into the accumulating format: integers modulo 2^64, MX elements by Table 6.5 (R182, R204). -/
def redTake (e : Env) (v : Val) : XM Val :=
  match redFmt (dSfmt e.o.desc) with
  | some _ => if (dSf e.o.desc).isMx then toFp32 e v else pure (redRound (dSfmt e.o.desc) v)
  | none => pure (redRound (dSfmt e.o.desc) v)

/-- The element columns of a piece of an output row: its elements, or the blocks whose areas start in it (R620). -/
def pieceCols (d : Desc) (j : Nat) : Nat × Nat :=
  let n := dP0 d
  let f := dDf d
  if f.isMx then
    let first := (List.range (n / 32)).find? fun m => 4096 * j ≤ mxHead n + m * mxArea f
    let last := (List.range (n / 32)).find? fun m => 4096 * (j + 1) ≤ mxHead n + m * mxArea f
    (32 * first.getD (n / 32), 32 * last.getD (n / 32))
  else (min n (4096 * j / f.size), min n (4096 * (j + 1) / f.size))

/-- Write columns c0 on of an output row from reduced values. -/
def putCols (e : Env) (pos : Nat) (row : Word) (c0 : Nat) (vs : List (Val × Bool)) : XM Unit := do
  let d := e.o.desc
  let el (p : Val × Bool) : Elem := { code := 0, scale := 0, val := p.1, bad := p.2 }
  if (dDf d).isMx then
    (List.range (vs.length / 32)).forM fun b =>
      putBlock e pos row (dP0 d) (c0 / 32 + b) false (((vs.drop (32 * b)).take 32).map el)
  else
    vs.zipIdx.forM fun (p : (Val × Bool) × Nat) =>
      putElem e pos (row + BitVec.ofNat 64 ((c0 + p.2) * (dDf d).size)) false (el p.1)

/-- Reduce one column of rows lo to hi − 1 (R188). -/
def segColumn (e : Env) (s lo hi c : Nat) : XM (Val × Bool) := do
  let d := e.o.desc
  let op := e.o.sub
  let f := dSfmt d
  let get (r : Nat) : XM Elem :=
    readElem e s (dSf d) (BitVec.ofNat 64 (dSrc d + r * dP2 d)) (dP0 d) c (dSf d).size false
  let x0 ← get lo
  let y0 ← redTake e x0.val
  let (v, bad) ← (List.range (hi - lo - 1)).foldlM (fun (p : Val × Bool) i => do
    let x ← get (lo + 1 + i)
    let y ← redTake e x.val
    let w := if op = 1 then p.1.min y else if op = 2 then p.1.max y else redRound f (p.1.add y)
    pure (w, p.2 || x.bad)) (y0, x0.bad)
  pure (if op = 3 then redRound f (v.divNat (hi - lo)) else v, bad)

/-- `SEGRED` (R188 to R190); `Op.sub` holds its operation code. -/
def planSegred (e : Env) : XM Unit := do
  let d := e.o.desc
  let b := destRow d
  let (segs, c0, c1) :=
    if b ≤ 4096 then ((rowSpan d e.k).1, 0, dP0 d)
    else
      let c := pieceCols d (e.k % piecesPer b)
      ([e.k / piecesPer b], c.1, c.2)
  let offs ← segs.mapM fun s => do
    let lo ← readIndex e s s
    let hi ← readIndex e (s + 1) s
    pure (s, lo, hi)
  if ← haveLists then
    offs.forM fun (p : Nat × Nat × Nat) => do
      let (s, lo, hi) := p
      let row := BitVec.ofNat 64 (dDst d + s * dP3 d)
      if hi ≤ lo then
        if dAcc d = 0 then putCols e s row c0 ((List.range (c1 - c0)).map fun _ => (.num false 0 0, false))
      else
        let vs ← (List.range (c1 - c0)).mapM fun i => segColumn e s lo hi (c0 + i)
        putCols e s row c0 vs

/-- `EBAG` (R191 to R193). -/
def planEbag (e : Env) : XM Unit := do
  let d := e.o.desc
  let (c0, c1) := pieceCols d e.k
  let n := dP0 d
  let f := dSf d
  let graze := decide (rowBytes f n = 32 ∧ dSrc d % 32 = 0 ∧ dP2 d % 32 = 0)
  let one : Nat := 0x3F800000
  let xs ← (List.range (dP1 d)).mapM fun i => do
    let x ← readIndex e i 0
    let w ← if dP5 d = 0 then pure one else readSure e 0 (BitVec.ofNat 64 (dP5 d + 4 * i)) 4
    pure (x, valOf32 w)
  if ← haveLists then
    let vs ← (List.range (c1 - c0)).mapM fun i => do
      let init : Val := if dP3 d = 2 then .inf true else .num false 0 0
      let (v, bad) ← xs.foldlM (fun (p : Val × Bool) (q : Nat × Val) => do
        let x ← readElem e 0 f (BitVec.ofNat 64 (dSrc d + q.1 * dP2 d)) n (c0 + i) f.size graze
        let v ← toFp32 e x.val
        let m := q.2.mul v
        pure (if dP3 d = 2 then p.1.max (m.rnd fp32) else (p.1.add m).rnd fp32, p.2 || x.bad)) (init, false)
      pure (if dP3 d = 1 then (v.divNat (dP1 d)).rnd fp32 else v, bad)
    putCols e 0 (BitVec.ofNat 64 (dDst d)) c0 vs

/-! ### HIST and TOPK (R194 to R199) -/

/-- The count a key falls in (R194). -/
def histBin (d : Desc) (key : Nat) : Nat :=
  let w := 8 * (dSf d).size
  let k : Int := if 6 ≤ dSfmt d then signedOf w key else key
  let base : Int := if 6 ≤ dSfmt d then signedOf 64 (dP4 d) else dP4 d
  if k < base then dP1 d else min (((k - base) % 2 ^ 64).toNat / 2 ^ dP2 d) (dP1 d)

/-- Count one more in a bin. -/
def bump (l : List (Nat × Nat)) (b : Nat) : List (Nat × Nat) := Tab.ins l b (Tab.get (fun _ => 0) l b + 1)

/-- `HIST`: the adds of each 16 keys, combined by bin (R194 to R196). -/
def planHist (e : Env) : XM Unit := do
  let d := e.o.desc
  let z := (dSf d).size
  let per := 4096 / z
  let lo := e.k * per
  let n := min per (dP0 d - lo)
  let bins ← (List.range n).mapM fun i => do
    pure (histBin d (← readSure e (lo + i) (BitVec.ofNat 64 (dSrc d + (lo + i) * z)) z))
  if ← haveLists then
    (List.range (ceilDiv n 16)).forM fun g =>
      (((bins.drop (16 * g)).take 16).foldl bump []).forM fun (p : Nat × Nat) => do
        let pos := lo + 16 * g + ((bins.drop (16 * g)).take 16).findIdx (· = p.1)
        let (pa, leaf) ← xlat e .update pos (BitVec.ofNat 64 (dDst d + 8 * p.1))
        if isSiteWin pa then stop (.fails stNotPermitted)
        if leafAcc leaf ≠ 0 then stop (.fails stAccRegion)
        servedOr e pa 8 .update
        modify fun q => { q with puts := .update .add pa p.2 false :: q.puts }

/-- a < b as numbers, the zeros equal (R197). -/
def numLess (a b : Val) : Bool :=
  match a, b with
  | .num _ 0 _, .num _ 0 _ => false
  | a, b => a.lt b

/-- Whether x ranks before y, x standing later in the input (R197). -/
def ranksBefore (largest : Bool) (x y : Val) : Bool :=
  match x, y with
  | .nan _, _ => false
  | _, .nan _ => true
  | x, y => if largest then numLess y x else numLess x y

/-- Put a value among the best k so far. -/
def rankIn (largest : Bool) (k : Nat) (x : Nat × Nat × Val) (l : List (Nat × Nat × Val)) : List (Nat × Nat × Val) :=
  let before := l.takeWhile fun y => !ranksBefore largest x.2.2 y.2.2
  (before ++ [x] ++ l.drop before.length).take k

/-- `TOPK` (R197 to R199); `Op.sub` holds its operation code. -/
def planTopk (e : Env) : XM Unit := do
  let d := e.o.desc
  let f := dSf d
  let z := f.size
  let xs ← (List.range (dP0 d)).mapM fun i => do
    let v ← readSure e 0 (BitVec.ofNat 64 (dSrc d + i * z)) z
    pure (i, v, decode f v)
  if ← haveLists then
    let best := xs.foldl (fun l x => rankIn (e.o.sub = 0) (dP1 d) x l) []
    best.zipIdx.forM fun (p : (Nat × Nat × Val) × Nat) =>
      putVa e 0 (BitVec.ofNat 64 (dDst d + p.2 * z)) (toBytes z p.1.2.1) false
    if dP4 d ≠ 0 then
      best.zipIdx.forM fun (p : (Nat × Nat × Val) × Nat) =>
        putVa e 0 (BitVec.ofNat 64 (dP4 d + p.2 * dIdx d)) (toBytes (dIdx d) p.1.1) false

/-- The plan of a chunk on local memory. -/
def planOf (e : Env) : XM Unit :=
  match e.o.code with
  | .move => planMove e
  | .gather => planRows e
  | .scatter => planRows e
  | .graze => planRows e
  | .compact => planCompact e
  | .isect => planSet e
  | .union => planSet e
  | .merge => planSet e
  | .segred => planSegred e
  | .ebag => planEbag e
  | .hist => planHist e
  | .topk => planTopk e
  | _ => pure ()

/-- Work out chunk k of an operation. -/
def State.plan (s : State) (o : Op) (k : Nat) : Except Stop Plan :=
  match (planOf { s, o, k }).run {} with
  | .ok (_, p) => .ok p
  | .error x => .error x

end Sys2Proof.Machine
end

