-- ==== Sys2Proof/Machine/Chunk.lean ====
section
/-! DEFINITION. Machine/Chunk.lean: transfers in flight: their start, their chunks, the cursor area, parking, resuming
and completing (R131 to R142, R161, R167 to R173, R186, R198). -/
namespace Sys2Proof.Machine

/-! ### The selection store (R198) -/

/-- An operation lets go of its Drover's selection store. -/
def State.releaseSel (s : State) (o : Op) : State :=
  if (s.drv o.drover).selHold = some o.id then s.setDrv o.drover { s.drv o.drover with selHold := none } else s

/-- An operation takes its Drover's selection store. -/
def State.takeSel (s : State) (o : Op) : State := s.setDrv o.drover { s.drv o.drover with selHold := some o.id }

/-! ### The cursor area (R132, R134) -/

/-- States of a cursor area (Table 4.15). -/
def csParked : Nat := 1
def csYielded : Nat := 2
def csDone : Nat := 3
def csFailed : Nat := 4

/-- The 64 bytes of a cursor area (Table 4.15). -/
def cursorBytes (o : Op) (st status fault pos : Nat) : List Byte :=
  let word := 2 ^ 56 + st * 2 ^ 52 + b2n o.split * 2 ^ 32 + min o.parks 0xFFFF * 2 ^ 16 + status
  let body := toBytes 8 o.mark ++ toBytes 8 (ofBits (o.done.map (· - o.mark))) ++ toBytes 8 o.n ++ toBytes 8 word ++
    toBytes 8 fault ++ toBytes 8 o.outCount ++ toBytes 8 pos
  body ++ toBytes 4 (crc32 body).toNat ++ zeros 4

/-- The position of the first element of chunk W (R170, Table 6.3). -/
def Op.first (o : Op) : Nat := if isSetOp o.code then o.position else chunkFirst o.code o.desc o.mark

/-- Chunks an operation has committed. -/
def Op.committed (o : Op) : Nat := o.mark + o.done.length

/-- How a write of the cursor area fares at its bank (R134); the area of a page of an accumulator region refuses it. -/
def State.cursorServed (s : State) (o : Op) : Served :=
  if o.leafAcc ≠ 0 then .fails stAccRegion else s.servedSpan (halfOf o.drover) o.curPa 64 .write

/-- Write the cursor area. -/
def State.writeCursor (s : State) (o : Op) (st status fault pos : Nat) : State :=
  s.writeBytes o.curPa (cursorBytes o st status fault pos) false false

/-! ### Completion (R138 to R141) -/

/-- Complete a transfer whose N is fixed. -/
def State.finishXfer (s : State) (o : Op) : State :=
  let k := if dChunksig o.desc then o.n - o.committed else 1
  (s.releaseSel o).finish o o.status (if o.status = stLate then o.lateness else o.committed) k

/-- A chunk in flight, which a park, a yield or a completion waits for: sent, or due to be carried out. Of an irregular
transfer, only one whose writes are on the way (R168, R170, R179). -/
def Op.inFlight (o : Op) (c : Chunk) : Bool := if isIrregular o.code then c.sent && c.wrote else c.sent || c.due
def Op.flying (o : Op) : Bool := o.chunks.any o.inFlight

/-- A transfer will complete with a status, the first that failed it: it issues no further chunk, and those in flight drain
(R173). -/
def State.failXfer (s : State) (o : Op) (st : Nat) : State :=
  (((s.releaseSel o).setOp { o with
    phase := .served, status := if o.phase = .served ∧ o.status ≠ stOk then o.status else st, chunks := o.chunks.filter o.inFlight, ticket := none, curTick := none })).pruneTickets

/-- The output count of a `COMPACT` or set operation is written at a completion `OK` (R161, R185): done, waiting, or
failed with a status. -/
def State.writeCount (s : State) (o : Op) : Served × State :=
  if o.status ≠ stOk || !hasCount o.code || o.counted then (.ok, s)
  else if isSiteWin o.pa then
    if o.chunks.any (fun c => c.num = o.n) then (.waits, s)
    else match s.siteSpan o.id o.n true o.pa 8 0
        (siteIdentity s.device o.logical o.strand (s.tenancy (paddockOf o.drover))) (toBytes 8 o.outCount) [] with
      | some t => (.waits, t.setOp { o with chunks := o.chunks ++ [{ num := o.n, sent := true, wrote := true }] })
      | none => (.waits, s)
  else match s.servedSpan (halfOf o.drover) o.pa 8 .write with
    | .ok => (.ok, s.writeBytes o.pa (toBytes 8 o.outCount) false false)
    | r => (r, s)

/-- Complete a transfer whose completion is due: its output count, its cursor area where R134 asks for it, then its
status and counter. It stays due while a write of either waits. -/
def State.completeXfer (s : State) (o : Op) : State :=
  if o.flying then s
  else
    let cur := o.curOk && (o.status ≠ stOk || o.everPark)
    match (if cur then s.cursorServed o else .ok) with
    | .waits => s
    | .fails st => s.finishXfer { o with status := st }
    | .ok =>
      match s.writeCount o with
      | (.waits, t) => t
      | (.fails st, t) => t.setOp { o with status := st }
      | (.ok, t) =>
        let t := if cur then
            t.writeCursor o (if o.status = stOk then csDone else csFailed) o.status o.faultVa
              (if o.faultVa = 0 then o.first else o.faultPos)
          else t
        t.finishXfer o

/-! ### Starting and resuming (R130, R131, R135, R334) -/

/-- Status of a transfer all of whose chunks committed: of a scheduled one `UNLOCKED` after an entry to `UNLOCKED`;
the first notify that failed; `POISON`; `LATE` (R59, R172, R381, R399; notes/assumptions/18.md). -/
def Op.outcome (o : Op) : Nat :=
  if o.unlocked then stUnlocked
  else if o.note ≠ stOk then o.note
  else if o.poisoned then stPoison
  else if o.lateness ≠ 0 then stLate
  else stOk

/-- Let a transfer run: one all of whose chunks have committed is due to complete (R171); a `TOPK` takes the selection
store, or waits while another scan holds it (R198). -/
def State.runXfer (s : State) (o : Op) : State :=
  let o := { o with ticket := none, chunks := [] }
  let held := (s.drv o.drover).selHold
  if o.everPark && o.mark = o.n then s.putOp { o with phase := .served, status := o.outcome }
  else if o.code ≠ .topk then s.putOp { o with phase := .running }
  else if held ≠ none ∧ held ≠ some o.id then s.putOp { o with phase := .selecting }
  else (s.putOp { o with phase := .running }).takeSel o

/-- Load a transfer's progress from its cursor area, if `CHECK`, version and `TOTAL` agree (R135). -/
def State.reload (s : State) (o : Op) : State :=
  let b := s.readBytes o.curPa 64
  let at_ (i n : Nat) : Nat := ofBytes ((b.drop i).take n)
  let w := at_ 0x18 8
  if s.anyBad o.curPa 64 || at_ 0x38 8 ≠ (crc32 (b.take 0x38)).toNat || w / 2 ^ 56 ≠ 1 || at_ 0x10 8 ≠ o.n then
    s.finishXfer { o with status := stCursorBad, curOk := false }
  else
    s.runXfer { o with
      mark := at_ 0 8, done := (setBitsOf 64 (at_ 8 8)).map (· + at_ 0 8), outCount := at_ 0x28 8,
      position := at_ 0x30 8, split := w.testBit 32, parks := w / 2 ^ 16 % 2 ^ 16, everPark := true }

/-- Translate the cursor of a transfer and go on: it runs, loads its progress, waits for the translation, or completes
(R131, R313, R334). -/
def State.cursorThen (s : State) (o : Op) : State :=
  let again := o.everPark
  let no (t : State) (st : Nat) : State :=
    if again then t.finishXfer { o with status := stCursorBad, curOk := false } else t.finish o st 0 1
  if dCursor o.desc = 0 then s.runXfer o
  else
    let va := BitVec.ofNat 64 (dCursor o.desc)
    let t := s.looked o.drover va
    match s.lookup o.drover va .write with
    | .fails st => no t st
    | .miss c =>
      let (tk, t) := t.askTicket (t.asker o 5 o.dn 0) va.toNat c Acc.write.code
      t.putOp { o with phase := .missed, ticket := none, curTick := tk, chunks := [] }
    | .hit pa leaf _ =>
      if isSiteWin pa || isRegSpace pa then no t stNotPermitted
      else if !isLocalMem pa then no t stUnmapped
      else
        let o := { o with curPa := pa, curOk := true, leafAcc := leafAcc leaf, curTick := none, ticket := none }
        if again then (t.putOp o).reload o else t.runXfer o

/-- Begin a transfer on local memory: its checks, N, and its cursor (R130, R131, R145). -/
def State.beginXfer (s : State) (o : Op) (gx : Nat) (m : XferOps) : State :=
  let x := s.strand o.drover o.strand
  let dn := m.dn.toNat
  let d := x.rdd dn
  let ext := if dExt d && dn < 15 then x.rdd (dn + 1) else 0
  let holdD := if o.code = .move && dExt d && dn < 15 then [dn, dn + 1] else [dn]
  let cn := counterOf m.ce m.cn
  let o := { o with dn, gs := m.gs.toNat, cn, desc := d, ext, sub := gx, hold := [m.gs.toNat], holdD }
  let st := checkDesc o.code gx dn d ext
  if st ≠ stOk then s.finish o st 0 1 else s.cursorThen { o with n := chunksOf o.code d ext }

/-! ### Chunks (R133, R137, R167) -/

/-- W advances past every consecutive committed chunk (R133). -/
def slide : Nat → Nat → List Nat → Nat × List Nat
  | 0, w, l => (w, l)
  | fuel + 1, w, l => if l.contains w then slide fuel (w + 1) (Nats.del l w) else (w, l)

/-- A chunk commits: the cursor advances, its signal is posted, and after the last the completion is due (R133, R141,
R172). -/
def State.chunkDone (s : State) (o : Op) (k outs next : Nat) (half : Bool) : State :=
  let (w, l) := slide 64 o.mark (Nats.ins o.done k)
  let o := { o with
    mark := w, done := l, outCount := o.outCount + outs, position := if isSetOp o.code then next else o.position,
    split := half, chunks := o.chunks.filter (·.num ≠ k) }
  let o := if o.code = .get then o else { o with
    buf := Tab.keep (fun a => a / 2 ^ 48 ≠ k) o.buf,
    got := o.got.filter (fun a => 32 * a / 2 ^ 48 ≠ k), bufBad := o.bufBad.filter fun a => 32 * a / 2 ^ 48 ≠ k }
  let last := decide (w = o.n ∧ o.phase ≠ .served)
  let o := if last then { o with phase := .served, status := o.outcome } else o
  let s := (if last then s.releaseSel o else s).setOp o
  match dChunksig o.desc && !o.detached, o.cn with
  | true, some c =>
    (s.setStrand o.drover o.strand ((s.strand o.drover o.strand).raise c 1)).wake o.drover o.strand
  | _, _ => s

/-- The class of a transfer's misses; `CLASS` 0x2 of a local transfer runs as bulk, a remote one's is scheduled (R130, R164,
R289). -/
def Op.dramClass (o : Op) : DramClass :=
  if dClass o.desc = 1 then .critical else if o.stream.isSome then .scheduled else .bulk

/-- Make one local write of a chunk; true when an update met a poisoned word (R256). -/
def State.applyPut (s : State) (o : Op) (p : Put) : Bool × State :=
  let wrap := dWrap o.desc
  let stream := dStream o.desc
  match p with
  | .bytes pa bs bad => (s.lostAt pa, if isSiteWin pa then s else s.writeBytes pa bs bad stream o.dramClass)
  | .update k pa v bad =>
    let f := if o.code = .hist then .uint 64 else dDf o.desc
    let (_, b, t) := s.update k f wrap pa v 0 bad stream o.dramClass
    (b, t)
  | .acc pa reg idx v bad => s.accumulate pa reg idx wrap v bad o.dramClass

/-- The bytes a write covers. -/
def Put.span : Put → Nat × Nat
  | .bytes pa bs _ => (pa, bs.length)
  | .update _ pa _ _ => (pa, 8)
  | .acc pa _ _ _ _ => (pa, 1)

/-- Whether two writes of a list cover one byte. -/
def overlap : List Put → Bool
  | [] => false
  | p :: t => t.any (fun q => p.span.1 < q.span.1 + q.span.2 && q.span.1 < p.span.1 + p.span.2) || overlap t

/-- The order in which a chunk's writes take effect: that of its elements, but where two of them cover one byte the spec
defines none, and they begin at a free one (R148; notes/assumptions/141.md). Its sources are read before. -/
def State.putOrder (s : State) (ps : List Put) : List Put :=
  let n := s.freeWord.toNat % ps.length
  if overlap ps then ps.drop n ++ ps.take n else ps

/-- Make the local writes of a chunk. -/
def State.applyPuts (s : State) (o : Op) (ps : List Put) : Bool × State :=
  let t := if overlap ps then s.taken else s
  (s.putOrder ps).foldl (fun r p => let (b, t) := r.2.applyPut o p; (r.1 || b, t)) (false, t)

/-- The site-window writes of a plan: address, bytes, poison. A poisoned write to a site without poison carriage is not
sent (R426). -/
def State.siteWrites (s : State) (ps : List Put) : List (Nat × List Byte × Bool) :=
  ps.filterMap fun
    | .bytes pa bs bad => if isSiteWin pa && !(bad && !s.siteHas (siteOf pa) 8) then some (pa, bs, bad) else none
    | _ => none

/-- Sorted sectors as runs: first sector and count. -/
def runsOf : List Nat → List (Nat × Nat)
  | [] => []
  | a :: t => match runsOf t with
    | (b, n) :: r => if b = a + 1 then (a, n + 1) :: r else (a, 1) :: (b, n) :: r
    | [] => [(a, 1)]

/-- Send the site-window reads of a chunk; none while tags run out. -/
def State.sendReads (s : State) (o : Op) (k : Nat) (spans : List (Nat × Nat)) : Option State :=
  let secs := spans.foldl (fun l p =>
    (List.range ((p.1 + p.2 + 31) / 32 - p.1 / 32)).foldl (fun l i => Nats.ins l (p.1 / 32 + i)) l) []
  let ident := siteIdentity s.device o.logical o.strand (s.tenancy (paddockOf o.drover))
  (runsOf secs).foldl (fun t p => match t with
    | none => none
    | some t => t.siteSpan o.id k false (32 * p.1) (32 * p.2) (if dClass o.desc = 1 then 1 else 0) ident [] []) (some s)

/-- Send the site-window writes of a chunk; none while tags run out. -/
def State.sendWrites (s : State) (o : Op) (k : Nat) (ws : List (Nat × List Byte × Bool)) : Option State :=
  let ident := siteIdentity s.device o.logical o.strand (s.tenancy (paddockOf o.drover))
  ws.foldl (fun t w => match t with
    | none => none
    | some t =>
      let secs := (List.range ((w.1 + w.2.1.length + 31) / 32 - w.1 / 32)).map (· + w.1 / 32)
      t.siteSpan o.id k true w.1 w.2.1.length (if dClass o.desc = 1 then 1 else 0) ident w.2.1
        (if w.2.2 then secs else [])) (some s)

/-- The effect of a plan's lookups and reads on the buffers and the Fold. -/
def State.planReads (s : State) (o : Op) (p : Plan) : State :=
  let s := p.vas.reverse.foldl (fun t v => t.looked o.drover v) s
  let s := p.reads.reverse.foldl (fun t r =>
    if isStack (128 * r.1) then t.ensure r.1 r.2.1 (dStream o.desc) r.2.2 o.dramClass else t) s
  let x := s.drv o.drover
  s.setDrv o.drover { x with rnd := rndAt x.rnd p.draws }

/-- Carry out a chunk that can be written: its local writes, then its commit; one with site-window writes sends them
first, and makes its local writes when the site has answered (R137, R167). -/
def State.carryOut (s : State) (o : Op) (k : Nat) (p : Plan) : State :=
  let ws := s.siteWrites p.puts.reverse
  let o := { o with pa := if hasCount o.code then p.count else o.pa }
  match s.sendWrites o k ws with
  | none => s.setOp { o with chunks := o.chunks ++ [{ num := k, due := true }] }
  | some t =>
    let t := t.planReads o p
    if ws = [] then
      let (b, t) := t.applyPuts o p.puts.reverse
      t.chunkDone { o with poisoned := o.poisoned || p.bad || b } k p.outs p.pos p.split
    else t.setOp { o with
      chunks := o.chunks ++ [{ num := k, sent := true, wrote := true, puts := p.puts.reverse, bad := p.bad, outs := p.outs,
                               next := p.pos, half := p.split }] }

/-- A chunk stops: its bank holds it, and it is due; its status fails the transfer; or it waits on a ticket. Without a
free ticket it waits at the translator and asks again; one that faults while its transfer parks, or has failed, is
abandoned (R167, R168, R173, R324). -/
def State.stopChunk (s : State) (o : Op) (k : Nat) : Stop → State
  | .held => s.setOp { o with chunks := o.chunks ++ [{ num := k, due := true }] }
  | .fails st => s.failXfer o st
  | .miss c va acc pos =>
    if o.phase ≠ .running then s.setOp o
    else
      let s := s.looked o.drover va
      let (tk, s) := s.askTicket (s.asker o 1 o.dn 0) va.toNat c acc.code
      match tk with
      | none => s.setOp o
      | some _ => s.setOp { o with
          chunks := o.chunks ++ [{ num := k, ticket := tk, va := va.toNat, pos, acc := acc.code }] }

/-- A chunk issues: its random bits are fresh, and it stops, asks a site for its sources, or is carried out (R163, R167). -/
def State.tryChunk (s : State) (o : Op) (k : Nat) : State :=
  let o := { o with begun := true, chunks := o.chunks.filter (·.num ≠ k) }
  let x := s.drv o.drover
  let s := if dRnd o.desc = 0 then s else s.setDrv o.drover { x with rnd := Config.rndNext x.rnd }
  match s.plan o k with
  | .error x => s.stopChunk o k x
  | .ok p =>
    if p.sites = [] then s.carryOut o k p
    else match s.sendReads o k p.sites with
      | none => s.setOp o
      | some t => t.setOp { o with chunks := o.chunks ++ [{ num := k, sent := true }] }

/-- Whether a chunk may be issued: in the window, not committed, not out; a set operation issues in order (R133, R186). -/
def Op.mayIssue (o : Op) (k : Nat) : Bool :=
  o.phase = .running && o.mark ≤ k && k < o.n && k < o.mark + 64 &&
    !o.done.contains k && !o.chunks.any (·.num = k) && (!isSetOp o.code || k = o.mark)

/-- Whether a chunk in flight is due to be carried out, which an irregular transfer that no longer runs abandons (R168,
R170, R179). -/
def Op.mayGoOn (o : Op) (k : Nat) : Bool :=
  o.chunks.any (fun c => c.num = k && c.due) && (o.phase = .running || !isIrregular o.code)

/-- A chunk on a ticket looks up again: it waits on a new ticket, or is free to issue (R324, R325). -/
def State.retryChunk (s : State) (o : Op) (k : Nat) : State :=
  let o := { o with chunks := o.chunks.filter (·.num ≠ k) }
  match s.plan o k with
  | .error (.miss c va acc pos) =>
    let (tk, s) := s.askTicket (s.asker o 1 o.dn 0) va.toNat c acc.code
    match tk with
    | none => s.setOp o
    | some _ => s.setOp { o with
        chunks := o.chunks ++ [{ num := k, ticket := tk, va := va.toNat, pos, acc := acc.code }] }
  | _ => s.setOp o

/-! ### Parking (R168, R169, R171) -/

/-- The lowest-numbered chunk that faulted. -/
def Op.faulted (o : Op) : Option Chunk :=
  (o.chunks.filter (·.fault)).foldl (fun b c => match b with
    | none => some c
    | some x => if c.num < x.num then some c else some x) none

/-- A resumed transfer loads its cursor area and runs again (R135, R171). -/
def State.resumeXfer (s : State) (o : Op) : State := s.cursorThen { o with redo := false, faultVa := 0, faultPos := 0, ticket := none }

/-- A transfer finishes parking: chunks in flight are done, those that wait on a ticket are given up and read their sources
again when they issue (R149, R168), its cursor area is written, its Drover's walker firmware is
told (Table 5.5, R325). -/
def State.park (s : State) (o : Op) : State :=
  match o.faulted with
  | none => s
  | some c =>
    let o' := { o with
      phase := .parked, parks := o.parks + 1, everPark := dCursor o.desc ≠ 0, chunks := [], faultVa := c.va,
      faultPos := c.pos, ticket := c.ticket, got := [], buf := [], bufBad := [] }
    let tell (t : State) : State :=
      let t := (t.releaseSel o).setOp o'
      let ask := t.asker o 1 o.dn (dCursor o.desc)
      let t := match c.ticket with
        | some id => t.ringPut (walkerRec ask c.va id 3 c.acc)
        | none => t
      let t := t.pruneTickets
      if o.redo then t.resumeXfer o' else t
    if !o.curOk then tell s
    else match s.cursorServed o with
      | .waits => s
      | .fails st => s.failXfer { o with curOk := false } st
      | .ok => tell (s.writeCursor o' csParked 0 c.va c.pos)

end Sys2Proof.Machine
end

