-- ==== Sys2Proof/Machine/Remote.lean ====
section
/-! DEFINITION. Machine/Remote.lean: `PUT`, `GET`, `RACC`, `RATOM` and `SIGNAL` at their issuer (R120, R376 to R381,
R391 to R403). -/
namespace Sys2Proof.Machine

/-! ### Addresses and wire formats (R392 to R394, Table 10.1) -/

/-- Device and virtual address of a global virtual address. -/
def remoteDev (a : Nat) : Nat := a / 2 ^ 48 % 2 ^ 14
def remoteVa (a : Nat) : Nat := a % 2 ^ 48

/-- The remote side's address: `DST`, of a `GET` `SRC`. -/
def remoteAddr (c : OpCode) (d : Desc) : Nat := if c = .get then dSrc d else dDst d

/-- The wire format: `DFMT` of a `PUT`, else `SFMT` (R394). -/
def wireFmt (c : OpCode) (d : Desc) : Fmt := if c = .put then dDf d else dSf d

/-- Bytes of the one-block row of an MX format on the wire of a `RACC` (notes/assumptions/17.md). -/
def blockRow (f : Fmt) : Nat := 32 + mxArea f

/-- Wire payload bytes of an operation. -/
def payloadBytes (c : OpCode) (d : Desc) : Nat :=
  let f := wireFmt c d
  if c = .racc && f.isMx then dP0 d * dP1 d / 32 * blockRow f else dP1 d * rowBytes f (dP0 d)

/-- N of a remote transfer. -/
def remoteChunks (c : OpCode) (d : Desc) : Nat := ceilDiv (payloadBytes c d) 4096

/-- Whether the remote side is dense (R392). -/
def remoteDense (c : OpCode) (d : Desc) : Bool :=
  let f := if c = .get then dSf d else dDf d
  let st := if c = .get then moveSstr d 0 else moveDstr d 0
  let s0 := st.getD 0 0
  let s1 := st.getD 1 0
  if c = .racc && f.isMx then dP0 d = 32 && (dDims d = 1 || s1 = 64)
  else if f.isMx then dDims d = 1 || s1 = rowBytes f (dP0 d)
  else s0 = f.size && (dDims d = 1 || s1 = (dP0 d * f.size : Nat))

/-- Whether gx's `NOTIFY` is set, its notify target, and its stream (R393). -/
def gxNotify (v : Word) : Bool := bit v 31
def gxStream (v : Word) : Nat := bits v 7 0

/-- The target word of R120 that gx's notify target names. -/
def gxTarget (v : Word) : Word := BitVec.ofNat 64 (bits v 61 32 * 2 ^ 32)

/-- The issue check of a remote transfer: `OK`, `DESC_KIND`, `BAD_DESC` or `MISALIGNED` (R130, R147, R392, R393). -/
def State.checkRemote (s : State) (c : OpCode) (gxv : Word) (dn : Nat) (d : Desc) : Nat :=
  let ctl := dCtl d
  let dev := remoteDev (remoteAddr c d)
  let muls (l : List Int) (a : Nat) : Bool := l.all fun v => v % (a : Int) = 0
  if dKind d ≠ 1 then stDescKind
  else if 1 < dRnd d || dClass d = 3 || bits ctl 34 0 ≠ 0 || (fmtOf? (dSfmt d)).isNone || (fmtOf? (dDfmt d)).isNone ||
      2 < dDims d || dExt d || dAcc d ≠ (if c = .racc then 4 else 0) || !moveOk dn d 0 || !accFmtOk (dAcc d) (dDfmt d) ||
      2 ^ 40 < prodOf (moveSizes d 0) * (dDf d).size || (dCursor d = 0 && (remoteChunks c d ≠ 1 || dAcc d ≠ 0)) ||
      2 ^ 62 ≤ remoteAddr c d || !remoteDense c d ||
      (gxNotify gxv && (c = .get || bits gxv 61 48 ≠ dev)) ||
      (dClass d = 2 && s.rd (Fd.osDest (gxStream gxv)) ≠ dev) then stBadDesc
  else if dCursor d % 64 ≠ 0 || dSrc d % sideAlign (dSf d) ≠ 0 || dDst d % sideAlign (dDf d) ≠ 0 ||
      !muls (moveSstr d 0) (sideAlign (dSf d)) || !muls (moveDstr d 0) (sideAlign (dDf d)) then stMisaligned
  else stOk

/-! ### Chunks -/

/-- Elements of chunk k, or, of an MX wire format, its blocks (as first elements): those whose data starts in the
chunk's bytes. -/
def wireElems (c : OpCode) (d : Desc) (k : Nat) : List Nat :=
  let f := wireFmt c d
  let e := dP0 d * dP1 d
  if f.isMx then
    let off (b : Nat) : Nat :=
      if c = .racc then b * blockRow f
      else 32 * b / dP0 d * rowBytes f (dP0 d) + mxHead (dP0 d) + 32 * b % dP0 d / 32 * mxArea f
    ((List.range (e / 32)).filter fun b => 4096 * k ≤ off b && off b < 4096 * (k + 1)).map (32 * ·)
  else
    let per := 4096 / f.size
    (List.range (min per (e - k * per))).map (· + k * per)

/-- First element of chunk k. -/
def wireFirst (c : OpCode) (d : Desc) (k : Nat) : Nat := (wireElems c d k).headD 0

/-- Payload bytes of chunk k, of a `GET` those asked for. -/
def wireLen (c : OpCode) (d : Desc) (k : Nat) : Nat := min 4096 (payloadBytes c d - 4096 * k)

/-- The address at the target of chunk k (R394): of a `RACC` that of its first element. -/
def chunkAddr (c : OpCode) (d : Desc) (k : Nat) : Nat :=
  let a := remoteVa (remoteAddr c d)
  if c = .racc then
    let t := wireFirst c d k
    if (dDf d).isMx then a + 64 * (t / 32) else a + t * (dDf d).size
  else a + 4096 * k

/-- The bytes of the elements of a block or of one element, as they travel, with its poison. -/
def wireBlock (e : Env) (sz : List Nat) (ss : List Int) (t : Nat) : XM (Nat × List Byte × Bool) := do
  let d := e.o.desc
  let xs ← (List.range 32).mapM fun i => moveElem e sz ss (t + i)
  let bad := xs.any (·.bad)
  match wireFmt e.o.code d with
  | .mx f w emax area =>
    let rnd ← drawBlock e
    let same := decide (e.o.code = .racc ∨ dSfmt d = dDfmt d)
    let (sc, cs) := if same then ((xs.headD ⟨0, 0, .nan false, false⟩).scale, xs.map (·.code))
      else encodeMx f emax rnd (xs.map (·.val))
    pure (sc, packElems w cs area, bad)
  | _ => pure (0, [], bad)

/-- Whether a span meets the bytes of chunk k. -/
def inChunk (k off n : Nat) : Bool := off < 4096 * (k + 1) && 4096 * k < off + n

/-- The payload of chunk k of a `PUT` or `RACC`, and its poisoned sectors (R394). -/
def planSend (e : Env) : XM (List Byte × List Nat) := do
  let c := e.o.code
  let d := e.o.desc
  let sz := moveSizes d 0
  let ss := moveSstr d 0
  let f := wireFmt c d
  let n := dP0 d
  if c = .racc && f.isMx then
    let rows ← (wireElems c d e.k).mapM fun t => wireBlock e sz ss t
    let data := rows.flatMap fun r => toBytes 1 r.1 ++ zeros 31 ++ r.2.1
    let bads := rows.zipIdx.flatMap fun (p : (Nat × List Byte × Bool) × Nat) =>
      if p.1.2.2 then (List.range (ceilDiv (blockRow f) 32 + 1)).map (· + p.2 * blockRow f / 32) else []
    pure (data, bads.foldl Nats.ins [])
  else if f.isMx then
    let len := wireLen c d e.k
    let row := rowBytes f n
    let bs := (List.range (n * dP1 d / 32)).filter fun b =>
      let r := 32 * b / n * row
      let m := 32 * b % n / 32
      inChunk e.k (r + m) 1 || inChunk e.k (r + mxHead n + m * mxArea f) (mxArea f)
    let cells ← bs.mapM fun b => do
      let (sc, area, bad) ← wireBlock e sz ss (32 * b)
      let r := 32 * b / n * row
      let m := 32 * b % n / 32
      pure (((r + m), BitVec.ofNat 8 sc) :: area.zipIdx.map fun (p : Byte × Nat) => (r + mxHead n + m * mxArea f + p.2, p.1),
        bad)
    let mem := cells.foldl (fun m p => p.1.foldl (fun m q => Tab.put blank m q.1 q.2) m) ([] : List Host.Cell)
    let bads := cells.flatMap fun p => if p.2 then p.1.map (·.1) else []
    let mine := bads.filter fun a => inChunk e.k a 1
    pure (Memory.bytes mem (4096 * e.k) len, (mine.map fun a => (a - 4096 * e.k) / 32).foldl Nats.ins [])
  else
    let xs ← (wireElems c d e.k).mapM fun t => do
      let x ← moveElem e sz ss t
      if c = .put then pure (← convertElem e (dSfmt d = dDfmt d) x, x.bad) else pure (x.code, x.bad)
    let data := xs.flatMap fun x => toBytes f.size x.1
    let bads := xs.zipIdx.filterMap fun (p : (Nat × Bool) × Nat) => if p.1.2 then some (p.2 * f.size / 32) else none
    pure (data, bads.foldl Nats.ins [])

/-- A byte of a `GET`'s payload as it came, by its offset. -/
def payByte (o : Op) (off : Nat) : Byte := Memory.read o.buf (siteKey (off / 4096) (off % 4096))
def payBad (o : Op) (off : Nat) : Bool := o.bufBad.contains (secKey (off / 4096) (off % 4096))
def payNum (o : Op) (off n : Nat) : Nat := ofBytes ((List.range n).map fun i => payByte o (off + i))

/-- Element t of a `GET`'s payload. -/
def payElem (o : Op) (t : Nat) : Elem :=
  let d := o.desc
  let n := dP0 d
  match dSf d with
  | .mx g w _ area =>
    let r := t / n * rowBytes (dSf d) n
    let m := t % n / 32
    let a := r + mxHead n + m * area
    let sc := payNum o (r + m) 1
    let x := payNum o a area / 2 ^ (w * (t % 32)) % 2 ^ w
    let bad := payBad o (r + m) || payBad o (a + w * (t % 32) / 8)
    { code := x, scale := sc, val := decodeMx g sc x, bad }
  | f => { code := payNum o (t * f.size) f.size, scale := 0, val := decode f (payNum o (t * f.size) f.size),
           bad := payBad o (t * f.size) }

/-- Write the elements of chunk k of a `GET` to the local side (R394). -/
def planGet (e : Env) : XM Unit := do
  let d := e.o.desc
  let sz := moveSizes d 0
  let ds := moveDstr d 0
  let same := decide (dSfmt d = dDfmt d)
  let ts := wireElems .get d e.k
  let all := if (dSf d).isMx then ts.flatMap fun t => (List.range 32).map (· + t) else ts
  if (dDf d).isMx then
    (List.range (all.length / 32)).forM fun b => do
      let t := all.getD (32 * b) 0
      let is := moveIndex sz t
      let row := vaOf (dDst d + dotIdx (is.drop 1) (ds.drop 1))
      putBlock e t row (sz.headD 32) (is.headD 0 / 32) same ((List.range 32).map fun i => payElem e.o (t + i))
  else
    all.forM fun t => putElem e t (vaOf (dDst d + dotIdx (moveIndex sz t) ds)) same (payElem e.o t)

/-- Chunks of a `GET` whose payload chunk k needs: its own, and of an MX format those of its scale bytes and of the ends
of its element areas. -/
def getNeeds (d : Desc) (k : Nat) : List Nat :=
  let n := dP0 d
  let f := dSf d
  if f.isMx then
    (wireElems .get d k).foldl (fun l t =>
      let r := t / n * rowBytes f n
      let a := r + mxHead n + t % n / 32 * mxArea f
      Nats.ins (Nats.ins l ((r + t % n / 32) / 4096)) ((a + mxArea f - 1) / 4096)) [k]
  else [k]

/-! ### Sending -/

/-- Put a packet where its destination finds it: at this module at once, else on its way (R385, R396). -/
def State.sendRemote (s : State) (flow : Option Nat) (dest : Nat) (record data : List Byte) (poison : List Nat)
    (reply : Bool) (packet : Nat) (start : Word := 0) : State :=
  if dest = s.device then
    let fs := flitsOf 0 dest s.device 0 packet record data poison
    s.setFab { s.fab with arrived := s.fab.arrived ++ [{ src := s.device, packet, flits := fs.zipIdx.map fun (p : Flit × Nat) => (p.2, p.1) }] }
  else s.sendPacket flow dest packet record data poison reply start

/-- A fresh packet number. -/
def State.freshPacket (s : State) : Nat × State :=
  (s.fab.packet, s.setFab { s.fab with packet := (s.fab.packet + 1) % 2 ^ 32 })

/-- The expiry Bell E of a request (R402). -/
def State.expiryBell (s : State) (o : Op) : Word :=
  if o.stream.isSome then o.deadline + BitVec.ofNat 64 (65536 * s.rd Fd.rmtLimitSched)
  else s.bellCount + BitVec.ofNat 64 (65536 * s.rd Fd.rmtLimitBulk)

/-- `OP` of Table 13.2. -/
def roPut : Nat := 1
def roGet : Nat := 2
def roGetReply : Nat := 3
def roRacc : Nat := 4
def roRatom : Nat := 5
def roRatomReply : Nat := 6
def roSignal : Nat := 7
def roSignalReply : Nat := 8
def roAck : Nat := 9

/-- Send the request of chunk k, with its data (R394, R397, R402). -/
def State.sendChunk (s : State) (o : Op) (k : Nat) (data : List Byte) (bads : List Nat) : State :=
  let c := o.code
  let d := o.desc
  let e := s.expiryBell o
  let (pk, s) := s.freshPacket
  let op := if c = .put then roPut else if c = .get then roGet else roRacc
  let fmtCode := if c = .put then dDfmt d else dSfmt d
  let a := if c = .get then wireLen c d k else if gxNotify o.aux then (gxTarget o.aux).toNat else 0
  let rq := remRecord op fmtCode 0 (s.tenancy (paddockOf o.drover)) (gxNotify o.aux) o.stream.isSome (dClass d = 1)
    (e.toNat % 2 ^ 32) (chunkAddr c d k) a 0
  let flow := if o.unlocked then none else o.stream.map fun n => s.rd (Fd.osFlow n)
  let s := s.sendRemote flow (remoteDev (remoteAddr c d)) rq data bads false pk o.start
  s.setOp { o with begun := true, chunks := o.chunks ++ [{ num := k, sent := true, expiry := some e, packet := some (remoteDev (remoteAddr c d), pk) }] }

/-- Work out something of chunk k. -/
def State.planWith {α : Type} (s : State) (o : Op) (k : Nat) (f : Env → XM α) : Except Stop (α × Plan) :=
  (f { s, o, k }).run {}

/-- Write the data of a `GET`'s chunk when every payload chunk it needs has come (R398). -/
def State.landChunk (s : State) (o : Op) (k : Nat) : State :=
  let o := { o with chunks := o.chunks.filter (·.num ≠ k) }
  match s.planWith o k planGet with
  | .error x => s.stopChunk o k x
  | .ok (_, p) => s.carryOut o k p

/-- A chunk of a remote transfer issues: a `PUT` or `RACC` reads its source and leaves, a `GET` asks, or writes what
came (R394). -/
def State.tryRemote (s : State) (o : Op) (k : Nat) : State :=
  let o := { o with chunks := o.chunks.filter (·.num ≠ k) }
  if o.code = .get then
    if (getNeeds o.desc k).all fun q => o.got.contains (secKey q 0) then s.landChunk o k
    else if o.got.contains (secKey k 0) then s.setOp o
    else match s.planWith o k planGet with
      | .error x => s.stopChunk { o with begun := true } k x
      | .ok (_, p) => (s.planReads o { p with reads := [], draws := 0 }).sendChunk o k [] []
  else match s.planWith o k planSend with
    | .error x => s.stopChunk { o with begun := true } k x
    | .ok ((data, bads), p) =>
      if p.sites = [] then
        (s.planReads o p).sendChunk { o with poisoned := o.poisoned || bads ≠ [] } k data bads
      else match s.sendReads o k p.sites with
        | none => s.setOp o
        | some t => t.setOp { o with begun := true, chunks := o.chunks ++ [{ num := k, sent := true }] }

/-! ### Issue -/

/-- 128-byte lines a scheduled operation's target range touches, and its flits (R377). -/
def targetLines (c : OpCode) (d : Desc) : Nat :=
  let a := remoteVa (remoteAddr c d)
  let n := if c = .racc then (if (dDf d).isMx then 64 * dP1 d else dP0 d * dP1 d * (dDf d).size) else payloadBytes c d
  (a + n + 127) / 128 - a / 128
def opFlits (c : OpCode) (d : Desc) : Nat :=
  ((List.range (remoteChunks c d)).map fun k =>
    packetFlits (wireLen c d k) + if c = .get then 1 else 0).sum

/-- Operations of a stream admitted and not delivered. -/
def State.liveOf (s : State) (n : Nat) : Nat := (s.ops.filter fun o => o.stream = some n && o.phase ≠ .served).length

/-- Begin a `PUT`, `GET` or `RACC`: its checks, admission if it is scheduled, then its cursor (R376, R392, R393). -/
def State.beginRemote (s : State) (o : Op) (m : XferOps) : State :=
  let x := s.strand o.drover o.strand
  let d := x.rdd m.dn.toNat
  let gxv := x.rg m.gx.toNat
  let cn := counterOf m.ce m.cn
  let o := { o with dn := m.dn.toNat, gs := m.gs.toNat, cn, desc := d, aux := gxv, hold := [m.gs.toNat],
                    holdD := [m.dn.toNat], issued := s.bellCount }
  let put (t : State) (v : Word) : State :=
    t.setStrand o.drover o.strand ((t.strand o.drover o.strand).wg m.gy.toNat v)
  let st := s.checkRemote o.code gxv m.dn.toNat d
  if st ≠ stOk then (put s 0).finish o st 0 1
  else
    let o := { o with n := remoteChunks o.code d }
    if dClass d ≠ 2 then (put s 0).cursorThen o
    else
      let n := gxStream gxv
      let (a, s) := s.admission n (s.tenancy (paddockOf o.drover)) (opFlits o.code d) (2 * targetLines o.code d)
        (o.code = .get) (s.liveOf n)
      match a with
      | .refused r => (put s 0).finishXfer { o with status := stRefused, reason := r }
      | .admitted dl from_ => (put s (BitVec.ofNat 64 dl)).cursorThen { o with
          stream := some n, deadline := BitVec.ofNat 64 dl, start := BitVec.ofNat 64 from_ }

/-- Send a request of one flit: `RATOM` or `SIGNAL`. -/
def State.sendSmall (s : State) (o : Op) (dest op fmtCode ratom : Nat) (addr : Nat) (a b : Word) : State :=
  let e := s.expiryBell o
  let (pk, s) := s.freshPacket
  let rq := remRecord op fmtCode ratom (s.tenancy (paddockOf o.drover)) false false false (e.toNat % 2 ^ 32) addr
    a.toNat b.toNat
  (s.sendRemote none dest rq [] [] false pk).putOp
    { o with phase := .remote, chunks := [{ num := 0, sent := true, expiry := some e, packet := some (dest, pk) }] }

/-- Begin a `RATOM` of an update code (R395). -/
def State.beginRatom (s : State) (o : Op) (m : MemOps) : State :=
  let x := s.strand o.drover o.strand
  let o := { o with
    va := x.rg m.gp.toNat, val := x.rg m.gv.toNat, cmp := x.rg m.gk.toNat, sub := m.sub.toNat, ga := m.ga.toNat,
    gk := m.gk.toNat, cn := counterOf m.ce m.cn, hold := [m.ga.toNat], holdD := [], issued := s.bellCount }
  let n := (fmtOf o.sub).size
  if o.va.toNat % n ≠ 0 then s.failOp o stMisaligned
  else if 2 ^ 62 ≤ o.va.toNat then s.failOp o stUnmapped
  else
    s.sendSmall o (remoteDev o.va.toNat) roRatom o.sub m.imm.toNat (remoteVa o.va.toNat)
      (BitVec.ofNat 64 (lowBytes n o.val)) (if m.imm = 4 then BitVec.ofNat 64 (lowBytes n o.cmp) else 0)

/-- Begin a `SIGNAL`: at a strand of this module its outcome is fixed at once (R120). -/
def State.beginSignal (s : State) (o : Op) (m : MemOps) : State :=
  let d := o.drover
  let x := s.strand o.drover o.strand
  let w := x.rg m.gp.toNat
  let v := x.rg m.gv.toNat
  let o := { o with va := w, val := v, cn := counterOf m.ce m.cn, hold := [], holdD := [], issued := s.bellCount }
  if !targetWordOk w then s.finish o stBadTarget 0 1
  else if bits w 61 48 = s.device then
    if s.cutFrom (halfOf d) (bits w 47 40) then s.finish o stPoison 0 1 else
    let (st, t) := (s.putOp { o with phase := .served }).signalWord w (v.setWidth 32)
    t.setOp { o with phase := .served, status := st }
  else s.sendSmall o (bits w 61 48) roSignal 0 0 0 w (v &&& 0xFFFFFFFF)

/-! ### Commands: issue -/

/-- Issue of a remote transfer. -/
def State.remoteOp (s : State) (w : Issue) (c : OpCode) (o : XferOps) : State :=
  s.issue w (.xfer c o) 0 fun s =>
    (s.advance w.drover w.strand 8).beginRemote (s.freshOp w.drover w.strand c (xferWord c w.pn w.pg o)) o

/-- PUT: a local region is written to another module's memory (R392). -/
def execKPut (w : Issue) (o : XferOps) (s : State) : Host.Outcome State Fault Refusal := .next (s.remoteOp w .put o)

/-- GET: another module's memory is read into a local region (R392). -/
def execKGet (w : Issue) (o : XferOps) (s : State) : Host.Outcome State Fault Refusal := .next (s.remoteOp w .get o)

/-- RACC: a local region is accumulated into another module's accumulator region (R272, R392). -/
def execKRacc (w : Issue) (o : XferOps) (s : State) : Host.Outcome State Fault Refusal := .next (s.remoteOp w .racc o)

/-- Issue of a `RATOM`; the row's update code is imm16 (Table 13.1, R395). -/
def State.ratomOp (s : State) (w : Issue) (o : MemOps) (code : BitVec 16) : State :=
  let o := { o with imm := code }
  s.issue w (.mem .ratom o) 0 fun s =>
    (s.advance w.drover w.strand 8).beginRatom (s.freshOp w.drover w.strand .ratom (memWord .ratom w.pn w.pg o)) o

def execKRatomAdd (w : Issue) (o : MemOps) (s : State) : Host.Outcome State Fault Refusal := .next (s.ratomOp w o 0)
def execKRatomMin (w : Issue) (o : MemOps) (s : State) : Host.Outcome State Fault Refusal := .next (s.ratomOp w o 1)
def execKRatomMax (w : Issue) (o : MemOps) (s : State) : Host.Outcome State Fault Refusal := .next (s.ratomOp w o 2)
def execKRatomExchange (w : Issue) (o : MemOps) (s : State) : Host.Outcome State Fault Refusal := .next (s.ratomOp w o 3)
def execKRatomCas (w : Issue) (o : MemOps) (s : State) : Host.Outcome State Fault Refusal := .next (s.ratomOp w o 4)

/-- SIGNAL: g[gv] is added to a completion counter of the strand g[gp] names (R120). -/
def execKSignal (w : Issue) (o : MemOps) (s : State) : Host.Outcome State Fault Refusal :=
  .next (s.issue w (.mem .signal o) 0 fun s =>
    (s.advance w.drover w.strand 8).beginSignal (s.freshOp w.drover w.strand .signal (memWord .signal w.pn w.pg o)) o)

/-! ### Commands: replies (R381, R398, R399, R402) -/

/-- Whether a chunk of an operation is out without an answer. -/
def Op.awaits (o : Op) (k : Nat) : Bool := o.chunks.any fun c => c.num = k && c.sent && c.expiry.isSome

/-- The arrived packet that is a reply is taken from the arrivals. -/
def State.takeArrived (s : State) (src packet : Nat) : State :=
  s.setFab { s.fab with arrived := s.fab.arrived.filter fun a => !(a.src = src && a.packet = packet) }

/-- The answer of a chunk, or its absence, is taken: its packet leaves the arrivals and a `TIMEOUT` is counted (Table
13.11; notes/assumptions/37.md). -/
def State.took (s : State) (o : Op) (k st : Nat) : State :=
  let s := match (o.chunks.find? fun c => c.num = k && c.sent).bind (·.packet) with
    | some p => s.takeArrived p.1 p.2
    | none => s
  if st = stTimeout then s.inc Fd.rmtTimeouts 1 else s

/-- Lateness of a delivery (R381). -/
def Op.lateBy (o : Op) (delivery : Word) : Nat :=
  if o.stream.isNone then 0 else max o.lateness (delivery.toNat - o.deadline.toNat)

/-- REMOTE_ACK: an acknowledgement of `PUT` or `RACC` commits its chunk, or fails the transfer (R381, R398, R399). -/
def execRemoteAck (op chunk : Nat) (status : BitVec 16) (delivery : BitVec 64) (s : State) :
    Host.Outcome State Fault Refusal :=
  match s.op? op with
  | none => .next s
  | some o =>
    if !o.awaits chunk || !(o.code = .put || o.code = .racc) then .next s
    else
      let st := status.toNat
      let s := s.took o chunk st
      let noted := gxNotify o.aux && (st = stTargetIdle || st = stAbsent || st = stReset)
      if st = stOk || st = stPoison || noted then
        let o := { o with
          lateness := o.lateBy delivery, poisoned := o.poisoned || st = stPoison,
          note := if noted && o.note = stOk then st else o.note }
        .next (s.chunkDone o chunk 0 0 false)
      else .next (s.failXfer { o with chunks := o.chunks.filter (·.num ≠ chunk) } st)

/-- GET_REPLY: the data of a `GET`'s chunk is written locally, as a chunk in flight also of a transfer that parks or has
failed, or its status fails the transfer (R168, R173, R394, R398). -/
def execGetReply (op chunk : Nat) (status : BitVec 16) (data : List (BitVec 8)) (poison : BitVec 128) (s : State) :
    Host.Outcome State Fault Refusal :=
  match s.op? op with
  | none => .next s
  | some o =>
    if !o.awaits chunk || o.code ≠ .get then .next s
    else
      let st := status.toNat
      let s := s.took o chunk st
      let rest := o.chunks.filter (·.num ≠ chunk)
      if st ≠ stOk ∧ st ≠ stPoison then .next (s.failXfer { o with chunks := rest } st)
      else
        let n := wireLen .get o.desc chunk
        let bs := (data ++ zeros n).take n
        let bads := ((List.range 128).filter poison.getLsbD).map fun i => secKey chunk (32 * i)
        let o := { o with
          chunks := rest, buf := Memory.write o.buf (siteKey chunk 0) bs, bufBad := bads.foldl Nats.ins o.bufBad,
          got := Nats.ins o.got (secKey chunk 0), lateness := o.lateBy (s.bellCount + 1) }
        let s := s.setOp o
        .next ((List.range o.n).foldl (fun t k =>
          match t.op? op with
          | some p =>
            if (k = chunk || p.mayIssue k) && (getNeeds p.desc k).contains chunk &&
                (getNeeds p.desc k).all (fun q => p.got.contains (secKey q 0)) then t.landChunk p k else t
          | none => t) s)

/-- The answer of a `RATOM` or `SIGNAL`: its completion is due with the status and, if `OK`, the old value. -/
def State.answer (s : State) (o : Op) (st : Nat) (old : Word) : State :=
  s.setOp { o with phase := .served, status := st, result := if st = stOk then old else 0, chunks := [] }

/-- RATOM_REPLY: the old value is written to g[ga] and the operation completes (R395, R398); a detached operation's
completion is credited by DETACHED_COMPLETE. -/
def execRatomReply (op : Nat) (status : BitVec 16) (old : BitVec 64) (s : State) : Host.Outcome State Fault Refusal :=
  match s.op? op with
  | none => .next s
  | some o =>
    if o.code ≠ .ratom || o.phase ≠ .remote then .next s
    else if o.detached then .next ((s.took o 0 status.toNat).answer o status.toNat old)
    else .next ((s.took o 0 status.toNat).complete { o with status := status.toNat, result := old })

/-- SIGNAL_REPLY: the issuer's outcome is fixed and the operation completes (R120, R398). -/
def execSignalReply (op : Nat) (status : BitVec 16) (s : State) : Host.Outcome State Fault Refusal :=
  match s.op? op with
  | none => .next s
  | some o =>
    if o.code ≠ .signal || o.phase ≠ .remote then .next s
    else if o.detached then .next ((s.took o 0 status.toNat).answer o status.toNat 0)
    else .next ((s.took o 0 status.toNat).finish o status.toNat 0 1)

/-- ISSUER_REPLY_TIMEOUT: a chunk without a reply by E plus `RETURN` fails its operation with `TIMEOUT` (R402). -/
def execIssuerReplyTimeout (op chunk : Nat) (s : State) : Host.Outcome State Fault Refusal :=
  match s.op? op with
  | none => .next s
  | some o =>
    match o.chunks.find? fun c => c.num = chunk && c.sent with
    | none => .next s
    | some c =>
      match c.expiry with
      | none => .next s
      | some e =>
        if s.bellCount.toNat < e.toNat + s.rd Fd.rmtLimitReturn then .next s
        else
          let s := s.took o chunk stTimeout
          if isXferOp o.code then .next (s.failXfer { o with chunks := o.chunks.filter (·.num ≠ chunk) } stTimeout)
          else if o.detached then .next (s.answer o stTimeout 0)
          else .next (s.failOp o stTimeout)

end Sys2Proof.Machine
end

