-- ==== Sys2Proof/Machine/Inbound.lean ====
section
/-! DEFINITION. Machine/Inbound.lean: requests that arrive from other modules, at their target (R29, R272, R335, R336,
R380, R381, R394 to R402). -/
namespace Sys2Proof.Machine

/-! ### Addresses -/

/-- First addresses of the parts of a span in each 64 KiB granule. -/
def granulesOf (a n : Nat) : List Nat :=
  (List.range ((a + n + 65535) / 65536 - a / 65536)).map fun i => max a (65536 * (a / 65536 + i))

/-- What the inbound buffer of a half answers for an address of a request; one past 48 bits is mapped nowhere (R313,
R335). -/
def State.inLookup (s : State) (h : Nat) (q : InReq) (va : Nat) (acc : Acc) : Xres :=
  if 2 ^ 48 ≤ va then .fails stUnmapped
  else match findXl (s.inboundXl h) q.paddock (va / 65536) with
  | some e => e.judge q.req.ten.toNat va acc
  | none => .miss 1

/-- The outcome of translating every address of a request: virtual address, local address and accumulator code of each
granule, the first miss, or a status. -/
inductive InXl where
  | all (ps : List (Nat × Nat × Nat))
  | miss (va cause : Nat)
  | fails (st : Nat)
  deriving DecidableEq, Repr

/-- Translate the granules of a request in order. -/
def State.inSpan (s : State) (h : Nat) (q : InReq) (acc : Acc) : List Nat → InXl
  | [] => .all []
  | va :: t =>
    match s.inLookup h q va acc with
    | .fails st => .fails st
    | .miss c => .miss va c
    | .hit pa leaf _ =>
      match s.inSpan h q acc t with
      | .all ps => .all ((va, pa, leafAcc leaf) :: ps)
      | r => r

/-- Local address of a virtual address in a translated request. -/
def paIn (ps : List (Nat × Nat × Nat)) (va : Nat) : Nat :=
  match ps.find? fun p => p.1 / 65536 = va / 65536 with
  | some p => p.2.1 / 65536 * 65536 + va % 65536
  | none => 0

/-- Pieces of a payload of n bytes from a virtual address on: cut at granules and, if asked, at payload sectors. Offset
and length of each. -/
def payPieces (a n : Nat) (sectors : Bool) : List (Nat × Nat) :=
  let cuts := ((granulesOf a n).map (· - a)) ++ (if sectors then (List.range ((n + 31) / 32)).map (32 * ·) else [])
  let cuts := cuts.foldl Nats.ins []
  cuts.zipIdx.map fun (p : Nat × Nat) => (p.1, (cuts.getD (p.2 + 1) n) - p.1)

/-! ### Operands -/

/-- Bytes of a `GET` request, at most one chunk. -/
def askedOf (r : RemReq) : Nat := min (bits r.a 31 0) 4096

/-- Values of a `RACC` payload, each with whether a sector it lies in is poisoned (R394). -/
def elemsOf (r : RemReq) : List (Val × Bool) :=
  let bad (a n : Nat) : Bool := (List.range ((a + n + 31) / 32 - a / 32)).any fun i => r.poison.getLsbD (a / 32 + i)
  let num (a n : Nat) : Nat := ofBytes ((r.data.drop a).take n)
  match fmtOf r.fmt.toNat with
  | .mx g w _ area =>
    let row := 32 + area
    (List.range (r.data.length / row)).flatMap fun b =>
      let sc := num (b * row) 1
      (unpackElems w 32 ((r.data.drop (b * row + 32)).take area)).map fun x =>
        (decodeMx g sc x, bad (b * row) row)
  | f => (List.range (r.data.length / f.size)).map fun i =>
      (decode f (num (i * f.size) f.size), bad (i * f.size) f.size)

/-- Virtual address of element t of a `RACC` under a region format, and its index in an MX row (R261, R265). -/
def raccAt (acc a t : Nat) : Nat × Nat :=
  match fmtOf (accFormat acc) with
  | .mx _ _ _ _ => (a + 64 * (t / 32), t % 32)
  | f => (a + t * f.size, 0)

/-- Bytes of the target a `RACC` of n elements touches. -/
def raccSpan (acc n : Nat) : Nat :=
  match fmtOf (accFormat acc) with
  | .mx _ _ _ _ => 64 * ((n + 31) / 32)
  | f => n * f.size

/-- An operand as the wide image takes it (R265; notes/assumptions/39.md). -/
def wideOf (acc : Nat) (v : Val) : Word :=
  BitVec.ofNat 64 (if acc = 0xB then encodeInt 64 true none false v else encodeFloat fp32 none false v)

/-- The update a `RATOM` code names (R395). -/
def ratomKind (k : Nat) : AtomKind :=
  match k with
  | 1 => .min
  | 2 => .max
  | 3 => .xchg
  | 4 => .cas
  | _ => .add

/-! ### The queue and the answers -/

/-- Whether two requests are one: source and packet. -/
def InReq.same (q : InReq) (source packet : Nat) : Bool := q.req.source.toNat = source && q.req.packet.toNat = packet

/-- Inbound tickets that no request holds end (R326). -/
def State.pruneInbound (s : State) : State :=
  s.setXl { s.xl with tickets := s.xl.tickets.filter fun t => t.id / 2 ^ 24 < 16 || s.fab.inbound.any (·.ticket = some t.id) }

/-- Hold a request, in place of itself if it is held. -/
def State.holdIn (s : State) (q : InReq) : State :=
  let same (p : InReq) : Bool := p.same q.req.source.toNat q.req.packet.toNat
  let l := s.fab.inbound
  (s.setFab { s.fab with inbound := if l.any same then updateWhere same (fun _ => q) l else l ++ [q] }).pruneInbound

/-- A request is held no longer. -/
def State.dropIn (s : State) (r : RemReq) : State :=
  (s.setFab { s.fab with inbound := s.fab.inbound.filter fun q => !q.same r.source.toNat r.packet.toNat }).pruneInbound

/-- The inbound stream a scheduled request matches (R380). -/
def State.streamOf (s : State) (r : RemReq) : Option Nat :=
  if r.sched then s.inStream r.source.toNat r.flow.toNat else none

/-- `OP` of the reply to a request (Table 13.2). -/
def replyOp (kind : Nat) : Nat :=
  if kind = roGet then roGetReply else if kind = roRatom then roRatomReply else if kind = roSignal then roSignalReply
  else roAck

/-- Answer a request: status, delivery Bell, old value and data, on the stream's return flow or as bulk (R381, R397). The
record's other fields are the request's (notes/assumptions/38.md). -/
def State.answerIn (s : State) (q : InReq) (st : Nat) (old : Word) (data : List Byte) (poison : List Nat) : State :=
  let s := s.dropIn q.req
  let r := q.req
  let delivery := (s.bellCount.toNat + 1) % 2 ^ 32
  let rec_ := remRecord (replyOp q.kind) r.fmt.toNat r.ratom.toNat r.ten.toNat r.notify r.sched r.latency
    r.expiry.toNat 0 (st + 2 ^ 32 * delivery) old.toNat
  let flow := match s.streamOf r with
    | some n => if s.rd (Fd.isRetFlow n) = 0 then none else some (s.rd (Fd.isRetFlow n))
    | none => none
  s.sendRemote flow r.source.toNat rec_ data poison true r.packet.toNat

/-- The notify of a chunk that was applied: the status that its issuer sees (R399). -/
def State.notifyIn (s : State) (q : InReq) (st : Nat) : Nat × State :=
  if q.req.notify && targetWordOk q.req.a then
    if s.cutFrom (portHalf q.req.port) (bits q.req.a 47 40) then (stPoison, s)
    else
      let (n, s) := s.signalWord q.req.a 1
      (if n = stOk then st else n, s)
  else (st, s)

/-- A chunk is applied whole: its notify, then its answer. -/
def State.appliedIn (s : State) (q : InReq) (st : Nat) : State :=
  let (st, s) := s.notifyIn q st
  s.answerIn q st 0 [] []

/-! ### Applying a request -/

/-- Class of the DRAM requests of a request (R289). -/
def State.inClass (s : State) (r : RemReq) : DramClass :=
  if (s.streamOf r).isSome then .scheduled else if r.latency then .critical else .bulk

/-- Access a request makes. -/
def inAcc (kind : Nat) : Acc := if kind = roPut then .write else if kind = roGet then .read else .update

/-- Status of a translated request that its stream or its region forbids (R272, R380, R401); `OK` when none does. -/
def State.inRefusal (s : State) (q : InReq) (ps : List (Nat × Nat × Nat)) : Nat :=
  let r := q.req
  let acc := (ps.headD (0, 0, 0)).2.2
  let outside := match s.streamOf r with
    | some n => ps.any fun p => isStack p.2.1 && !(s.rd (Fd.isStacks n)).testBit (p.2.1 / 2 ^ 36)
    | none => false
  if outside then stNotPermitted
  else if q.kind = roPut || q.kind = roRatom then
    if ps.any (fun p => p.2.2 ≠ 0) then stAccRegion
    else if q.kind = roRatom && ps.any (fun p => isSiteWin p.2.1) then stNotPermitted
    else if q.kind = roRatom && r.addr.toNat % (fmtOf r.fmt.toNat).size ≠ 0 then stMisaligned
    else stOk
  else if q.kind = roRacc then
    let f := fmtOf (accFormat acc)
    if acc = 0 || ps.any (fun p => p.2.2 ≠ acc) || r.dfmt.toNat ≠ accFormat acc then stAccRegion
    else if f.isMx && r.addr.toNat % 64 ≠ 0 then stAccRegion
    else if !f.isMx && r.addr.toNat % f.size ≠ 0 then stMisaligned
    else stOk
  else stOk

/-- How the banks and sites of every part of a request fare (R29, R401, R427). -/
def State.inServed (s : State) (h : Nat) (ps : List (Nat × Nat × Nat)) (a n : Nat) (kind : Nat) : Served :=
  let u := if kind = roPut then Use.write else if kind = roGet then .read else .update
  (payPieces a n false).foldl (fun (r : Served) p => match r with
    | .ok =>
      let pa := paIn ps (a + p.1)
      if isSiteWin pa then
        let st := s.siteStatus h (siteOf pa)
        if st = stOk then .ok else .fails st
      else if kind = roRacc then
        s.servedSpan h (pa / 128 * 128) ((pa + p.2 + 127) / 128 * 128 - pa / 128 * 128) u
      else s.servedSpan h pa p.2 u
    | r => r) .ok

/-- Send the parts of a request that lie in site windows; none while a site has no free tag (R427). -/
def State.inToSites (s : State) (q : InReq) (ps : List (Nat × Nat × Nat)) (a n : Nat) (wr : Bool) : Option State :=
  let r := q.req
  let ident := siteIdentity r.source.toNat 0xFF 0 r.ten.toNat
  (payPieces a n (wr && r.poison ≠ 0)).foldl (fun t p => match t with
    | none => none
    | some t =>
      let pa := paIn ps (a + p.1)
      let bad := wr && r.poison.getLsbD (p.1 / 32)
      if !isSiteWin pa || (bad && !t.siteHas (siteOf pa) 8) then some t
      else
        let secs := if bad then (List.range ((pa + p.2 + 31) / 32 - pa / 32)).map (· + pa / 32) else []
        t.siteSpan p.1 pa wr pa p.2 (b2n r.latency) ident ((r.data.drop p.1).take p.2) secs
          (some (r.source.toNat, r.packet.toNat))) (some s)

/-- Write the parts of a `PUT` in module-local memory; true when a lost channel discarded one. -/
def State.inWrite (s : State) (r : RemReq) (ps : List (Nat × Nat × Nat)) : Bool × State :=
  let a := r.addr.toNat
  (payPieces a r.data.length (r.poison ≠ 0)).foldl (fun (t : Bool × State) p =>
    let pa := paIn ps (a + p.1)
    if isSiteWin pa then t
    else (t.1 || t.2.lostAt pa,
      t.2.writeBytes pa ((r.data.drop p.1).take p.2) (r.poison.getLsbD (p.1 / 32)) false (s.inClass r))) (false, s)

/-- Read the parts of a `GET` in module-local memory into a request's buffer, by offset. -/
def State.inRead (s : State) (q : InReq) (ps : List (Nat × Nat × Nat)) : InReq × State :=
  let a := q.req.addr.toNat
  (payPieces a (askedOf q.req) false).foldl (fun (t : InReq × State) p =>
    let pa := paIn ps (a + p.1)
    if isSiteWin pa then t
    else
      let bads := (List.range p.2).filter fun i => t.2.readBad (pa + i)
      ({ t.1 with
          buf := Memory.write t.1.buf p.1 (t.2.readBytes pa p.2)
          bad := bads.foldl (fun l i => Nats.ins l ((p.1 + i) / 32)) t.1.bad },
        t.2.touch pa p.2 false false (s.inClass q.req))) (q, s)

/-- A `GET` whose data has all come is answered. -/
def State.getDone (s : State) (q : InReq) : State :=
  let n := (askedOf q.req)
  if q.st ≠ stOk && q.st ≠ stPoison then s.answerIn q q.st 0 [] []
  else
    s.answerIn q (if q.bad ≠ [] then stPoison else q.st) 0 (Memory.bytes q.buf 0 n) q.bad

/-- Apply a request every address of which has translated (R335, R398). -/
def State.applyIn (s : State) (q : InReq) (ps : List (Nat × Nat × Nat)) : State :=
  let r := q.req
  let a := r.addr.toNat
  let sites := ps.any fun p => isSiteWin p.2.1
  if q.kind = roPut then
    match (if sites then s.inToSites q ps a r.data.length true else some s) with
    | none => s.holdIn { q with ticket := none }
    | some s =>
      let (lost, s) := s.inWrite r ps
      let st := if lost || r.poison ≠ 0 then stPoison else stOk
      if s.siteReqs.any (·.inb = some (r.source.toNat, r.packet.toNat)) then s.holdIn { q with ticket := none, atSite := true, st }
      else s.appliedIn q st
  else if q.kind = roGet then
    match (if sites then s.inToSites q ps a (askedOf r) false else some s) with
    | none => s.holdIn { q with ticket := none }
    | some s =>
      let (q, s) := s.inRead q ps
      if sites then s.holdIn { q with ticket := none, atSite := true } else s.getDone q
  else if q.kind = roRatom then
    let f := fmtOf r.fmt.toNat
    let (m, bad, s) := s.update (ratomKind r.ratom.toNat) f false (paIn ps a) (lowBytes f.size r.a) (lowBytes f.size r.b)
      false false (s.inClass r)
    s.answerIn q (if bad then stPoison else stOk) (if bad then 0 else BitVec.ofNat 64 m) [] []
  else
    let acc := (ps.headD (0, 0, 0)).2.2
    let step (t : Bool × State) (e : (Val × Bool) × Nat) : Bool × State :=
      let (va, i) := raccAt acc a e.2
      let (b, u) := t.2.accumulate (paIn ps va) acc i false (wideOf acc e.1.1) e.1.2 (s.inClass r)
      (t.1 || b || e.1.2, u)
    let (bad, s) := (elemsOf r).zipIdx.foldl step (false, s)
    s.appliedIn q (if bad then stPoison else stOk)

/-- Bytes at the target that a request touches; of a `RACC` they follow its region's format. -/
def State.inBytes (s : State) (h : Nat) (q : InReq) : Nat :=
  let r := q.req
  if q.kind = roPut then r.data.length
  else if q.kind = roGet then (askedOf r)
  else if q.kind = roRatom then (fmtOf r.fmt.toNat).size
  else match s.inLookup h q r.addr.toNat .update with
    | .hit _ leaf _ => if leafAcc leaf = 0 then 1 else raccSpan (leafAcc leaf) (elemsOf r).length
    | _ => 1

/-- A request looks up, waits, or is applied; expired, it is answered `TIMEOUT` and nothing is applied (R335, R336,
R402). -/
def State.serveIn (s : State) (q : InReq) : State :=
  let r := q.req
  let h := portHalf r.port
  if q.expiry.toNat ≤ s.bellCount.toNat then s.answerIn q stTimeout 0 [] []
  else
    let n := s.inBytes h q
    let gs := granulesOf r.addr.toNat n
    match s.inSpan h q (inAcc q.kind) gs with
    | .fails st => s.answerIn q st 0 [] []
    | .miss va cause =>
      let ask : Asker := { source := 0x10 + h, paddock := q.paddock, kind := 4, ten := r.ten.toNat, extra := r.source.toNat,
                           sched := (s.streamOf r).isSome }
      let (tk, s) := s.askTicket ask va cause (inAcc q.kind).code
      s.holdIn { q with ticket := tk }
    | .all ps =>
      let s := gs.foldl (fun t va => t.setInbound h (markXl (t.inboundXl h) q.paddock (va / 65536))) s
      let st := s.inRefusal q ps
      if st ≠ stOk then s.answerIn q st 0 [] []
      else match s.inServed h ps r.addr.toNat n q.kind with
        | .fails st => s.answerIn q st 0 [] []
        | .waits => s.holdIn { q with ticket := none }
        | .ok => s.applyIn q ps

/-- Requests held at Pen boundaries and banks try again, in arrival order. -/
def State.retryIn (s : State) : State :=
  (s.fab.inbound.filter fun q => q.ticket.isNone && !q.atSite).foldl (fun t q => t.serveIn q) s

/-- Requests on a ticket look up again. -/
def State.lookupIn (s : State) (id : Nat) : State :=
  (s.fab.inbound.filter (·.ticket = some id)).foldl (fun t q => t.serveIn { q with ticket := none }) s

/-- Requests on a ticket end with a status. -/
def State.failIn (s : State) (id st : Nat) (only : InReq → Bool) : State :=
  (s.fab.inbound.filter fun q => q.ticket = some id && only q).foldl (fun t q => t.answerIn q st 0 [] []) s

/-- The Paddock of the enabled context whose tenancy a request carries (R335). -/
def State.ctxOf (s : State) (ten : Nat) : Option Nat :=
  (List.range 4).find? fun k => s.flag (Fd.xlatCtxEn k) && s.tenancy k = ten

/-- The expiry Bell that the low 32 bits of a record name: the one nearest to the present count. -/
def State.fullBell (s : State) (low : BitVec 32) : Word := s.bellCount + sext (low - s.bellCount.setWidth 32)

/-- Whether a request's fields are ones an issuer may send (R391 to R395). -/
def reqOk (kind : Nat) (r : RemReq) : Bool :=
  if kind = roRatom then r.ratom.toNat ≤ 4 && atomicFmtOk (r.ratom.toNat ≤ 2) r.fmt.toNat
  else if kind = roSignal then true
  else (fmtOf? r.fmt.toNat).isSome && r.data.length ≤ 4096

/-- A request arrives at its target (R401): no module in P3 or P4 answers; before `READY` and
while a lifecycle transition zeroises it is answered `RESET`, in P2 `ASLEEP` (R485, R541). One that no issuer may send is
refused (R6). -/
def State.inboundReq (s : State) (kind : Nat) (r : RemReq) : State :=
  let s := s.takeArrived r.source.toNat r.packet.toNat
  let q : InReq := { kind, req := r, paddock := 0, ticket := none, expiry := s.fullBell r.expiry }
  if s.dark || s.fab.inbound.any (·.same r.source.toNat r.packet.toNat) then s
  else if !s.flag Fd.modStatusReady || s.crook.zeroing then s.answerIn q stReset 0 [] []
  else if s.rd Fd.pwrStatusState = 2 then s.answerIn q stAsleep 0 [] []
  else if !reqOk kind r then s.answerIn q stNotPermitted 0 [] []
  else if q.expiry.toNat ≤ s.bellCount.toNat then s.answerIn q stTimeout 0 [] []
  else if kind = roSignal then
    if !targetWordOk r.a then s.answerIn q stBadTarget 0 [] []
    else if s.cutFrom (portHalf r.port) (bits r.a 47 40) then s.answerIn q stPoison 0 [] []
    else
      let (st, s) := s.signalWord r.a (r.b.setWidth 32)
      s.answerIn q st 0 [] []
  else match s.ctxOf r.ten.toNat with
    | none => s.answerIn q stNotPermitted 0 [] []
    | some k => s.serveIn { q with paddock := k }

/-! ### Commands -/

/-- INBOUND_PUT: the chunk is translated whole, written at its home banks, notified and acknowledged. -/
def execInboundPut (r : RemReq) (s : State) : Host.Outcome State Fault Refusal := .next (s.inboundReq roPut r)
/-- INBOUND_GET: the chunk is read at its home banks and returned. -/
def execInboundGet (r : RemReq) (s : State) : Host.Outcome State Fault Refusal := .next (s.inboundReq roGet r)
/-- INBOUND_RACC: the chunk's elements are accumulated at their home banks. -/
def execInboundRacc (r : RemReq) (s : State) : Host.Outcome State Fault Refusal := .next (s.inboundReq roRacc r)
/-- INBOUND_RATOM: one scalar update at the home bank, answered with the old value. -/
def execInboundRatom (r : RemReq) (s : State) : Host.Outcome State Fault Refusal := .next (s.inboundReq roRatom r)
/-- INBOUND_SIGNAL: a completion counter is raised under Table 4.9. -/
def execInboundSignal (r : RemReq) (s : State) : Host.Outcome State Fault Refusal := .next (s.inboundReq roSignal r)

/-- REQUEST_EXPIRY: a request still waiting at E is discarded and answered `TIMEOUT` (R402). -/
def execRequestExpiry (source : BitVec 14) (packet : BitVec 32) (s : State) : Host.Outcome State Fault Refusal :=
  match s.fab.inbound.find? (·.same source.toNat packet.toNat) with
  | none => .next s
  | some q =>
    if q.atSite || s.bellCount.toNat < q.expiry.toNat then .next s
    else .next (s.answerIn q stTimeout 0 [] [])

end Sys2Proof.Machine
end

