-- ==== Sys2Proof/Machine/KeisXfer.lean ====
section
/-! DEFINITION. Machine/KeisXfer.lean: issue of the transfers on local memory, `AT`, and the commands that carry
operations to their end (R86, R124, R138, R144 to R199). -/
namespace Sys2Proof.Machine

/-! ### Issue of transfers (R144, R145, R175, R198) -/

/-- Issue of a transfer; a `TOPK` waits at issue while its Drover's selection store is held. -/
def State.xferOp (s : State) (w : Issue) (c : OpCode) (o : XferOps) : State :=
  s.issue w (.xfer c o) 0 fun s =>
    (s.advance w.drover w.strand 8).beginXfer (s.freshOp w.drover w.strand c (xferWord c w.pn w.pg o)) o.gx.toNat o

/-- MOVE: a dense array of up to five dimensions is copied with conversion (R150). -/
def execKMove (w : Issue) (o : XferOps) (s : State) : Host.Outcome State Fault Refusal := .next (s.xferOp w .move o)
/-- GATHER: indexed table rows go to a linear destination (R154). -/
def execKGather (w : Issue) (o : XferOps) (s : State) : Host.Outcome State Fault Refusal := .next (s.xferOp w .gather o)
/-- SCATTER: linear rows go to indexed table rows (R155). -/
def execKScatter (w : Issue) (o : XferOps) (s : State) : Host.Outcome State Fault Refusal := .next (s.xferOp w .scatter o)
/-- GRAZE: 32-byte sectors are gathered through the Graze path (R157). -/
def execKGraze (w : Issue) (o : XferOps) (s : State) : Host.Outcome State Fault Refusal := .next (s.xferOp w .graze o)
/-- COMPACT: the elements whose mask bit is 1 are copied in input order (R160). -/
def execKCompact (w : Issue) (o : XferOps) (s : State) : Host.Outcome State Fault Refusal := .next (s.xferOp w .compact o)
/-- ISECT: the intersection of two key lists (R183). -/
def execKIsect (w : Issue) (o : XferOps) (s : State) : Host.Outcome State Fault Refusal := .next (s.xferOp w .isect o)
/-- UNION: the union of two key lists (R183). -/
def execKUnion (w : Issue) (o : XferOps) (s : State) : Host.Outcome State Fault Refusal := .next (s.xferOp w .union o)
/-- MERGE: both key lists merged (R183). -/
def execKMerge (w : Issue) (o : XferOps) (s : State) : Host.Outcome State Fault Refusal := .next (s.xferOp w .merge o)
/-- SEGRED with code 0x00: the sum of each segment's rows; the row names the code (R175, R188). -/
def execKSegredSum (w : Issue) (o : XferOps) (s : State) : Host.Outcome State Fault Refusal :=
  .next (s.xferOp w .segred { o with gx := 0 })
/-- SEGRED with code 0x01: the minimum over each segment (R188). -/
def execKSegredMin (w : Issue) (o : XferOps) (s : State) : Host.Outcome State Fault Refusal :=
  .next (s.xferOp w .segred { o with gx := 1 })
/-- SEGRED with code 0x02: the maximum over each segment (R188). -/
def execKSegredMax (w : Issue) (o : XferOps) (s : State) : Host.Outcome State Fault Refusal :=
  .next (s.xferOp w .segred { o with gx := 2 })
/-- SEGRED with code 0x03: the mean of each segment (R188). -/
def execKSegredMean (w : Issue) (o : XferOps) (s : State) : Host.Outcome State Fault Refusal :=
  .next (s.xferOp w .segred { o with gx := 3 })
/-- EBAG: weighted indexed rows are pooled into one output row (R191). -/
def execKEbag (w : Issue) (o : XferOps) (s : State) : Host.Outcome State Fault Refusal := .next (s.xferOp w .ebag o)
/-- HIST: keys are counted into bins with 64-bit adds at the banks (R194). -/
def execKHist (w : Issue) (o : XferOps) (s : State) : Host.Outcome State Fault Refusal := .next (s.xferOp w .hist o)
/-- TOPK with code 0x00: the K largest values (R197). -/
def execKTopkLargest (w : Issue) (o : XferOps) (s : State) : Host.Outcome State Fault Refusal :=
  .next (s.xferOp w .topk { o with gx := 0 })
/-- TOPK with code 0x01: the K smallest values (R197). -/
def execKTopkSmallest (w : Issue) (o : XferOps) (s : State) : Host.Outcome State Fault Refusal :=
  .next (s.xferOp w .topk { o with gx := 1 })

/-! ### AT (R124) -/

/-- Begin the operation of a pair, its operands read now. -/
def State.beginPair (s : State) (o : Op) (p : PairOp) : State :=
  let o := { o with phase := .ready, pair := none }
  match p with
  | .other _ => s
  | .xfer c _ m =>
    if c = .dld || c = .dst then s.beginDesc o m
    else if isRemoteOp c then s.beginRemote o m
    else s.beginXfer o m.gx.toNat m
  | .mem c _ m =>
    if c = .ratom then s.beginRatom o m
    else if c = .signal then s.beginSignal o m
    else s.beginMem o m

/-- The lead of a target over the count, as a signed distance: a target behind the count, one that g[ga] + imm32 wraps
below 0 included, has a negative lead (DEDUCED, notes/assumptions/138.md). -/
def State.lead (s : State) (at_ : Word) : Int := (at_ - s.bellCount).toInt

/-- AT: its pair is held in the Pen's Bell queue for Bell T, or completes at once with `UNLOCKED`, `BELL_NEAR` or
`BELL_FAR`, not issued. The two words are 16 bytes (R124). A full queue stalls the strand. -/
def execKAt (w : Issue) (o : SyncOps) (second : PairOp) (s : State) : Host.Outcome State Fault Refusal :=
  let d := w.drover.val
  let t := w.strand.val
  .next (s.issue w (.sync .at_ o) (pairWord second) fun s =>
    let p := pairOfWord (pairWord second)
    let x := s.strand d t
    let at_ := x.rg o.ga.toNat + sext o.imm
    let s := s.advance d t 16
    let op := { s.freshOp d t (pairCode p) (pairWord p) with
      phase := .held at_ 0, pair := some p, cn := pairCn p, gs := pairGs p, hold := pairG p, holdD := pairD x p }
    if s.bellState = bsUnlocked then s.finish op stUnlocked 0 1
    else if s.lead at_ < 2 then s.finish op stBellNear 0 1
    else if 1048576 < s.lead at_ then s.finish op stBellFar 0 1
    else s.putOp op)

/-- A held pair issues once the count has reached T. -/
def State.pairDue (s : State) (op : Nat) : State :=
  match s.op? op with
  | none => s
  | some o =>
    match o.phase, o.pair with
    | .held at_ _, some p => if s.bellCount.toNat < at_.toNat then s else (s.beginPair o p).wake o.drover o.strand
    | _, _ => s

/-- At a boundary every held pair that is due issues, oldest first (R61, R124). -/
def State.pairsDue (s : State) : State := (s.ops.filter (·.isHeld)).foldl (fun t o => t.pairDue o.id) s

/-- AT_ISSUE: a held pair issues at the boundary where the count has reached T (R124). -/
def execAtIssue (op : Nat) (s : State) : Host.Outcome State Fault Refusal := .next (s.pairDue op)

/-! ### Operations on their way (R138, R167, R168) -/

/-- Restored operations take the tags that have come free, in order (R73). -/
def State.giveTags (s : State) : State :=
  (s.ops.filter fun o => o.phase = .untagged).foldl (fun t o =>
    if !t.tagFree o.drover o.strand then t
    else
      let o := { o with phase := .ready }
      if isXferOp o.code then (t.setOp o).cursorThen o else ((t.setOp o).translate o).wake o.drover o.strand) s

/-- Requests that wait for a tag, beyond a Pen's 64 tickets, or for a fault slot, try again where they may (R73, R324,
R327). -/
def State.askAgain (s : State) : State :=
  let s := s.giveTags
  (s.ops.filter fun o => o.phase = .missed && o.ticket.isNone && o.curTick.isNone).foldl (fun t q =>
    match t.op? q.id with
    | none => t
    | some o =>
      if 64 ≤ (t.ticketsOf (penOf o.drover)).length then t
      else if isXferOp o.code then t.cursorThen o
      else if takesSlot o.code && !o.slotted && t.slotTaken o.drover o.strand then t
      else t.translate o) s


/-- The access of an operation that is ready, and its completion if it has one. -/
def State.serveOp (s : State) (o : Op) : State :=
  if o.code = .frange || o.code = .settle then s.joinRange o
  else if o.atSite && o.code ≠ .ttouch then s.toSite o
  else match s.perform o with
    | none => s
    | some t => match t.op? o.id with
      | some p => t.complete p
      | none => t

/-- OPERATION_COMPLETE: an operation whose access is due makes it, and one whose completion is due completes with one
status; what waits on it is released, and an operation waiting for the fault slot takes it (R138 to R141, R327). -/
def execOperationComplete (op : Nat) (s : State) : Host.Outcome State Fault Refusal :=
  match s.op? op with
  | none => .next s
  | some o =>
    if o.detached && !o.lost then .next s
    else match o.phase with
      | .ready => .next ((s.serveOp o).slotFreed o.drover o.strand)
      | .served =>
        if isXferOp o.code then .next (s.completeXfer o)
        else if o.code = .signal then .next (s.finish o o.status 0 1)
        else .next ((s.complete o).slotFreed o.drover o.strand)
      | _ => .next s

/-- CHUNK_COMMIT: a chunk of a transfer issues and commits, or waits; a chunk in flight goes on while its transfer parks,
drains or is saved, and no other issues then (R133, R167, R168, R170, R179). -/
def execChunkCommit (op : Nat) (chunk : Nat) (s : State) : Host.Outcome State Fault Refusal :=
  match s.op? op with
  | none => .next s
  | some o =>
    let saving := (s.strand o.drover o.strand).phase = phSaving && !o.detached
    if !(o.mayGoOn chunk && !(saving && isIrregular o.code)) && !(o.mayIssue chunk && !saving) then .next s
    else if isRemoteOp o.code then .next (s.tryRemote o chunk)
    else .next (s.tryChunk o chunk)

/-- TRANSFER_PARK: a transfer with a faulted chunk has drained and is parked (R168, R325). -/
def execTransferPark (op : Nat) (s : State) : Host.Outcome State Fault Refusal :=
  match s.op? op with
  | none => .next s
  | some o => if o.phase ≠ .parking || o.flying then .next s else .next (s.park o)

/-- SELECTION_STORE_GRANT: a waiting `TOPK` takes its Drover's selection store and scans (R198). -/
def execSelectionStoreGrant (drover : Fin 128) (op : Nat) (s : State) : Host.Outcome State Fault Refusal :=
  match s.op? op with
  | none => .next s
  | some o =>
    if o.drover ≠ drover.val || o.phase ≠ .selecting || (s.drv drover).selHold.isSome then .next s
    else .next ((s.setOp { o with phase := .running }).takeSel o)

/-- DETACHED_COMPLETE: a detached operation that has ended credits its counter in the context area and lowers the
detached count there, by adds at the bank, which may hold them (R86). -/
def execDetachedComplete (op : Nat) (s : State) : Host.Outcome State Fault Refusal :=
  match s.op? op with
  | none => .next s
  | some o =>
    if !o.detached || o.lost || !(o.phase = .served || (o.code = .ttouch && o.phase = .ready)) || o.flying then .next s
    else match s.servedSpan (halfOf o.drover) (o.ctxAt + 0x540) 0x78 .update with
      | .waits => .next s
      | .fails _ => .next ((s.dropOp op).pruneTickets)
      | .ok =>
        let s := match o.cn with
          | some c => (s.update .add (.uint 32) false (o.ctxAt + 0x540 + 4 * c) o.owed 0 false false).2.2
          | none => s
        .next (((s.update .add (.uint 64) false (o.ctxAt + 0x5B0) (2 ^ 64 - 1) 0 false false).2.2.dropOp op).pruneTickets)

end Sys2Proof.Machine
end

