-- ==== Sys2Proof/Machine/Mailbox.lean ====
section
/-! DEFINITION. Machine/Mailbox.lean: the 64 mailboxes (R459 to R465). -/
namespace Sys2Proof.Machine

def State.mbox (s : State) (m : Nat) : Mbox := Tab.get (fun _ => {}) s.mboxes m
def State.setMbox (s : State) (m : Nat) (x : Mbox) : State := { s with mboxes := Tab.put (fun _ => {}) s.mboxes m x }

/-! ### Registers of a mailbox (R460, Table 15.6) -/

def mfLen (m : Nat) : Fld := Fd.mboxCtlLen (m / 8) (m % 8)
def mfCollision (m : Nat) : Fld := Fd.mboxCtlCollision (m / 8) (m % 8)
def mfState (m : Nat) : Fld := Fd.mboxCtlState (m / 8) (m % 8)
def mfResult (m : Nat) : Fld := Fd.mboxCtlResult (m / 8) (m % 8)
def mfPosts (m : Nat) : Fld := Fd.mboxCtlPosts (m / 8) (m % 8)
def mfFrom (m : Nat) : Fld := Fd.mboxFrom (m / 8) (m % 8)

def msEmpty : Nat := 0
def msFull : Nat := 1
def msSending : Nat := 2
def msHeld : Nat := 3

def mrOk : Nat := 0
def mrAborted : Nat := 1
def mrOverwritten : Nat := 2
def mrBadLen : Nat := 3
def mrSite : Nat := 4
def mrTimeout : Nat := 5
def mrNoSite : Nat := 6

/-- The site an outbound mailbox delivers to (Table 15.4). -/
def mboxSite (m : Nat) : Option Nat :=
  if 32 ≤ m ∧ m < 48 then some ((m - 32) / 4) else if 60 ≤ m then some (m - 60) else none

/-- Whether a mailbox is of the system class. -/
def mboxSystem (m : Nat) : Bool := 48 ≤ m

/-- Data registers 0 to n - 1. -/
def State.mboxRegs (s : State) (m n : Nat) : List Word := (List.range n).map fun r => s.reg (Fd.mboxData m r).addr

/-- Write data registers from 0. -/
def State.setMboxRegs (s : State) (m : Nat) (ws : List Word) : State :=
  ws.zipIdx.foldl (fun t p => t.setReg (Fd.mboxData m p.2).addr p.1) s

/-- Sender identities (R461). -/
def senderSite (k bundle tag : Nat) : Nat := 2 ^ 44 + 2 ^ 40 * k + 2 ^ 35 * bundle + 2 ^ 19 * tag + 2 ^ 13 * 0x3F
def senderCore (c : Nat) : Nat := 2 * 2 ^ 44 + 2 ^ 40 * c
def senderCrook : Nat := 3 * 2 ^ 44
def senderDfp (session : Nat) : Nat := 4 * 2 ^ 44 + 2 ^ 8 * session

/-! ### Towards the management cores (R462, R463) -/

/-- The post a mailbox holds completes: `RESULT`, and the site that made it is answered. -/
def State.postEnds (s : State) (m res : Nat) : State :=
  let x := s.mbox m
  let s := (s.wr (mfResult m) res).setMbox m { x with poster := none }
  match x.poster with
  | some (k, j, tag) => s.siteDone k j tag stOk (BitVec.ofNat 64 res)
  | none => s

/-- A post is accepted: it overwrites what a full mailbox holds. -/
def State.postIn (s : State) (m : Nat) (ws : List Word) (sender : Nat) (poster : Option (Nat × Nat × Nat)) : State :=
  let s := if s.rd (mfState m) = msFull then (s.postEnds m mrOverwritten).wr (mfCollision m) 1 else s
  let s := (((s.setMboxRegs m ws).wr (mfLen m) ws.length).wr (mfFrom m) sender).wr (mfState m) msFull
  ((s.inc (mfPosts m) 1).setMbox m { s.mbox m with poster }).irq (64 + m)

/-- MBOX_ACK: a full mailbox empties and its post completes with `OK`. -/
def execMboxAck (m : Fin 64) (s : State) : Host.Outcome State Fault Refusal :=
  if s.down.isNone && s.rd (mfState m) = msFull then .next ((s.postEnds m mrOk).wr (mfState m) msEmpty) else .next s

/-! ### Towards a site (R464, R465) -/

/-- Send the post of an outbound mailbox; it waits for a free tag. -/
def State.mboxSend (s : State) (m k : Nat) : State :=
  match (s.mbox m).sending, s.freeTag k, s.requestBundle k with
  | some p, some tag, some j =>
    let data := padSectors (p.regs.flatMap fun w => toBytes 8 w.toNat)
    let q : SiteReq := { site := k, tag, op := 0, chunk := 0, write := true, addr := 0, bytes := data.length, mbox := some m,
                         sent := s.bellCount }
    let c : SiteOut := { cmd := 0x83, tag, status := 0, cls := 0, len := data.length / 32 - 1, addr := 0,
                         aux := BitVec.ofNat 64 (m + 2 ^ 6 * (p.regs.length - 1) + 2 ^ 16 * p.sender), poison := 0, data }
    ({ s with siteReqs := s.siteReqs ++ [q] }.wr (mfState m) msSending).sendSlp k j (slpPackets 2 c)
  | some _, _, _ => s.wr (mfState m) msSending
  | none, _, _ => s

/-- A post begins its way: sent, held for a site not running, or completed at once. -/
def State.mboxStart (s : State) (m k : Nat) (p : MboxPost) : State :=
  let st := s.rd (Fd.siteStatusState k)
  if st = ssUnpopulated ∨ st = ssHsFailed then s.wr (mfResult m) mrNoSite
  else if st ≠ ssRunning ∨ s.resetPaddocks.contains k then
    if mboxSystem m then (s.setMbox m { s.mbox m with sending := some p, again := true }).wr (mfState m) msHeld
    else s.wr (mfResult m) mrAborted
  else if !s.siteHas k 5 then s.wr (mfResult m) mrNoSite
  else (s.setMbox m { s.mbox m with sending := some p }).mboxSend m k

/-- The outstanding post completes, and the waiting one is sent. -/
def State.mboxDone (s : State) (m k res : Nat) : State :=
  let x := s.mbox m
  let s := ((s.setMbox m { x with sending := none, waiting := none, again := false }).wr (mfResult m) res).wr (mfState m) msEmpty
  match x.waiting with
  | some p => s.mboxStart m k p
  | none => s

/-- A `GO` on an outbound mailbox. -/
def State.mboxOut (s : State) (m k : Nat) (ws : List Word) (sender : Nat) : State :=
  let p : MboxPost := { regs := ws, sender }
  let s := ((s.wr (mfLen m) ws.length).wr (mfFrom m) sender).inc (mfPosts m) 1
  let x := s.mbox m
  if x.sending.isSome then
    let s := if x.waiting.isSome then s.wr (mfResult m) mrOverwritten else s
    (s.setMbox m { x with waiting := some p }).wr (mfCollision m) 1
  else s.mboxStart m k p

/-- The reply to a `SW_MAILBOX`, or its want (R427, R464): a system post once held is sent again at the next Round. -/
def State.mboxReply (s : State) (m k status : Nat) : State :=
  if status = stTimeout ∧ mboxSystem m ∧ (s.mbox m).again then s.wr (mfState m) msHeld
  else s.mboxDone m k (if status = stOk then mrOk else if status = stTimeout then mrTimeout else mrSite)

/-- Outbound mailboxes. -/
def outMboxes : List Nat := (List.range 64).filter fun m => (mboxSite m).isSome

/-- At a boundary: posts that wait for a tag are tried, and each Round those held for a running site (R465). -/
def State.mboxRetry (s : State) : State :=
  outMboxes.foldl (fun t m => match mboxSite m with
    | none => t
    | some k =>
      let due := t.rd (mfState m) = msSending || (t.rd (mfState m) = msHeld && decide (t.bellCount.toNat % 65536 = 0))
      if due && (t.mbox m).sending.isSome && !t.siteReqs.any (fun q => q.mbox = some m) &&
          decide (t.rd (Fd.siteStatusState k) = ssRunning) then t.mboxSend m k else t) s

/-- Clear a mailbox: zero data, `EMPTY`; what it held or sent completes with `ABORTED` (Table 15.5). -/
def State.mboxClear (s : State) (m : Nat) : State :=
  let x := s.mbox m
  let live := s.rd (mfState m) ≠ msEmpty || x.sending.isSome || x.waiting.isSome
  let s := if live then s.postEnds m mrAborted else s
  ((s.setMbox m {}).setMboxRegs m (List.replicate 16 0)).wr (mfState m) msEmpty

/-- Site k does not run: user posts to it are aborted, system posts held (Table 15.5). -/
def State.mboxSiteDown (s : State) (k : Nat) : State :=
  (outMboxes.filter fun m => mboxSite m = some k).foldl (fun t m =>
    if mboxSystem m then
      if (t.mbox m).sending.isSome then (t.setMbox m { t.mbox m with again := true }).wr (mfState m) msHeld else t
    else t.mboxClear m) s

/-- Site k reaches `RUNNING`: what is held is sent, or completes with `NO_SITE` (R464, R465). -/
def State.mboxSiteUp (s : State) (k : Nat) : State :=
  (outMboxes.filter fun m => mboxSite m = some k).foldl (fun t m =>
    if t.rd (mfState m) ≠ msHeld then t
    else if t.siteHas k 5 then t.mboxSend m k else t.mboxDone m k mrNoSite) s

/-- A management restart (Table 15.5): user mailboxes of the cores are cleared, and the interrupts of the system ones
that are full raised again. -/
def State.mboxRestart (s : State) : State :=
  (List.range 64).foldl (fun t m =>
    if m < 32 then t.mboxClear m
    else if (mboxSite m).isNone && decide (t.rd (mfState m) = msFull) then t.irq (64 + m) else t) s

/-- A module reset (Table 15.5): user mailboxes are cleared, system ones kept. -/
def State.mboxModuleReset (s : State) : State := (List.range 48).foldl (fun t m => t.mboxClear m) s

/-- MBOX_GO: a write of `MBOX_CTL` with `GO` by a management core or by Crook. One that Table 15.4 does not permit
changes nothing; `LEN` outside 8 to 16 is refused with `BAD_LEN`. -/
def execMboxGo (m : Fin 64) (core : Fin 8) (crook : Bool) (len : BitVec 5) (s : State) : Host.Outcome State Fault Refusal :=
  let n := len.toNat
  let may := if crook then (48 ≤ m.val && m.val < 52) || 60 ≤ m.val else 32 ≤ m.val && m.val < 48
  let sender := if crook then senderCrook else senderCore core
  if !may || s.down.isSome then .next s
  else if n < 8 ∨ 16 < n then .next (s.wr (mfResult m) mrBadLen)
  else match mboxSite m with
    | some k => .next (s.mboxOut m k (s.mboxRegs m n) sender)
    | none => .next (s.postIn m (s.mboxRegs m n) sender none)

end Sys2Proof.Machine
end

