-- ==== Sys2Proof/Machine/SiteMem.lean ====
section
/-! DEFINITION. Machine/SiteMem.lean: the Hurdle's windows and the memory commands a site sends (R418 to R432). -/
namespace Sys2Proof.Machine

/-! ### The Hurdle (R428, Table 14.9) -/

/-- The window of a range: the lowest-numbered enabled one that contains it; the bytes may depend on its `ACC`. -/
def State.window (s : State) (k a : Nat) (n : Nat → Nat) : Option Nat :=
  (List.range 32).find? fun w =>
    s.flag (Fd.hurdleWinEn k w) && 65536 * s.rd (Fd.hurdleWinBase k w) ≤ a &&
      a + n (s.rd (Fd.hurdleWinAcc k w)) ≤ 65536 * (s.rd (Fd.hurdleLimLimit k w) + 1)

/-- Command codes of Table 14.6. -/
def scRead : Nat := 1
def scWrite : Nat := 2
def scAtomic : Nat := 3
def scAccum : Nat := 4
def scSettle : Nat := 5
def scRange : Nat := 6

def cmdBytes (c : SiteCmd) : Nat := 32 * (c.len.toNat + 1)

/-- Class of a command's DRAM requests (R289, R424). -/
def cmdClass (c : SiteCmd) : DramClass := if c.cls = 1 then .critical else .bulk

/-- Operands of an `ACCUM`, and the first one's element in an MX row. -/
def accumCount (c : SiteCmd) : Nat := cmdBytes c / (if bit c.aux 0 then 8 else 4)
def accumIdx (c : SiteCmd) : Nat := bits c.aux 13 8

/-- Address and index of operand i of an `ACCUM` (R420). -/
def accumAt (acc : Nat) (c : SiteCmd) (i : Nat) : Nat × Nat :=
  let a := c.addr.toNat
  let f := fmtOf (accFormat acc)
  if f.isMx then (a + 64 * ((accumIdx c + i) / 32), (accumIdx c + i) % 32) else (a + i * f.size, 0)

/-- Bytes of memory a command covers, given its window's `ACC`. -/
def cmdSpan (code : Nat) (c : SiteCmd) (acc : Nat) : Nat :=
  if code = scAtomic then (fmtOf (bits c.aux 7 3)).size
  else if code = scAccum then
    let f := fmtOf (accFormat acc)
    if f.isMx then 64 * ((accumIdx c + accumCount c - 1) / 32 + 1) else accumCount c * f.size
  else if code = scSettle ∨ code = scRange then max 1 (bits c.aux 31 0)
  else cmdBytes c

/-- The status of a command in its window, by permission and `ACC` (Table 14.9). -/
def State.hurdle (s : State) (k w code : Nat) (c : SiteCmd) : Nat :=
  let acc := s.rd (Fd.hurdleWinAcc k w)
  if code = scRead then if s.flag (Fd.hurdleWinR k w) then stOk else stNotPermitted
  else if code = scWrite ∨ code = scAtomic then
    let may := if code = scWrite then s.flag (Fd.hurdleWinW k w) else s.flag (Fd.hurdleWinAtom k w)
    if !may then stNotPermitted else if acc ≠ 0 then stAccRegion else stOk
  else if code = scRange then if s.flag (Fd.hurdleWinRange k w) then stOk else stNotPermitted
  else if !s.flag (Fd.hurdleWinAccum k w) || acc = 0 || (code = scAccum && decide (bit c.aux 0 ≠ decide (acc = 0xB))) then stAccRegion
  else stOk

/-- The status of a command whose operands the table does not provide for, `OK` otherwise: an element not aligned to its size
is `MISALIGNED` (R257); codes that name no operation, and addresses and lengths not as R241 and R420 ask, are refused (R6;
notes/assumptions/50.md). -/
def cmdForm (code acc : Nat) (c : SiteCmd) : Nat :=
  let a := c.addr.toNat
  if code = scAtomic then
    let op := bits c.aux 2 0
    if 4 < op ∨ !atomicFmtOk (op ≤ 2) (bits c.aux 7 3) then stNotPermitted
    else if a % (fmtOf (bits c.aux 7 3)).size ≠ 0 then stMisaligned else stOk
  else if code = scAccum then
    let f := fmtOf (accFormat acc)
    if f.isMx && 31 < accumIdx c then stAccRegion
    else if a % (if f.isMx then 64 else f.size) ≠ 0 then stMisaligned
    else if a / 4096 ≠ (a + cmdSpan code c acc - 1) / 4096 then stNotPermitted else stOk
  else if code = scSettle ∨ code = scRange then
    let n := bits c.aux 31 0
    if code = scRange ∧ (bits c.aux 34 32 = 0 ∨ bits c.aux 34 32 = 7) then stNotPermitted
    else if n = 0 ∨ n % 128 ≠ 0 ∨ a % 128 ≠ 0 ∨ !isStack a ∨ a / 2 ^ 36 ≠ (a + n - 1) / 2 ^ 36 then stNotPermitted
    else stOk
  else if a % 32 ≠ 0 ∨ a / 4096 ≠ (a + cmdBytes c - 1) / 4096 then stNotPermitted
  else stOk

/-! ### Serving (R424, R426) -/

/-- Hold a command at its bank or queue. -/
def State.holdSite (s : State) (h : SiteHeld) : State := { s with siteHeld := s.siteHeld ++ [h] }

/-- Sectors of a span with a poisoned word, as a mask. -/
def State.badMask (s : State) (a n : Nat) : Nat := ofBits ((List.range (n / 32)).filter fun i => s.anyBad (a + 32 * i) 32)

/-- The data of a command's stream, as many bytes as it carries. -/
def cmdData (c : SiteCmd) : List Byte := (c.data ++ zeros (cmdBytes c)).take (cmdBytes c)

/-- Write a command's sectors, poisoned ones as such where the site carries poison (R282, R426). -/
def State.siteStore (s : State) (c : SiteCmd) (carries : Bool) : State :=
  let a := c.addr.toNat
  let d := cmdData c
  if !carries || c.poison = 0 then s.writeBytes a d false c.stream (cmdClass c)
  else (List.range (c.len.toNat + 1)).foldl (fun t i =>
    t.writeBytes (a + 32 * i) ((d.drop (32 * i)).take 32) (c.poison.getLsbD i) c.stream (cmdClass c)) s

/-- Accumulate a command's operands, in order; true when one met poison (R256, R264). -/
def State.siteAccumulate (s : State) (c : SiteCmd) (acc : Nat) (carries : Bool) : Bool × State :=
  let w := if bit c.aux 0 then 8 else 4
  let d := cmdData c
  let step (r : Bool × State) (i : Nat) : Bool × State :=
    let (a, idx) := accumAt acc c i
    let bad := carries && c.poison.getLsbD (w * i / 32)
    let (b, t) := r.2.accumulate a acc idx false (BitVec.ofNat 64 (ofBytes ((d.drop (w * i)).take w))) bad (cmdClass c)
    (r.1 || b || bad, t)
  (List.range (accumCount c)).foldl step (false, s)

/-- The access of a command whose banks serve it, and its reply. -/
def State.siteAccess (s : State) (h : SiteHeld) : State :=
  let c := h.cmd
  let k := c.site.val
  let j := if h.mute then 32 else c.bundle.val
  let tag := c.tag.toNat
  let a := c.addr.toNat
  let carries := s.siteHas k 8
  if h.code = scRead then
    let n := cmdBytes c
    let bads := s.badMask a n
    let d := s.readBytes a n
    let d := if carries then d else d.zipIdx.map fun p => if bads.testBit (p.2 / 32) then 0 else p.1
    (s.touch a n c.stream false (cmdClass c)).siteReply k j tag (if bads = 0 then stOk else stPoison) 0 d (if carries then bads else 0) 0x41
  else if h.code = scWrite then
    (s.siteStore c carries).siteDone k j tag (if s.lostAt a then stPoison else stOk) 0
  else if h.code = scAtomic then
    let f := fmtOf (bits c.aux 7 3)
    let d := cmdData c
    let (m, bad, t) := s.update (ratomKind (bits c.aux 2 0)) f false a (ofBytes (d.take f.size)) (ofBytes ((d.drop 8).take f.size))
      (carries && c.poison.getLsbD 0) false (cmdClass c)
    t.siteReply k j tag (if bad then stPoison else stOk) 0 (toBytes 8 (if bad then 0 else m) ++ zeros 24) 0 0x41
  else
    let (bad, t) := s.siteAccumulate c h.acc carries
    t.siteDone k j tag (if bad then stPoison else stOk) 0

/-- A command that passed the Hurdle is served, waits, or completes with a status (R424). -/
def State.siteServe (s : State) (h : SiteHeld) : State :=
  let c := h.cmd
  let k := c.site.val
  let j := if h.mute then 32 else c.bundle.val
  let a := c.addr.toNat
  if h.code = scSettle ∨ h.code = scRange then
    let home := a / 2 ^ 38
    if s.flag Fd.seamStatusIsolated && home ≠ k / 2 then s.siteDone k j c.tag.toNat stPoison 0
    else if 64 ≤ (s.rangeQ home).length then s.holdSite h
    else
      let r : RangeReq := { cmd := if h.code = scSettle then 7 else bits c.aux 34 32, line := a / 128, count := bits c.aux 31 0 / 128,
                            op := none, begun := false, touched := 0, fails := 0, site := some (k, j, c.tag.toNat) }
      s.setRangeQ home (s.rangeQ home ++ [r])
  else match (if h.code = scAccum then
        s.servedSpan (k / 2) (a / 128 * 128) ((a + cmdSpan h.code c h.acc + 127) / 128 * 128 - a / 128 * 128) .update
      else s.servedSpan (k / 2) a (cmdSpan h.code c h.acc)
        (if h.code = scRead then .read else if h.code = scWrite then .write else .update)) with
    | .waits => s.holdSite h
    | .fails st => s.siteFails h.code k j c.tag.toNat (c.len.toNat + 1) st
    | .ok => s.siteAccess h

/-- Commands held at banks and queues try again, in order. -/
def State.retrySites (s : State) : State := s.siteHeld.foldl (fun t h => t.siteServe h) { s with siteHeld := [] }

/-! ### Arrival (R420, R428) -/

/-- A command arrives on a down bundle in service of a running site; one whose capability is not enabled completes with
`NOT_PERMITTED` (R420). -/
def State.siteArrives (s : State) (c : SiteCmd) (code vc cap : Nat) (eff : State → State) : State :=
  let k := c.site.val
  if s.rd (Fd.siteStatusState k) ≠ ssRunning || !s.downIn k c.bundle then s
  else
    let s := s.tookSlp k c.bundle vc c.packets
    if s.siteHas k cap then eff s else s.siteFails code k c.bundle c.tag.toNat (c.len.toNat + 1) stNotPermitted

/-- A command the Hurdle refuses (R428). -/
def State.siteRefuses (s : State) (c : SiteCmd) (code st : Nat) : State :=
  (s.inc (Fd.siteRefused c.site) 1).siteFails code c.site c.bundle c.tag.toNat (c.len.toNat + 1) st

/-- A memory command: the Hurdle, its form, then its service. -/
def State.siteMem (s : State) (code : Nat) (c : SiteCmd) : State :=
  let k := c.site.val
  match s.window k c.addr.toNat (cmdSpan code c) with
  | none => s.siteRefuses c code stNotPermitted
  | some w =>
    let acc := s.rd (Fd.hurdleWinAcc k w)
    let st := s.hurdle k w code c
    if st ≠ stOk then s.siteRefuses c code st
    else if cmdForm code acc c ≠ stOk then
      s.siteFails code k c.bundle c.tag.toNat (c.len.toNat + 1) (cmdForm code acc c)
    else s.siteServe { code, cmd := c, acc, mute := false }

/-- READ: the sectors of a window, an accumulator region's external view among them (R266). -/
def execSiteRead (c : SiteCmd) (s : State) : Host.Outcome State Fault Refusal :=
  .next (s.siteArrives c scRead 0 0 fun s => s.siteMem scRead c)
/-- WRITE: sectors written at their banks. -/
def execSiteWrite (c : SiteCmd) (s : State) : Host.Outcome State Fault Refusal :=
  .next (s.siteArrives c scWrite 0 0 fun s => s.siteMem scWrite c)
/-- ATOMIC: a scalar atomic of R395 at the home bank, answered with the old value. -/
def execSiteAtomic (c : SiteCmd) (s : State) : Host.Outcome State Fault Refusal :=
  .next (s.siteArrives c scAtomic 0 1 fun s => s.siteMem scAtomic c)
/-- ACCUM: operands added to successive elements of an accumulator region. -/
def execSiteAccum (c : SiteCmd) (s : State) : Host.Outcome State Fault Refusal :=
  .next (s.siteArrives c scAccum 0 2 fun s => s.siteMem scAccum c)
/-- SITE_SETTLE: `SETTLE` from a site joins the home half's range queue. -/
def execSiteSettle (c : SiteCmd) (s : State) : Host.Outcome State Fault Refusal :=
  .next (s.siteArrives c scSettle 0 2 fun s => s.siteMem scSettle c)
/-- RANGE: a command of Table 7.7 from a site joins the home half's range queue. -/
def execSiteRange (c : SiteCmd) (s : State) : Host.Outcome State Fault Refusal :=
  .next (s.siteArrives c scRange 0 3 fun s => s.siteMem scRange c)

end Sys2Proof.Machine
end

