-- ==== Sys2Proof/Machine/Bell.lean ====
section
/-! DEFINITION. Machine/Bell.lean: markers, lock, holdover, entry to `UNLOCKED`, the count at a boundary and the
messages of a Bell (R43 to R61). -/
namespace Sys2Proof.Machine

/-- Bell roles (Table 2.8). -/
def roleBellwether : Nat := 1
def roleStandby : Nat := 2

/-! ### Markers received (R46 to R48) -/

/-- BELL_MARKER: a marker in the control slot of a port in service. One that fails its check is an uncorrectable flit;
one of another Bellwether is counted and not used while `LOCKED`; one in holdover counts as missed for the choice of a
source; a Bellwether uses none. -/
def execBellMarker (port : Fin 16) (m : Marker) (s : State) : Host.Outcome State Fault Refusal :=
  let p := port.val
  if !s.portUp p || s.dark then .next s
  else
    let b := { s.bell with heard := Nats.ins s.bell.heard p }
    let unused := s.setBellLogic { b with seen := Nats.ins b.seen p }
    if !m.valid then .next ((s.setBellLogic b).sat (Fd.optPortErrUe p) 1)
    else if s.bellState = bsLocked ∧ m.bellwether.toNat ≠ s.rd Fd.bellStatusBellwether then
      .next (unused.sat Fd.bellStatusForeign 1)
    else if m.holdover || s.bellState = bsBellwether then .next unused
    else
      let dflt : Nat → Marker := fun _ => ⟨0, 0, 0, false, false, false, 0⟩
      let s := s.setBellLogic { b with fresh := Nats.ins b.fresh p, last := Tab.put dflt b.last p m }
      .next (if s.bellState = bsLocked ∧ s.rd Fd.bellStatusSource = p then s.wr Fd.bellStatusOffset m.offset.toNat else s)

/-- Whether a port may be the source after n valid markers in a row: its delay is within compensation (R48, R49). -/
def State.qualifies (s : State) (n p : Nat) : Bool :=
  s.portUp p && s.flag (Fd.bellPortDelayValid p) && n ≤ Tab.get (fun _ => 0) s.bell.runs p

/-- The last valid marker of a port. -/
def State.lastMarker (s : State) (p : Nat) : Marker := Tab.get (fun _ => ⟨0, 0, 0, false, false, false, 0⟩) s.bell.last p

/-- The port selected as source: the smallest hops, then the lowest number (R48). -/
def State.bestSource (s : State) (n : Nat) : Option Nat :=
  let ps := (List.range 16).filter (s.qualifies n)
  let least := (ps.map fun p => (s.lastMarker p).hops.toNat).foldl min 31
  ps.find? fun p => (s.lastMarker p).hops.toNat = least

/-- Follow a port: its Bellwether, its hops plus 1, its offset. -/
def State.follow (s : State) (p : Nat) : State :=
  let m := s.lastMarker p
  (((s.wr Fd.bellStatusSource p).wr Fd.bellStatusHops (min 31 (m.hops.toNat + 1))).wr Fd.bellStatusBellwether
    m.bellwether.toNat).wr Fd.bellStatusOffset m.offset.toNat

/-- Count the markers of the Bell that ends: runs and misses by port. `MISSED` counts from a port's first marker on
(notes/assumptions/28.md). -/
def State.countMarkers (s : State) : State :=
  let s := eachUpTo 16 (fun s p =>
    let b := s.bell
    if b.fresh.contains p then
      let n := min 3 (Tab.get (fun _ => 0) b.runs p + 1)
      s.setBellLogic { b with runs := Tab.put (fun _ => 0) b.runs p n, missed := Tab.put (fun _ => 0) b.missed p 0 }
    else
      let n := min 2 (Tab.get (fun _ => 0) b.missed p + 1)
      let s := s.setBellLogic { b with runs := Tab.put (fun _ => 0) b.runs p 0, missed := Tab.put (fun _ => 0) b.missed p n }
      if s.portUp p && b.heard.contains p && !b.seen.contains p then
        s.sat (Fd.bellPortDelayMissed p) 1
      else s) s
  s.setBellLogic { s.bell with fresh := [], seen := [] }

/-! ### Entry to `UNLOCKED` (R20, R59, R123, R124) -/

/-- Scheduled flits at a port become bulk. -/
def Port.unschedule (x : Port) : Port :=
  { x with sched := [], orphans := [], bulk := x.sched.map FlitOut.asBulk ++ x.orphans.map FlitOut.asBulk ++ x.bulk }

/-- Muster messages of this module not yet sent take the status `UNLOCKED` in place of `OK` (R409). -/
def State.unlockMuster (s : State) (x : Port) : Port :=
  { x with ctl := x.ctl.map fun c =>
      if c.msg.kind = 9 ∧ c.msg.src = s.device ∧ c.left = 2 ∧ ofBytes ((c.msg.body.drop 4).take 2) = stOk then
        { c with msg := { c.msg with body := splice c.msg.body 4 (toBytes 2 stUnlocked) } }
      else c }

/-- Enter `UNLOCKED`: armed commits and held pairs end, admitted scheduled work goes on as bulk, `WAITBELL` releases. -/
def State.enterUnlocked (s : State) : State :=
  let s := (s.setLock bsUnlocked).cancelGates
  let s := (s.ops.filter (·.isHeld)).foldl (fun t o => t.finish o stUnlocked 0 1) s
  let s := { s with ops := s.ops.map fun (o : Op) => if o.stream.isSome && o.phase ≠ OpPhase.served then { o with unlocked := true } else o }
  let s := eachUpTo 16 (fun s p => s.setPort p ((s.unlockMuster (s.port p)).unschedule)) s
  s.wakeAll

/-- One Round in holdover ends it. -/
def State.holdoverDue (s : State) : State :=
  if s.bellState = bsHoldover ∧ 65536 ≤ s.bell.held then s.enterUnlocked else s

/-- A standby in holdover for `TAKEOVER` Bells originates, continuing its count. -/
def State.takeoverDue (s : State) : State :=
  if s.bellState = bsHoldover ∧ s.rd Fd.bellCfgRole = roleStandby ∧ s.rd Fd.bellCfgTakeover ≤ s.bell.held then
    s.becomeBellwether
  else s

/-- One Round in `LOCKED` or `HOLDOVER` without interruption admits scheduled traffic. -/
def State.qualifyDue (s : State) : State :=
  if s.bellState = bsLocked ∧ 65536 ≤ s.bell.stable then s.wr Fd.bellStatusSchedOk 1 else s

/-- HOLDOVER_EXPIRY: one Round in holdover (R53). -/
def execHoldoverExpiry (s : State) : Host.Outcome State Fault Refusal := .next s.holdoverDue

/-- STANDBY_TAKEOVER: a standby in holdover for `TAKEOVER` Bells originates (R53). -/
def execStandbyTakeover (s : State) : Host.Outcome State Fault Refusal := .next s.takeoverDue

/-- ACQUIRE_TIMEOUT: a follower without a lock 1.0 s after the Bell lock step begins (R53). -/
def execAcquireTimeout (s : State) : Host.Outcome State Fault Refusal :=
  if s.bellState = bsAcquiring ∧ s.bell.lockStep ∧ s.rd Fd.bellCfgRole ≠ roleBellwether then .next s.enterUnlocked
  else .next s

/-- SCHED_OK_QUALIFY: one Round in `LOCKED` or `HOLDOVER` without interruption (R58). -/
def execSchedOkQualify (s : State) : Host.Outcome State Fault Refusal := .next s.qualifyDue

/-! ### The boundary (R44, R45, R60, R61) -/

/-- Set the count. -/
def State.setCount (s : State) (n : Word) : State := s.setReg Fd.bellCount.addr n

/-- Phase slew: the phase moves by at most 0.25 ns towards the source until the offset lies within ±4 ns (R56). -/
def State.slew (s : State) : State :=
  let x := s.bell.toGo
  s.setBellLogic { s.bell with toGo := if 64 < x then max 64 (x - 4) else if x < -64 then min (-64) (x + 4) else 0 }

/-- The count and the lock at a boundary (R48, R52, R53, R56, R57). -/
def State.tickLock (s : State) : State :=
  let s := s.countMarkers
  let b := s.bell
  let st := s.bellState
  let up := s.setCount (s.bellCount + 1)
  if st = bsBellwether then up
  else if st = bsLocked then
    let src := s.rd Fd.bellStatusSource
    let up := up.setBellLogic { b with stable := min 65536 (b.stable + 1) }
    if Tab.get (fun _ => 0) b.missed src < 2 then
      (if Tab.get (fun _ => 0) b.missed src = 0 then up.wr Fd.bellStatusHops (min 31 ((s.lastMarker src).hops.toNat + 1))
        else up).slew
    else match s.bestSource 2 with
      | some p => (up.follow p).sat Fd.bellStatusLost 1
      | none => up.setLock bsHoldover
  else if st = bsHoldover then
    match s.bestSource 2 with
    | some p => ((up.setBellLogic { b with
        stable := min 65536 (b.stable + 1), toGo := (s.lastMarker p).offset.toInt }).follow p).setLock bsLocked
    | none => up.setBellLogic { b with stable := min 65536 (b.stable + 1), held := min 65536 (b.held + 1) }
  else if st = bsUnlocked then
    match s.bestSource 3 with
    | some p =>
      let m := s.lastMarker p
      let step := m.count - (s.bellCount + 1)
      let t := ((s.setCount m.count).follow p).setLock bsLocked
      (t.setBellLogic { t.bell with stepped := 65536 }).record euTransit 0x0502 uwModule (step.toNat % 2 ^ 32)
        (m.count.toNat % 2 ^ 32)
    | none => up
  else if s.rd Fd.bellCfgRole = roleBellwether then
    if b.lockStep && !s.portsTrain then (s.setCount 0).becomeBellwether else s
  else match s.bestSource 3 with
    | some p => ((s.setCount (s.lastMarker p).count).follow p).setLock bsLocked
    | none => s

/-- The marker this module sends for the boundary (Table 2.1, R364), if it sends one. -/
def State.markerBody (s : State) : Option (List Byte) :=
  let st := s.bellState
  if st = bsLocked ∨ st = bsBellwether ∨ st = bsHoldover then
    some (ctlBody (toBytes 8 s.bellCount.toNat ++ toBytes 2 (s.rd Fd.bellStatusBellwether) ++
      toBytes 1 (s.rd Fd.bellStatusHops) ++ toBytes 1 (b2n (st = bsHoldover) + 2 * b2n (decide (s.bell.stepped ≠ 0)))))
  else none

/-- Up to eight `SEQ` values missing below the highest received (R369). -/
def Port.missing (x : Port) : List Nat :=
  let far := (x.beyond.map fun q => (q + 65536 - x.below) % 65536).foldl max 0
  (((List.range far).map fun i => (x.below + i) % 65536).filter fun q => !x.beyond.contains q).take 8

/-- The control messages of a Bell at a port in service: marker, acknowledgement and credits replace those of the Bell
before that were not sent; credits not sent are added (R47, R369, R370). -/
def State.bellMessages (s : State) (p : Nat) : State :=
  if !s.portUp p then s
  else
    let x := s.port p
    let msg (kind : Nat) (body : List Byte) : Ctl := { kind, routed := false, dest := 0, src := s.device, body }
    let unsent := (x.ctl.filter fun c => c.msg.kind = 3 && c.left = 2).map (·.msg.body)
    let credit (k : Nat) : Nat :=
      (Tab.get (fun _ => 0) x.back k + (unsent.map fun b => ofBytes ((b.drop (2 * k)).take 2)).sum) % 2 ^ 16
    let old := x.ctl.filter fun c => c.msg.kind ≠ 1 && c.msg.kind ≠ 2 && (c.msg.kind ≠ 3 || c.left ≠ 2)
    let mk := match s.markerBody with
      | some b => [{ msg := msg 1 b, left := 1 : CtlOut }]
      | none => []
    let ms := x.missing
    let ack := msg 2 (ctlBody (toBytes 2 x.below ++ (ms.flatMap (toBytes 2)) ++ (List.replicate (8 - ms.length) (toBytes 2 x.below)).flatten))
    let crd := msg 3 (ctlBody ((List.range 4).flatMap fun k => toBytes 2 (credit k)))
    s.setPort p { x with ctl := mk ++ [{ msg := ack, left := 1 }, { msg := crd, left := 2 }] ++ old, back := [] }

/-- A due mesh flip takes effect (R388). -/
def State.meshFlips (s : State) : State :=
  s.setFab { s.fab with meshFlip := false, avoid := if s.fab.meshFlip then s.fab.faulty else s.fab.avoid }

/-- Stacks whose notice repeats each Round while they stay Red or Trip (R379). -/
def State.repeatNotices (s : State) : State :=
  if s.bellCount.toNat % 65536 ≠ 0 then s
  else eachUpTo 8 (fun s k => if 2 ≤ s.stackHeat s.device k then s.thermalNotice k (s.stackHeat s.device k) else s) s

end Sys2Proof.Machine
end

