-- ==== Sys2Proof/Machine/Drover.lean ====
section
/-! DEFINITION. Machine/Drover.lean: start records, pre-emption, saved contexts, fencing and the Tally (R79 to R104,
R328, R596). -/
namespace Sys2Proof.Machine

/-! ### Instruction words of a pending fault record (R328) -/

/-- The pending fault record of an operation in the slot (R328). -/
def pendingRec (o : Op) : List Byte :=
  let desc := decide (o.code = .dld ∨ o.code = .dst)
  toBytes 8 o.va.toNat ++ toBytes 8 o.word.toNat ++ toBytes 8 (if desc then 0 else o.val.toNat) ++
    toBytes 8 (if desc then 0 else o.cmp.toNat)

/-- While a strand's pending instruction waits in the slot, the strand is `STALLED` (R328). -/
def State.holdSlot (s : State) (o : Op) : State :=
  match s.op? o.id with
  | some q =>
    if q.phase = .missed ∨ q.phase = .untagged then
      s.setStrand o.drover o.strand { s.strand o.drover o.strand with wait := some (.slot o.id), phase := phStalled }
    else s
  | none => s

/-- A pending instruction is issued again with its saved values; without a free tag it waits for one (R73, R328). -/
def State.reissue (s : State) (d t : Nat) (va word v k : Word) : State :=
  match opOfByte (bits word 63 56) with
  | none => s
  | some c =>
    let o := { s.freshOp d t c word with va }
    let go (o : Op) : State :=
      (if s.tagFree d t then s.translate o else s.putOp { o with phase := .untagged }).holdSlot o
    if c = .dld ∨ c = .dst then
      let m := xferOfWord word
      go { o with
        dn := m.dn.toNat, gs := m.gs.toNat, data := (s.strand d t).rdd m.dn.toNat, cn := counterOf m.ce m.cn,
        hold := [m.gs.toNat], holdD := if c = .dst then [] else [m.dn.toNat] }
    else if takesSlot c then
      let m := memOfWord word
      go { o with
        val := v, cmp := k, sub := m.sub.toNat, ga := m.ga.toNat, gk := m.gk.toNat, cn := counterOf m.ce m.cn,
        hold := [m.ga.toNat] }
    else s

/-! ### Start records (R80 to R82) -/

/-- A start record from its eight words, and its bytes (Table 3.5). -/
def StartRec.ofWords (w : Nat → Word) : StartRec :=
  { entry := w 0, arg0 := w 1, arg1 := w 2, arg2 := w 3, arg3 := w 4, notify := w 5, ctx := w 6, ctl := w 7 }
def StartRec.bytes (r : StartRec) : List Byte :=
  [r.entry, r.arg0, r.arg1, r.arg2, r.arg3, r.notify, r.ctx, r.ctl].flatMap fun w => toBytes 8 w.toNat

def StartRec.restore (r : StartRec) : Bool := bit r.ctl 1
def StartRec.prio (r : StartRec) : Nat := bits r.ctl 17 16

/-- Whether a record is a `BAD_RECORD` (Table 3.6). A restore ignores `ENTRY` and `NOTIFY` (R88). -/
def StartRec.bad (r : StartRec) : Bool :=
  let off (w : Word) (a : Nat) : Bool := w.toNat % a ≠ 0 || !isLocalMem w.toNat
  bits r.ctl 15 8 ≠ 1 || bits r.ctl 47 18 ≠ 0 || bits r.ctl 7 2 ≠ 0 || bit r.ctl 0 ||
    (r.ctx ≠ 0 && off r.ctx 2048) || (r.restore && r.ctx = 0) ||
    (!r.restore && (off r.entry 8 || (r.notify ≠ 0 && off r.notify 16)))

/-- Outcomes of a start record (Table 20.8). -/
def srOk : Nat := 0
def srBusy : Nat := 1
def srAbsent : Nat := 2
def srBadRecord : Nat := 3
def srBadContext : Nat := 4
def srDetached : Nat := 5
def srReset : Nat := 6

/-- A number in a context area of 2,048 bytes. -/
def ctxNum (b : List Byte) (off n : Nat) : Nat := ofBytes ((b.drop off).take n)

/-- `CHECK` of a context area: its CRC with the status word, the credit words and the detached count as zero (R87). -/
def ctxCheck (b : List Byte) : Nat :=
  (crc32 (splice (splice (splice b 0x588 (zeros 8)) 0x540 (zeros 64)) 0x5B0 (zeros 8))).toNat

/-- The check of a saved area at a restore: the outcome (R88). -/
def State.ctxOutcome (s : State) (d a : Nat) : Nat :=
  let b := s.readBytes a 2048
  let w := BitVec.ofNat 64 (ctxNum b 0x588 8)
  let gone := match s.servedSpan (halfOf d) a 2048 with
    | .fails _ => true
    | _ => false
  if gone || s.anyBad a 2048 || bits w 63 56 ≠ 1 || bit w 50 = false || bits w 31 0 ≠ ctxCheck b then srBadContext
  else if ctxNum b 0x5B0 8 ≠ 0 then srDetached
  else srOk

/-- The outcome of a start record for a strand of a logical Drover, the first cause that applies (R81, R541); with the
physical Drover. A record in P2 or P3 is refused under a code the spec does not give (notes/assumptions/31.md). -/
def State.startOutcome (s : State) (n t : Nat) (r : StartRec) : Nat × Nat :=
  if !s.flag Fd.modStatusReady then (srReset, 0)
  else if 2 ≤ s.rd Fd.pwrStatusState then (s.freeWord.toNat % 255 + 1, 0)
  else match s.physical? n with
    | none => (srAbsent, 0)
    | some d =>
      if s.droverInReset d then (srReset, d)
      else if s.drvState d = 1 then (srAbsent, d)
      else if (s.strand d t).phase ≠ phIdle then (srBusy, d)
      else if r.bad then (srBadRecord, d)
      else if r.restore then (s.ctxOutcome d r.ctx.toNat, d)
      else (srOk, d)

/-- A program starts: registers cleared, g1 to g4 loaded (R82). -/
def State.begin (s : State) (d t : Nat) (r : StartRec) : State :=
  let x : Strand := { phase := phRunning, pc := r.entry.setWidth 48, prio := r.prio, start := r }
  s.setStrand d t ((((x.wg 1 r.arg0).wg 2 r.arg1).wg 3 r.arg2).wg 4 r.arg3)

/-- The instruction of a descriptor's kind, for a context area whose save this module did not make: the area names no
instruction, no counter and no status register (DESIGN CHOICE, notes/assumptions/167.md). Kind 6 is one of three. -/
def State.codeOfKind (s : State) (d : Desc) : Option OpCode :=
  match dKind d with
  | 0x1 => some .move
  | 0x2 => some .gather
  | 0x3 => some .scatter
  | 0x4 => some .graze
  | 0x5 => some .compact
  | 0x6 => [OpCode.isect, .union, .merge][s.freeWord.toNat % 3]?
  | 0x7 => some .segred
  | 0x8 => some .ebag
  | 0x9 => some .hist
  | 0xA => some .topk
  | _ => none

/-- The transfer a context area marks in d register dn: as it was saved there, or, from a copied area, as it was saved
elsewhere with that descriptor, or else from its descriptor alone (R88; notes/assumptions/32.md). -/
def State.savedXfer (s : State) (d t a dn : Nat) : Option Op :=
  let x := s.strand d t
  let desc := x.rdd dn
  let ext := if dExt desc && dn < 15 then x.rdd (dn + 1) else 0
  let same (o : Op) : Bool := o.dn = dn && o.desc = desc && o.ext = ext
  match s.savedXfers.find? fun e => e.1 = a + dn && same e.2 with
  | some e => some e.2
  | none => match s.savedXfers.find? fun e => same e.2 with
    | some e => some e.2
    | none => (s.codeOfKind desc).map fun c =>
      { s.freshOp d t c 0 with dn, desc, ext, holdD := xferD c x dn, n := chunksOf c desc ext }

/-- A transfer saved with a context takes its place again: it resumes from its cursor, or, marked as never begun, from
its beginning (R88, R135). Without a free tag it waits for one (R73). -/
def State.rejoin (s : State) (d t a : Nat) (parked : Bool) (dn : Nat) : State :=
  match s.savedXfer d t a dn with
  | none => s
  | some o =>
    let o := { o with
      id := s.nextOp, drover := d, strand := t, logical := s.logicalOf d, phase := .ready, everPark := parked, lost := false }
    if s.tagFree d t then s.cursorThen o else s.putOp { o with phase := .untagged }

/-- A strand restored from its saved area: registers, counters with their credits, then the pending instruction, then
the transfers (R88, R328). An address the strand cannot fetch from faults (R115). -/
def State.restoreCtx (s : State) (d t a : Nat) : State :=
  let b := s.readBytes a 2048
  let w := BitVec.ofNat 64 (ctxNum b 0x588 8)
  let r := StartRec.ofWords fun i => BitVec.ofNat 64 (ctxNum b (0x5C0 + 8 * i) 8)
  let at_ := ctxNum b 0x580 8
  let x : Strand := { phase := phRunning, pc := BitVec.ofNat 48 at_, firstFail := BitVec.ofNat 16 (at_ / 2 ^ 48),
                      prio := r.prio, start := r }
  let x := (List.range 32).foldl (fun (x : Strand) i => x.wg i (BitVec.ofNat 64 (ctxNum b (8 * i) 8))) x
  let x := (List.range 16).foldl (fun (x : Strand) i => x.wdd i (BitVec.ofNat 512 (ctxNum b (0x100 + 64 * i) 64))) x
  let x := (List.range 16).foldl (fun (x : Strand) i =>
    x.raise i (BitVec.ofNat 32 (ctxNum b (0x500 + 4 * i) 4 + ctxNum b (0x540 + 4 * i) 4))) x
  let s := s.setStrand d t x
  let at8 (off : Nat) : Word := BitVec.ofNat 64 (ctxNum b off 8)
  let s := if bit w 51 then s.reissue d t (at8 0x590) (at8 0x598) (at8 0x5A0) (at8 0x5A8) else s
  let s := (setBitsOf 16 (ctxNum b 0x5B8 2)).foldl (fun u dn => u.rejoin d t a true dn) s
  let s := (setBitsOf 16 (ctxNum b 0x5BA 2)).foldl (fun u dn => u.rejoin d t a false dn) s
  if targetOk (x.pc.setWidth 64) then s else s.strandFault d t stFetchAddr x.pc

/-- A start record at a strand's window: its outcome and effect. An accepted one invalidates the instruction store of
the Drover (R70) and ungates the Pen's clock (R505). -/
def State.startRecord (s : State) (n t : Nat) (r : StartRec) : Nat × State :=
  let (o, d) := s.startOutcome n t r
  let s := s.taken
  if o ≠ srOk then (o, s)
  else
    let s := (s.setDrv d { s.drv d with store := [] }).ungate (penOf d)
    (o, if r.restore then s.restoreCtx d t r.ctx.toNat else s.begin d t r)

/-- DOORBELL_WINDOW_SUBMIT: a write of register 7 of a window submits the record with the latched words, clears the
latches and shows the outcome (R79, R596, Table 20.8). -/
def execDoorbellWindowSubmit (logical : Fin 128) (strand : Fin 8) (control : BitVec 64) (s : State) :
    Host.Outcome State Fault Refusal :=
  let n := logical.val
  let t := strand.val
  if !s.reaches (Fd.doorbell n t 7).addr then .next s
  else
  let r := StartRec.ofWords fun i => if i = 7 then control else s.reg (Fd.doorbell n t i).addr
  let (o, s) := s.startRecord n t r
  let s := eachUpTo 7 (fun s i => s.setReg (Fd.doorbell n t i).addr 0) s
  .next (((s.wr (Fd.doorbellCookie n t) (bits control 63 48)).wr (Fd.doorbellValid n t) 1).wr (Fd.doorbellOutcome n t) o)

/-! ### Saving a context (R84 to R88, R91, R92, R170, R179) -/

/-- PREEMPT: each named strand that runs or is stalled begins saving; one without a context area is refused (R84). A
wait it was in has not executed (R85). -/
def execPreempt (pen : Fin 16) (k : Fin 8) (mask : BitVec 8) (s : State) : Host.Outcome State Fault Refusal :=
  let d := 8 * pen.val + k.val
  if !s.reaches (Fd.drvCtlPreempt pen k).addr then .next s
  else .next ((setBitsOf 8 mask.toNat).foldl (fun s t =>
    let x := s.strand d t
    if x.phase ≠ phRunning ∧ x.phase ≠ phStalled then s
    else if x.ctx = 0 then s.wrBit (Fd.drvStatusNoCtx pen k) t true
    else s.setStrand d t { x with phase := phSaving, wait := none }) s)

/-- A remote transfer of which every chunk not answered has been sent. -/
def Op.allSent (o : Op) : Bool :=
  isXferOp o.code && isRemoteOp o.code && o.phase = .running &&
    o.committed + (o.chunks.filter fun c => c.sent && c.expiry.isSome).length = o.n

/-- An operation that a pre-emption detaches: outstanding at another module, or a `TTOUCH` (R84, R86, R332). -/
def Op.leaves (o : Op) : Bool :=
  match o.phase with
  | .remote => isRemoteOp o.code
  | .missed => o.code = .ttouch
  | .ready => o.code = .ttouch
  | _ => o.allSent

/-- An operation that must drain before its strand's context is saved. -/
def Op.drains (o : Op) : Bool :=
  !o.leaves && match o.phase with
  | .ready => true
  | .served => true
  | .queued => true
  | .untagged => true
  | .parking => true
  | .remote => true
  | .dropped => true
  | .running => o.flying
  | _ => false

/-- A held `AT` pair, or one whose operation still waits for the fault slot: it completes with `PREEMPTED`
(notes/assumptions/33.md). -/
def Op.pends (o : Op) : Bool := o.isHeld || (o.phase = .missed && takesSlot o.code && !o.slotted)

/-- A transfer whose progress a yield must record: it runs and has begun. -/
def Op.yields (o : Op) : Bool := isXferOp o.code && o.phase = .running && o.curOk && (o.begun || o.everPark)

/-- A transfer at its yield: chunks out on tickets are abandoned. -/
def Op.yielded (o : Op) : Op :=
  { o with phase := .parked, parks := o.parks + 1, everPark := true, chunks := [], ticket := none, curTick := none,
           redo := false, got := [], buf := [], bufBad := [], faultVa := 0, faultPos := 0 }

/-- A transfer's yield: its cursor area reads `YIELDED`; a bank that refuses the write ends it (R134, R170). -/
def State.yield (s : State) (o : Op) : State :=
  match s.cursorServed o with
  | .waits => s
  | .fails st => (s.finishXfer { o with status := st })
  | .ok => ((s.releaseSel o).writeCursor o.yielded csYielded 0 0 o.first).setOp o.yielded

/-- A transfer as a context keeps it: by its cursor, or, with no cursor area written, to issue from its beginning. -/
def Op.kept (o : Op) : Op :=
  if o.everPark then o.yielded
  else { o.yielded with parks := 0, everPark := false, mark := 0, done := [], outCount := 0, position := 0, begun := false }

/-- The 2,048 bytes of a context area (Table 3.8, Table 3.9). -/
def ctxBytes (x : Strand) (reason : Nat) (complete : Bool) (lost detached marks : Nat) (pend : Option (List Byte))
    (credit : Nat → Nat) : List Byte :=
  let gs := (List.range 32).flatMap fun i => toBytes 8 (x.rg i).toNat
  let ds := (List.range 16).flatMap fun i => toBytes 64 (x.rdd i).toNat
  let cs := (List.range 16).flatMap fun i => toBytes 4 (x.rc i).toNat
  let cr := (List.range 16).flatMap fun i => toBytes 4 (credit i)
  let start := StartRec.bytes { x.start with ctl := setBits x.start.ctl 1 1 0 }
  let b := gs ++ ds ++ cs ++ cr ++ toBytes 8 (x.pc.toNat + 2 ^ 48 * x.firstFail.toNat) ++ zeros 8 ++
    pend.getD (zeros 32) ++ toBytes 8 detached ++ toBytes 8 marks ++ start ++ zeros 512
  splice b 0x588 (toBytes 8 (2 ^ 56 + reason * 2 ^ 52 + b2n pend.isSome * 2 ^ 51 + b2n complete * 2 ^ 50 +
    min lost 256 * 2 ^ 40 + ctxCheck b))

/-- Write a strand's context area and take its operations off: held pairs are counted in their credit words, remote
operations detach, transfers are kept with the area, an operation in the slot is withdrawn (R84 to R87, R328). A save
whose area its bank refuses is not made (notes/assumptions/34.md). -/
def State.saveCtx (s : State) (d t reason : Nat) (complete : Bool) (lost : Nat) : Bool × State :=
  let x := s.strand d t
  let a := x.ctx
  let os := s.opsOf d t
  let pairs := if reason = 1 then os.filter Op.pends else []
  let det := if reason = 1 then os.filter Op.leaves else []
  let xs := os.filter fun o => isXferOp o.code && !o.isHeld && !o.leaves
  let x' := pairs.foldl (fun (x : Strand) o => (x.wg o.gs (statusWord stPreempted 0 0)).offer stPreempted) x
  let credit (c : Nat) : Nat := ((Tab.get (fun _ => 0) x.heldSig c).toNat + (pairs.filter (·.cn = some c)).length) % 2 ^ 32
  let marks := ofBits (xs.map fun o => if o.everPark then o.dn else o.dn + 16)
  let ok := match s.servedSpan (halfOf d) a 2048 .write with
    | .ok => true
    | _ => false
  let bytes := ctxBytes x' reason complete lost det.length marks ((os.find? (·.slotted)).map pendingRec) credit
  let s := if ok then s.writeBytes a bytes false false else s
  let kept := xs.map fun o => (a + o.dn, o.kept)
  let ops := (s.ops.filter fun o => o.drover ≠ d || o.strand ≠ t || o.detached || (reason = 1 && o.leaves)).map fun (o : Op) =>
    if o.drover = d ∧ o.strand = t ∧ !o.detached then
      { o with detached := true, ctxAt := a, owed := if dChunksig o.desc && isXferOp o.code then o.n - o.committed else 1,
               hold := [], holdD := [] }
    else o
  let savedXfers := (s.savedXfers.filter fun (e : Nat × Op) => e.1 < a || a + 16 ≤ e.1) ++ kept
  (ok, ({ xs.foldl State.releaseSel s with ops, savedXfers }).pruneTickets)

/-- CONTEXT_SAVE: once a saving strand's local work has drained, its running transfers have yielded and its context area
is written; it becomes `IDLE` (Table 3.7). Writes that their banks hold keep it saving. -/
def execContextSave (drover : Fin 128) (strand : Fin 8) (s : State) : Host.Outcome State Fault Refusal :=
  let d := drover.val
  let t := strand.val
  let x := s.strand d t
  let os := s.opsOf d t
  if x.phase ≠ phSaving || os.any Op.drains then .next s
  else
    let s := (os.filter Op.yields).foldl (fun u o => u.yield o) s
    if (s.opsOf d t).any Op.yields || s.servedSpan (halfOf d) x.ctx 2048 .write = .waits then .next s
    else
      let (ok, s) := s.saveCtx d t 1 true 0
      let s := s.setStrand d t {}
      .next (if ok then (s.wrBit (Fd.drvStatusSaved (penOf d) (d % 8)) t true).irq (11 + penOf d) else s)

/-! ### Fencing (R89 to R92, R96) -/

/-- Whether an operation's request has left its Drover: it completes at its target and its completion is lost (R92). -/
def Op.left (o : Op) : Bool :=
  !isXferOp o.code && match o.phase with
  | .ready => o.code ≠ .ttouch
  | .served => true
  | .queued => true
  | .remote => true
  | _ => false

/-- The record of a fencing, once every save attempt is over (R96, Table 19.4). -/
def State.fenceRecord (s : State) (d : Nat) : State :=
  let x := s.drv d
  let cause := s.rd (Fd.drvStatusCause (penOf d) (d % 8))
  s.record (halfOf d) 0x0102 (uwDrover d)
    (x.fencedAs + 2 ^ 8 * cause + 2 ^ 16 * ofBits x.recov + 2 ^ 24 * ofBits x.gone) (s.rd Fd.tallyStatusGeneration)

/-- Counts of the Tally's status after a change of its entries (R100, R101). -/
def State.tallyCounts (s : State) : State :=
  let g := s.rd Fd.tallyStatusGrade
  let bound := ((List.range 128).filter fun n => s.rd (Fd.tallyEntryState n) = 0).length
  let absent := ((List.range 128).filter fun n => s.rd (Fd.tallyEntryState n) = 1).length
  let res := ((List.range 128).filter fun d => s.rd (Fd.tallyReserve d) = 1).length
  (((s.wr Fd.tallyStatusBound bound).wr Fd.tallyStatusAbsent absent).wr Fd.tallyStatusReserves res).wr
    Fd.tallyStatusBelowGrade (b2n (decide (bound < g)))

/-- The Tally marks a fenced Drover's number Absent, or strikes it from the reserves (R96). -/
def State.tallyFenced (s : State) (d : Nat) : State :=
  let n := s.logicalOf d
  let s := if n < 128 then
      let s := s.inc Fd.tallyStatusGeneration 1
      let s := (s.wr (Fd.tallyEntryState n) 1).wr (Fd.tallyEntryGen n) (s.rd Fd.tallyStatusGeneration)
      { s with tally := { s.tally with due := true } }
    else s.wr (Fd.tallyReserve d) 0
  (s.tallyCounts.irq 10).irq (11 + penOf d)

/-- Fence a Drover: its strands stop and read `FENCED`, requests that had left it complete and are lost, what is inside
it is dropped, and the Tally is told (R89, R90, R92, R96). Only a Drover in service or in reset is fenced (R554), and, for
its Pen's router, a reserve. -/
def State.fenceDrover (s : State) (d cause : Nat) : State :=
  let st := s.drvState d
  let p := penOf d
  if st ≠ 0 && st ≠ 4 && !(st = 2 && cause = 7) then s
  else
    let live := (List.range 8).filter fun t => (s.strand d t).phase ≠ phIdle
    let saves := live.filter fun t => (s.strand d t).ctx ≠ 0
    let lostTags := live.map fun t => (t, ((s.opsOf d t).filter Op.left).length)
    let fencedAs := s.logicalOf d
    let x := { s.drv d with
      store := [], selHold := none, lostTags, unsaved := saves, recov := [], fencedAs,
      gone := live.filter fun t => !saves.contains t }
    let s := (((s.wr (Fd.drvStatusState p (d % 8)) 1).wr (Fd.drvStatusCause p (d % 8)) cause).setDrv d x)
    let s := eachUpTo 8 (fun s t => s.setStrand d t { s.strand d t with phase := phFenced, wait := none }) s
    let keep (o : Op) : Bool :=
      o.drover ≠ d || o.detached || o.left || (saves.contains o.strand && (isXferOp o.code || o.slotted) && !o.isHeld)
    let ops := (s.ops.filter keep).map fun (o : Op) =>
      if o.drover = d ∧ !o.detached ∧ o.left then { o with detached := true, lost := true, hold := [], holdD := [] } else o
    let s := ({ s with ops }).pruneTickets
    let s := s.tallyFenced d
    if saves = [] then s.fenceRecord d else s

/-- DROVER_FENCE: an uncorrectable error in a Drover fences it (R89, Table 3.13). -/
def execDroverFence (drover : Fin 128) (part : DroverPart) (s : State) : Host.Outcome State Fault Refusal :=
  let cause := match part with
    | .registerFile => 1
    | .instructionStore => 2
    | .scoreboard => 3
    | .tagIntegrity => 4
  .next (if s.drvState drover = 0 ∨ s.drvState drover = 4 then s.fenceDrover drover cause else s)

/-- Whether a strand is ready and no strand of higher priority of its Drover is: what its watchdog counts (R89). -/
def State.watched (s : State) (d t : Nat) : Bool :=
  s.ready d t && (List.range 8).all fun u => (s.strand d u).prio ≤ (s.strand d t).prio || !s.ready d u

/-- WATCHDOG_EXPIRY: a strand ready and outranked by none for one Round without retiring an instruction fences its Drover
(R89). -/
def execWatchdogExpiry (drover : Fin 128) (s : State) : Host.Outcome State Fault Refusal :=
  let d := drover.val
  if s.drvState d = 0 && (List.range 8).any (s.watched d ·) then .next (s.fenceDrover d 5)
  else .next s

/-- FENCED_CONTEXT_SAVE: the context unit's attempt for a fenced strand: cursor areas of the transfers that had begun,
then the context area, `COMPLETE` unless an error, a refusal or the time limit met it (R91). `SAVED` is set whenever the area
was written, with `COMPLETE` 0 too (R104 says no more than that the last save completed: DESIGN CHOICE,
notes/assumptions/152.md). -/
def execFencedContextSave (drover : Fin 128) (strand : Fin 8) (ok : Bool) (s : State) :
    Host.Outcome State Fault Refusal :=
  let d := drover.val
  let t := strand.val
  let x := s.drv d
  if !x.unsaved.contains t then .next s
  else if s.servedSpan (halfOf d) (s.strand d t).ctx 2048 .write = .waits then .next s
  else
    let (good, s) := (s.opsOf d t).foldl (fun (r : Bool × State) o =>
      if !isXferOp o.code || !o.curOk || o.phase = .parked || !(o.begun || o.everPark) then r
      else match r.2.cursorServed o with
        | .ok => (r.1, ((r.2.writeCursor o.yielded csYielded 0 0 o.first).setOp o.yielded))
        | _ => (false, r.2)) (ok, s)
    let (written, s) := s.saveCtx d t 2 good (Tab.get (fun _ => 0) x.lostTags t)
    let x := { s.drv d with
      unsaved := Nats.del x.unsaved t, recov := if good && written then Nats.ins x.recov t else x.recov,
      gone := if good && written then x.gone else Nats.ins x.gone t }
    let s := s.setDrv d x
    let s := s.setStrand d t { s.strand d t with heldSig := [] }
    let s := (if written then s.wrBit (Fd.drvStatusSaved (penOf d) (d % 8)) t true else s).irq (11 + penOf d)
    .next (if x.unsaved = [] then s.fenceRecord d else s)

/-! ### The Tally (R94 to R103) -/

/-- Copy the Tally's bindings to the routers. -/
def State.copyTally (s : State) : State :=
  let copies := (List.range 128).foldl (fun c n =>
    Tab.put (fun _ => 0) c n (if s.rd (Fd.tallyEntryState n) = 0 then s.rd (Fd.tallyEntryPhysical n) + 1 else 0)) s.tally.copies
  { s with tally := { s.tally with copies, due := false } }

/-- Copies that are due are made. -/
def State.copyDue (s : State) : State := if s.tally.due then s.copyTally else s

/-- TALLY_COPY_UPDATE: at the boundary after a fencing every router copy marks the number Absent (R96). -/
def execTallyCopyUpdate (s : State) : Host.Outcome State Fault Refusal := .next s.copyDue

/-- Whether a physical Drover is a reserve not yet used. -/
def State.isReserve (s : State) (d : Nat) : Bool := s.rd (Fd.tallyReserve d) = 1

/-- The reserve nearest to a physical Drover: of its Pen, its Paddock, then its half; nearest in hops, then lowest
(R97). -/
def State.findReserve (s : State) (d : Nat) (paddockOnly : Bool) : Option Nat :=
  let rs := (List.range 128).filter s.isReserve
  let best (p : Nat → Bool) : Option Nat :=
    let c := rs.filter p
    match c with
    | [] => none
    | r :: _ =>
      let least := (c.map fun q => penHops (penOf q) (penOf d)).foldl min (penHops (penOf r) (penOf d))
      c.find? fun q => penHops (penOf q) (penOf d) = least
  match best fun q => penOf q = penOf d with
  | some q => some q
  | none => match best fun q => paddockOf q = paddockOf d with
    | some q => some q
    | none => if paddockOnly then none else best fun q => halfOf q = halfOf d

/-- `TALLY_CMD` ends with a state and a result (Table 3.12, R599). -/
def State.tallyEnd (s : State) (st res : Nat) : State := ((s.wr Fd.tallyCmdState st).wr Fd.tallyCmdResult res).irq 10

/-- A write of `TALLY_CMD` with `GO` sets its fields, unless it is busy (R103). -/
def State.tallyGo (s : State) (op n : Nat) (target po ex : Option Nat) (eff : State → State) : State :=
  if s.down.isSome then s
  else if s.rd Fd.tallyCmdState = 1 then s.wr Fd.tallyCmdResult 5
  else eff (((((s.wr Fd.tallyCmdOp op).wr Fd.tallyCmdLogical n).wrSome Fd.tallyCmdTarget target).wrSome
    Fd.tallyCmdPaddockOnly po).wrSome Fd.tallyCmdExplicit ex)

/-- REBIND: a reserve is chosen for an Absent number, or the command is refused (R97, R103). A named target that is neither a
reserve nor of the same half reads `NOT_RESERVE` (the order is a DESIGN CHOICE, notes/assumptions/153.md). -/
def execRebind (logical : BitVec 8) (paddockOnly explicit : Bool) (target : BitVec 7) (s : State) :
    Host.Outcome State Fault Refusal :=
  let n := logical.toNat
  let tgt := target.toNat
  .next (s.tallyGo 1 n (some tgt) (some (b2n paddockOnly)) (some (b2n explicit)) fun s =>
    let last := s.rd (Fd.tallyEntryPhysical n)
    if 128 ≤ n ∨ s.rd (Fd.tallyEntryState n) ≠ 1 then s.tallyEnd 3 1
    else if explicit && !s.isReserve tgt then s.tallyEnd 3 3
    else if explicit && halfOf tgt ≠ halfOf last then s.tallyEnd 3 4
    else match (if explicit then some tgt else s.findReserve last paddockOnly) with
      | none => s.tallyEnd 3 2
      | some r =>
        let s := (s.wr Fd.tallyCmdState 1).wr Fd.tallyCmdResult 0
        { s with tally := { s.tally with rebind := some ⟨n, r, 2, explicit, paddockOnly⟩ } })

/-- Bind a number to a reserve in every copy (R97, R98). -/
def State.bindReserve (s : State) (n r : Nat) : State :=
  let s := s.inc Fd.tallyStatusGeneration 1
  let g := s.rd Fd.tallyStatusGeneration
  let s := (((s.wr (Fd.tallyEntryState n) 0).wr (Fd.tallyEntryPhysical n) r).wr (Fd.tallyEntryGen n) g).wr (Fd.tallyReserve r) 0
  let s := (s.wr (Fd.drvStatusState (penOf r) (r % 8)) 0).tallyCounts.copyTally
  (s.tallyEnd 2 0).record (halfOf r) 0x0103 (uwDrover r) n g

/-- A rebind at its boundary: the chosen reserve is bound; one fenced meanwhile is searched for again by the rules the
command was accepted with, and without one the command is refused (R97; PRESUMED that the search keeps to the fields of `GO`
whatever is written to `TALLY_CMD` meanwhile, notes/assumptions/151.md). -/
def State.rebindDue (s : State) : State :=
  match s.tally.rebind with
  | none => s
  | some v =>
    if v.left ≠ 0 then s
    else
      let s := { s with tally := { s.tally with rebind := none } }
      if s.isReserve v.reserve then s.bindReserve v.logical v.reserve
      else if v.explicit then s.tallyEnd 3 3
      else match s.findReserve (s.rd (Fd.tallyEntryPhysical v.logical)) v.paddockOnly with
        | some q => s.bindReserve v.logical q
        | none => s.tallyEnd 3 2

/-- At a boundary a rebind comes nearer, and takes effect at the second after `GO` (R97). -/
def State.rebindNearer (s : State) : State :=
  ({ s with tally := { s.tally with rebind := s.tally.rebind.map fun v => { v with left := v.left - 1 } } } : State).rebindDue

/-- REBIND_TAKE_EFFECT: at the second boundary after `GO` the rebind takes effect. -/
def execRebindTakeEffect (s : State) : Host.Outcome State Fault Refusal := .next s.rebindDue

/-- TALLY_FENCE: the physical Drover bound to a number is fenced (R103). -/
def execTallyFence (logical : BitVec 8) (s : State) : Host.Outcome State Fault Refusal :=
  let n := logical.toNat
  .next (s.tallyGo 2 n none none none fun s =>
    if 128 ≤ n ∨ s.rd (Fd.tallyEntryState n) ≠ 0 then s.tallyEnd 3 7
    else (s.fenceDrover (s.rd (Fd.tallyEntryPhysical n)) 6).tallyEnd 2 0)

end Sys2Proof.Machine
end

