-- ==== Sys2Proof/Machine/FabricCmd.lean ====
section
/-! DEFINITION. Machine/FabricCmd.lean: flits and control messages at the ports, link retry and credits
(R29, R361 to R371, R385 to R387). -/
namespace Sys2Proof.Machine

/-! ### Sending: one data slot or control slot (R364 to R371) -/

/-- Whether a control message may go on a lane in this Bell: a message's second copy goes in the next Bell on another
lane; a lane notice goes once on every lane; a marker only in its own place (R350, R365, R366). -/
def CtlOut.mayGo (c : CtlOut) (lane : Nat) (now : Word) : Bool :=
  if c.msg.kind = 1 then false
  else if c.msg.kind = 5 then !c.lanes.contains lane
  else match c.at_ with
    | none => true
    | some b => b ≠ now && !c.lanes.contains lane

/-- A message after a copy of it went on a lane; none when no copy is left. -/
def CtlOut.gone (c : CtlOut) (lane : Nat) (now : Word) (lanes : List Nat) : Option CtlOut :=
  let c' := { c with left := c.left - 1, at_ := some now, lanes := c.lanes ++ [lane] }
  if c.msg.kind = 5 then (if lanes.all c'.lanes.contains then none else some c')
  else if c'.left = 0 then none else some c'

/-- Take up to n messages that may go on a lane, in order: those taken and those left. -/
def takeCtl (lane : Nat) (now : Word) (lanes : List Nat) : Nat → List CtlOut → List Ctl × List CtlOut
  | 0, l => ([], l)
  | _, [] => ([], [])
  | n + 1, c :: t =>
    if c.mayGo lane now then
      let (ms, l) := takeCtl lane now lanes n t
      (c.msg :: ms, match c.gone lane now lanes with
        | some c' => c' :: l
        | none => l)
    else
      let (ms, l) := takeCtl lane now lanes (n + 1) t
      (ms, c :: l)

/-- Send a control flit; `marks`: message 0 is the Bell marker's, if one waits. -/
def State.sendCtl (s : State) (p lane pos : Nat) (marks : Bool) : State :=
  let x := s.port p
  let lanes := s.lanesIn p
  let mk := if marks then (x.ctl.filter (·.msg.kind = 1)).take 1 else []
  let rest := if marks then x.ctl.filter (·.msg.kind ≠ 1) else x.ctl
  let (ms, left) := takeCtl lane s.bellCount lanes (7 - mk.length) rest
  (s.setPort p { x with ctl := left }).emit (.control p lane pos (mk.map (·.msg) ++ ms))

/-- Bulk channel of a waiting flit: request or reply, `VC` 0 or 1 (R370; notes/assumptions/43.md). -/
def FlitOut.chan (f : FlitOut) : Nat := 2 * b2n f.reply + b2n f.flit.vc

/-- Send a new data flit: it takes the next `SEQ` and is held until it is acknowledged (R369). -/
def State.sendFlit (s : State) (p lane pos : Nat) (f : FlitOut) : State :=
  let x := s.port p
  let f := { f with flit := { f.flit with seq := BitVec.ofNat 16 x.seq } }
  (s.setPort p { x with seq := (x.seq + 1) % 65536, retry := x.retry ++ [(f, s.bellCount)] }).emit (.flit p lane pos f.flit)

/-- Send a held flit again, under its number. Without Bell time a scheduled one goes as bulk and takes a credit of its
channel (R59; notes/assumptions/133.md). -/
def State.sendAgain (s : State) (p lane pos q : Nat) : State :=
  let x := s.port p
  let s := s.setPort p { x with resend := x.resend.filter (· ≠ q) }
  match x.retry.find? fun e => e.1.flit.seq.toNat = q with
  | none => s
  | some e =>
    let turns := !s.bellCounts && e.1.flit.cls = 1
    let f := if turns then e.1.asBulk else e.1
    let retry := updateWhere (fun (r : FlitOut × Word) => r.1.flit.seq.toNat = q) (fun _ => (f, s.bellCount)) x.retry
    let used := if turns then Tab.put (fun _ => 0) x.used f.chan (Tab.get (fun _ => 0) x.used f.chan + 1) else x.used
    ((s.setPort p { s.port p with retry, used }).inc Fd.fabResent 1).emit (.flit p lane pos f.flit)

/-- An idle flit (R363). -/
def idleFlit : Flit :=
  { kind := 3, cls := 0, vc := false, last := false, poison := 0, orphan := false, seq := 0, dest := 0, src := 0, flow := 0,
    packet := 0, index := 0, bytes := 0, payload := [] }

/-- The flow a port's Rota reserves a slot of this Bell for; without Bell time slots idle (Table 2.5). -/
def State.slotFlow (s : State) (p lane pos : Nat) : Option Nat :=
  if !s.bellCounts then none
  else ((s.rota p).find? fun e => e.pos = pos && e.phase = s.bellCount.toNat % s.period && e.lanes.testBit lane).map (·.flow)

/-- What a data slot carries, by the ranks of R367. A port whose retry buffer is full, or whose far end is about to
release its Stile, sends control flits and flits again only (R354, R371). -/
def State.dataSlot (s : State) (p lane pos : Nat) : State :=
  let x := s.port p
  let new := x.retry.length < 4800 && !x.hold.any (fun b => b.toNat ≤ s.bellCount.toNat)
  let mine := match s.slotFlow p lane pos with
    | some fl => x.sched.find? fun f => f.flit.flow.toNat = fl && f.start.toNat ≤ s.bellCount.toNat
    | none => none
  let bulk := x.bulk.find? fun f => Tab.get (fun _ => 0) x.used f.chan < 128
  match new, mine with
  | true, some f => (s.setPort p { x with sched := x.sched.erase f }).sendFlit p lane pos f
  | _, _ =>
    if x.ctl.any (·.mayGo lane s.bellCount) then s.sendCtl p lane pos false
    else match x.resend with
      | q :: _ => s.sendAgain p lane pos q
      | [] => match new, x.orphans, bulk with
        | true, f :: t, _ => ((s.setPort p { x with orphans := t }).inc Fd.fabOrphans 1).sendFlit p lane pos f
        | true, [], some f =>
          (s.setPort p { x with
            bulk := x.bulk.erase f,
            used := Tab.put (fun _ => 0) x.used f.chan (Tab.get (fun _ => 0) x.used f.chan + 1) }).sendFlit p lane pos f
        | _, _, _ => s.emit (.flit p lane pos idleFlit)

/-- FLIT_SLOT: a lane's flit boundary: position 0 carries a control flit, whose message 0 on the lowest lane in service
is the Bell marker's; the others are data slots (R366, R367). -/
def execFlitSlot (port : Fin 16) (lane : Fin 8) (pos : Fin 16) (s : State) : Host.Outcome State Fault Refusal :=
  let p := port.val
  if !s.portUp p || !(s.lanesIn p).contains lane.val || s.dark then .next s
  else if pos.val = 0 then .next (s.sendCtl p lane 0 (decide ((s.lanesIn p).head? = some lane.val)))
  else .next (s.dataSlot p lane pos)

/-! ### Receiving data flits (R361, R362, R369, R370, R372, R385) -/

/-- Whether a flit's number has come before. -/
def Port.seen (x : Port) (q : Nat) : Bool := 32768 ≤ (q + 65536 - x.below) % 65536 || x.beyond.contains q

/-- The first number from b on, modulo 65,536, that a list does not hold, and the list's rest. -/
def slideSeq : Nat → Nat → List Nat → Nat × List Nat
  | 0, b, l => (b, l)
  | fuel + 1, b, l => if l.contains b then slideSeq fuel ((b + 1) % 65536) (Nats.del l b) else (b, l)

/-- A number has come: the `SEQ` below which every flit has arrived moves on. -/
def Port.arrive (x : Port) (q : Nat) : Port :=
  let l := Nats.ins x.beyond q
  let (b, l) := slideSeq (l.length + 1) x.below l
  { x with below := b, beyond := l }

/-- Whether a flit belongs to a reply packet: its record says so, or its packet's first flit did
(notes/assumptions/46.md). -/
def State.isReply (s : State) (f : Flit) : Bool :=
  if f.kind = 1 then [roGetReply, roRatomReply, roSignalReply, roAck].contains ((f.payload.headD 0).toNat)
  else s.fab.replies.contains (f.src.toNat, f.packet.toNat)

/-- Remember which packets are replies while they pass. -/
def State.noteReply (s : State) (f : Flit) : State :=
  let k := (f.src.toNat, f.packet.toNat)
  let r := s.isReply f
  let l := s.fab.replies.filter (· ≠ k)
  s.setFab { s.fab with replies := if r && !f.last then l ++ [k] else l }

/-- A flit for this module joins its packet; a whole packet has arrived (R362). -/
def State.assemble (s : State) (f : Flit) : State :=
  let src := f.src.toNat
  let pk := f.packet.toNat
  let old := (s.fab.asm.find? fun a => a.src = src && a.packet = pk).getD { src, packet := pk, flits := [] }
  let a := { old with flits := Tab.ins old.flits f.index.toNat f }
  let rest := s.fab.asm.filter fun a => !(a.src = src && a.packet = pk)
  let whole := (a.flits.find? (·.2.last)).any fun e => e.1 + 1 == a.flits.length
  s.setFab { s.fab with asm := if whole then rest else rest ++ [a], arrived := if whole then s.fab.arrived ++ [a] else s.fab.arrived }

/-- The port of a direction for a flit that passes: the pair's ports take packets in turn, and later flits follow their
packet's first (R385; notes/assumptions/44.md). -/
def State.passPort (s : State) (dim dir : Nat) (first : Bool) : Nat × State :=
  if first then s.bulkPort dim dir
  else
    let q := 4 * dim + 2 * dir + (1 - Tab.get (fun _ => 0) s.fab.alt (2 * dim + dir))
    (if s.portUp q || !s.portUp (pairOf q) then q else pairOf q, s)

/-- Send a passing flit out of a port, unless an isolated Seam lies between (R29). -/
def State.passOut (s : State) (pIn p : Nat) (sched orphan reply : Bool) (f : Flit) : State :=
  if s.flag Fd.seamStatusIsolated && portHalf pIn ≠ portHalf p then s.noRoute (uwPort pIn) f.dest.toNat
  else s.queueFlits p sched orphan reply [f]

/-- Pass a flit on: a scheduled flit in its flow's slots, up to two periods' worth, else as an orphan by the route table; a
bulk flit by the route table, on `VC` 0 where it enters a dimension (R370, R372, R385). -/
def State.passOn (s : State) (pIn : Nat) (f : Flit) : State :=
  let reply := s.isReply f
  let byRoute (s : State) (sched : Bool) (f : Flit) : State :=
    match s.routeTo f.dest.toNat with
    | none => s.noRoute (uwPort pIn) f.dest.toNat
    | some (dim, dir) =>
      let (p, s) := s.passPort dim dir (f.kind = 1)
      let f := if dim = dimOf pIn then f else { f with vc := false }
      s.passOut pIn p sched sched reply f
  if f.cls ≠ 1 then byRoute s false f
  else if f.orphan then byRoute s true f
  else match s.flowPort f.flow.toNat with
    | none => byRoute s true f
    | some p =>
      let held := ((s.port p).sched.filter fun g => g.flit.flow = f.flow).length
      let cap := 2 * (((s.rota p).filter (·.flow = f.flow.toNat)).map fun e => popCount 8 e.lanes).sum
      if held < cap then s.passOut pIn p true false reply f else byRoute s true f

/-- DATA_FLIT: a data flit arrives: one that fails its check is discarded and counted; one for this module joins its
packet; another passes on. -/
def execDataFlit (port : Fin 16) (lane : Fin 8) (f : Flit) (checkOk : Bool) (s : State) :
    Host.Outcome State Fault Refusal :=
  let p := port.val
  if !s.portUp p || !(s.lanesIn p).contains lane.val || s.dark then .next s
  else if !checkOk then .next (s.sat (Fd.optPortErrUe p) 1)
  else if (f.kind ≠ 1 ∧ f.kind ≠ 2) ∨ (s.port p).seen f.seq.toNat then .next s
  else
    let x := (s.port p).arrive f.seq.toNat
    let c := FlitOut.chan { flit := f, reply := s.isReply f }
    let x := if f.cls = 1 then x else { x with back := Tab.put (fun _ => 0) x.back c (Tab.get (fun _ => 0) x.back c + 1) }
    let s := s.setPort p x
    if f.dest.toNat = s.device then .next (s.assemble f)
    else .next ((s.passOn p f).noteReply f)

/-! ### Acknowledgement and credits (R369, R370) -/

/-- ACKNOWLEDGE: flits below the number named are released, and those named missing are sent again. -/
def execAcknowledge (port : Fin 16) (below : BitVec 16) (missing : List (BitVec 16)) (s : State) :
    Host.Outcome State Fault Refusal :=
  let p := port.val
  if !s.portUp p then .next s
  else
    let x := s.port p
    let done (q : BitVec 16) : Bool := (below - q - 1).toNat < 32768
    let retry := x.retry.filter fun e => !done e.1.flit.seq
    let held (q : Nat) : Bool := retry.any fun e => e.1.flit.seq.toNat = q
    let ask := ((missing.map (·.toNat)).filter fun q => held q && !x.resend.contains q).eraseDups
    .next (s.setPort p { x with retry, resend := x.resend.filter held ++ ask })

/-- Round trip of a port in whole Bells, rounded up (R369). -/
def State.roundTripBells (s : State) (p : Nat) : Nat := (s.rd (Fd.bellPortDelayRoundTrip p) + 8191) / 8192

/-- FLIT_RESEND_TIMEOUT: a flit not acknowledged within RT + 4 Bells of sending is sent again. -/
def execFlitResendTimeout (port : Fin 16) (seq : BitVec 16) (s : State) : Host.Outcome State Fault Refusal :=
  let p := port.val
  let x := s.port p
  match x.retry.find? fun e => e.1.flit.seq = seq with
  | none => .next s
  | some e =>
    if !s.portUp p || s.bellCount.toNat < e.2.toNat + s.roundTripBells p + 4 || x.resend.contains seq.toNat then .next s
    else .next (s.setPort p { x with resend := x.resend ++ [seq.toNat] })

/-- CREDIT: credits of the four bulk channels return. -/
def execCredit (port : Fin 16) (c0 c1 c2 c3 : BitVec 16) (s : State) : Host.Outcome State Fault Refusal :=
  let p := port.val
  let body := ctlBody (toBytes 2 c0.toNat ++ toBytes 2 c1.toNat ++ toBytes 2 c2.toNat ++ toBytes 2 c3.toNat)
  if !s.portUp p then .next s
  else match s.hear p { kind := 3, routed := false, dest := 0, src := 0, body } with
    | none => .next s
    | some s =>
      let x := s.port p
      let used := [c0, c1, c2, c3].zipIdx.foldl (fun (u : List (Nat × Nat)) (c : BitVec 16 × Nat) =>
        Tab.put (fun _ => 0) u c.2 (Tab.get (fun _ => 0) u c.2 - c.1.toNat)) x.used
      .next (s.setPort p { x with used })

/-! ### Routed messages (R364, R365, R379, R409) -/

/-- A routed message that is heard for the first time: here, or on its way. -/
def State.hearRouted (s : State) (p : Nat) (m : Ctl) (here : State → State) : State :=
  if !s.portUp p || s.dark then s
  else match s.hear p m with
    | none => s
    | some s =>
      if m.dest = s.device then here s
      else s.routeCtl m

/-- WINDOW_ANNOUNCEMENT: an announced window is held, or passed on (R62, R379; notes/assumptions/45.md). -/
def execWindowAnnouncement (port : Fin 16) (dest : BitVec 14) (win : Window) (s : State) :
    Host.Outcome State Fault Refusal :=
  .next (s.hearRouted port { kind := 4, routed := true, dest := dest.toNat, src := win.device.toNat, body := windowBody win }
    fun s => s.holdWindow win)

/-- THERMAL_NOTICE: the thermal state of a remote stack is known, or passed on (R379). -/
def execThermalNotice (port : Fin 16) (dest source : BitVec 14) (stack : Fin 8) (state : BitVec 2) (bell : BitVec 64)
    (s : State) : Host.Outcome State Fault Refusal :=
  let body := ctlBody (toBytes 1 stack ++ toBytes 1 state.toNat ++ toBytes 8 bell.toNat)
  .next (s.hearRouted port { kind := 7, routed := true, dest := dest.toNat, src := source.toNat, body } fun s =>
    s.setFab { s.fab with thermal := Tab.put (fun _ => 0) s.fab.thermal (8 * source.toNat + stack) state.toNat })

/-- MUSTER_MESSAGE: an arrive or release message reaches its group, or is passed on (R407 to R409). -/
def execMusterMessage (port : Fin 16) (dest : BitVec 14) (m : MusterMsg) (s : State) : Host.Outcome State Fault Refusal :=
  let body := musterBody m.group.toNat (if m.release then 2 else 1) m.ten.toNat m.fromGroup.toNat m.status.toNat
    m.generation.toNat m.bell m.deadline.toNat m.lateness.toNat
  .next (s.hearRouted port { kind := 9, routed := true, dest := dest.toNat, src := m.source.toNat, body } fun s =>
    let (s, out) := s.musterApply m
    State.musterOut musterFuel s out)

end Sys2Proof.Machine
end

