-- ==== Sys2Proof/Machine/Mesh.lean ====
section
/-! DEFINITION. Machine/Mesh.lean: the on-die mesh and the Seam: routes, routers and their queues, errors in packets,
faulty routers and lost bundles (R26 to R30, R368, R388, R578). -/
namespace Sys2Proof.Machine

/-! ### Routes (R26, R27, R29, R388) -/

/-- The Pen, and so the router, at a row and column of the grid (Table 1.1). -/
def meshAt (row col : Nat) : Nat := 8 * (col / 2) + 2 * row + col % 2

/-- Whether a link joins routers of the two halves: it is the Seam bundle of their row. -/
def crossesSeam (r q : Nat) : Bool := decide (r / 8 ≠ q / 8)

/-- Routers that a link joins to a router, those of its row first. A Seam bundle out of service joins none. -/
def State.meshNeighbours (s : State) (r : Nat) : List Nat :=
  let y := penRow r
  let x := penCol r
  let along := (if 0 < x then [meshAt y (x - 1)] else []) ++ (if x < 3 then [meshAt y (x + 1)] else [])
  let across := (if 0 < y then [meshAt (y - 1) x] else []) ++ (if y < 3 then [meshAt (y + 1) x] else [])
  (along ++ across).filter fun q => !crossesSeam r q || s.rdBit Fd.seamStatusInService y

/-- Whether a packet for a Pen may pass a router: the active mesh table avoids those judged faulty. -/
def State.mayPass (s : State) (dest q : Nat) : Bool := q = dest || !s.fab.avoid.contains q

/-- One more hop of the distances from every router to a Pen; 99 is out of reach. -/
def State.meshRelax (s : State) (dest : Nat) (ds : List Nat) : List Nat :=
  (List.range 16).map fun r =>
    if r = dest then 0
    else min 99 (((s.meshNeighbours r).filter (s.mayPass dest)).foldl (fun m q => min m (ds.getD q 99 + 1)) 99)

/-- Hops from every router to a Pen. -/
def State.meshDist (s : State) (dest : Nat) : List Nat :=
  (List.range 16).foldl (fun ds _ => s.meshRelax dest ds) (List.replicate 16 99)

/-- The entry of a router's table for a destination Pen: the next router of a shortest path, along the row before along the
column; none at the Pen itself, and none where no path is left. Which row a packet for the other half crosses in, and how
a route avoids a router or a bundle, is the model's choice (notes/assumptions/132.md). -/
def State.meshNext (s : State) (r dest : Nat) : Option Nat :=
  let ds := s.meshDist dest
  if r = dest then none
  else ((s.meshNeighbours r).filter (s.mayPass dest)).find? fun q => decide (ds.getD q 99 < 99 ∧ ds.getD q 99 < ds.getD r 99)

/-! ### Routers (R368) -/

/-- Packets that wait in a router, in the order they came. -/
def State.router (s : State) (r : Nat) : List MeshPacket := Tab.get (fun _ => []) s.fab.routers r
def State.setRouter (s : State) (r : Nat) (l : List MeshPacket) : State :=
  s.setFab { s.fab with routers := Tab.put (fun _ => []) s.fab.routers r l }

/-- Packets on the link from one router to another, in order. -/
def State.link (s : State) (r q : Nat) : List MeshPacket := Tab.get (fun _ => []) s.fab.links (16 * r + q)
def State.setLink (s : State) (r q : Nat) (l : List MeshPacket) : State :=
  s.setFab { s.fab with links := Tab.put (fun _ => []) s.fab.links (16 * r + q) l }

/-- The packet a router serves next: of the first class in the order control, scheduled, latency-critical, bulk, the one
that came first. -/
def nextServed (l : List MeshPacket) : Option MeshPacket :=
  [MeshClass.control, .scheduled, .critical, .bulk].findSome? fun c => l.find? fun p => p.cls = c

/-- The operation a poisoned packet serves will complete with `POISON` (R29, R578). -/
def State.poisonOp (s : State) (op : Option Nat) : State :=
  match op with
  | none => s
  | some id => { s with ops := s.ops.map fun (o : Op) => if o.id = id then { o with poisoned := true } else o }

/-- The operation a discarded packet carried never completes. -/
def State.loseOp (s : State) (op : Option Nat) : State :=
  match op with
  | none => s
  | some id => { s with ops := s.ops.map fun (o : Op) => if o.id = id then { o with phase := OpPhase.dropped } else o }

/-- A router serves one packet: to its own Pen, or onto the link its table names. A packet with no path left ends, and
its operation completes with `POISON` (R29). -/
def State.serveRouter (s : State) (r : Nat) : State :=
  match nextServed (s.router r) with
  | none => s
  | some p =>
    let s := s.setRouter r ((s.router r).erase p)
    if p.pen.val = r then s.emit (.mesh p)
    else match s.meshNext r p.pen with
      | some q => s.setLink r q (s.link r q ++ [p])
      | none => s.poisonOp p.op

/-- A router serves packets one after another. -/
def State.serveMany (s : State) (r : Nat) : Nat → State
  | 0 => s
  | n + 1 => (s.serveRouter r).serveMany r n

/-- The packet that arrives: one from the router's own Pen, or the first on a link. -/
def State.meshTake (s : State) (r : Nat) : MeshArrival → Option MeshPacket × State
  | .enters p => (some p, s)
  | .link q =>
    match s.link q r with
    | [] => (none, s)
    | p :: t => (some p, s.setLink q r t)

/-- Failed wires of a Seam bundle (Table 1.3). -/
def seamFailed : Nat → Fld
  | 0 => Fd.seamStatusFailed0
  | 1 => Fd.seamStatusFailed1
  | 2 => Fd.seamStatusFailed2
  | _ => Fd.seamStatusFailed3

/-- A stitch-wire error reported by the bundle of a row. In Flat mode it counts as one failed wire
(notes/assumptions/83.md). -/
def State.seamError (s : State) (row : Nat) (flat : Bool) : State :=
  let s := s.wrBit Fd.seamStatusErrSeen row true
  if flat then s.sat (seamFailed row) 1 else s

/-- An error in a packet's words as the unit that sees it handles it: corrected, poisoned, or, in a header word, the packet
is discarded (R578). -/
def State.meshError (s : State) (u : Nat) (check : TransitCheck) (p : MeshPacket) : Bool × State :=
  match check with
  | .clean => (true, s)
  | .singleBit => (true, s.record euTransit 0x0401 u p.pen 0)
  | .doublePayload => (true, (s.poisonOp p.op).record euTransit 0x0402 u p.pen 0)
  | .doubleHeader => (false, (s.loseOp p.op).record euTransit 0x0403 u 0 (s.bellCount.toNat % 2 ^ 32))

/-- A packet's words are checked as it comes to a router, over the Seam bundle of a row if it crossed (R29, R578): a Flat
Seam's errors are its own to show, a Bridged Seam's are caught and sent again before. Whether the packet stays. -/
def State.meshCheck (s : State) (r : Nat) (row : Option Nat) (check : TransitCheck) (p : MeshPacket) : Bool × State :=
  if check = .clean then (true, s)
  else match row with
    | some y =>
      if s.flag Fd.seamStatusMode then (true, s.seamError y false) else (s.seamError y true).meshError (uwSeam y) check p
    | none => s.meshError (uwMesh r) check p

/-- MESH_PACKET: a packet comes to a router with every word checked and waits there; the router then serves as many packets
as it has time for, in the order of their classes. -/
def execMeshPacket (router : Fin 16) (v : MeshVisit) (s : State) : Host.Outcome State Fault Refusal :=
  let r := router.val
  if s.dark then .next s
  else
    let row := match v.arrival with
      | .link q => if crossesSeam q r then some (penRow r) else none
      | .enters _ => none
    let (p?, s) := s.meshTake r v.arrival
    let s := match p? with
      | none => s
      | some p =>
        let (keeps, s) := s.meshCheck r row v.check p
        if keeps then s.setRouter r (s.router r ++ [p]) else s
    .next (s.serveMany r v.served)

/-! ### Faulty routers (R388) and lost bundles (R29) -/

/-- A router is judged faulty: the shadow mesh table avoids it, which flips at the next boundary, and its Pen's Drovers
are fenced. -/
def State.routerFaulty (s : State) (r kind : Nat) : State :=
  if s.fab.faulty.contains r then s
  else
    let s := s.setFab { s.fab with faulty := Nats.ins s.fab.faulty r, meshFlip := true }
    let s := s.record euTransit 0x0404 (uwMesh r) kind ((s.bellCount.toNat + 1) % 2 ^ 32)
    eachUpTo 8 (fun s k => s.fenceDrover (8 * r + k) 7) s

/-- ROUTER_FAULT: an uncorrectable error in a router's buffers or crossbar. -/
def execRouterFault (router : Fin 16) (crossbar : Bool) (s : State) : Host.Outcome State Fault Refusal :=
  if s.dark then .next s else .next (s.routerFaulty router (if crossbar then 2 else 1))

/-- STUCK_PACKET: a packet stays in a router for 1 µs. -/
def execStuckPacket (router : Fin 16) (s : State) : Host.Outcome State Fault Refusal :=
  if s.dark then .next s else .next (s.routerFaulty router 3)

/-- SEAM_BUNDLE_LOST: the failed wires of a bundle are counted. In Bridged mode one with more than 64 leaves service, its
packets take the bundles that remain, and with none left the halves are isolated (R29, R30). -/
def execSeamBundleLost (row : Fin 4) (failed : BitVec 8) (s : State) : Host.Outcome State Fault Refusal :=
  let r := row.val
  if s.dark || !s.rdBit Fd.seamStatusInService r then .next s
  else
    let s := if s.rd (seamFailed r) < failed.toNat then s.seamError r false else s
    let s := s.wr (seamFailed r) (max (s.rd (seamFailed r)) failed.toNat)
    if !s.flag Fd.seamStatusMode || s.rd (seamFailed r) ≤ 64 then .next s
    else
      let s := s.wrBit Fd.seamStatusInService r false
      let s := if s.rd Fd.seamStatusInService = 0 then s.wr Fd.seamStatusIsolated 1 else s
      .next (s.record euTransit 0x0405 (uwSeam r) (s.rd (seamFailed r)) 0)

end Sys2Proof.Machine
end

