-- ==== Sys2Proof/Machine/Sites.lean ====
section
/-! DEFINITION. Machine/Sites.lean: doorbells and mailbox posts of sites, replies to the base die's requests, link retry,
bundle repair, the handshake and the control wires (R421 to R444). -/
namespace Sys2Proof.Machine

/-! ### Doorbells and mailbox posts (R430, R462) -/

/-- Whether a site's doorbell passes the Hurdle (R430). -/
def State.doorbellOk (s : State) (k n t : Nat) : Bool :=
  s.flag (Fd.hurdleDbEn k) && s.rd (Fd.hurdleDbLo k) ≤ n && n ≤ s.rd (Fd.hurdleDbHi k) && s.rdBit (Fd.hurdleDbStrands k) t &&
    (s.physical? n).any fun d => s.tenancy (paddockOf d) = s.rd (Fd.hurdleDbTen k)

/-- DOORBELL: a start record for a strand; the outcome of Table 3.6 goes back in `AUX`. An isolated Seam on the way
completes it with `POISON` (R29). -/
def execSiteDoorbell (c : SiteCmd) (s : State) : Host.Outcome State Fault Refusal :=
  .next (s.siteArrives c 7 4 4 fun s =>
    let n := bits c.aux 7 0
    let t := bits c.aux 10 8
    let tag := c.tag.toNat
    if !s.doorbellOk c.site n t then s.siteRefuses c 7 stNotPermitted
    else if s.cutFrom (c.site.val / 2) n then s.siteDone c.site c.bundle tag stPoison 0
    else
      let d := cmdData c
      let (o, s) := s.startRecord n t (StartRec.ofWords fun i => BitVec.ofNat 64 (ofBytes ((d.drop (8 * i)).take 8)))
      s.siteDone c.site c.bundle tag stOk (BitVec.ofNat 64 o))

/-- MAILBOX: a post to one of mailboxes 0 to 31 that `HURDLE_MBOX` permits; its reply waits for the post's completion. -/
def execSiteMailbox (c : SiteCmd) (s : State) : Host.Outcome State Fault Refusal :=
  .next (s.siteArrives c 8 4 5 fun s =>
    let m := bits c.aux 5 0
    let n := bits c.aux 9 6 + 1
    if 32 ≤ m ∨ s.rdBit (Fd.hurdleMbox c.site) m = false then s.siteRefuses c 8 stNotPermitted
    else if n < 8 then s.siteDone c.site c.bundle c.tag.toNat stNotPermitted 0
    else
      let d := c.data ++ zeros 128
      let ws := (List.range n).map fun i => BitVec.ofNat 64 (ofBytes ((d.drop (8 * i)).take 8))
      s.postIn m ws (senderSite c.site c.bundle c.tag.toNat) (some (c.site.val, c.bundle.val, c.tag.toNat)))

/-! ### Replies of a site (R420, R425 to R427) -/

/-- Whether a chunk of an operation still waits for a site. -/
def State.chunkAtSite (s : State) (id k : Nat) : Bool :=
  s.siteReqs.any fun q => q.op = id && q.chunk = k && q.mbox.isNone && q.inb.isNone

/-- A chunk of a transfer is answered: data are at hand and it is due to go on; its writes are done, it makes its local
ones and commits; or it fails with its transfer. Chunks in flight beside a failed one still commit (R137, R168, R173). -/
def State.chunkAnswer (s : State) (o : Op) (q : SiteReq) (st : Nat) (data : List Byte) (poison : Nat) : State :=
  let left := s.chunkAtSite o.id q.chunk
  match o.chunks.find? fun c => c.num = q.chunk && c.sent with
  | none => s
  | some c =>
    let others := o.chunks.filter (·.num ≠ q.chunk)
    let c := { c with failed := c.failed || st ≠ stOk }
    let o := if q.write || st ≠ stOk then o
      else
        let secs := List.range (q.bytes / 32)
        let bad := secs.filter poison.testBit
        { o with
          buf := Memory.write o.buf (siteKey q.chunk q.addr) (data.take q.bytes)
          got := secs.foldl (fun l i => Nats.ins l (secKey q.chunk (q.addr + 32 * i))) o.got
          bufBad := bad.foldl (fun l i => Nats.ins l (secKey q.chunk (q.addr + 32 * i))) o.bufBad }
    let s := s.setOp { o with chunks := if left then others ++ [c] else others }
    let o := { o with chunks := if left then others ++ [c] else others }
    let s := if st = stOk then s else s.failXfer o st
    if left || c.failed then s
    else match s.op? o.id with
      | none => s
      | some o =>
        if !q.write then s.setOp { o with chunks := others ++ [{ num := c.num, due := true }] }
        else if q.chunk = o.n then s.setOp { o with counted := true }
        else
          let (b, s) := s.applyPuts o c.puts
          s.chunkDone { o with poisoned := o.poisoned || c.bad || b } q.chunk c.outs c.next c.half

/-- A load, store or descriptor access is answered: its completion is due. -/
def State.memAnswer (s : State) (o : Op) (q : SiteReq) (st : Nat) (data : List Byte) (poison : Nat) : State :=
  if o.phase ≠ .remote then s
  else if st ≠ stOk || q.write then s.setServed o st 0 0
  else
    let off := o.pa - q.addr
    let d := (data.drop off).take o.width
    let bad := (List.range o.width).any fun i => poison.testBit ((off + i) / 32)
    if o.code = .dld then s.setServed o (if bad then stPoison else stOk) 0 (BitVec.ofNat 512 (ofBytes d))
    else s.setServed o (if bad then stPoison else stOk) (if bad then 0 else ldExtend o.sub (ofBytes d)) 0

/-- A request of another module is answered: its pieces are gathered, and the last one answers it (R401). -/
def State.inAnswer (s : State) (src pkt : Nat) (q : SiteReq) (st : Nat) (data : List Byte) (poison : Nat) : State :=
  match s.fab.inbound.find? (·.same src pkt) with
  | none => s
  | some x =>
    let n := askedOf x.req
    let at_ := (List.range q.bytes).filter fun i => q.chunk ≤ q.op + (q.addr + i) && q.op + (q.addr + i) - q.chunk < n
    let x := { x with st := if x.st = stOk || x.st = stPoison then (if st = stOk then x.st else st) else x.st }
    let x := if q.write || st ≠ stOk then x
      else { x with
        buf := at_.foldl (fun m i => Memory.write m (q.op + (q.addr + i) - q.chunk) [data.getD i 0]) x.buf
        bad := at_.foldl (fun l i => if poison.testBit (i / 32) then Nats.ins l ((q.op + (q.addr + i) - q.chunk) / 32) else l) x.bad }
    if s.siteReqs.any (·.inb = some (src, pkt)) then s.holdIn x
    else if q.write then s.appliedIn x x.st else s.getDone x

/-- A request to a site ends, with the reply's data or without a reply. -/
def State.siteAnswer (s : State) (q : SiteReq) (st : Nat) (data : List Byte) (poison : Nat) : State :=
  let s := { s with siteReqs := s.siteReqs.filter fun r => !(r.site = q.site && r.tag = q.tag) }
  match q.mbox, q.inb with
  | some m, _ => s.mboxReply m q.site st
  | none, some (src, pkt) => s.inAnswer src pkt q st data poison
  | none, none => match s.op? q.op with
    | none => s
    | some o => if isXferOp o.code then s.chunkAnswer o q st data poison else s.memAnswer o q st data poison

/-- The outstanding request of a tag. -/
def State.siteReq? (s : State) (k tag : Nat) : Option SiteReq := s.siteReqs.find? fun q => q.site = k && q.tag = tag

/-- A reply arrives on `VC` 0x3: one that matches no request is discarded and recorded (R425). -/
def State.siteReplied (s : State) (k j n tag : Nat) (write : Bool) (st : Nat) (data : List Byte) (poison : Nat) : State :=
  if s.rd (Fd.siteStatusState k) ≠ ssRunning || !s.downIn k j then s
  else
    let s := s.tookSlp k j 3 n
    match s.siteReq? k tag with
    | none => s.siteRecord k 0x0607 1 tag
    | some q =>
      if q.write ≠ write then s.siteRecord k 0x0607 1 tag
      else s.siteAnswer q (if st = 0 then stOk else stSite) data (if s.siteHas k 8 then poison else 0)

/-- SW_DATA: the reply to a read; a non-zero `STATUS` completes the operation with `SITE`. -/
def execSwData (site : Fin 4) (bundle : Fin 32) (packets : Nat) (tag : BitVec 16) (status : BitVec 8) (data : List (BitVec 8))
    (poison : BitVec 8) (s : State) : Host.Outcome State Fault Refusal :=
  .next (s.siteReplied site bundle packets tag.toNat false status.toNat (data ++ zeros 256) poison.toNat)

/-- SW_DONE: the reply to a write or a mailbox delivery. -/
def execSwDone (site : Fin 4) (bundle : Fin 32) (packets : Nat) (tag : BitVec 16) (status : BitVec 8) (s : State) :
    Host.Outcome State Fault Refusal :=
  .next (s.siteReplied site bundle packets tag.toNat true status.toNat [] 0)

/-- SITE_REPLY_TIMEOUT: no reply within one Round (R427). -/
def execSiteReplyTimeout (site : Fin 4) (tag : BitVec 16) (s : State) : Host.Outcome State Fault Refusal :=
  match s.siteReq? site tag.toNat with
  | none => .next s
  | some q =>
    if s.bellCount.toNat < q.sent.toNat + 65536 then .next s
    else .next ((s.siteRecord site 0x0607 2 tag.toNat).siteAnswer q stTimeout [] 0)

/-! ### A site that stops (R436, R444, R508, R510) -/

/-- A site's core goes into reset, with its state after: requests outstanding at it complete with `RESET`, replies to its
own commands are discarded, its mailboxes are aborted or held. -/
def State.siteStops (s : State) (k st : Nat) : State :=
  let x := s.site k
  let s := (s.siteWires k x.pg x.lrst false).siteState k st
  let s := { s with
    siteHeld := s.siteHeld.map fun (h : SiteHeld) => if h.cmd.site.val = k then { h with mute := true } else h
    ranges := Tab.mapv (fun _ => []) (fun _ (l : List RangeReq) => l.map fun (r : RangeReq) =>
      { r with site := r.site.map fun (t : Nat × Nat × Nat) => if t.1 = k then (k, 32, t.2.2) else t }) s.ranges }
  let s := { s with mboxes := Tab.mapv (fun _ => {}) (fun _ (x : Mbox) => { x with
    poster := x.poster.map fun (t : Nat × Nat × Nat) => if t.1 = k then (k, 32, t.2.2) else t }) s.mboxes }
  let s := (s.siteReqs.filter fun q => q.site = k).foldl (fun t q => if q.mbox.isSome then t else t.siteAnswer q stReset [] 0) s
  ({ s with siteReqs := s.siteReqs.filter fun q => q.site ≠ k }).mboxSiteDown k

/-- A site's rails go off, or its interfaces are held in reset too: its links are gone. -/
def State.siteOff (s : State) (k st : Nat) : State :=
  let s := (s.siteStops k st).siteWires k false false false
  let s := s.setSite k { s.site k with ups := [], downs := [], frames := [], badC2 := [], awaits := false, shaken := false,
                                        release := false, stale := true, grace := none }
  (s.wr (Fd.siteBundlesIn k) 0).wr (Fd.siteBundlesHalf k) 0

/-! ### Bundles (R421, R433 to R436) -/

/-- Bundles in service in a direction. -/
def State.bundlesLeft (s : State) (k : Nat) (up : Bool) : Nat :=
  popCount 32 (s.rd (Fd.siteBundlesIn k) / (if up then 2 ^ 32 else 1) % 2 ^ 32)

/-- Bit of a bundle in `SITE_BUNDLES_IN`. -/
def bundleBit (up : Bool) (j : Nat) : Nat := if up then 32 + j else j

/-- A repair becomes due: the base die stops sending on an up bundle (R435). -/
def State.repairDue (s : State) (k : Nat) (up : Bool) (j : Nat) : State :=
  if up then s.setUp k j { (s.site k).up j with due := true } else s.setDown k j { (s.site k).down j with due := true }

/-- A bundle leaves service: recorded; its packets move; the last of a direction takes the site down (R434, R436). -/
def State.bundleOut (s : State) (k : Nat) (up : Bool) (j : Nat) : State :=
  let b := bundleBit up j
  if s.rdBit (Fd.siteBundlesIn k) b = false then s
  else
    let s := if up then s else (s.repairDue k false j).shutDown k j
    let s := (s.wrBit (Fd.siteBundlesIn k) b false).wrBit (Fd.siteBundlesHalf k) b false
    let s := if up then s.moveSlp k j else s
    let left := s.bundlesLeft k up
    let s := s.record (k / 2) 0x0604 (uwBundle k j up) left 0
    if left ≠ 0 then s
    else
      let s := s.siteStops k ssLinkDown
      s.setSite k { s.site k with awaits := false, shaken := false, release := false }

/-- Failed data wires of a half, in their order: D0 to D127 or D128 to D255. -/
def failedWires (t : BundleTraining) (upper : Bool) : List Nat :=
  (List.range 128).filterMap fun i =>
    let w := if upper then 128 + i else i
    if t.wires.any (fun x => x.val = w) then some w else none

/-- Data wires in use after sparing: the width of Table 14.10 (0: out of service). -/
def trainedWidth (t : BundleTraining) : Nat :=
  let lo := (failedWires t false).length
  let hi := (failedWires t true).length
  if t.c1 || (t.c0 && t.c3) then 0
  else if lo ≤ 4 ∧ hi ≤ 4 then 256
  else if lo ≤ 4 ∨ hi ≤ 4 then 128
  else 0

/-- Wires that get a spare of their half, the lowest spare first: S0 to S3 of the lower, S4 to S7 of the upper (R433). -/
def trainedSpares (t : BundleTraining) : List (Nat × Nat) :=
  let lo := failedWires t false
  let hi := failedWires t true
  (if lo.length ≤ 4 then lo.zipIdx else []) ++ (if hi.length ≤ 4 then hi.zipIdx.map fun p => (p.1, 4 + p.2) else [])

/-- Unit of a bundle's C2, wire 266 of its 268 in the order of Table 14.1 (notes/assumptions/149.md). -/
def uwC2 (k j : Nat) (up : Bool) : Nat := uwBundle k j up - 2 ^ 8 * 0x1FF + 2 ^ 8 * 266

/-- A bundle's C2 failed in training: recorded; the sideband moves to another (R434, R437). -/
def State.noteC2 (s : State) (k : Nat) (up : Bool) (j : Nat) (t : BundleTraining) : State :=
  let b := bundleBit up j
  if !t.c2 || (s.site k).badC2.contains b then s
  else (s.setSite k { s.site k with badC2 := Nats.ins (s.site k).badC2 b }).record (k / 2) 0x0603 (uwC2 k j up) (trainedWidth t)
    (trainedSpares t).length

/-- A `SITE_CMD` ends. -/
def State.siteCmdEnds (s : State) (k st res : Nat) : State := (s.wr (Fd.siteCmdState k) st).wr (Fd.siteCmdResult k) res

/-- BUNDLE_REPAIR: a bundle whose repair is due, and which is closed, is retrained and reopened at its width with `SEQ` 0
and fresh credits, or leaves service (Table 14.11). A site without `HALF_WIDTH` has no half width (R434). -/
def execBundleRepair (site : Fin 4) (up : Bool) (bundle : Fin 32) (t : BundleTraining) (s : State) :
    Host.Outcome State Fault Refusal :=
  let k := site.val
  let j := bundle.val
  let b := bundleBit up j
  let x := s.site k
  let due := if up then (x.up j).due else (x.down j).due
  if !due || s.rdBit (Fd.siteBundlesIn k) b = false then .next s
  else
    let w := if trainedWidth t = 128 && !s.siteHas k 7 then 0 else trainedWidth t
    let s := if up then s.moveSlp k j else s.shutDown k j
    let s := (s.record (k / 2) 0x0603 (uwBundle k j up) w (trainedSpares t).length).noteC2 k up j t
    let s := if w = 0 then s.bundleOut k up j
      else
        let s := s.wrBit (Fd.siteBundlesHalf k) b (decide (w = 128))
        if up then s.setUp k j { wait := ((s.site k).up j).held ++ ((s.site k).up j).wait }
        else s.setDown k j { owed := [(0, 64), (3, 64), (4, 64)] }
    let mine := s.rd (Fd.siteCmdState k) = 1 && s.rd (Fd.siteCmdUp k) = b2n up && s.rd (Fd.siteCmdBundle k) = j
    .next (if mine then s.siteCmdEnds k 2 0 else s)

/-- A write of `SITE_CMD` with `GO`: the first check that fails refuses it. -/
def State.siteGo (s : State) (k op : Nat) (up : Bool) (j : Nat) (eff : State → State) : State :=
  if !s.reaches (Fd.siteCmdGo k).addr then s
  else if s.rd (Fd.siteCmdState k) = 1 then s.wr (Fd.siteCmdResult k) 1
  else
    let s := ((s.wr (Fd.siteCmdOp k) op).wr (Fd.siteCmdUp k) (b2n up)).wr (Fd.siteCmdBundle k) j
    if op = 0 ∨ 2 < op then s.siteCmdEnds k 3 2
    else if s.rdBit (Fd.siteBundlesIn k) (bundleBit up j) = false then s.siteCmdEnds k 3 3
    else if s.bundlesLeft k up = 1 then s.siteCmdEnds k 3 4
    else eff (s.siteCmdEnds k 1 0)

/-- REPAIR: a bundle's repair is asked for; it ends with BUNDLE_REPAIR. -/
def execSiteRepair (site : Fin 4) (up : Bool) (bundle : Fin 32) (s : State) : Host.Outcome State Fault Refusal :=
  .next (s.siteGo site 1 up bundle fun s => s.repairDue site up bundle)

/-- CLOSE: a bundle is taken out of service (R436). -/
def execSiteClose (site : Fin 4) (up : Bool) (bundle : Fin 32) (s : State) : Host.Outcome State Fault Refusal :=
  .next (s.siteGo site 2 up bundle fun s => (s.bundleOut site up bundle).siteCmdEnds site 2 0)

/-- Send again every packet held on an up bundle (R421). -/
def State.replaySlp (s : State) (k j : Nat) : State :=
  let u := (s.site k).up j
  u.held.foldl (fun t p => t.emit (.slp k j p)) (s.inc (Fd.siteReplays k) u.held.length)

/-- LINK_CONTROL: the site acknowledges an up bundle's packets, returns credits, asks for retry, or closes it: packets not
accepted then travel on other bundles (R421, R422, R435, Table 14.7). -/
def execLinkControl (site : Fin 4) (bundle : Fin 32) (l : LinkCtl) (s : State) : Host.Outcome State Fault Refusal :=
  let k := site.val
  let j := bundle.val
  if !l.up || !s.linksUp k || s.rdBit (Fd.siteBundlesIn k) (32 + j) = false then .next s
  else
    let u := (s.site k).up j
    let acked := u.held.takeWhile fun p => p.seq ≠ l.ackSeq.toNat
    let held := if acked.length = u.held.length ∧ u.seq ≠ l.ackSeq.toNat then u.held else u.held.drop acked.length
    let credit := l.credits.zipIdx.foldl (fun t p => Tab.put (fun _ => 0) t p.2 (Tab.get (fun _ => 0) t p.2 + p.1.toNat)) u.credit
    let s := s.setUp k j { u with held, credit }
    let s := if l.nak && !l.closed then s.replaySlp k j else s
    .next (if l.closed then (s.repairDue k true j).moveSlp k j else s.drainUp k j)

/-- SLP_RETRY_TIMEOUT: no acknowledgement for 256 ns (R421). -/
def execSlpRetryTimeout (site : Fin 4) (bundle : Fin 32) (s : State) : Host.Outcome State Fault Refusal :=
  if s.linksUp site && s.upIn site bundle then .next (s.replaySlp site bundle) else .next s

/-- LINK_CONTROL_TIMER: a down bundle's receiver acknowledges and returns credits (R421). -/
def execLinkControlTimer (site : Fin 4) (bundle : Fin 32) (s : State) : Host.Outcome State Fault Refusal :=
  if s.linksUp site && s.downIn site bundle then .next (s.sendLinkCtl site bundle false false) else .next s

/-- CHECK_PATTERN: mismatches of an idle or check-pattern packet by wire; 16 of a wire in one Round make a repair due
(R416, R431, R435). -/
def execCheckPattern (site : Fin 4) (bundle : Fin 32) (wires : List (Fin 264)) (s : State) : Host.Outcome State Fault Refusal :=
  let k := site.val
  let j := bundle.val
  if !s.linksUp k || !s.downIn k j then .next s
  else
    let u := (s.site k).down j
    let t := wires.foldl (fun t w => Tab.put (fun _ => 0) t w.val (Tab.get (fun _ => 0) t w.val + 1)) u.wires
    .next (s.setDown k j { u with wires := t, due := u.due || t.any fun e => 16 ≤ e.2 })

/-- SITE_PACKET: a packet is discarded and counted, and a `NAK` sent; 256 CRC failures in a Round make a repair due (R415,
R417, R421, R435). -/
def execSitePacket (site : Fin 4) (bundle : Fin 32) (fault : PacketFault) (s : State) : Host.Outcome State Fault Refusal :=
  let k := site.val
  let j := bundle.val
  if !s.linksUp k || !s.downIn k j then .next s
  else
    let u := (s.site k).down j
    let crc := u.crc + b2n (decide (fault = .crc))
    .next (((s.inc (Fd.siteCrcErr k) 1).setDown k j { u with crc, due := u.due || decide (256 ≤ crc) }).sendLinkCtl k j true false)

/-! ### The handshake (R437 to R439) -/

/-- Capabilities the base die advertises (R439). -/
def baseAdv : Nat := if Config.dieRev = .b0 then 0x3FF else 0x3FB

/-- A site's core leaves reset: it runs (R443, R444). -/
def State.siteRuns (s : State) (k : Nat) : State :=
  let x := s.site k
  let s := (s.setSite k { x with release := false, heard := s.bellCount, stale := false }).siteWires k x.pg x.lrst true
  (s.siteState k ssRunning).mboxSiteUp k

/-- The handshake fails: the site stays in reset, and the failure is recorded. -/
def State.handshakeFails (s : State) (k why : Nat) : State :=
  let s := s.setSite k { s.site k with awaits := false, shaken := false }
  ((s.wr (Fd.siteStatusHsFail k) why).siteState k ssHsFailed).siteRecord k 0x0601 why 0

/-- The percentage of `PMAX` of each level (Table 14.15). -/
def plimPercent : Nat → Nat
  | 0 => 100
  | 1 => 85
  | 2 => 70
  | 3 => 50
  | _ => 25

/-- The limit in force: the fraction of `PMAX` given by the level driven (R510). -/
def State.showLimit (s : State) (k : Nat) : State :=
  s.wr (Fd.sitePwrLimit k) (s.rd (Fd.siteStatusPmax k) * plimPercent (s.rd (Fd.sitePwrLevel k)) / 100)

/-- CAPABILITY_FRAME: the intersection is enabled and answered, or the handshake fails; half-width bundles of a site without
`HALF_WIDTH` leave service (R434). -/
def execCapabilityFrame (site : Fin 4) (rev : BitVec 16) (level : BitVec 8) (caps : BitVec 16) (pmax : BitVec 16) (s : State) :
    Host.Outcome State Fault Refusal :=
  let k := site.val
  if !(s.site k).awaits || (s.sideband? k false).isNone then .next s
  else
    let adv := caps.toNat
    let on := adv &&& baseAdv
    let off := (adv ||| baseAdv) - on
    let s := ((s.wr (Fd.siteStatusSlpLevel k) level.toNat).wr (Fd.siteStatusSiteRev k) rev.toNat).wr (Fd.siteStatusPmax k)
      (min 500 pmax.toNat)
    let s := ((s.wr (Fd.siteCapsSiteAdv k) adv).wr (Fd.siteCapsBaseAdv k) baseAdv).showLimit k
    if !adv.testBit 0 then .next ((s.handshakeFails k 2).sendFrame k 2 (toBytes 2 0 ++ toBytes 1 0))
    else if level.toNat ≠ 1 ∧ level.toNat ≠ 2 then .next ((s.handshakeFails k 3).sendFrame k 2 (toBytes 2 0 ++ toBytes 1 0))
    else
      let s := ((s.wr (Fd.siteCapsEnabled k) on).wr (Fd.siteCapsOff k) off).wr (Fd.siteStatusHsFail k) 0
      let s := s.setSite k { s.site k with awaits := false, shaken := true }
      let s := s.sendFrame k 2 (toBytes 2 on ++ toBytes 1 1)
      let s := if off ≠ 0 ∨ 500 < pmax.toNat then s.siteRecord k 0x0602 off pmax.toNat else s
      let s := s.siteState k ssHeld
      let narrow := if on.testBit 7 then [] else (List.range 64).filter fun b => s.rdBit (Fd.siteBundlesHalf k) b
      .next (narrow.foldl (fun t b => t.bundleOut k (decide (32 ≤ b)) (b % 32)) s)

/-- HANDSHAKE_TIMEOUT: no capability frame within 50 ms (R438). -/
def execHandshakeTimeout (site : Fin 4) (s : State) : Host.Outcome State Fault Refusal :=
  if (s.site site).awaits then .next (s.handshakeFails site 1) else .next s

/-- SITE_RELEASE: after a Paddock reset's release the site's core leaves reset, once its handshake has passed (R444). -/
def execSiteRelease (site : Fin 4) (s : State) : Host.Outcome State Fault Refusal :=
  let k := site.val
  let x := s.site k
  if !x.release || s.resetPaddocks.contains k || s.rd (Fd.sitePwrHeld k) = 1 then .next s
  else .next (if x.shaken then s.siteRuns k else s)

/-- What a site's bundle met in training. -/
def bundleTraining (r : SiteTraining) (b : Nat) : BundleTraining :=
  ((r.bundles.find? fun e => e.1.val = b).map (·.2)).getD ⟨[], false, false, false, false⟩

/-- A bundle's training at a start: spares that differ from the repair map, and a failed C2, are recorded (R433, R434). -/
def State.noteTrained (s : State) (k b : Nat) (t : BundleTraining) : State :=
  let up := decide (32 ≤ b)
  let spares := (s.loaded.map fun (m : ModuleRecord) => m.siteSpares).getD []
  let mapped : List (Nat × Nat) := spares.filterMap fun e => if e.1 = 64 * k + b then some (e.2.1.val, e.2.2.val) else none
  let s := if mapped.all (trainedSpares t).contains && (trainedSpares t).all mapped.contains then s
    else s.record (k / 2) 0x0603 (uwBundle k (b % 32) up) (trainedWidth t) (trainedSpares t).length
  s.noteC2 k up (b % 32) t

/-- The links of a populated site are trained (Table 14.16, steps 1 to 4): each bundle gets its width; buffers are offered
whole, and the handshake is awaited; without a bundle in either direction it reads `LINK_DOWN` (R433, R434, R436). -/
def State.siteTrained (s : State) (k : Nat) (r : SiteTraining) : State :=
  let ins := ofBits ((List.range 64).filter fun b => trainedWidth (bundleTraining r b) ≠ 0)
  let half := ofBits ((List.range 64).filter fun b => trainedWidth (bundleTraining r b) = 128)
  let fresh : DownLink := { owed := [(0, 64), (3, 64), (4, 64)] }
  let downs := ((List.range 32).filter ins.testBit).map fun j => (j, fresh)
  let s := (s.setSite k { s.site k with ups := [], downs, badC2 := [], awaits := true, shaken := false }).siteWires k true true false
  let s := (List.range 64).foldl (fun t b => t.noteTrained k b (bundleTraining r b)) s
  let s := ((s.wr (Fd.siteBundlesIn k) ins).wr (Fd.siteBundlesHalf k) half).wr (Fd.sitePwrHeld k) 0
  if s.bundlesLeft k true = 0 ∨ s.bundlesLeft k false = 0 then
    (s.setSite k { s.site k with awaits := false }).siteState k ssLinkDown
  else (s.siteState k ssTraining).bellFrames

/-! ### Frames and wires (R437, R440, R442) -/

/-- SIDEBAND_REPEAT: the base die's frames are sent again (R437). -/
def execSidebandRepeat (site : Fin 4) (s : State) : Host.Outcome State Fault Refusal :=
  if s.linksUp site then .next ((s.site site).frames.foldl (fun t f => t.emitFrame site f.2) s) else .next s

/-- TEMPERATURE_FRAME: the site's temperature in units of 0.25 °C; `SITE_STATUS.TEMP` reads it in whole °C. -/
def execTemperatureFrame (site : Fin 4) (t : BitVec 16) (s : State) : Host.Outcome State Fault Refusal :=
  let k := site.val
  if !s.linksUp k || !s.siteHas k 9 || (s.sideband? k false).isNone then .next s
  else
    let s := s.setSite k { s.site k with temp := t, heard := s.bellCount, stale := false }
    .next (s.wr (Fd.siteStatusTemp k) (t.toInt.fdiv 4 % 256).toNat)

/-- SITE_TEMP_STALE: a site with `TEMP` sent no frame for one Round (R442). -/
def execSiteTempStale (site : Fin 4) (s : State) : Host.Outcome State Fault Refusal :=
  let k := site.val
  let x := s.site k
  if s.rd (Fd.siteStatusState k) ≠ ssRunning || !s.siteHas k 9 || x.stale || s.bellCount.toNat < x.heard.toNat + 65536 then .next s
  else .next ((s.setSite k { x with stale := true }).siteRecord k 0x0607 3 0)

/-- FAULT_FRAME: the site's own code is kept; no record code carries it (notes/assumptions/52.md). -/
def execFaultFrame (site : Fin 4) (code : BitVec 16) (s : State) : Host.Outcome State Fault Refusal :=
  if s.linksUp site && (s.sideband? site false).isSome then .next (s.setSite site { s.site site with code := code.toNat }) else .next s

/-- SITE_ALERT: `SITE_ALERT_N` goes low (R440). -/
def execSiteAlert (site : Fin 4) (s : State) : Host.Outcome State Fault Refusal :=
  let k := site.val
  if !(s.site k).pg then .next s
  else .next (((s.wr (Fd.siteStatusAlert k) 1).irq (27 + k)).siteRecord k 0x0605 0 0)

end Sys2Proof.Machine
end

