-- ==== Sys2Proof/Machine/XlatCmd.lean ====
section
/-! DEFINITION. Machine/XlatCmd.lean: what walker firmware does: replies to tickets, shadow fills, shootdown and
migration (R325, R326, R329, R333, R336, R338). -/
namespace Sys2Proof.Machine

/-! ### The ring (R338) -/

/-- Records that waited for ring space are written while there is room. -/
def State.ringDrain : Nat → State → State
  | 0, s => s
  | fuel + 1, s =>
    match s.xl.stalled with
    | [] => s
    | r :: t =>
      if s.ringFull then s
      else State.ringDrain fuel ((s.setXl { s.xl with stalled := t }).ringWrite r)

/-- Firmware advances `TAIL`. -/
def State.setTail (s : State) (tail : Nat) : State :=
  let s := s.wr Fd.xlatRingPtrTail tail
  s.ringDrain (s.xl.stalled.length + 1)

/-- WALKER_RING_RESUME: a write of `TAIL` lets records that waited enter the ring. -/
def execWalkerRingResume (tail : BitVec 16) (s : State) : Host.Outcome State Fault Refusal :=
  if s.down.isSome then .next s else .next (s.setTail tail.toNat)

/-! ### Requests on a ticket look up again -/

/-- What an operation does when its ticket's requests look up again: `resumes` lets a parked transfer go on, and one
that still parks go on at once after (R325). -/
def State.retryOp (s : State) (id : Nat) (resumes : Bool) (o : Op) : State :=
  if o.curTick = some id then s.cursorThen { o with curTick := none }
  else
    let s :=
      if o.ticket ≠ some id then s
      else if o.phase = .missed then s.translate { o with ticket := none }
      else if resumes && o.phase = .parked then s.resumeXfer o
      else if resumes && o.phase = .parking then s.setOp { o with redo := true }
      else s
    (o.chunks.filter fun c => c.ticket = some id && !c.fault).foldl (fun t c => match t.op? o.id with
      | some p => t.retryChunk p c.num
      | none => t) s

/-- Every request on a ticket looks up again. -/
def State.retryTicket (s : State) (id : Nat) (resumes : Bool) : State :=
  let s := s.ops.foldl (fun t q => match t.op? q.id with
    | some o => t.retryOp id resumes o
    | none => t) s
  s.lookupIn id

/-- End the tickets no request waits on, and let others ask. -/
def State.settleTickets (s : State) : State := (s.pruneTickets.pruneInbound).askAgain

/-! ### Replies (R325, R326, Table 10.8) -/

/-- The outcome of a write of `XLAT_REPLY`. -/
def State.xlOutcome (s : State) (res : Nat) : State :=
  (s.wr Fd.xlatReplyState (if res = 0 then 2 else 3)).wr Fd.xlatReplyResult res

def xrStale : Nat := 1
def xrBadLeaf : Nat := 2
def xrTenancy : Nat := 3
def xrRace : Nat := 4
def xrBadStatus : Nat := 6

/-- Whether a span of local addresses lies within one region R146 allows, and outside a reserve stripe that is on. -/
def State.frameOk (s : State) (a n : Nat) : Bool :=
  let b := a + n - 1
  if isStack a then isStack b && a / 2 ^ 36 = b / 2 ^ 36 && !s.stripeOn b
  else if isScratch a then isScratch b
  else isSiteWin a && isSiteWin b && siteOf a = siteOf b

/-- Whether the leaf and page that firmware offers break a rule (`BAD_LEAF`). -/
def State.leafBad (s : State) : Bool :=
  let leaf := s.reg Fd.xlatFillLeaf.addr
  let size := s.rd Fd.xlatFillVaSize
  let a := 65536 * leafFrame leaf
  size = 0 || !leafV leaf || leafType leaf ≠ 1 || 0xB < leafAcc leaf || (leafAcc leaf ≠ 0 && !isStack a) ||
    s.rd Fd.xlatFillVaPage % sizePages size ≠ 0 || leafFrame leaf % sizePages size ≠ 0 ||
    !s.frameOk a (65536 * sizePages size)

/-- Whether a shootdown in progress covers pages of a Paddock's context. -/
def Shoot.covers (x : Shoot) (paddock page n : Nat) : Bool :=
  x.mask.testBit paddock && (x.pages = 0 || (page < x.page + x.pages && x.page < page + n))

/-- The result of the checks a fill makes for a Paddock's context, in their order. -/
def State.fillCheck (s : State) (k : Nat) : Nat :=
  let size := s.rd Fd.xlatFillVaSize
  if s.leafBad then xrBadLeaf
  else if leafTen (s.reg Fd.xlatFillLeaf.addr) ≠ s.tenancy k then xrTenancy
  else if s.xl.shoot.any fun x => x.covers k (s.rd Fd.xlatFillVaPage) (sizePages size) then xrRace
  else 0

/-- The entry that firmware offers, for a Paddock's context. -/
def State.fillEntry (s : State) (k : Nat) : XlEntry :=
  { paddock := k, page := s.rd Fd.xlatFillVaPage, size := s.rd Fd.xlatFillVaSize, leaf := s.reg Fd.xlatFillLeaf.addr,
    used := true }

/-- Whether an operation has a request on a ticket. -/
def Op.onTicket (o : Op) (id : Nat) : Bool :=
  o.ticket = some id || o.curTick = some id || o.chunks.any fun c => c.ticket = some id

/-- The registers of `XLAT_REPLY` as its write leaves them. -/
def State.replyRegs (s : State) (op : Nat) (ticket status pen : Option Nat) : State :=
  (((s.wr Fd.xlatReplyOp op).wrSome Fd.xlatReplyTicket ticket).wrSome Fd.xlatReplyStatus status).wrSome Fd.xlatReplyPen pen

/-- FILL: a leaf is installed for a ticket's page and its requests look up again. -/
def execXlFill (ticket : BitVec 32) (s : State) : Host.Outcome State Fault Refusal :=
  if s.down.isSome then .next s
  else
  let id := ticket.toNat
  let s := s.replyRegs 1 (some id) none none
  match s.ticket? id with
  | none => .next (s.xlOutcome xrStale)
  | some t =>
    let res := s.fillCheck t.paddock
    if res ≠ 0 then .next (s.xlOutcome res)
    else
      let e := s.fillEntry t.paddock
      let src := id / 2 ^ 24
      let s := if src < 16 then s.setL2 src (insertL2 e (s.l2 src))
        else s.setInbound (src - 16) (insertInbound e (s.inboundXl (src - 16)))
      let s := (s.ops.filter (·.onTicket id)).foldl (fun u o => u.setL1 o.drover (insertL1 e (u.l1 o.drover))) s
      .next (((s.retryTicket id false).settleTickets).xlOutcome 0)

/-- DEFER: each transfer with a chunk on the ticket parks; a scheduled inbound request ends with `FAULT` (R168, R336). -/
def execXlDefer (ticket : BitVec 32) (s : State) : Host.Outcome State Fault Refusal :=
  if s.down.isSome then .next s
  else
  let id := ticket.toNat
  let s := s.replyRegs 2 (some id) none none
  match s.ticket? id with
  | none => .next (s.xlOutcome xrStale)
  | some _ =>
    let defer (o : Op) : Op :=
      if !o.detached && (o.phase = .running || o.phase = .parking) && o.chunks.any (·.ticket = some id) then
        { o with
          phase := .parking, ticket := some id,
          chunks := updateWhere (fun (c : Chunk) => c.ticket = some id) (fun c => { c with fault := true }) o.chunks }
      else o
    let s := { s with ops := s.ops.map defer }
    let s := s.failIn id stFault fun q => (s.streamOf q.req).isSome
    .next (s.settleTickets.xlOutcome 0)

/-- RESUME: every request on the ticket looks up again; one that misses again takes a new ticket. -/
def execXlResume (ticket : BitVec 32) (s : State) : Host.Outcome State Fault Refusal :=
  if s.down.isSome then .next s
  else
  let id := ticket.toNat
  let s := s.replyRegs 3 (some id) none none
  match s.ticket? id with
  | none => .next (s.xlOutcome xrStale)
  | some t =>
    let without (u : State) : State := u.setXl { u.xl with tickets := u.xl.tickets.filter (·.id ≠ id) }
    let s := (without s).retryTicket id true
    let s := s.setXl { s.xl with tickets := s.xl.tickets ++ [t] }
    .next (s.settleTickets.xlOutcome 0)

/-- What `FAIL` does to an operation: it completes with the status; a transfer that resumes without its cursor's
translation ends `CURSOR_BAD` (R313, R334). -/
def State.failTicketOp (s : State) (id st : Nat) (o : Op) : State :=
  if o.curTick = some id then
    if o.everPark then s.finishXfer { o with status := stCursorBad, curOk := false } else s.finish o st 0 1
  else if o.ticket = some id then
    if o.phase = .missed then s.failOp o st
    else match o.faulted with
      | some c => s.failXfer { o with faultVa := c.va, faultPos := c.pos } st
      | none => s.failXfer o st
  else match o.chunks.find? fun c => c.ticket = some id with
    | some c => s.failXfer { o with faultVa := c.va, faultPos := c.pos } st
    | none => s

/-- FAIL: every request on the ticket completes with a status, and the ticket ends. -/
def execXlFail (ticket : BitVec 32) (status : BitVec 8) (s : State) : Host.Outcome State Fault Refusal :=
  if s.down.isSome then .next s
  else
  let id := ticket.toNat
  let st := status.toNat
  let s := s.replyRegs 4 (some id) (some st) none
  if ! [stFault, stTenancy, stNotPermitted, stUnmapped].contains st then .next (s.xlOutcome xrBadStatus)
  else match s.ticket? id with
    | none => .next (s.xlOutcome xrStale)
    | some _ =>
      let s := s.ops.foldl (fun t q => match t.op? q.id with
        | some o => (t.failTicketOp id st o).slotFreed o.drover o.strand
        | none => t) s
      .next (((s.failIn id st fun _ => true).settleTickets).xlOutcome 0)

/-- SHADOW_FILL: a leaf is loaded into a Pen's shadow copy (R322). -/
def execXlShadowFill (pen : Fin 16) (s : State) : Host.Outcome State Fault Refusal :=
  if s.down.isSome then .next s
  else
  let s := s.replyRegs 5 none none (some pen.val)
  let res := s.fillCheck (pen.val / 4)
  if res ≠ 0 then .next (s.xlOutcome res)
  else .next ((s.setShadow pen (insertL2 { s.fillEntry (pen.val / 4) with used := false } (s.shadowXl pen))).xlOutcome 0)

/-- SHADOW_CLEAR: a Pen's shadow copy is emptied (R322). -/
def execXlShadowClear (pen : Fin 16) (s : State) : Host.Outcome State Fault Refusal :=
  if s.down.isSome then .next s
  else
  .next (((s.replyRegs 6 none none (some pen.val)).setShadow pen []).xlOutcome 0)

/-! ### Shootdown (R333, R334, Table 10.11) -/

/-- Invalidate every entry a shootdown covers. -/
def State.shootEntries (s : State) (x : Shoot) : State :=
  let f (t : List (Nat × List XlEntry)) : List (Nat × List XlEntry) :=
    Tab.mapv (fun _ => []) (fun _ l => l.filter fun e => !x.covers e.paddock e.page (sizePages e.size)) t
  s.setXl { s.xl with l1 := f s.xl.l1, l2 := f s.xl.l2, shadow := f s.xl.shadow, inbound := f s.xl.inbound }

/-- A running transfer whose cursor's translation was withdrawn, with no chunk out, yields and resumes with a new one of its
cursor. -/
def State.shootYield (s : State) (x : Shoot) (o : Op) : State :=
  if !(isXferOp o.code && o.phase = .running && x.curs.contains o.id) || o.flying then s
  else
    let s := s.setXl { s.xl with shoot := s.xl.shoot.map fun y => { y with curs := y.curs.filter (· ≠ o.id) } }
    if !(o.begun || o.everPark) then s.cursorThen { o with curOk := false, chunks := [] }
    else
      let t := s.yield o
      match t.op? o.id with
      | some p => if p.phase = .parked then t.resumeXfer p else t
      | none => t

/-- Every transfer that has to yield and can. -/
def State.shootYields (s : State) (x : Shoot) : State :=
  (s.ops.foldl (fun t q => match t.op? q.id with
    | some o => t.shootYield x o
    | none => t) s).pruneTickets

/-- Whether an operation still uses a withdrawn translation (Table 10.11, steps 3 to 5). -/
def Shoot.blocks (x : Shoot) (o : Op) : Bool :=
  x.waits.any (fun w => w.1 = o.id && o.chunks.any fun c => c.num = w.2 && c.sent) ||
    (x.curs.contains o.id && (o.phase = .running || o.phase = .parking || o.phase = .served)) ||
    (x.users.contains o.id && (o.phase = .ready || o.phase = .queued || o.phase = .remote || o.phase = .served))

/-- Whether a shootdown withdraws the translation a buffer gives of a page: that of a larger page partly covered too. -/
def Shoot.withdraws (x : Shoot) (t : List XlEntry) (paddock page : Nat) : Bool :=
  x.covers paddock page 1 || t.any fun e => e.covers paddock page && x.covers paddock e.page (sizePages e.size)

/-- What uses a translation that a shootdown withdraws. -/
def State.shootUses (s : State) (x : Shoot) : Shoot :=
  let drops (o : Op) (va : Nat) : Bool :=
    x.withdraws (s.l1 o.drover ++ s.l2 (penOf o.drover)) (paddockOf o.drover) (va / 65536)
  let out (o : Op) : List (Nat × Nat) :=
    if x.mask.testBit (paddockOf o.drover) then
      (o.chunks.filter fun c => c.sent && c.expiry.isNone).map fun c => (o.id, c.num)
    else []
  let count (o : Op) : Bool := isXferOp o.code && o.phase = .served && hasCount o.code && x.mask.testBit (paddockOf o.drover)
  let atSite := s.fab.inbound.filter fun q => q.atSite && (granulesOf q.req.addr.toNat (s.inBytes (portHalf q.req.port) q)).any fun va =>
    x.withdraws (s.inboundXl (portHalf q.req.port)) q.paddock (va / 65536)
  { x with
    waits := s.ops.flatMap out
    users := (s.ops.filter fun o => count o || (!isXferOp o.code && !isRemoteOp o.code && drops o o.va.toNat)).map (·.id)
    curs := (s.ops.filter fun o => isXferOp o.code && o.curOk && drops o (dCursor o.desc)).map (·.id)
    inb := atSite.map fun q => (q.req.source.toNat, q.req.packet.toNat) }

/-- `SHOOTDOWN` through `XLAT_SHOOT_CMD`: a range past the last page is refused (notes/assumptions/40.md). -/
def State.shootGo (s : State) (mask pages : Nat) : State :=
  if s.down.isSome then s
  else if s.rd Fd.xlatShootCmdState = 1 then s.wr Fd.xlatShootCmdResult 1
  else
    let s := (s.wr Fd.xlatShootCmdPaddocks mask).wr Fd.xlatShootCmdPages pages
    let page := s.rd Fd.xlatShootVaPage
    if 2 ^ 32 < page + pages then (s.wr Fd.xlatShootCmdState 3).wr Fd.xlatShootCmdResult 2
    else
      let x := s.shootUses { mask, page, pages, waits := [], users := [], curs := [], inb := [] }
      let s := (s.wr Fd.xlatShootCmdState 1).wr Fd.xlatShootCmdResult 0
      ((s.setXl { s.xl with shoot := some x }).shootEntries x).shootYields x

/-- SHOOTDOWN: matching entries are invalidated everywhere, and transfers whose cursor lies there yield. -/
def execShootdown (paddocks : BitVec 4) (pages : BitVec 32) (s : State) : Host.Outcome State Fault Refusal :=
  .next (s.shootGo paddocks.toNat pages.toNat)

/-- SHOOTDOWN_DONE: `STATE` reads `DONE` once nothing uses a withdrawn translation (Table 10.11, step 6). -/
def execShootdownDone (s : State) : Host.Outcome State Fault Refusal :=
  match s.xl.shoot with
  | none => .next s
  | some x =>
    let s := s.shootYields x
    let x := s.xl.shoot.getD x
    let inbound := s.fab.inbound.any fun q => q.atSite && x.inb.contains (q.req.source.toNat, q.req.packet.toNat)
    if s.ops.any x.blocks || inbound then .next s
    else .next (((s.setXl { s.xl with shoot := none }).wr Fd.xlatShootCmdState 2).irq 6)

/-! ### Migration (R329, R330) -/

/-- 4 KiB pieces of a page size. -/
def migPieces (size : Nat) : Nat := 16 * sizePages size

/-- The global address of piece n at the home, as device and local address, and its local address. -/
def State.migHome (s : State) (n : Nat) : Nat × Nat :=
  let a := s.rd Fd.xlatMigSrc
  (a / 2 ^ 48 % 2 ^ 14, a % 2 ^ 48 + 4096 * n)
def State.migLocal (s : State) (n : Nat) : Nat := 65536 * s.rd Fd.xlatMigDstFrame + 4096 * n

/-- Poisoned sectors of the 4 KiB at a local address. -/
def State.badSectors (s : State) (a : Nat) : List Nat := (List.range 128).filter fun i => s.anyBad (a + 32 * i) 32

/-- The engine asks its home for the next piece, or writes it there (notes/assumptions/41.md). -/
def State.migNextPiece (s : State) (op n : Nat) : State :=
  let (dev, a) := s.migHome n
  let l := s.migLocal n
  if op = 1 then s.emit (.migration false dev a [] [])
  else (s.emit (.migration true dev a (s.readBytes l 4096) (s.badSectors l))).touch l 4096 false false

/-- `FETCH` and `EVICT` through `XLAT_MIG_CMD`: addresses that are not of a page of the size, and local frames outside the
stack ranges and the scratchpad, are refused (notes/assumptions/42.md). -/
def State.migGo (s : State) (op size : Nat) : State :=
  if s.down.isSome then s
  else if s.rd Fd.xlatMigCmdState = 1 then s.wr Fd.xlatMigCmdResult 1
  else
    let s := (s.wr Fd.xlatMigCmdOp op).wr Fd.xlatMigCmdSize size
    let no (r : Nat) : State := (s.wr Fd.xlatMigCmdState 3).wr Fd.xlatMigCmdResult r
    let bytes := 65536 * sizePages size
    let l := s.migLocal 0
    if size ≠ 1 ∧ size ≠ 2 then no 3
    else if (s.reg Fd.xlatMigSrc.addr).toNat % bytes ≠ 0 ∨ 2 ^ 62 ≤ (s.reg Fd.xlatMigSrc.addr).toNat ∨ l % bytes ≠ 0 ∨
        isSiteWin l ∨ !s.frameOk l bytes then no 4
    else
      let s := ((s.wr Fd.xlatMigCmdState 1).wr Fd.xlatMigCmdResult 0)
      let s := (s.wr Fd.xlatMigCmdRemoteStatus 0).wr Fd.xlatMigCmdPoisoned 0
      (s.setXl { s.xl with migOp := some (op, size), migNext := 0 }).migNextPiece op 0

/-- FETCH: a page is copied from its home into a local frame. -/
def execMigFetch (size : BitVec 2) (s : State) : Host.Outcome State Fault Refusal := .next (s.migGo 1 size.toNat)
/-- EVICT: a page is copied from a local frame to its home. -/
def execMigEvict (size : BitVec 2) (s : State) : Host.Outcome State Fault Refusal := .next (s.migGo 2 size.toNat)

/-- The engine stops at a piece that failed. -/
def State.migFail (s : State) (st : Nat) : State :=
  (((s.setXl { s.xl with migOp := none }).wr Fd.xlatMigCmdState 4).wr Fd.xlatMigCmdRemoteStatus st).irq 7

/-- A piece landed: the next is asked for. -/
def State.migStep (s : State) (op size bads : Nat) : State :=
  let n := s.xl.migNext + 1
  let s := (s.setXl { s.xl with migNext := n }).sat Fd.xlatMigCmdPoisoned bads
  if n < migPieces size then s.migNextPiece op n else s

/-- MIGRATION_PIECE: the answer for the engine's next piece: of a fetch its data, written through its home banks, poison
with it; of an evict its acknowledgement. A status other than `OK` or `POISON` stops the engine (R329). The spec puts the
management complex in no half: the target bank's own half is asked, so an isolated Seam cuts no piece (DESIGN CHOICE,
notes/assumptions/134.md). -/
def execMigrationPiece (status : BitVec 16) (data : List (BitVec 8)) (poison : BitVec 128) (s : State) :
    Host.Outcome State Fault Refusal :=
  match s.xl.migOp with
  | none => .next s
  | some (op, size) =>
    let st := status.toNat
    let n := s.xl.migNext
    if migPieces size ≤ n then .next s
    else if st ≠ stOk ∧ st ≠ stPoison then .next (s.migFail st)
    else
      let l := s.migLocal n
      if op = 2 then .next (s.migStep op size (s.badSectors l).length)
      else match s.servedSpan (bankHalf (bankOf l)) l 4096 .write with
        | .waits => .next s
        | .fails st => .next (s.migFail st)
        | .ok =>
          let bs := (data ++ zeros 4096).take 4096
          let s := eachUpTo 128 (fun t i =>
            t.writeBytes (l + 32 * i) ((bs.drop (32 * i)).take 32) (poison.getLsbD i) false) s
          .next (s.migStep op size (popCount 128 poison.toNat))

/-- MIGRATION_DONE: every byte the engine wrote has its guarantee. -/
def execMigrationDone (s : State) : Host.Outcome State Fault Refusal :=
  match s.xl.migOp with
  | none => .next s
  | some (_, size) =>
    if s.xl.migNext < migPieces size then .next s
    else .next (((s.setXl { s.xl with migOp := none }).wr Fd.xlatMigCmdState 2).irq 7)

end Sys2Proof.Machine
end

