-- ==== Sys2Proof/Machine/Domain.lean ====
section
/-! DEFINITION. Machine/Domain.lean: what the reset or the loss of power of a domain does to the state (R13, R20, R507 to
R509, R546 to R551), and the values a block loads from the Module Record (R13, R586, R589). -/
namespace Sys2Proof.Machine

/-! ### Register blocks -/

/-- Whether an address lies in instance i of a block. -/
def inBlk (b : Blk) (i a : Nat) : Bool := b.base + 0x1000 * i ≤ a && a < b.base + 0x1000 * (i + 1)

/-- Registers and staging of the addresses named take their reset values; an armed commit among them is cancelled with
reason `RESET` (R13, R20). -/
def State.resetRegs (s : State) (p : Nat → Bool) : State :=
  let armed := gates.filter fun g =>
    let base := g.1.base + 0x1000 * g.2
    p base && decide (s.rd (Fd.gateState base) = 1)
  let s := { s with regs := Tab.keep (fun a => !p a) s.regs, staged := Tab.keep (fun a => !p a) s.staged }
  armed.foldl (fun t g => t.cancelGate (g.1.base + 0x1000 * g.2) 5) s

/-- Bits of a register that the owner section loads (Table 20.3): `FAB_GEOM`, `BELL_CFG`, `FOLD_WAYCFG` and the Hurdle. -/
def mrMask (a : Nat) : Word :=
  if a = Fd.fabGeomDevice.addr then 0xFFFFF00000003FFF
  else if a = Fd.bellCfgRole.addr then stMask a
  else match findBlk a with
    | some (b, i) =>
      let off := a - (b.base + 0x1000 * i)
      if b.kind = 0x0031 then (if off = 0x20 then stMask a else 0) else if b.kind = 0x0034 then stMask a else 0
    | none => 0

/-- Fields of the owner section whose default is not zero: `TAKEOVER`, 1,024 (R589, Table 20.3). -/
def mrDefaults : List (Nat × BitVec 64) := [(Fd.bellCfgTakeover.addr, 1024)]

/-- The fields of the blocks named take their values of the Module Record, or their defaults where it does not name them,
active and staged. -/
def State.loadMr (s : State) (p : Nat → Bool) : State :=
  match s.loaded with
  | none => s
  | some r => ((mrDefaults ++ r.ownerRegs).filter fun e => p e.1).foldl (fun t (e : Nat × BitVec 64) =>
      let m := mrMask e.1
      if m = 0 then t
      else (t.setReg e.1 ((t.reg e.1 &&& ~~~m) ||| (e.2 &&& m))).setStg e.1 ((t.stg e.1 &&& ~~~m) ||| (e.2 &&& m))) s

/-- A Pen's ways are as `FOLD_WAYCFG` says (R235). -/
def State.waysFromCfg (s : State) (p : Nat) : State :=
  ((s.wr (Fd.foldWaystatScratchActive p) (s.rd (Fd.foldWaycfgScratch p))).wr (Fd.foldWaystatCacheOffActive p)
    (s.rd (Fd.foldWaycfgCacheOff p))).wr (Fd.foldWaystatOffActive p) (s.rd (Fd.foldWaycfgOff p))

/-! ### Drover, Pen and Paddock (R547 to R550) -/

/-- A Drover's reset up to step 3 of Table 18.8: what had left it drains with its completions discarded; the rest is
dropped; registers, first level and instruction store are cleared and the random source reseeded; it reads in reset. One
fenced, in reserve or bad is left as it is. -/
def State.resetDrover (s : State) (d : Nat) : State :=
  if s.drvState d ≠ 0 then s
  else
    let ops := (s.ops.filter fun o => o.drover ≠ d || o.detached || (o.left && !o.isHeld)).map fun (o : Op) =>
      if o.drover = d ∧ !o.detached then { o with detached := true, lost := true, hold := [], holdD := [] } else o
    let s := { s with ops }
    let s := eachUpTo 8 (fun s t => s.setStrand d t {}) s
    let s := ((s.setDrv d { rnd := s.freeWord }).taken.setL1 d []).pruneTickets
    s.wr (Fd.drvStatusState (penOf d) (d % 8)) 4

/-- Step 4 of Table 18.8: a Drover that was reset reads in service again. One fenced meanwhile stays fenced (R554). -/
def State.droverBack (s : State) (d : Nat) : State :=
  if s.drvState d = 4 then s.wr (Fd.drvStatusState (penOf d) (d % 8)) 0 else s

/-- The requests that wait at a bank complete with a status (R506, R550). -/
def State.dropWaiting (s : State) (st b : Nat) : State :=
  let x := s.bank b
  let rs := x.misses.flatMap (·.attached) ++ x.queue
  rs.foldl (fun t r => match r.ask with
    | .operation _ => t
    | _ => t.emit (.bankReply [r.who.toNat] r.addr.toNat st [])) (s.setBank b { x with misses := [], queue := [], merge := [] })

/-- Every line of a Pen is lost. -/
def State.discardPen (s : State) (p : Nat) : State :=
  (s.penLines p fun _ => true).foldl (fun t e => (t.eraseLine e.1).setLine e.1 none) s

/-- Steps 1 to 5 of Table 18.9 for one Pen: its boundary closes, its Drovers are reset, its slice is cleaned (or, zeroising,
discarded) and zeroed, and its blocks and second level take their reset values. -/
def State.resetPen (s : State) (p : Nat) (zero : Bool) : State :=
  let s := eachUpTo 8 (fun s k => (s.resetDrover (8 * p + k)).setL1 (8 * p + k) []) s
  let banks := (List.range 32).map (32 * p + ·)
  let s := if zero then banks.foldl (fun t b => t.dropWaiting stReset b) s
    else banks.foldl (fun t b => (t.bank b).misses.foldl (fun t m => t.endMiss b m) t) s
  let s := { s with closed := Nats.ins s.closed p }
  let s := if zero then s.discardPen p else s.emptyLines p fun _ => true
  let s := banks.foldl (fun t b => t.setBank b { t.bank b with merge := [], fixed := 0 }) s
  let s := eachUpTo 16 (fun s j => s.zeroSlot p j) s
  let s := s.resetRegs fun a => inBlk penFoldBlk p a || inBlk penXlatBlk p a || inBlk debugCtrBlk p a
  let s := (s.loadMr (inBlk penFoldBlk p)).waysFromCfg p
  ((s.setPenWays p {}).setL2 p []).setShadow p []

/-- The Drover status block of a Pen takes its reset values; the states of Drovers fenced, with their cause, in reserve or
bad are the Tally's, and a Drover in reset reads so until its release (R13, R99, Table 20.6). -/
def State.resetDrvBlk (s : State) (p : Nat) : State :=
  let st := (List.range 8).map fun k => (s.drvState (8 * p + k), s.rd (Fd.drvStatusCause p k))
  eachUpTo 8 (fun s k =>
    let e := st.getD k (0, 0)
    (s.wr (Fd.drvStatusState p k) e.1).wr (Fd.drvStatusCause p k) (if e.1 = 1 then e.2 else 0)) (s.resetRegs (inBlk droverBlk p))

/-- Doorbell windows of the numbers bound to Drovers of a Paddock (Table 20.6). -/
def State.resetDoorbells (s : State) (k : Nat) : State :=
  let mine (n : Nat) : Bool := (s.physical? n).any fun d => decide (paddockOf d = k)
  s.resetRegs fun a => doorbellBlk.base ≤ a && a < doorbellBlk.base + 0x10000 && mine ((a - doorbellBlk.base) / 0x200)

/-- A stack enters self-refresh (R297). -/
def State.stackSleeps (s : State) (k : Nat) : State :=
  if s.rd (Fd.dramStackStatusState k) = dsInService then s.wr (Fd.dramStackStatusState k) dsSelfRefresh else s

/-- A stack leaves self-refresh, unless its zone reads Trip (R524, R554); lines that range engines hold back go on. -/
def State.stackWakes (s : State) (k : Nat) : State :=
  if s.rd (Fd.dramStackStatusState k) = dsUntrained || s.rd (Fd.thermZoneState k) = 3 then s
  else (s.wr (Fd.dramStackStatusState k) dsInService).rangeAfterMiss (k / 4)

/-- The registers of a site block that show what its links still are, kept through its reset (R444). -/
def State.resetSiteBlk (s : State) (k : Nat) : State :=
  let st := s.rd (Fd.siteStatusState k)
  let lv := s.rd (Fd.siteStatusPlevel k)
  let ins := s.rd (Fd.siteBundlesIn k)
  let half := s.rd (Fd.siteBundlesHalf k)
  let s := (s.resetRegs (inBlk siteBlk k)).loadMr (inBlk siteBlk k)
  (((s.wr (Fd.siteStatusState k) st).wr (Fd.siteStatusPlevel k) lv).wr (Fd.siteBundlesIn k) ins).wr (Fd.siteBundlesHalf k) half

/-- Steps 1 to 5 of Table 18.9 for a Paddock: its site stops with its links kept, its Pens are reset, its context is
dropped, inbound requests of its tenancy are refused, and its stacks are in self-refresh, or zeroised. -/
def State.resetPaddock (s : State) (k : Nat) (zero : Bool) : State :=
  let x := s.site k
  let runs := x.pg && x.lrst && s.rd (Fd.siteStatusState k) ≠ ssLinkDown
  let s := if runs then s.siteStops k ssHeld else s
  let s := { s with resetPaddocks := Nats.ins s.resetPaddocks k, zeroPads := if zero then Nats.ins s.zeroPads k else s.zeroPads }
  let s := eachUpTo 4 (fun s i => (s.resetPen (4 * k + i) zero).resetDrvBlk (4 * k + i)) s
  let s := (s.resetRegs (inBlk paddockBlk k)).dropContext k
  let s := (s.resetSiteBlk k).resetDoorbells k
  let s := (s.fab.inbound.filter fun q => q.paddock = k && !q.atSite).foldl (fun t q => t.answerIn q stNotPermitted 0 [] []) s
  let s := eachUpTo 2 (fun s i => s.stackSleeps (2 * k + i)) s
  if zero then eachUpTo 2 (fun s i =>
    let t := s.zeroStack (2 * k + i)
    if t.rd (Fd.dramStackStatusState (2 * k + i)) = dsUntrained then t
    else t.wr (Fd.dramStackStatusState (2 * k + i)) dsZeroising) s
  else s

/-- Step 6: Drovers are in service, boundaries open, and what was held is served in arrival order. -/
def State.openPen (s : State) (p : Nat) : State :=
  let s := eachUpTo 8 (fun s k => s.droverBack (8 * p + k)) s
  let s := { s with closed := Nats.del s.closed p }
  let s := (List.range 32).foldl (fun t i => t.lookAgain (32 * p + i)) s
  s.rangeAfterMiss (p / 8)

/-- Held requests that are not at a bank try again. -/
def State.heldAgain (s : State) : State := ((s.heldArrivals.askAgain).retryIn).retrySites

/-- Step 6 for a Paddock: its stacks leave self-refresh, its Pens open, and its site's handshake runs again (R444). -/
def State.openPaddock (s : State) (k : Nat) : State :=
  let s := { s with resetPaddocks := Nats.del s.resetPaddocks k, zeroPads := Nats.del s.zeroPads k }
  let s := eachUpTo 2 (fun s i => s.stackWakes (2 * k + i)) s
  let s := eachUpTo 4 (fun s i => s.openPen (4 * k + i)) s
  if s.rd (Fd.siteStatusState k) = ssHeld && (s.site k).pg && (s.site k).lrst then
    s.setSite k { s.site k with awaits := true, shaken := false, release := true }
  else s

/-! ### Every domain but the auxiliary (R509, R551) -/

/-- A site takes `SITE_LRST_N` and loses its rails; it reads in link reset where it was populated. -/
def State.sitesOff (s : State) : State :=
  eachUpTo 4 (fun s k => if s.rd (Fd.siteStatusState k) = ssUnpopulated then s else s.siteOff k ssLinkReset) s

/-- What the units outside the auxiliary domain hold is lost. With `keep`, the stacks keep their contents, their training
and the contexts saved in them, and the Tally, which is auxiliary, its rebind in progress (P3); without, they are lost too. -/
def State.unitsLost (s : State) (keep : Bool) : State :=
  let s := { s with
    strands := [], drovers := [], ops := [], fold := [], foldPoison := [], lines := [], banks := [], ways := [], ranges := []
    savedXfers := if keep then s.savedXfers else []
    xl := { seqs := s.xl.seqs }
    bell := {}, siteReqs := [], siteHeld := [], fab := {}, penClock := [], penGated := [], closed := []
    resetPaddocks := [], zeroPads := [], trace := [] }
  let fresh (_ : Nat) (x : Chan) : Chan :=
    { lastRun := x.lastRun, window := x.window, lastWin := x.lastWin, lastTemp := x.lastTemp, owed := x.owed }
  let s := { s with tally := { rebind := if keep then s.tally.rebind else none }, chans := if keep then Tab.mapv (fun _ => {}) fresh s.chans else [],
                    drams := if keep then s.drams else [] }
  if keep then s
  else
    let s := { s with sites := Tab.mapv (fun _ => {}) (fun _ (x : Site) => { pg := x.pg, lrst := x.lrst, rst := x.rst }) s.sites }
    { s with mem := Tab.keep isMgmtMem s.mem, dramPoison := [], dramUe := [] }

/-- The error units West, East and transit lose what they notify. -/
def State.unitNotices (s : State) : State :=
  let l := s.log
  s.setLog { l with
    service := Tab.keep (fun u => decide (3 ≤ u)) l.service, queues := Tab.keep (fun u => decide (3 ≤ u)) l.queues
    lostRun := Tab.keep (fun u => decide (3 ≤ u)) l.lostRun, lostSev := Tab.keep (fun u => decide (3 ≤ u)) l.lostSev }

/-- Which registers P3 keeps: what the stacks' blocks show of their training, the Seam's mode and the Drovers' states (R99,
R509). `DRAM_CHAN_CMD` is the controllers', which are off. -/
def State.keptP3 (s : State) (a : Nat) : Bool :=
  (stackBlk.base ≤ a && a < stackBlk.base + 0x8000 && (List.range 8).all fun k => a ≠ (Fd.dramChanCmdState k).addr) ||
    a = Fd.seamStatusMode.addr ||
    (List.range 128).any fun d => decide ((Fd.drvStatusState (d / 8) (d % 8)).addr = a) && decide (s.drvState d ≠ 0 ∧ s.drvState d ≠ 4)

/-- What the registers that P3 keeps show of the moment is over: no window is open and no channel retrains; the Seam's mode
stays, with the bundles that are out until the next start, and its error counts do not (R29, R36, R509). -/
def State.momentOver (s : State) : State :=
  let s := eachUpTo 8 (fun s k => ((s.wr (Fd.dramStackStatusWindowOpen k) 0).wr (Fd.dramStackStatusRetraining k) 0).showWindow k) s
  let s := eachUpTo 128 (fun s d => (s.wr (Fd.drvStatusSaved (d / 8) (d % 8)) 0).wr (Fd.drvStatusNoCtx (d / 8) (d % 8)) 0) s
  eachUpTo 4 (fun s n => s.wr (seamFailed n) 0) (s.wr Fd.seamStatusErrSeen 0)

/-- Every domain but the auxiliary is reset, as by a module reset, which also cancels a `TALLY_CMD` that has not taken effect
(R103), or, with `keep`, by P3. -/
def State.resetDomains (s : State) (keep : Bool) : State :=
  let s := (s.sitesOff.unitsLost keep).unitNotices
  let s := s.resetRegs fun a => outsideAux a && !(keep && s.keptP3 a)
  if keep then s.momentOver else (s.wr Fd.tallyCmdState 0).wr Fd.tallyCmdResult 0

/-- Auxiliary power is gone: only the MRAM and the flash keep data (R516, R619). -/
def State.allLost (s : State) : State :=
  let keepReg (a : Nat) : Bool := a = Fd.logEnd.addr || a = Fd.logFirst.addr || a = Fd.logStatusFull.addr
  let l := s.log
  let log : Recorder := { log := l.log, written := l.written, time := l.time, cycles := l.cycles }
  let t : State := { pending := s.pending, out := s.out, free := s.free, nextOp := s.nextOp, mram := s.mram, flash := s.flash,
                     regs := Tab.keep keepReg s.regs, log, down := s.down }
  (t.wr Fd.logStatusBufUsed 0).wr Fd.logStatusBufDropped 0

end Sys2Proof.Machine
end

