-- ==== Sys2Proof/Machine/Crook.lean ====
section
/-! DEFINITION. Machine/Crook.lean: non-volatile commits, images, counters, the debug level and the management restart
(R450, R466 to R493, R513 to R515). -/
namespace Sys2Proof.Machine

def State.setCrook (s : State) (c : Crook) : State := { s with crook := c }
def State.setMram (s : State) (m : Mram) : State := { s with mram := m }
def State.setFlash (s : State) (f : Flash) : State := { s with flash := f }

/-! ### The hold-up bank (R513 to R515) -/

/-- A measurement of the bank: capacitance in µF, usable energy in mJ. -/
def State.measured (s : State) (mj cap : Nat) (start : Bool) : State :=
  (((s.wr Fd.holdupStatusOk (b2n (decide (150 ≤ mj)))).wr Fd.holdupStatusStart (b2n start)).wr Fd.holdupStatusCap cap).wr
    Fd.holdupStatusEnergy mj

/-- The capacitance in µF that an energy in mJ stands for: E = ½ × C × 900 V² (R513). -/
def capOf (mj : Nat) : Nat := mj * 20 / 9

/-- Kinds of non-volatile commits, in the order of R515. -/
def nvRecord : Nat := 1
def nvCounter : Nat := 2
def nvLifecycle : Nat := 3
def nvSelector : Nat := 4

/-- The measurement before a non-volatile commit: whether it may proceed. A refusal is counted and recorded. -/
def State.mayCommit (s : State) (mj kind : Nat) : Bool × State :=
  let s := s.measured mj (capOf mj) false
  if 150 ≤ mj then (true, s)
  else (false, (s.sat Fd.holdupStatusRefused 1).record euAux 0x0018 uwModule mj (Config.commitKind kind).toNat)

/-! ### Lifecycle and counters (R479, R483) -/

def lcBlank : Nat := 0
def lcSealed : Nat := 1
def lcInspect : Nat := 2
def lcReturned : Nat := 3

/-- An anti-rollback counter. -/
def State.counter (s : State) (n : Nat) : Nat := Tab.get (fun _ => 0) s.mram.counters n

/-- Show in the Crook block what the MRAM holds of it (R500). -/
def State.showMram (s : State) : State :=
  let s := (s.wr Fd.secStatusLifecycle s.mram.lifecycle).wr Fd.secStatusZeroPending (b2n s.mram.zeroPending)
  let s := s.setReg Fd.secEpoch.addr (BitVec.ofNat 64 (s.mram.epoch % 2 ^ 32))
  eachUpTo 4 (fun s i => s.setReg (Fd.secArb i).addr
    (BitVec.ofNat 64 (((List.range 4).map fun j => 2 ^ (16 * j) * s.counter (4 * i + j)).sum))) s

/-- Set a counter (R480); the caller has checked that it does not fall. The update writes the other sealed copy with the
next sequence number; the copy before it stays (R479). -/
def State.setCounter (s : State) (n v : Nat) : State :=
  let m := s.mram
  (s.setMram { m with counters := Tab.put (fun _ => 0) m.counters n v, ctrOld := m.counters, ctrSeq := (m.ctrSeq + 1) % 2 ^ 32 }).showMram

/-- The sealed copies as a start finds them: the newer where its tag verifies, else the older (R479, R483). -/
def State.useSealed (s : State) (ctrNew lcNew : Bool) : State :=
  let m := s.mram
  let m := if ctrNew then m else { m with counters := m.ctrOld, ctrSeq := (m.ctrSeq + 2 ^ 32 - 1) % 2 ^ 32 }
  (s.setMram (if lcNew then m else { m with lifecycle := m.lcOld, lcSeq := (m.lcSeq + 2 ^ 32 - 1) % 2 ^ 32 })).showMram

/-! ### The Module Record in flash (R582, R585) -/

def Flash.copyA (f : Flash) : ModuleRecord := f.recA.getD Config.factoryRecord
def Flash.copyB (f : Flash) : ModuleRecord := f.recB.getD Config.factoryRecord

/-- The good Drovers an order code guarantees, its capacity class in GiB, and the reserves at shipment (Table 0.1). -/
def goodOf : OrderCode → Nat
  | .xb128 => 128
  | .xb120 _ => 120
  | .xb112 _ => 112
def gibOf (_ : OrderCode) : Nat := 512
def reservesOf : OrderCode → Nat
  | .xb128 => 0
  | .xb120 r => r.val
  | .xb112 r => r.val

/-- The number of a population letter, and the sites it populates (Table 0.2). -/
def letterOf : Population → Nat
  | .s0 => 0
  | .s1 => 1
  | .s2 => 2
  | .s3 => 3
  | .s4 => 4
def sitesOf : Population → List Nat
  | .s0 => []
  | .s1 => [0]
  | .s2 => [0, 2]
  | .s3 => [0, 1, 2]
  | .s4 => [0, 1, 2, 3]

/-- Record version (R584). -/
def ModuleRecord.version (r : ModuleRecord) : Nat := 256 * r.niruaVersion.toNat + r.ownerVersion.toNat

/-- The record this start runs by; the factory's before one is selected. -/
def State.record? (s : State) : ModuleRecord := s.loaded.getD Config.factoryRecord

/-- Whether the copy in use is A: the one with the higher `SEQ` (R582). -/
def Flash.usesA (f : Flash) : Bool := f.copyB.seq.toNat ≤ f.copyA.seq.toNat

/-- The copy in use, and the write of a new one, with the next `SEQ`, over the copy not in use (R585). -/
def Flash.inUse (f : Flash) : ModuleRecord := if f.usesA then f.copyA else f.copyB
def Flash.putRecord (f : Flash) (r : ModuleRecord) : Flash :=
  let r := { r with seq := f.inUse.seq + 1 }
  if f.usesA then { f with recB := some r } else { f with recA := some r }

/-- The role of a key slot that is valid and regarded (R472, R473). -/
def State.keyRole (s : State) (slot : Nat) : Option KeyRole :=
  match (s.record?.keys.find? fun e => e.1 = slot).map (·.2) with
  | none => none
  | some k =>
    let gone := s.mram.lifecycle = lcReturned && (k.role = .owner || k.role = .operator || k.role = .debug)
    if k.valid && !s.crook.badKeys.contains slot && !gone then some k.role else none

/-! ### Images (R474 to R478) -/

def imCrook : Nat := 1
def imMgmt : Nat := 2
def imWalker : Nat := 3

/-- The image of a type in a slot, and the active slot. -/
def State.image (s : State) (kind slot : Nat) : Image := Tab.get Config.factoryImage s.flash.images (2 * kind + slot)
def State.activeSlot (s : State) (kind : Nat) : Nat := b2n (s.flash.active.contains kind)

/-- The first check of R476 that an image fails: 1 signature, 2 body hash, 3 `SVN`, which an image naming a counter slot
outside 0 to 3 fails (R479); 0 when it verifies. -/
def State.imageFault (s : State) (i : Image) : Nat :=
  if !i.sigOk then 1
  else if !i.bodyOk then 2
  else if 3 < i.counterSlot.toNat ∨ i.svn.toNat < s.counter i.counterSlot.toNat then 3
  else 0

/-- Load the image of a type: the active slot, then the other; each that fails is recorded. -/
def State.loadImage (s : State) (kind : Nat) : Bool × State :=
  let a := s.activeSlot kind
  let try_ (r : Bool × State) (slot : Nat) : Bool × State :=
    if r.1 then r
    else
      let s := r.2
      let i := s.image kind slot
      let c := s.imageFault i
      if c = 0 then (true, s.setCrook { s.crook with running := Tab.put (fun _ => default) s.crook.running kind i })
      else (false, s.record srcCrook 0x0801 uwCrook kind (Config.checkCode c).toNat)
  [a, 1 - a].foldl try_ (false, s)

/-! ### The debug level (R488 to R493) -/

def lvClosed : Nat := 0
def lvObserve : Nat := 1
def lvFull : Nat := 2

/-- Change the level, with the token's scope and key slot; a change is recorded. -/
def State.setLevel (s : State) (level scope key : Nat) (until_ : Option Nat) : State :=
  let s := s.setCrook { s.crook with tokenEnd := until_ }
  if s.rd Fd.secStatusLevel = level ∧ s.rd Fd.secStatusScope = scope ∧ s.rd Fd.secStatusTokenKey = key then s
  else
    (((s.wr Fd.secStatusLevel level).wr Fd.secStatusScope scope).wr Fd.secStatusTokenKey key).record srcCrook 0x0805 uwCrook
      (level + 2 ^ 8 * scope) key

/-- The level returns to Closed. -/
def State.closeLevel (s : State) : State := s.setLevel lvClosed 0 0 none

/-! ### The management restart (R450) -/

/-- Whether the module is in Fallow mode. -/
def State.fallow (s : State) : Bool := s.flag Fd.modStatusFallow

/-- Sessions close, and their subscriptions with them. -/
def State.closeSessions (s : State) : State := s.setCrook { s.crook with sessions := [], subs := [] }

/-- A management restart, by its cause in the order of R450: recorded; sessions close; mailboxes meet it as a receiver
reset; both firmware images are loaded again. Without one that verifies, DFP is served in Fallow mode only. -/
def State.mgmtRestart (s : State) (cause : Nat) : State :=
  let s := (s.record euAux 0x0017 uwMgmt (Config.restartCause cause).toNat 0).closeSessions.mboxRestart
  let (_, s) := s.loadImage imWalker
  let (ok, s) := s.loadImage imMgmt
  s.setCrook { s.crook with serving := ok || s.fallow }

/-- Step 7 of Table 16.8: zeroising has ended; the transition is recorded, with the state it left where Crook still
knows it. -/
def State.zeroised (s : State) : State :=
  let old := s.crook.lcFrom.getD (s.freeWord.toNat % 16)
  let s := (s.setMram { s.mram with zeroPending := false }).showMram.taken
  (s.setCrook { s.crook with zeroing := false, lcFrom := none }).record srcCrook 0x0803 uwCrook (old + 16 * s.mram.lifecycle)
    s.mram.epoch

/-- Whether Crook and the management complex run: auxiliary power is good, and firmware or the fallow service serves. -/
def State.managed (s : State) : Bool := s.down.isNone && s.crook.serving

/-- MGMT_MEM_UE: an uncorrectable error in management memory reaches a core (R446, R450). -/
def execMgmtMemUe (core : Fin 12) (addr : BitVec 32) (s : State) : Host.Outcome State Fault Refusal :=
  if !s.managed then .next s
  else .next ((s.record euAux 0x0901 (uwCore core) addr.toNat 0).mgmtRestart 2)

/-- RUNTIME_CHECK_FAILED: Crook restarts the management and walker cores (R450). -/
def execRuntimeCheckFailed (s : State) : Host.Outcome State Fault Refusal :=
  if s.managed then .next (s.mgmtRestart 3) else .next s

end Sys2Proof.Machine
end

