-- ==== Sys2Proof/Machine/Power.lean ====
section
/-! DEFINITION. Machine/Power.lean: site power, thermal zones, power states, power-fail and shutdown (R501 to R529). -/
namespace Sys2Proof.Machine

def psP0 : Nat := 0
def psP1 : Nat := 1
def psP2 : Nat := 2
def psP3 : Nat := 3
def psP4 : Nat := 4

/-- The power state. -/
def State.pwr (s : State) : Nat := s.rd Fd.pwrStatusState

/-! ### Site power (R510, R511) -/

/-- The level a zone's state asks of a site: Table 17.4 for stack and half zones, and for the site's own. -/
def zoneLevel : Nat → Nat
  | 0 => 0
  | 1 => 1
  | 2 => 3
  | _ => 4

/-- The highest of the levels demanded for a site and of firmware's (R511, R528). -/
def State.siteLevel (s : State) (k : Nat) : Nat :=
  [zoneLevel (s.rd (Fd.thermZoneState (2 * k))), zoneLevel (s.rd (Fd.thermZoneState (2 * k + 1))),
    zoneLevel (s.rd (Fd.thermZoneState (8 + k))), zoneLevel (s.rd (Fd.thermZoneState (12 + k / 2))),
    min 4 (s.rd (Fd.sitePwrFwLevel k))].foldl max 0

/-- A level that changed is driven on `SITE_PLIM`; a limit that falls is enforced after 100 µs, 781 Bells, until when the
one before holds. -/
def State.levelDue (s : State) (k : Nat) : State :=
  let lv := s.siteLevel k
  let old := s.rd (Fd.sitePwrLimit k)
  if !(s.site k).pg || s.rd (Fd.sitePwrLevel k) = lv then s
  else
    let s := ((s.wr (Fd.sitePwrLevel k) lv).wr (Fd.siteStatusPlevel k) lv).showLimit k
    let s := if s.rd (Fd.sitePwrLimit k) < old then
        s.setSite k { s.site k with grace := some (old, s.bellCount + 781) }
      else s.setSite k { s.site k with grace := none }
    s.emit (.sitePlim k lv)

/-- SITE_LEVEL_UPDATE: at a boundary the level is driven (R511). -/
def execSiteLevelUpdate (site : Fin 4) (s : State) : Host.Outcome State Fault Refusal := .next (s.levelDue site)

/-- The power the regulators let a site draw now: its limit plus 2 %, during the grace the limit before, and never over
500 W; before its handshake the ceiling alone. -/
def State.siteCeiling (s : State) (k : Nat) : Nat :=
  let x := s.site k
  let limit := match x.grace with
    | some (old, until_) => if s.bellCount.toNat < until_.toNat then old else s.rd (Fd.sitePwrLimit k)
    | none => s.rd (Fd.sitePwrLimit k)
  if s.rd (Fd.siteStatusPmax k) = 0 then 500 else min 500 (limit * 102 / 100)

/-- SITE_POWER_SAMPLE: the site's demand is measured and clamped to what the regulators allow. -/
def execSitePowerSample (site : Fin 4) (watts : BitVec 16) (s : State) : Host.Outcome State Fault Refusal :=
  let k := site.val
  if !(s.site k).pg then .next s
  else
    let cap := s.siteCeiling k
    let w := min watts.toNat cap
    let s := if cap < watts.toNat then s.wr (Fd.sitePwrClamped k) 1 else s
    .next ((s.wr (Fd.sitePwrPower k) w).wr (Fd.sitePwrPeak k) (max (s.rd (Fd.sitePwrPeak k)) w))

/-- The set voltage of a site's rail in mV, by the site power record, within 0.50 V to 1.20 V (R510). -/
def State.railMv (s : State) (k rail : Nat) : Nat :=
  match s.record?.siteRails.find? fun e => e.1 = 4 * k + rail with
  | some e => min 1200 (max 500 e.2.toNat)
  | none => 500

/-- SITE_RAIL_FAULT: a rail under 90 % of its set voltage for 10 µs: `SITE_PG` 0, and the site is held in reset (R510). -/
def execSiteRailFault (site : Fin 4) (rail : BitVec 2) (mv : BitVec 16) (s : State) : Host.Outcome State Fault Refusal :=
  let k := site.val
  if !(s.site k).pg || 9 * s.railMv k rail.toNat ≤ 10 * mv.toNat then .next s
  else
    let s := s.siteStops k ssHeld
    let s := s.siteWires k false (s.site k).lrst false
    let s := s.setSite k { s.site k with awaits := false, shaken := false, release := false }
    .next ((s.wr (Fd.sitePwrHeld k) 1).siteRecord k 0x0606 rail.toNat mv.toNat)

/-! ### Thermal zones (R519 to R524) -/

def State.zone (s : State) (z : Nat) : Zone := Tab.get (fun _ => {}) s.zones z
def State.setZone (s : State) (z : Nat) (x : Zone) : State := { s with zones := Tab.put (fun _ => {}) s.zones z x }

/-- The half a zone lies in (R39). -/
def zoneHalf (z : Nat) : Nat := if z < 8 then z / 4 else if z < 12 then (z - 8) / 2 else z - 12

/-- The threshold of a zone state, in 0.25 °C; a site zone's may be lowered by the Module Record (R520, Table 17.7). -/
def State.zoneLimit (s : State) (z st : Nat) : Int :=
  let dflt := 75 + 10 * st
  let c := if 8 ≤ z ∧ z < 12 then
      match (s.loaded.map (·.siteLimits)).bind fun l => l.find? fun e => e.1 = 4 * (z - 8) + st with
      | some e => min e.2 dflt
      | none => dflt
    else dflt
  4 * (c : Int)

/-- The state whose threshold a temperature reaches. -/
def State.zoneOf (s : State) (z : Nat) (t : Int) : Nat :=
  if s.zoneLimit z 3 ≤ t then 3 else if s.zoneLimit z 2 ≤ t then 2 else if s.zoneLimit z 1 ≤ t then 1 else 0

/-- Whether a power state monitors a zone (Table 17.1); Fallow mode reads P3. -/
def State.monitored (s : State) (z : Nat) : Bool :=
  s.down.isNone && (s.pwr ≤ psP1 || (s.pwr = psP2 && (z < 8 || 12 ≤ z)) || (s.pwr = psP3 && z < 8))

/-- An invalid reading of a sensor. -/
def State.badSensor (s : State) (z n : Nat) (reading : BitVec 16) : State :=
  s.record (zoneHalf z) 0x0704 (uwSensor z n) reading.toNat 0

/-- Whether a reading, in 0.25 °C, lies in −40 °C to 150 °C (R519). -/
def readingOk (r : BitVec 16) : Bool := decide (-160 ≤ r.toInt) && decide (r.toInt ≤ 600)

/-- `PRETRIP`, recorded once per Round while the zone lies from 103 °C to 105 °C (R520). -/
def State.pretrip (s : State) (z : Nat) (t : BitVec 16) : State :=
  let s := s.wr (Fd.thermZonePretrip z) (b2n (decide (412 ≤ t.toInt)))
  let round := s.bellCount.toNat / 65536
  if t.toInt < 412 ∨ 420 ≤ t.toInt then s.setZone z { s.zone z with pre := none }
  else if (s.zone z).pre = some round then s
  else (s.setZone z { s.zone z with pre := some round }).record (zoneHalf z) 0x0703 (uwZone z) t.toNat 0

/-- A zone's temperature is judged: it rises on two samples, to Trip on one, and falls by one state after eight samples
3 °C or more below the threshold of its state (R520). -/
def State.judgeZone (s : State) (z : Nat) (t : BitVec 16) : State :=
  let x := s.zone z
  let now := x.next.getD (s.rd (Fd.thermZoneState z))
  let up := if s.zoneOf z t.toInt = 3 then 3
    else match x.prev with
      | some p => min (s.zoneOf z t.toInt) (s.zoneOf z p.toInt)
      | none => 0
  let low := decide (0 < now) && decide (t.toInt ≤ s.zoneLimit z now - 12)
  let lows := if low then x.lows + 1 else 0
  let x := { x with prev := some t, lows }
  if now < up then s.setZone z { x with next := some up, lows := 0 }
  else if 8 ≤ lows then s.setZone z { x with next := some (now - 1), lows := 0 }
  else s.setZone z x

/-- Sensors a zone reads (Table 17.6): a stack's own report counts where its capability 3 is on, a site's frame apart. -/
def State.sensorsOf (s : State) (z : Nat) : Nat :=
  if z < 8 then (if (s.rd (Fd.dramStackIdCaps z)).testBit 3 && !(s.rd (Fd.dramStackIdCapsOff z)).testBit 3 then 5 else 4)
  else if z < 12 then 8 else 16

/-- ZONE_SAMPLE: a zone reads its sensors, in units of 0.25 °C. A site zone counts the site's own frame; without a valid
sensor the zone is Red. -/
def execZoneSample (zone : Fin 14) (readings : List (BitVec 16)) (invalid : Option (BitVec 5 × BitVec 16)) (s : State) :
    Host.Outcome State Fault Refusal :=
  let z := zone.val
  if !s.monitored z then .next s
  else
    let readings := readings.take (s.sensorsOf z)
    let bad := readings.zipIdx.filter fun r => !readingOk r.1
    let s := bad.foldl (fun t r => t.badSensor z r.2 r.1) s
    let s := match invalid with
      | some (n, r) => s.badSensor z n.toNat r
      | none => s
    let s := s.wr (Fd.thermZoneSensorFail z) (b2n (invalid.isSome || !bad.isEmpty))
    let own := if 8 ≤ z ∧ z < 12 then
        (if s.siteHas (z - 8) 9 && !(s.site (z - 8)).stale then [(s.site (z - 8)).temp] else []) else []
    match readings.filter readingOk ++ own with
    | [] =>
      let x := s.zone z
      .next (if x.next.getD (s.rd (Fd.thermZoneState z)) = 2 then s else s.setZone z { x with next := some 2, lows := 0 })
    | r :: rs =>
      let t := rs.foldl (fun (a : BitVec 16) b => if a.toInt < b.toInt then b else a) r
      let top := BitVec.ofNat 16 (s.rd (Fd.thermZoneMax z))
      let s := s.wr (Fd.thermZoneTemp z) t.toNat
      let s := if (s.zone z).prev.isNone || decide (top.toInt < t.toInt) then s.wr (Fd.thermZoneMax z) t.toNat else s
      .next ((s.pretrip z t).judgeZone z t)

/-- A stack's heat changed: its controller shows the zone, and a Red or Trip entered or left is told to its peers (R379). -/
def State.heatNotice (s : State) (k old : Nat) : State :=
  let new := s.stackHeat s.device k
  if new ≠ old ∧ (2 ≤ new ∨ 2 ≤ old) then s.thermalNotice k new else s

/-- Actions of a stack zone (Table 17.4, R524): at Trip the stack is in self-refresh, which it leaves at Red. -/
def State.stackZone (s : State) (k old new heat : Nat) : State :=
  let s := (s.wr (Fd.dramStackStatusThermal k) new).wr (Fd.dramStackStatusRefresh2x k) (b2n (decide (1 ≤ new)))
  let s := s.heatNotice k heat
  if new = 3 then s.stackSleeps k
  else if old = 3 ∧ s.pwr < psP2 ∧ !s.resetPaddocks.contains (k / 2) then s.stackWakes k
  else s

/-- A zone's new state takes effect, with its actions (R522). -/
def State.zoneDue (s : State) (z : Nat) : State :=
  let x := s.zone z
  let old := s.rd (Fd.thermZoneState z)
  match x.next with
  | none => s
  | some new =>
    let s := s.setZone z { x with next := none }
    if new = old then s
    else
      let temp := s.rd (Fd.thermZoneTemp z)
      let own := if z < 8 then [z] else if z < 12 then [] else (List.range 4).map (4 * (z - 12) + ·)
      let heats := own.map fun k => s.stackHeat s.device k
      let s := ((s.wr (Fd.thermZoneState z) new).sat (Fd.thermZoneChanges z) 1).irq 43
      let s := s.record (zoneHalf z) 0x0701 (uwZone z) (old + 16 * new) temp
      let s := if new = 3 ∧ (z < 8 ∨ 12 ≤ z) then
          s.record (zoneHalf z) 0x0702 (uwZone z) temp (s.bellCount.toNat % 2 ^ 32) else s
      if z < 8 then s.stackZone z old new (heats.headD 0)
      else if z < 12 then
        (if new = 3 ∧ s.rd (Fd.siteStatusState (z - 8)) ≠ ssUnpopulated then s.siteOff (z - 8) ssHeld else s)
      else (own.zip heats).foldl (fun t p => t.heatNotice p.1 p.2) s

/-- ZONE_STATE_CHANGE: at a boundary a zone's new state takes effect (R520). -/
def execZoneStateChange (zone : Fin 14) (s : State) : Host.Outcome State Fault Refusal := .next (s.zoneDue zone)

/-- The clock a Pen's zones ask for, in units of 100 MHz (R522). -/
def State.penRate (s : State) (p : Nat) : Nat :=
  let half := s.rd (Fd.thermZoneState (12 + p / 8))
  if half = 3 then 10 else if 1 ≤ half ∨ 1 ≤ s.rd (Fd.thermZoneState (p / 2)) then 18 else 20

/-- A Pen runs at the clock asked for; an entry of 20 is not listed. -/
def State.clockDue (s : State) (p : Nat) : State :=
  { s with penClock := Tab.put (fun _ => 20) s.penClock p (s.penRate p) }

/-- At a boundary the zones' new states take effect, and with them the levels of the sites and the clocks of the Pens (R61,
R522). -/
def State.thermalDue (s : State) : State :=
  eachUpTo 16 State.clockDue (eachUpTo 4 State.levelDue (eachUpTo 14 State.zoneDue s))

/-- PEN_CLOCK_DOWN: at the boundary after a zone change a Pen runs at the clock asked for (R522, R523). -/
def execPenClockDown (pen : Fin 16) (s : State) : Host.Outcome State Fault Refusal := .next (s.clockDue pen)

/-- PEN_CLOCK_GATE: in P1 a Pen without work for 1 µs has its clock gated (R505). -/
def execPenClockGate (pen : Fin 16) (s : State) : Host.Outcome State Fault Refusal :=
  let p := pen.val
  let strands := (List.range 64).any fun i =>
    let ph := (s.strand (8 * p + i / 8) (i % 8)).phase
    ph ≠ phIdle && ph ≠ phFenced
  let banks := (List.range 32).any fun i => !(s.bank (32 * p + i)).misses.isEmpty || !(s.bank (32 * p + i)).queue.isEmpty
  let works := strands || banks || s.ops.any (fun o => decide (penOf o.drover = p) && !o.detached)
  if s.pwr ≠ psP1 || works then .next s else .next { s with penGated := Nats.ins s.penGated p }

/-! ### Loss of power (R516 to R521) -/

/-- The sequence of Table 17.5: the power-fail record enters the recorder, every record is closed and written, and what
auxiliary power held is lost. `fail`: it counts as a power-fail; `seen`: the next start reads `PF_SEEN`. -/
def State.powerLost (s : State) (why : Down) (vin : Nat) (fail seen : Bool) : State :=
  let s := s.sitesOff.wr Fd.modStatusReady 0
  let s := (s.record euAux 0x0013 uwModule vin s.pwr).closeAll.flushPf
  let s := s.setMram { s.mram with
    pfCount := if fail then satAdd 16 s.mram.pfCount 1 else s.mram.pfCount, pfSeen := seen }
  ({ s with down := some why }).allLost.wr Fd.pwrStatusState psP4

/-- POWER_FAIL: the input stays below 44 V for 5 µs. -/
def execPowerFail (vin : BitVec 16) (s : State) : Host.Outcome State Fault Refusal :=
  if s.down.isSome then .next s else .next (s.powerLost .powerFail vin.toNat true true)

/-- INPUT_OVERVOLTAGE: the input is above 62 V for 5 µs; it runs the power-fail sequence (R607). -/
def execInputOvervoltage (vin : BitVec 16) (s : State) : Host.Outcome State Fault Refusal :=
  if s.down.isSome then .next s else .next (s.powerLost .overvoltage vin.toNat true true)

/-- THERMAL_SHUTDOWN: a sensor reads 115 °C; the module ends in P4 (R521). -/
def execThermalShutdown (zone : Fin 14) (_sensor : BitVec 5) (temp : BitVec 16) (s : State) :
    Host.Outcome State Fault Refusal :=
  if s.down.isSome then .next s
  else .next ((s.record (zoneHalf zone) 0x0014 (uwZone zone) temp.toNat 0).powerLost (.off false) (s.rd Fd.pwrStatusVin) false true)

/-- INPUT_REMOVAL: in P4 the input falls below 40 V (R518). -/
def execInputRemoval (s : State) : Host.Outcome State Fault Refusal :=
  match s.down with
  | some (.off _) => .next { s with down := some (.off true) }
  | _ => .next s

/-- AUX_POWER_GOOD: the input has been good for 100 ms: a start begins at S0 step 1 (R517, R518, R606, R607). In P4 the
input must have been removed. -/
def execAuxPowerGood (s : State) : Host.Outcome State Fault Refusal :=
  let up := (({ s with down := none }).setLog { s.log with cycles := satAdd 24 s.log.cycles 1 }).wr Fd.pwrStatusState psP0
  match s.down with
  | none => .next s
  | some (.off false) => .next s
  | _ => .next up

/-! ### Power-state commands (R507, Table 17.2) -/

/-- Whether work keeps the module from P2 and P3: a strand not `IDLE`, an `AT` pair held, a range request queued. A fenced
Drover's strands do not. -/
def State.busyForSleep (s : State) : Bool :=
  s.strands.any (fun e => e.2.phase ≠ phIdle && e.2.phase ≠ phFenced) || s.ops.any (·.isHeld) || s.ranges.any fun e => !e.2.isEmpty

/-- An enabled inbound stream. -/
def State.inboundStreams (s : State) : Bool := (List.range 256).any fun n => s.flag (Fd.isEn n)

/-- Why a command for a state is refused, as Table 17.10 codes it; 0 when it is accepted. -/
def State.pwrRefusal (s : State) (dest : Nat) (atBell : Bool) : Nat :=
  let target := s.reg Fd.pwrBell.addr
  let sleeps := decide (dest = psP2) || decide (dest = psP3)
  if dest = s.pwr || (!s.flag Fd.modStatusReady && dest ≠ psP4) || 4 < dest then 2
  else if sleeps && s.pwr ≤ psP2 && s.busyForSleep then 3
  else if sleeps && s.pwr ≤ psP2 && s.inboundStreams then 4
  else if atBell && target.toNat < s.bellCount.toNat + 2 then 5
  else if atBell && s.bellCount.toNat + 1048576 < target.toNat then 6
  else 0

/-- A write of `PWR_CMD` with `GO`. -/
def State.pwrGo (s : State) (dest : Nat) (atBell : Bool) : State :=
  if s.down.isSome then s
  else if s.flag Fd.pwrStatusMoving then s.wr Fd.pwrCmdResult 1
  else
    let s := (s.wr Fd.pwrCmdTo dest).wr Fd.pwrCmdAtBell (b2n atBell)
    let res := s.pwrRefusal dest atBell
    if res ≠ 0 then (s.wr Fd.pwrCmdState 3).wr Fd.pwrCmdResult res
    else
      let target := s.reg Fd.pwrBell.addr
      let s := { s with move := some (dest, if atBell then target else 0) }
      let s := (s.wr Fd.pwrStatusTarget dest).wr Fd.pwrStatusMoving 1
      let s := (s.wr Fd.pwrCmdState 1).wr Fd.pwrCmdResult 0
      if dest = psP3 ∧ atBell then eachUpTo 4 (fun s d => s.tellRelease d target.toNat) s else s

def execPwrCmdP0 (atBell : Bool) (s : State) : Host.Outcome State Fault Refusal := .next (s.pwrGo psP0 atBell)
def execPwrCmdP1 (atBell : Bool) (s : State) : Host.Outcome State Fault Refusal := .next (s.pwrGo psP1 atBell)
def execPwrCmdP2 (atBell : Bool) (s : State) : Host.Outcome State Fault Refusal := .next (s.pwrGo psP2 atBell)
def execPwrCmdP3 (atBell : Bool) (s : State) : Host.Outcome State Fault Refusal := .next (s.pwrGo psP3 atBell)
def execPwrCmdP4 (atBell : Bool) (s : State) : Host.Outcome State Fault Refusal := .next (s.pwrGo psP4 atBell)

/-! ### Transitions (R506 to R509) -/

/-- Populated sites, by the Module Record. -/
def State.populated (s : State) (k : Nat) : Bool := (sitesOf s.record?.population).contains k

/-- Bundles a site's training left in service. -/
def trainingOf (l : List SiteTraining) (k : Nat) : SiteTraining := l.getD k ⟨[]⟩

/-- Every populated site whose links are in reset starts (Table 14.16); `release`: its core is released once its handshake
has passed. -/
def State.startSites (s : State) (l : List SiteTraining) (release : Bool) : State :=
  eachUpTo 4 (fun s k =>
    if !s.populated k || s.rd (Fd.siteStatusState k) ≠ ssLinkReset then s
    else
      let s := s.setSite k { s.site k with release }
      s.siteTrained k (trainingOf l k)) s

/-- Every translation buffer is emptied (R506). -/
def State.emptyXl (s : State) : State := s.setXl { s.xl with l1 := [], l2 := [], shadow := [], inbound := [] }

/-- Outstanding misses end. -/
def State.endMisses (s : State) : State :=
  s.banks.foldl (fun t e => (t.bank e.1).misses.foldl (fun t m => t.endMiss e.1 m) t) s

/-- What waits for a Drover, a bank or a site completes with `ASLEEP` (R506). -/
def State.putToSleep (s : State) : State :=
  let s := s.fab.inbound.foldl (fun t q => t.answerIn q stAsleep 0 [] []) s
  let s := s.banks.foldl (fun t e => t.dropWaiting stAsleep e.1) s
  { s with siteHeld := [] }

/-- Entry to P2 (R508). -/
def State.enterP2 (s : State) : State :=
  let s := s.sitesOff.endMisses
  let s := (s.putToSleep.emptyXl).pruneTickets
  eachUpTo 8 State.stackSleeps { s with penGated := [] }

/-- Leaving P2: the stacks leave self-refresh and the sites start. -/
def State.leaveP2 (s : State) (l : List SiteTraining) (sites : Bool) : State :=
  let s := eachUpTo 8 State.stackWakes s
  if sites then s.startSites l true else s

/-- Entry to P3 (Table 17.3): every Pen's Fold is cleaned, the stacks enter self-refresh, and every domain but the
auxiliary loses its state; the Stiles are in through. -/
def State.enterP3 (s : State) : State :=
  let s := s.sitesOff.endMisses
  let s := s.putToSleep
  let s := eachUpTo 16 (fun s p => s.emptyLines p fun _ => true) s
  let s := eachUpTo 8 State.stackSleeps s
  s.resetDomains true

/-- The optical step (Table 11.6): the sources are in the states found, those disabled are enabled, the Stiles are driven to
drop, and the ports train; those of a module outside its rings do not (R360). -/
def State.trainOptics (s : State) (found : List (BitVec 4)) : State :=
  let s := eachUpTo 4 (fun s m => s.laserState m (found.getD m 0).toNat) s
  let s := eachUpTo 4 (fun s m => if s.rd (Fd.optLaserState m) = lsAbsent then s.sourceOut m psDisabled else s) s
  let s := eachUpTo 4 (fun s m => if s.rd (Fd.optLaserState m) = lsDisabled then s.laserState m lsOn else s) s
  let s := s.wr Fd.optStileMoving (s.rd Fd.optStileThrough &&& (15 - s.rd Fd.optStileForceThrough))
  if s.inGeometry s.device then eachUpTo 16 State.trainPort s else s

/-- A route byte. -/
def State.setRoute (s : State) (dev v : Nat) : State := (s.wr (Fd.route dev) v).wrS (Fd.route dev) v

/-- The default route table (R360): one entry for each device of the geometry. -/
def State.defaultRoutes (s : State) : State :=
  let n := s.ringSizeOf 0 * s.ringSizeOf 1 * s.ringSizeOf 2 * s.ringSizeOf 3
  if n ≤ 1 || !s.inGeometry s.device then s
  else (List.range 16384).foldl (fun t d => let v := t.defaultRoute d
    if v = 0 then t else t.setRoute d v) s

/-- Own coordinates outside a ring are recorded, under an optical word that names no port (R360, R559). -/
def State.checkCoords (s : State) : State :=
  if s.inGeometry s.device then s else s.record euTransit 0x0506 uwNoPort 3 0

/-- The module begins to leave P3 (R509): the blocks load from the Module Record, the ports train from step 1 of Table 11.6,
the Bell logic acquires, the routers have the Tally's bindings again, and the stacks leave self-refresh. The 1.0 s limit on
acquisition runs here too (DEDUCED, notes/assumptions/136.md). -/
def State.leaveP3 (s : State) (found : List (BitVec 4)) : State :=
  let s := ({ s with waking := true }).loadMr outsideAux
  let s := eachUpTo 16 State.waysFromCfg s
  let s := eachUpTo 4 (fun s k => if s.populated k then s.wr (Fd.siteStatusState k) ssLinkReset else s) s
  let s := (((s.setBellLogic { s.bell with lockStep := true }).trainOptics found).defaultRoutes).checkCoords
  eachUpTo 8 State.stackWakes s.copyTally

/-- From one state to another with everything between; P4 apart, and for P3 once its ports have trained. Entry to P0 starts
the sites still in link reset; leaving P2 starts them too, but for a raise (R499). -/
def State.changePower (s : State) (dest : Nat) (l : List SiteTraining) (sites : Bool) : State :=
  let old := s.pwr
  let s := if dest = psP3 then s.enterP3
    else if old = psP3 then (if dest = psP2 then s.enterP2 else if dest = psP0 then s.startSites l true else s)
    else if dest = psP2 then s.enterP2
    else if old = psP2 then (s.wr Fd.pwrStatusState dest).leaveP2 l sites
    else if dest = psP0 then ({ s with penGated := [] }).startSites l true
    else s
  let s := { s with move := none, waking := false }
  (((s.wr Fd.pwrStatusState dest).wr Fd.pwrStatusTarget 0).wr Fd.pwrStatusMoving 0).irq 43
    |>.record euAux 0x0016 uwModule (old + 16 * dest) (s.bellCount.toNat % 2 ^ 32)

/-- The transition asked for runs (Tables 17.2, 17.3); one to P4 runs Table 17.5. Leaving P3 trains the ports first: the
state reads the one asked for once every port has trained or timed out (R509). -/
def State.transit (s : State) (dest : Nat) (l : List SiteTraining) (found : List (BitVec 4)) : State :=
  if dest = psP4 then s.powerLost (.off false) (s.rd Fd.pwrStatusVin) false false
  else
    let s := if s.dark then s.leaveP3 found else s
    if s.waking && s.portsTrain then s
    else ((s.changePower dest l true).wr Fd.secStatusRaised 0).wr Fd.pwrCmdState 2

/-- Whether the transition asked for has reached its boundary. -/
def State.moveDue (s : State) : Option Nat :=
  match s.move with
  | none => none
  | some (dest, at_) => if s.bellCount.toNat < at_.toNat ∧ s.pwr < psP3 then none else some dest

/-- POWER_TRANSITION: a transition that has reached its boundary runs, with what the training of the sites and the states
of the laser sources turn out to be. One that starts no site and lights no source has run at the boundary itself. -/
def execPowerTransition (x : PowerTraining) (s : State) : Host.Outcome State Fault Refusal :=
  match s.moveDue with
  | none => .next s
  | some dest => .next (s.transit dest x.sites x.lasers)

/-- What a boundary does of the transition that is due: one down, or between P0 and P1 with no site to start, runs at it
(R60, R61); one that wakes sites or leaves P3 runs from it, as POWER_TRANSITION brings its measurements. -/
def State.powerAtBell (s : State) : State :=
  match s.moveDue with
  | some dest =>
    let waits := (List.range 4).any fun k => s.populated k && s.rd (Fd.siteStatusState k) = ssLinkReset
    if dest = psP4 ∨ s.pwr < dest ∨ (s.pwr = psP1 ∧ !waits) then s.transit dest [] [] else s
  | none => s

end Sys2Proof.Machine
end

