-- ==== Sys2Proof/Machine/Start.lean ====
section
/-! DEFINITION. Machine/Start.lean: the start stages, boot attempts, Fallow mode and the reset levels (R475, R530 to R555). -/
namespace Sys2Proof.Machine

/-! ### Beginning, failing and Fallow mode -/

/-- What the power block and the recorder count since start begins anew, and every bucket is full (R565, Tables 17.11 to
17.13, 19.6, 19.7). -/
def State.sinceStart (s : State) : State :=
  let full (b : Bucket) : Bucket := { b with tokens := b.size, suppressed := 0 }
  let s := (s.setLog { s.log with buckets := Tab.mapv (fun _ => {}) (fun _ => full) s.log.buckets }).wr Fd.logStatusBufDropped 0
  let s := eachUpTo 14 (fun s z => ((s.wr (Fd.thermZoneMax z) 0).wr (Fd.thermZoneChanges z) 0).setZone z { s.zone z with prev := none }) s
  (eachUpTo 4 (fun s k => s.wr (Fd.sitePwrPeak k) 0) s).wr Fd.holdupStatusRefused 0

/-- A start begins at S0 step 1 (R466, R530): Crook's SRAM is cleared, the debug level closes, and every domain but the
auxiliary is as after a reset. -/
def State.beginStart (s : State) (kind : Nat) : State :=
  let s := s.closeLevel.mboxRestart
  let s := s.setCrook { puf := s.crook.puf, kind }
  let s := { s.resetDomains false with move := none, waking := false, resetting := none, loaded := none, irqs := [] }
  let s := (s.sinceStart.wr Fd.pwrStatusMoving 0).wr Fd.pwrStatusTarget 0
  (s.setReg Fd.modStatusReady.addr 0).wr Fd.pwrStatusState psP0

/-- Show a failed start in `START_FAIL` (Table 18.12). -/
def State.showFail (s : State) (stage step code : Nat) : State :=
  ((s.wr Fd.startFailStage stage).wr Fd.startFailStep step).wr Fd.startFailCode code

/-- Parameter 1 of the records of a failed start (Table 19.4). -/
def failWord (stage step code : Nat) : Nat := 2 ^ 16 * stage + 2 ^ 8 * step + code

/-- Fallow mode (R509, R541, R544): recorded and shown; every domain but the auxiliary is off, the stacks unpowered; images
that have not been loaded are, and the fallow service serves where management firmware does not. -/
def State.enterFallow (s : State) (stage step code : Nat) : State :=
  let s := (s.record euAux 0x0012 uwModule (failWord stage step code) 0).showFail stage step code
  let s := { s.resetDomains false with move := none, waking := false, resetting := none }
  let s := (((s.wr Fd.modStatusReady 0).wr Fd.modStatusFallow 1).wr Fd.pwrStatusState psP3).wr Fd.pwrStatusMoving 0
  let s := [imCrook, imWalker, imMgmt].foldl (fun (t : State) k =>
    if t.crook.running.any (fun e => e.1 = k) then t else (t.loadImage k).2) s
  s.setCrook { s.crook with serving := true, failed := false, fromFour := false }

/-- The module detects a failure of its start (R543). -/
def State.failStart (s : State) (stage step code : Nat) : State :=
  let s := s.record euAux 0x0011 uwModule (failWord stage step code) (s.rd Fd.modStatusAttempts)
  let s := (s.setMram { s.mram with fail := (stage, step, code) }).showFail stage step code
  let s := ((s.wr Fd.modStatusStep step).wr Fd.modStatusStartMs (s.freeWord.toNat % 2 ^ 32)).taken
  if 3 ≤ s.mram.attempts then s.enterFallow stage step code else s.setCrook { s.crook with failed := true }

/-- The energy in mJ down to 40 V that a capacitance in µF stands for: E = C × 450 V² (R513). -/
def energyOf (cap : Nat) : Nat := cap * 9 / 20

/-- The hold-up measurement of S0 and the boot-attempt counter (R542); `reason`: a failure of step 2 or 3 that came before
(R543). The answer tells whether the start goes on. -/
def State.countAttempt (s : State) (r : S0Result) (reason : Option (Nat × Nat)) : Bool × State :=
  let mj := energyOf r.capUf.toNat
  let s := (s.measured mj r.capUf.toNat true).wr Fd.modStatusHoldupOk (b2n (decide (150 ≤ mj)))
  let log (s : State) (n : Nat) : State := s.record euAux 0x0001 uwModule s.crook.kind n
  if mj < 150 then (false, (log s 0).enterFallow 0 4 8)
  else
    let n := s.mram.attempts
    let f := s.mram.fail
    let s := log ((s.wr Fd.modStatusAttempts n).showFail f.1 f.2.1 f.2.2) n
    if 3 ≤ n then
      match reason with
      | some (step, code) => (false, s.enterFallow 0 step code)
      | none => (false, s.enterFallow f.1 f.2.1 f.2.2)
    else
      let s := s.setMram { s.mram with attempts := n + 1 }
      match reason with
      | some (step, code) => (false, s.failStart 0 step code)
      | none => (true, s)

/-! ### S0 (Table 16.4) -/

/-- The copies of the record whose header CRC passes, the one with the higher `SEQ` first (R582). -/
def recordOrder (f : Flash) (r : S0Result) : List (ModuleRecord × Bool) :=
  let a := if r.crcA then [(f.copyA, r.sigA)] else []
  let b := if r.crcB then [(f.copyB, r.sigB)] else []
  if f.usesA then a ++ b else b ++ a

/-- The record this start runs by: the first copy whose signatures pass; taking the second is recorded (R582, R586). -/
def State.chooseRecord (s : State) (r : S0Result) : State :=
  match recordOrder s.flash r with
  | (m, true) :: _ => { s with loaded := some m }
  | (_, false) :: (m, true) :: _ => { s.record srcCrook 0x0802 uwCrook 0xFF 0 with loaded := some m }
  | _ => s

/-- Counters rebuilt from the record's floors when neither copy's tag verifies (R481). -/
def State.rebuildCounters (s : State) : State :=
  let floors := ((s.record?.floors.take 4).zipIdx.map fun (p : BitVec 16 × Nat) => (p.2, p.1.toNat)).filter fun e => e.2 ≠ 0
  (((s.setMram { s.mram with counters := floors }).wr Fd.secStatusArbRebuilt 1).showMram).record srcCrook 0x0804 uwCrook 0 0

/-- Whether the record's version passes the check against counter slot 0, byte by byte (R584). -/
def State.versionOk (s : State) : Bool :=
  let c := s.counter 0
  decide (c / 256 ≤ s.record?.niruaVersion.toNat) && decide (c % 256 ≤ s.record?.ownerVersion.toNat)

/-- Steps 2 to 4 of S0: the step and code of the first failure, if one fails. -/
def State.s0Keys (s : State) (r : S0Result) : Option (Nat × Nat) × State :=
  if !(r.pufOk || s.crook.puf) || !r.helperOk then (some (2, 1), s.setCrook { s.crook with s0Fail := 2 })
  else
    let s := (s.setCrook { s.crook with puf := true }).wr Fd.secStatusPufOk 1
    let bad (s : State) : State := s.setCrook { s.crook with s0Fail := 3 }
    let s := s.chooseRecord r
    match s.loaded with
    | none => (some (3, 2), bad s)
    | some _ =>
      if !r.rootOk then (some (3, 3), bad s)
      else
        let s := s.setCrook { s.crook with badKeys := r.badKeys }
        let s := r.badKeys.foldl (fun t k => t.record srcCrook 0x0802 uwCrook k 0) s
        let s := s.useSealed (r.ctrNew || !r.ctrOld) r.lcNew
        let s := if r.ctrNew || r.ctrOld then s else s.rebuildCounters
        if s.versionOk then (none, s) else (some (3, 4), bad s)

/-- A first start in Blank enrols: helper data is written to the identity area (R470). -/
def State.enrol (s : State) (mj : Nat) : State :=
  if s.mram.lifecycle ≠ lcBlank || s.record?.enrolled then s
  else match s.mayCommit mj nvRecord with
    | (true, s) =>
      let m := { s.record? with enrolled := true }
      { s.setFlash (s.flash.putRecord m) with loaded := some m }
    | (false, s) => s

/-- The firmware key and the key epoch in management memory (R471). -/
def State.giveKey (s : State) (r : S0Result) : State :=
  s.mgmtWrite 0x40000000000 (toBytes 48 r.firmwareKey.toNat ++ toBytes 4 s.mram.epoch)

/-- Steps 5 to 8 of S0: images verified and loaded, the firmware key written, the cores released. -/
def State.s0Images (s : State) (r : S0Result) : State :=
  match s.loadImage imCrook with
  | (false, s) => s.failStart 0 5 5
  | (true, s) => match s.loadImage imWalker with
    | (false, s) => s.failStart 0 6 6
    | (true, s) => match s.loadImage imMgmt with
      | (false, s) => s.failStart 0 7 7
      | (true, s) =>
        let s := (s.giveKey r).setCrook { s.crook with serving := true }
        (s.wr Fd.modStatusStage 1).wr Fd.modStatusStep 1

/-- Registers that show what the MRAM and the record hold (R13, R527, R555). -/
def State.showStored (s : State) : State :=
  let s := s.showMram.wr Fd.pwrStatusPfCount s.mram.pfCount
  let m := s.record?
  ((s.wr Fd.startCfgMemTest (b2n m.memTest)).wr Fd.startCfgSeamForceBridged (b2n m.forceBridged)).wr
    Fd.startCfgReserveStripe (b2n m.stripe)

/-- Whether a start waits for its next stage. -/
def State.atStage (s : State) (n : Nat) : Bool :=
  s.down.isNone && s.rd Fd.modStatusStage = n && !s.flag Fd.modStatusReady && !s.fallow && !s.crook.failed

/-- STAGE_S0: steps 1 to 8; from a module reset, step 4 alone, by the record that a start then finds (R530, R586). -/
def execStageS0 (r : S0Result) (s : State) : Host.Outcome State Fault Refusal :=
  if !s.atStage 0 then .next s
  else if s.crook.fromFour then
    let s := (s.setCrook { s.crook with fromFour := false }).chooseRecord r
    match (s.showStored.wr Fd.modStatusStep 4).countAttempt r none with
    | (true, s) => .next ((s.wr Fd.modStatusStage 1).wr Fd.modStatusStep 1)
    | (false, s) => .next s
  else
    let s := s.wr Fd.pwrStatusPfSeen (b2n (s.mram.pfSeen && s.crook.kind = 1))
    let (failed, s) := s.s0Keys r
    match s.showStored.countAttempt r failed with
    | (true, s) => .next ((s.enrol (energyOf r.capUf.toNat)).s0Images r)
    | (false, s) => .next (if failed.isNone || s.crook.s0Fail = 3 then (if s.fallow then s.giveKey r else s) else s)

/-! ### S1 (Table 18.2) -/

/-- Rows whose Seam bundle Bridged calibration leaves in service: at most 64 failed wires (R28, R29). -/
def seamRows (r : S1Result) : List Nat := (List.range 4).filter fun n => (r.wires.getD n 0).toNat ≤ 64

/-- STAGE_S1: clocks, mesh and Seam calibration; transit blocks are loaded from the Module Record. -/
def execStageS1 (r : S1Result) (s : State) : Host.Outcome State Fault Refusal :=
  if !s.atStage 1 then .next s
  else if !r.pllOk then .next (s.failStart 1 1 0x11)
  else if !r.linksOk then .next (s.failStart 1 2 0x12)
  else
    let forced := s.flag Fd.startCfgSeamForceBridged
    let bridged := forced || !r.flatOk
    let rows := if bridged then seamRows r else [0, 1, 2, 3]
    if rows = [] then .next (s.failStart 1 3 0x13)
    else
      let s := (((s.wr Fd.seamStatusMode (b2n bridged)).wr Fd.seamStatusForced (b2n forced)).wr Fd.seamStatusFallback
        (b2n (!forced && bridged))).wr Fd.seamStatusInService (ofBits rows)
      let s := if bridged then eachUpTo 4 (fun s n => s.wr (seamFailed n) (r.wires.getD n 0).toNat) s else s
      let s := if bridged && !forced then s.record euTransit 0x0019 (uwSeam 3) rows.length 0 else s
      let s := s.loadMr fun a => decide (a < 0x30000200000)
      .next ((s.wr Fd.modStatusStage 2).wr Fd.modStatusStep 1)

/-! ### S2 (Table 18.3) -/

/-- The age of the repair maps in seconds of operating time (R539, R588). -/
def State.mapAge (s : State) : Nat := s.seconds - max s.mram.fullTest s.record?.mapTime.toNat

/-- Rows a bank replaces: those of the map first, then those that fail beyond it (R534). -/
def State.sparedRows (s : State) (r : S2Result) (b : Nat) : List (Nat × Bool) :=
  let mapped := (s.record?.badRows.filter (·.1 = b)).map (·.2)
  let more := ((r.badRows.filter fun e => e.1 = b && !s.record?.badRows.contains e).map (·.2)).eraseDups
  mapped.map (·, true) ++ more.map (·, false)

/-- Banks with a row to replace. -/
def State.sparedBanks (s : State) (r : S2Result) : List Nat := ((s.record?.badRows ++ r.badRows).map (·.1)).eraseDups

/-- Each replaced row is recorded with the spares left (Table 19.4). -/
def State.recordRows (s : State) (r : S2Result) : State :=
  (s.sparedBanks r).foldl (fun t b => ((t.sparedRows r b).zipIdx).foldl (fun t (p : (Nat × Bool) × Nat) =>
    t.record (bankHalf b) 0x0203 (uwFold b (p.1.1 % 1024) 15) (31 - p.2) (b2n (!p.1.2))) t) s

/-- Channels of a stack that the repair map lists as retired: they are not trained (R286). -/
def State.mapRetired (s : State) (k : Nat) : List Nat := (s.record?.retired.filter (·.1 = k)).map (·.2)

/-- What training met in a stack: the failing wires of each pseudo-channel trained. -/
def State.trainedWires (s : State) (r : S2Result) (k : Nat) : List (Nat × WireFaults) :=
  (r.wires.filter fun e => e.1.val = k && !(s.mapRetired k).contains (e.2.1.val / 2)).map fun e => (e.2.1.val, e.2.2)

/-- Channels retired in a stack at this start: by the map, or failed in training or test (R286). -/
def State.retiredAt (s : State) (r : S2Result) (k : Nat) : List Nat :=
  let ws := (s.trainedWires r k).filter fun e => wiresFail e.2
  let ts := r.failed.filter fun e => e.1.val = k
  let failing : List Nat := ws.map fun e => e.1 / 2
  let tested : List Nat := ts.map fun e => e.2.1.val
  (s.mapRetired k ++ failing ++ tested).eraseDups

/-- A stack after training: its words, its timing set, spares and what of the repair map's it did not use, retired channels,
in service (R284 to R287, R309). -/
def State.trainStack (s : State) (r : S2Result) (k : Nat) : State :=
  let w := r.revs.getD k (0, 0)
  let s := ((((s.wr (Fd.dramStackIdRevWord k) w.1.toNat).wr (Fd.dramStackIdCaps k) w.2.toNat).wr (Fd.dramStackIdCapsOff k)
    (w.2 &&& 0xFFF0).toNat).wr (Fd.dramStackIdTset k) (b2n (Config.earlierRev w.1))).wr (Fd.dramStackStatusStripeOn k)
    (s.rd Fd.startCfgReserveStripe)
  let s := (s.wr (Fd.dramStackStatusThermal k) (s.rd (Fd.thermZoneState k))).wr (Fd.dramStackStatusRefresh2x k)
    (b2n (decide (1 ≤ s.rd (Fd.thermZoneState k))))
  let ws := s.trainedWires r k
  let s := ws.foldl (fun t e => t.spareWires k e.1 e.2) s
  let unused := (s.mapSpares k).filter fun n => !(s.mapRetired k).contains (n % 128 / 2) &&
    !ws.any fun e => e.1 = n % 128 && (if n < 128 then e.2.dq ≠ [] else e.2.ca ≠ 0)
  let s := unused.foldl (fun t n => t.spareRecord k (n % 128) (decide (128 ≤ n)) false true) s
  let trig := s.freeWord.toNat % 2 ^ 32
  let s := (s.retiredAt r k).foldl (fun t c => t.retireChan k c trig) s.taken
  (s.setStack k { s.stack k with clean := true }).wr (Fd.dramStackStatusState k) dsInService

/-- Zeroising in place of the test (R486, R536): steps 2 to 7 of Table 16.8. -/
def State.zeroiseAtStart (s : State) : State :=
  let s := (s.closeSessions.closeLevel).setCrook { s.crook with nonces := [], sessions := [], subs := [] }
  (({ s with mem := [] }).mgmtRestart 4).zeroised.wr Fd.modStatusZeroised 1

/-- The memory test and its option (R539). -/
def State.memTest (s : State) (r : S2Result) : State :=
  let age := min s.mapAge (2 ^ 32 - 1)
  let wants := s.flag Fd.startCfgMemTest
  let quick := wants && decide (age < 2592000)
  let s := ((s.wr Fd.startCfgMapAge age).wr Fd.modStatusQuickTest (b2n quick)).wr Fd.modStatusTestUpgraded (b2n (wants && !quick))
  if quick then s
  else match s.mayCommit r.mj 5 with
    | (true, s) => s.setMram { s.mram with fullTest := s.seconds }
    | (false, s) => s

/-- STAGE_S2: Fold rows, DRAM training, the memory test or zeroising, and the Fold's ways. -/
def execStageS2 (r : S2Result) (s : State) : Host.Outcome State Fault Refusal :=
  if !s.atStage 2 then .next s
  else if (s.sparedBanks r).any fun b => 32 < (s.sparedRows r b).length then .next (s.failStart 2 1 0x21)
  else if r.noTrain ≠ [] then .next ((s.recordRows r).failStart 2 2 0x22)
  else match (List.range 8).find? (fun k => 8 < (s.retiredAt r k).length), r.trip with
    | some k, _ =>
      let steps := (r.failed.filter (·.1.val = k)).map (·.2.2.toNat)
      .next ((s.recordRows r).failStart 2 (steps.foldl max 2) 0x23)
    | none, some step => .next ((s.recordRows r).failStart 2 step.toNat 0x24)
    | none, none =>
      let s := eachUpTo 8 (fun s k => s.trainStack r k) (s.recordRows r)
      let s := if s.mram.zeroPending then s.zeroiseAtStart else s.memTest r
      let s := { s with mem := Tab.keep isMgmtMem s.mem, dramPoison := [], dramUe := [], fold := [], foldPoison := [], lines := [] }
      let s := eachUpTo 16 State.waysFromCfg (s.loadMr fun a => penFoldBlk.base ≤ a && a < penFoldBlk.base + 0x10000)
      .next ((s.wr Fd.modStatusStage 3).wr Fd.modStatusStep 1)

/-! ### S3 (Table 18.4) -/

/-- STAGE_S3: sites start, the ports train, the default routes are filled, and the Bell lock step begins, which `STEP`
shows. -/
def execStageS3 (r : S3Result) (s : State) : Host.Outcome State Fault Refusal :=
  if !s.atStage 3 || s.rd Fd.modStatusStep = 4 then .next s
  else
    let s := eachUpTo 4 (fun s k => if s.populated k then s.wr (Fd.siteStatusState k) ssLinkReset else s) s
    let s := s.startSites r.sites false
    if !r.opticsOk then .next (s.failStart 3 2 0x31)
    else
      let s := ((s.trainOptics r.lasers).defaultRoutes).checkCoords
      let s := s.setBellLogic { s.bell with lockStep := true }
      .next (s.wr Fd.modStatusStep 4)

/-! ### S4 (Table 18.5, R93, R95) -/

/-- Good Drovers that are not yet reserves, by Pen. -/
def goodIn (good res : List Nat) (p : Nat) : List Nat := good.filter fun d => penOf d = p && !res.contains d

/-- One round of choosing reserves: Pens in descending order of their good non-reserve Drovers, the higher number first on
a tie, and in each the highest-numbered such Drover, until the surplus is withdrawn. -/
def reserveRound (good : List Nat) (surplus : Nat) (res : List Nat) : List Nat :=
  let before (a b : Nat × Nat) : Bool := b.1 < a.1 || (a.1 = b.1 && b.2 < a.2)
  let pens := ((List.range 16).map fun p => ((goodIn good res p).length, p)).mergeSort (fun a b => before a b || a = b)
  pens.foldl (fun t e => if surplus ≤ t.length then t
    else match (goodIn good res e.2).getLast? with
      | some d => t ++ [d]
      | none => t) res
def chooseReserves (good : List Nat) (surplus : Nat) : List Nat :=
  (List.range surplus).foldl (fun t _ => if surplus ≤ t.length then t else reserveRound good surplus t) []

/-- The Tally at a start: reserves, bound and Absent numbers, and the Drovers' states (R93 to R95, R99). -/
def State.buildTally (s : State) (good : List Nat) : State :=
  let g := goodOf s.record?.order
  let res := chooseReserves good (good.length - g)
  let bound := good.filter fun d => !res.contains d
  let s := s.resetRegs (inBlk tallyBlk 0)
  let s := eachUpTo 128 (fun s d => s.wr (Fd.drvStatusState (d / 8) (d % 8))
    (if res.contains d then 2 else if good.contains d then 0 else 3)) s
  let s := res.foldl (fun t d => t.wr (Fd.tallyReserve d) 1) s
  let s := (bound.zipIdx).foldl (fun t (p : Nat × Nat) => (t.wr (Fd.tallyEntryState p.2) 0).wr (Fd.tallyEntryPhysical p.2) p.1) s
  let s := ((List.range g).filter (bound.length ≤ ·)).foldl (fun t n => t.wr (Fd.tallyEntryState n) 1) s
  let s := (s.wr Fd.tallyStatusGrade g).tallyCounts.copyTally
  if bound.length < g then s.record euAux 0x0104 uwModule bound.length g else s

/-- `READY` rises, recorded, and the boot-attempt counter is cleared if its commit may proceed (R540, R542). -/
def State.becomeReady (s : State) (r : S4Result) : State :=
  let s := ((s.wr Fd.modStatusReady 1).wr Fd.modStatusStage 0xF).wr Fd.modStatusStartMs r.millis.toNat
  let s := s.record euAux 0x0010 uwModule r.millis.toNat (s.rd Fd.tallyStatusBelowGrade +
    2 * b2n (decide (s.bellState = bsUnlocked)) + 4 * s.rd Fd.seamStatusMode + 8 * s.rd Fd.modStatusTestUpgraded)
  match s.mayCommit r.mj nvCounter with
  | (true, s) => s.setMram { s.mram with attempts := 0 }
  | (false, s) => s

/-- STAGE_S4: once the Bell lock step of S3 has ended, locked or not (R54, R537), the Tally is built, the Hurdles are
loaded, the sites whose handshake passed are released, and `READY` rises. -/
def execStageS4 (r : S4Result) (s : State) : Host.Outcome State Fault Refusal :=
  if !s.atStage 3 || s.rd Fd.modStatusStep ≠ 4 || s.bellState = bsAcquiring then .next s
  else
    let s := (s.wr Fd.modStatusStage 4).wr Fd.modStatusStep 1
    let good := (List.range 128).filter fun d => r.passed.getLsbD d && !s.record?.badDrovers.contains d
    if good = [] then .next (s.failStart 4 2 0x41)
    else
      let s := s.buildTally good
      let s := s.loadMr fun a => siteBlk.base ≤ a && a < siteBlk.base + 0x4000
      let s := eachUpTo 4 (fun s k =>
        if (s.site k).shaken && s.rd (Fd.siteStatusState k) = ssHeld then s.siteRuns k
        else if (s.site k).awaits then s.setSite k { s.site k with release := true } else s) s
      .next (s.becomeReady r)

/-- START_RETRY: 1 s after a failed start, the next begins from S0 step 1 (R543). -/
def execStartRetry (s : State) : Host.Outcome State Fault Refusal :=
  if s.down.isNone && s.crook.failed then .next (s.beginStart 2) else .next s

/-! ### Resets (R546 to R554) -/

def rlDrover : Nat := 1
def rlPen : Nat := 2
def rlPaddock : Nat := 3
def rlModule : Nat := 4

/-- Streams that name a stack of a Paddock (R552). -/
def State.streamsName (s : State) (k : Nat) : Bool :=
  (List.range 256).any fun n =>
    (s.flag (Fd.isEn n) && (s.rd (Fd.isStacks n) / 2 ^ (2 * k) % 4 ≠ 0)) ||
      (s.flag (Fd.osEn n) && (s.rd (Fd.osLstacks n) / 2 ^ (2 * k) % 4 ≠ 0))

/-- The first cause that refuses a reset, as Table 18.14 codes it; 0 when none does. A module reset is never refused. -/
def State.resetRefusal (s : State) (level target : Nat) (force : Bool) : Nat :=
  let top := if level = rlDrover then 128 else if level = rlPen then 16 else 4
  if level = rlModule then 0
  else if level = 0 ∨ rlModule < level ∨ top ≤ target then 2
  else if !s.flag Fd.modStatusReady || s.fallow then 3
  else if psP2 ≤ s.pwr then 4
  else if level = rlDrover ∧ s.drvState target = 1 then 6
  else if level = rlPaddock ∧ !force ∧ s.streamsName target then 5
  else 0

/-- `RESET_CMD` completes or is refused: shown, recorded, and its source raised. -/
def State.resetEnds (s : State) (level target : Nat) (zero force : Bool) (st res : Nat) : State :=
  (((s.wr Fd.resetCmdState st).wr Fd.resetCmdResult res).irq 44).record euAux 0x0015 uwModule
    (level + 2 ^ 3 * target + 2 ^ 10 * b2n zero + 2 ^ 11 * b2n force) res

/-- A module reset (R551): every domain but the auxiliary is reset, and a start begins from S0 step 4. -/
def State.moduleReset (s : State) : State :=
  let s := (s.resetDomains false).mboxModuleReset.closeLevel
  let s := { s.sinceStart with move := none, waking := false, resetting := none }
  let s := ((s.wr Fd.pwrStatusMoving 0).wr Fd.pwrStatusTarget 0).wr Fd.pwrStatusState psP0
  let s := (s.setReg Fd.modStatusReady.addr 0).wr Fd.secStatusRaised 0
  s.setCrook { s.crook with fromFour := true, failed := false, kind := 3, zeroing := false }

/-- A write of `RESET_CMD` with `GO`, or a reset asked for by DFP. -/
def State.resetGo (s : State) (level target : Nat) (zero force : Bool) : State :=
  if s.down.isSome then s
  else if s.resetting.isSome && level ≠ rlModule then s.wr Fd.resetCmdResult 1
  else
    let s := (((s.wr Fd.resetCmdLevel level).wr Fd.resetCmdTarget target).wr Fd.resetCmdZeroise (b2n zero)).wr Fd.resetCmdForce
      (b2n force)
    let zero := zero && decide (level = rlPaddock)
    let res := s.resetRefusal level target force
    if res ≠ 0 then s.resetEnds level target zero force 3 res
    else if level = rlModule then (s.moduleReset).resetEnds level target zero force 2 0
    else if level = rlDrover ∧ s.drvState target ≠ 0 then s.resetEnds level target zero force 2 0
    else
      let s := { s with resetting := some (level, target, zero, force) }
      let s := (s.wr Fd.resetCmdState 1).wr Fd.resetCmdResult 0
      if level = rlDrover then s.resetDrover target
      else if level = rlPen then s.resetPen target false
      else s.resetPaddock target zero

/-- DROVER_RESET: steps 1 to 3 of Table 18.8; RESET_RELEASE runs step 4. One in reserve or bad completes at once. -/
def execDroverReset (target : BitVec 7) (s : State) : Host.Outcome State Fault Refusal :=
  .next (s.resetGo rlDrover target.toNat false false)

/-- PEN_RESET (Table 18.9): steps 1 to 5; RESET_RELEASE runs step 6. -/
def execPenReset (target : BitVec 7) (s : State) : Host.Outcome State Fault Refusal :=
  .next (s.resetGo rlPen target.toNat false false)

/-- PADDOCK_RESET (R549). -/
def execPaddockReset (target : BitVec 7) (force : Bool) (s : State) : Host.Outcome State Fault Refusal :=
  .next (s.resetGo rlPaddock target.toNat false force)

/-- PADDOCK_RESET_ZEROISE (R550). -/
def execPaddockResetZeroise (target : BitVec 7) (force : Bool) (s : State) : Host.Outcome State Fault Refusal :=
  .next (s.resetGo rlPaddock target.toNat true force)

/-- MODULE_RESET (R551). -/
def execModuleReset (s : State) : Host.Outcome State Fault Refusal := .next (s.resetGo rlModule 0 false false)

/-- RESET_RELEASE: step 6 of Table 18.9 at a Bell boundary, or step 4 of Table 18.8; the reset completes, a zeroising one once
the windows of its stacks have closed and their channels are zero (R300). -/
def execResetRelease (s : State) : Host.Outcome State Fault Refusal :=
  match s.resetting with
  | none => .next s
  | some (level, target, zero, force) =>
    let waits := zero && level = rlPaddock && ((s.openChan (2 * target)).isSome || (s.openChan (2 * target + 1)).isSome)
    if s.crook.zeroing || waits then .next s
    else
    let s := { s with resetting := none }
    let s := if level = rlDrover then s.droverBack target
      else if level = rlPen then s.openPen target
      else s.openPaddock target
    .next (s.heldAgain.resetEnds level target zero force 2 0)

end Sys2Proof.Machine
end

