-- ==== Sys2Proof/Machine/Boundary.lean ====
section
/-! DEFINITION. Machine/Boundary.lean: the Bell boundary: what takes effect at it, in the order of R61. -/
namespace Sys2Proof.Machine

/-- The count and the lock: the count increments or steps, holdover ends, a standby takes over, scheduled traffic is
admitted. A step is announced for 65,536 markers, its own the first (R53, R57, R58). -/
def State.countAtBell (s : State) : State :=
  let s := s.setBellLogic { s.bell with stepped := s.bell.stepped - 1, ticked := true }
  s.tickLock.takeoverDue.holdoverDue.qualifyDue

/-- Step 1 of R61: commits that are due apply; with them what a boundary changes of the routes and the slots: lanes are
removed, reservations move and route substitution begins, commanded disables and Stiles arrive, the Tally's copies, a rebind
and a mesh flip take effect. The slots of step 2 then use the Rota so made. -/
def State.commitsAtBell (s : State) : State :=
  let s := (s.commitsDue.removalsDue.disables.stilesArrive)
  ((eachUpTo 16 State.movePort s).substitute).copyDue.rebindNearer.meshFlips

/-- Step 3: windows that have lasted close and due ones open, retrains begin, ways power down and return; at a Round's first
boundary its counts begin anew. A channel that its zone holds back writes what this Bell allows (R291). -/
def State.windowsAtBell (s : State) : State :=
  let s := ((s.closeScrubs.closeWindows.startRetrains.openScrubs.openWindows.newRound).cadence).waysDue
  s.chans.foldl (fun t e => t.drainWrites (e.1 / 64) (e.1 % 64)) s

/-- Step 4: `AT` pairs issue, `WAITBELL` releases, Muster groups act on their releases. -/
def State.issuesAtBell (s : State) : State := eachUpTo 64 State.releaseDue s.pairsDue.wakeAll

/-- What the Bell sends, and what waits for a boundary to try again: control messages, pulses and frames to the sites,
thermal notices, mailboxes; in P0 and P1 requests that wait for room or were held. -/
def State.messagesAtBell (s : State) : State :=
  let s := ((eachUpTo 16 State.bellMessages s.repeatNotices).siteBell).mboxRetry
  if s.pwr ≤ psP1 then s.askAgain.retryIn.retrySites else s

/-- A Bell boundary (R44, R45, R60, R61). A power-state change may leave no domain with Bells. -/
def State.boundary (s : State) : State :=
  let s := s.countAtBell.commitsAtBell.windowsAtBell.issuesAtBell.powerAtBell
  if s.down.isSome || s.dark then s else s.thermalDue.messagesAtBell

/-- BELL_BOUNDARY: input voltage and power are measured and 128 ns of operating time pass (notes/assumptions/29.md); where
the transit domain is powered a Bell boundary follows. In P3 and P4 it has no Bells. -/
def execBellBoundary (vin pin : BitVec 16) (s : State) : Host.Outcome State Fault Refusal :=
  if s.down.isSome then .next s
  else
    let s := (s.wr Fd.pwrStatusVin vin.toNat).wr Fd.pwrStatusPin pin.toNat
    let s := s.setLog { s.log with time := s.log.time + 128 }
    .next (if s.dark then s else s.boundary)

end Sys2Proof.Machine
end

