-- ==== Sys2Proof/Machine/Regs.lean ====
section
/-! DEFINITION. Machine/Regs.lean: reads and writes of management register space (R10 to R14, R591 to R598): what a read
shows, what a write does to the fields of each access code, and the writes that are commands. -/
namespace Sys2Proof.Machine

/-! ### Who may read (R488, R496, R497) -/

/-- Whether the debug level and the token's scope let the units of a scope bit be observed. -/
def State.observes (s : State) (scope : Nat) : Bool := lvObserve ≤ s.rd Fd.secStatusLevel && s.rdBit Fd.secStatusScope scope

/-- The scope bit a debug block's reads need, if the block is one: the trace block the transit domain's, a counter block its
Pen's Paddock. -/
def debugScope (b : Blk) (i : Nat) : Option Nat :=
  if b.kind = 0x0040 then some 4 else if b.kind = 0x0041 then some (i / 4) else none

/-! ### What a read shows -/

/-- A field of a word set to a value. -/
def shows (w : Word) (f : Fld) (v : Nat) : Word := setBits w f.hi f.lo v

/-- 8 bytes of a record at a window offset. -/
def windowWord (bs : List Byte) (off : Nat) : Word := BitVec.ofNat 64 (ofBytes ((bs.drop off).take 8))

/-- Record i of the log window, zero when it is not held (R575). -/
def State.logWord (s : State) (off : Nat) : Word :=
  match s.heldRec (s.rd Fd.logWinSeq / 128 * 128 + off / 32) with
  | some r => windowWord r.bytes (off % 32)
  | none => 0

/-- A record of the trace window, zero when it is not held (R496). -/
def State.traceWord (s : State) (off : Nat) : Word :=
  windowWord (Tab.get (fun _ => []) s.trace (s.rd Fd.traceWinSeq / 32 * 32 + (off - 0x400) / 32)) (off % 32)

/-- Seconds of the token's lifetime left (Table 16.15). -/
def State.tokenLeft (s : State) : Nat := (s.crook.tokenEnd.map fun t => (t - s.log.time) / 1000000000).getD 0

/-- Lines still to clean in a Pen's conversion, in units of 64, rounded up (Table 7.6). -/
def State.dirtyLeft (s : State) (p : Nat) : Nat :=
  let q := s.penWays p
  let n := (s.penLines p fun x => (x.dirty || x.ways ≠ []) && (q.disable || q.slots.any fun j => x.takes (15 - j))).length
  min 65535 ((n + 63) / 64)

/-- `DRV_STATUS_k`: the tags in use and the states of the strands (Table 3.13). -/
def State.drvShown (s : State) (w : Word) (p k : Nat) : Word :=
  let d := 8 * p + k
  eachUpTo 8 (fun (w : Word) t => setBits w (26 + 3 * t) (24 + 3 * t) (s.strandState d t))
    (shows w (Fd.drvStatusTags p k) (s.tagsOf d))

/-- A register's value with the fields that the module computes. -/
def State.shownReg (s : State) (b : Blk) (i off : Nat) (w : Word) : Word :=
  match b.kind, off with
  | 0x0002, 0x30 => shows w Fd.logStatusBufUsed s.log.buffer.length
  | 0x0002, 0x50 => s.rateCfg
  | 0x0004, 0x10 => shows w (Fd.errStatusQueued i) (s.queue i).length
  | 0x0005, 0x10 => shows w Fd.secStatusTokenLeft s.tokenLeft
  | 0x0008, 0x60 => shows w Fd.xlatStatusOutstanding s.xl.tickets.length
  | 0x0009, 0x10 =>
    let full := (List.range 8).filter fun j => s.rd (mfState (8 * i + j)) = msFull
    let coll := (List.range 8).filter fun j => s.flag (mfCollision (8 * i + j))
    BitVec.ofNat 64 (ofBits full + 256 * ofBits coll)
  | 0x0011, 0x28 => shows w Fd.bellStatusPhase (if s.bell.ticked then s.freeWord.toNat % 256 else 0)
  | 0x0013, 0x30 =>
    let outs := ((List.range 256).filter fun n => s.flag (Fd.osEn n)).length
    let ins := ((List.range 256).filter fun n => s.flag (Fd.isEn n)).length
    let ws := (s.bell.windows.filter fun v => s.bellCount.toNat < v.start.toNat + v.length.toNat).length
    shows (shows (shows w Fd.fabStatusOutStreams outs) Fd.fabStatusInStreams ins) Fd.fabStatusWindows ws
  | 0x0020, 0x28 => shows w (Fd.frangeStatusQueued i) (s.rangeQ i).length
  | 0x0031, 0x28 =>
    shows (shows w (Fd.foldWaystatPinned i) (s.penLines i fun x => x.pinned).length) (Fd.foldWaystatDirtyLeft i)
      (s.dirtyLeft i)
  | 0x0032, 0x20 =>
    shows (shows (shows w (Fd.xlatPenStatActive i) (s.l2 i).length) (Fd.xlatPenStatShadow i) (s.shadowXl i).length)
      (Fd.xlatPenStatPending i) (s.ticketsOf i).length
  | 0x0030, o => if 0x10 ≤ o ∧ o < 0x90 ∧ o % 16 = 0 then s.drvShown w i ((o - 0x10) / 16) else w
  | 0x0041, o => if 0x100 ≤ o ∧ o < 0x200 ∧ 16 ≤ o % 32 then s.freeWord else w
  | 0x0040, o => if 0x400 ≤ o ∧ o < 0x800 then s.traceWord o else w
  | _, _ => w

/-- `BLOCK_ID` and `BLOCK_CAPS` (R592, R593). -/
def State.blockId (s : State) (b : Blk) (i : Nat) : Word :=
  BitVec.ofNat 64 (2 ^ 16 * b.kind + 2 ^ 8 * i +
    (if b.kind = 0x0021 then s.rd (Fd.dramStackIdRevWord i) % 256 else Config.dieRev.code))
def blockCaps (b : Blk) : Word :=
  BitVec.ofNat 64 (2 ^ 63 * b2n b.gate + 2 ^ 62 * b2n b.signed + 2 ^ 61 * b2n (b.kind = 0x0034 && Config.dieRev = .b0))

/-- The gate whose `VIEW` selects what reads of a block's ST fields show: the fabric block's for the fabric tables (R597). -/
def viewGate (b : Blk) (i : Nat) : Nat := if b.base = fabtableBlk.base then fabricBlk.base else b.base + 0x1000 * i

/-- A register of a block that is powered and may be read: ST fields as `VIEW` selects (Table 0.3). -/
def State.blockReg (s : State) (b : Blk) (i a : Nat) : Word :=
  let off := (a - b.base) % 0x1000
  if b.base = logwinBlk.base then s.logWord off
  else if b.base = doorbellBlk.base then (if off % 0x40 = 0x38 then s.reg a else 0)
  else if b.ident && off = 0 then s.blockId b i
  else if b.ident && off = 8 then blockCaps b
  else
    let st := stMask a
    let w := if st ≠ 0 && !s.flag (Fd.gateView (viewGate b i)) then (s.reg a &&& ~~~st) ||| (s.stg a &&& st) else s.reg a
    s.shownReg b i off w

/-- The status an access to management register space meets before anything else (R10, R598, R506, R509). -/
def State.regStatus (s : State) (a width : Nat) : Nat :=
  if width ≠ 64 ∨ a % 8 ≠ 0 then stRegWidth
  else if (findBlk a).isNone then stUnmapped
  else if s.asleepAt a then stAsleep
  else stOk

/-- A read: its status and value; zero unless it completes. -/
def State.readReg (s : State) (a width : Nat) : Nat × Word :=
  let st := s.regStatus a width
  if st ≠ stOk then (st, 0)
  else match findBlk a with
    | none => (stUnmapped, 0)
    | some (b, i) => match debugScope b i with
      | some k => if s.observes k then (stOk, s.blockReg b i a) else (stNotPermitted, 0)
      | none => (stOk, s.blockReg b i a)

/-! ### Writes that are commands -/

/-- The state a command answers. -/
def State.then (s : State) (f : State → Host.Outcome State Fault Refusal) : State :=
  match f s with
  | .next t => t
  | _ => s

/-- A write of `TALLY_CMD` with `GO` (R103). -/
def State.writeTally (s : State) (v : Word) : State :=
  let n := BitVec.ofNat 8 (bits v 47 40)
  let op := bits v 62 60
  let s := if s.rd Fd.tallyCmdState = 1 then s
    else ((s.wr Fd.tallyCmdTarget (bits v 30 24)).wr Fd.tallyCmdPaddockOnly (b2n (bit v 59))).wr Fd.tallyCmdExplicit (b2n (bit v 58))
  if op = 1 then s.then (execRebind n (bit v 59) (bit v 58) (BitVec.ofNat 7 (bits v 30 24)))
  else if op = 2 then s.then (execTallyFence n)
  else s.tallyGo op n.toNat none none none fun s => s.tallyEnd 3 6

/-- A write of `XLAT_REPLY` with `GO` (R325). -/
def State.writeReply (s : State) (v : Word) : State :=
  let id := BitVec.ofNat 32 (bits v 31 0)
  let pen : Fin 16 := ⟨bits v 43 40 % 16, Nat.mod_lt _ (by decide)⟩
  let s := s.replyRegs (bits v 62 59) (some id.toNat) (some (bits v 39 32)) (some pen.val)
  match bits v 62 59 with
  | 1 => s.then (execXlFill id)
  | 2 => s.then (execXlDefer id)
  | 3 => s.then (execXlResume id)
  | 4 => s.then (execXlFail id (BitVec.ofNat 8 (bits v 39 32)))
  | 5 => s.then (execXlShadowFill pen)
  | 6 => s.then (execXlShadowClear pen)
  | _ => s.xlOutcome 5

/-- A write of `XLAT_MIG_CMD` with `GO` (R329). -/
def State.writeMig (s : State) (v : Word) : State :=
  let op := bits v 62 60
  if op = 1 ∨ op = 2 then s.migGo op (bits v 59 58)
  else if s.rd Fd.xlatMigCmdState = 1 then s.wr Fd.xlatMigCmdResult 1
  else (((s.wr Fd.xlatMigCmdOp op).wr Fd.xlatMigCmdSize (bits v 59 58)).wr Fd.xlatMigCmdState 3).wr Fd.xlatMigCmdResult 2

/-- A write of `OPT_CMD` with `GO` (R358). -/
def State.writeOpt (s : State) (v : Word) : State :=
  let p : Fin 16 := ⟨bits v 59 56 % 16, Nat.mod_lt _ (by decide)⟩
  let l : Fin 8 := ⟨bits v 55 53 % 8, Nat.mod_lt _ (by decide)⟩
  let m : Fin 4 := ⟨bits v 52 51 % 4, Nat.mod_lt _ (by decide)⟩
  let s := if s.rd Fd.optCmdState = 1 then s
    else ((s.wr Fd.optCmdPort p).wr Fd.optCmdLane l).wr Fd.optCmdLaser m
  match bits v 62 60 with
  | 1 => s.then (execOptRemoveLane p l)
  | 2 => s.then (execOptRetrainLane p l)
  | 3 => s.then (execOptPortDisable p)
  | 4 => s.then (execOptPortEnable p)
  | 5 => s.then (execOptLaserDisable m)
  | 6 => s.then (execOptLaserEnable m)
  | op => s.optGo op (some p.val) (some l.val) (some m.val) 2 id

/-- A write of `MUSTER_CMD` with `GO` (R410). -/
def State.writeMuster (s : State) (v : Word) : State :=
  let n : Fin 64 := ⟨bits v 59 54 % 64, Nat.mod_lt _ (by decide)⟩
  if bits v 62 60 = 1 then s.then (execMusterForceRelease n)
  else if s.rd Fd.musterCmdState = 1 then s.wr Fd.musterCmdResult 1
  else ((((s.wr Fd.musterCmdOp (bits v 62 60)).wr Fd.musterCmdGroup n).wr Fd.musterCmdState 3).wr Fd.musterCmdResult 2).irq 42

/-- A write of `DRAM_CHAN_CMD` with `GO` (R311). -/
def State.writeChan (s : State) (i : Nat) (v : Word) : State :=
  let k : Fin 8 := ⟨i % 8, Nat.mod_lt _ (by decide)⟩
  let c : Fin 64 := ⟨bits v 53 48 % 64, Nat.mod_lt _ (by decide)⟩
  match bits v 62 60 with
  | 1 => s.then (execChanRetrain k c)
  | 2 => s.then (execChanRetire k c)
  | op =>
    if s.rd (Fd.dramChanCmdState k) = 1 then s.wr (Fd.dramChanCmdResult k) 1
    else ((s.wr (Fd.dramChanCmdOp k) op).wr (Fd.dramChanCmdChannel k) c).chanDone k 3 2

/-- A write of `SITE_CMD` with `GO` (R435, R436). -/
def State.writeSite (s : State) (k : Nat) (v : Word) : State :=
  let j := bits v 58 54
  let up := bit v 59
  match bits v 62 60 with
  | 1 => s.siteGo k 1 up j fun s => s.repairDue k up j
  | 2 => s.siteGo k 2 up j fun s => (s.bundleOut k up j).siteCmdEnds k 2 0
  | op => s.siteGo k op up j id

/-- A write of `TRACE_CTL`: the write that sets `EN` empties the buffer and numbers records anew (R496, Table 16.19). -/
def State.writeTrace (s : State) (v : Word) : State :=
  let begins := bit v 63 && !s.flag Fd.traceCtlEn
  let s := s.setReg Fd.traceCtlEn.addr (v &&& 0xC0FFFFFF000001FE)
  if begins then
    { (s.setReg Fd.traceStatusNext.addr 0) with
      trace := [], crook := { s.crook with sampled := s.bellCount.toNat / 65536 } }
  else s

/-- A write of `MBOX_CTL_m`: `LEN` and `COLLISION`, then `ACK`, then `GO` (R460, R462). Which management core writes
is not in the command: its number is a free value. A `GO` that Table 15.4 does not permit changes nothing. -/
def State.writeMbox (s : State) (who : Master) (m : Fin 64) (v : Word) : Nat × State :=
  let go := bit v 63
  let crook := decide (who = .crook)
  let may := if crook then (48 ≤ m.val && m.val < 52) || 60 ≤ m.val else 32 ≤ m.val && m.val < 48
  if go && !may then (stNotPermitted, s)
  else
    let s := if bit v 55 then s.wr (mfCollision m) 0 else s
    let s := if bit v 62 then s.then (execMboxAck m) else s
    if !go then (stOk, s.wr (mfLen m) (bits v 60 56))
    else
      let core : Fin 8 := ⟨s.freeWord.toNat % 8, Nat.mod_lt _ (by decide)⟩
      (stOk, s.taken.then (execMboxGo m core crook (BitVec.ofNat 5 (bits v 60 56))))

/-- What a write to one register does beyond its fields; `none` for a register that is fields only. A walker ring outside
management memory, or of a size not listed, is refused (R6, R338). -/
def State.writeCmd (s : State) (who : Master) (b : Blk) (i off : Nat) (v : Word) : Option (Nat × State) :=
  let go (f : State) : Option (Nat × State) := if bit v 63 then some (stOk, f) else none
  match b.kind, off with
  | 0x0001, 0x28 => go (s.resetGo (bits v 62 60) (bits v 54 48) (bit v 59) (bit v 58))
  | 0x0002, 0x50 => some (stOk, s.setRateCfg v)
  | 0x0002, 0x58 => some (stOk, s.then (execLogFwWrite v))
  | 0x0004, 0x18 => some (stOk, s.then (execErrAck ⟨i % 4, Nat.mod_lt _ (by decide)⟩ (BitVec.ofNat 32 (bits v 31 0))))
  | 0x0006, 0x18 => go (s.pwrGo (bits v 62 60) (bit v 59))
  | 0x0007, 0x18 => go (s.writeTally v)
  | 0x0008, 0x10 => if isMgmtMem (v.toNat / 4096 * 4096) then none else some (stNotPermitted, s)
  | 0x0008, 0x18 =>
    some (if 8 < bits v 63 60 then (stNotPermitted, s)
      else (stOk, (s.wr Fd.xlatRingPtrSize (bits v 63 60)).setTail (bits v 15 0)))
  | 0x0008, 0x30 => go (s.writeReply v)
  | 0x0008, 0x40 => go (s.shootGo (bits v 59 56) (bits v 31 0))
  | 0x0008, 0x58 => go (s.writeMig v)
  | 0x0009, o =>
    if 0x180 ≤ o ∧ (o - 0x180) % 0x100 = 0 ∧ o < 0x980 then
      some (s.writeMbox who ⟨(8 * i + (o - 0x180) / 0x100) % 64, Nat.mod_lt _ (by decide)⟩ v)
    else none
  | 0x0012, 0x28 => go (s.writeOpt v)
  | 0x0014, 0x28 => go (s.writeMuster v)
  | 0x0020, 0x20 => go (s.frangeGo i (bits v 58 56))
  | 0x0021, 0x60 => go (s.writeChan i v)
  | 0x0030, o =>
    if 0x10 ≤ o ∧ o < 0x90 ∧ o % 16 = 8 then
      some (stOk, s.then (execPreempt ⟨i % 16, Nat.mod_lt _ (by decide)⟩ ⟨(o - 0x18) / 16 % 8, Nat.mod_lt _ (by decide)⟩
        (BitVec.ofNat 8 (bits v 15 8))))
    else none
  | 0x0034, 0x50 => go (s.writeSite i v)
  | 0x0040, 0x10 => some (stOk, s.writeTrace v)
  | _, _ => none

/-! ### Writes of fields (Table 0.3) -/

/-- A write of ST fields: the staging copy takes them, unless a commit is armed or Crook has staged fields of the block,
which sets `BLOCKED` (R14, R19, R591). -/
def State.writeStaged (s : State) (who : Master) (base a : Nat) (v : Word) : State :=
  let st := stMask a
  if st = 0 then s
  else if s.rd (Fd.gateState base) = 1 || (s.crook.staging.contains base && who ≠ .crook) then s.wr (Fd.gateBlocked base) 1
  else
    let s := s.setStg a ((s.stg a &&& ~~~st) ||| (v &&& st))
    if who = .crook then { s with crook := { s.crook with staging := Nats.ins s.crook.staging base } } else s

/-- A write of the fields of a register: RW fields are set, W1C bits and counts cleared, ST fields staged. -/
def State.writeFields (s : State) (who : Master) (b : Blk) (i a : Nat) (v : Word) : State :=
  match regSpec a with
  | none => s
  | some r =>
    let w := (((s.reg a &&& ~~~r.rw) ||| (v &&& r.rw)) &&& ~~~(v &&& r.w1c))
    let w := if v &&& r.w1cCount = 0 then w else w &&& ~~~r.w1cCount
    (s.setReg a w).writeStaged who (viewGate b i) a v

/-- A write that reaches its block. The Crook block and the debug counters take none (R467, R497); `GATE_BELL` keeps the
target of an armed commit. -/
def State.writeBlock (s : State) (who : Master) (b : Blk) (i a : Nat) (v : Word) : Nat × State :=
  let off := (a - b.base) % 0x1000
  let base := b.base + 0x1000 * i
  if b.kind = 0x0005 ∨ b.kind = 0x0041 then (stOk, s)
  else if b.gate && off = 0x10 then
    (stOk, if bit v 63 || bit v 62 then s.gateCtl who b i v (bit v 63) (bit v 62) else s.writeGateCtl base v)
  else if b.gate && off = 0x18 then (stOk, if s.rd (Fd.gateState base) = 1 then s else s.setReg a v)
  else if b.base = doorbellBlk.base then
    let n : Fin 128 := ⟨(8 * i + off / 0x200) % 128, Nat.mod_lt _ (by decide)⟩
    let t : Fin 8 := ⟨off / 0x40 % 8, Nat.mod_lt _ (by decide)⟩
    (stOk, if off % 0x40 = 0x38 then s.then (execDoorbellWindowSubmit n t v) else s.setReg a v)
  else match s.writeCmd who b i off v with
    | some r => r
    | none => (stOk, s.writeFields who b i a v)

/-- A write: its status, and the state after it. -/
def State.writeReg (s : State) (who : Master) (a width : Nat) (v : Word) : Nat × State :=
  let st := s.regStatus a width
  if st ≠ stOk then (st, s)
  else match findBlk a with
    | none => (stUnmapped, s)
    | some (b, i) => s.writeBlock who b i a v

/-! ### Commands -/

/-- REGISTER_WRITE: a write by any requester, with its status (R10 to R12, R598). -/
def execRegisterWrite (who : Master) (addr : BitVec 64) (width : Nat) (val : BitVec 64) (s : State) :
    Host.Outcome State Fault Refusal :=
  if s.down.isSome then .next s
  else
    let (st, t) := s.writeReg who addr.toNat width val
    .next (t.emit (.access who addr.toNat st 0))

/-- TRACE_CTL_WRITE (R496). -/
def execTraceCtlWrite (val : BitVec 64) (s : State) : Host.Outcome State Fault Refusal :=
  if s.down.isSome || s.asleepAt Fd.traceCtlEn.addr then .next s else .next (s.writeTrace val)

end Sys2Proof.Machine
end

