-- ==== Sys2Proof/Machine/Mgmt.lean ====
section
/-! DEFINITION. Machine/Mgmt.lean: the Dedin Field Protocol (R453 to R458), what each of its commands does, and the
lifecycle (R473 to R487, R545, R585, R590). -/
namespace Sys2Proof.Machine

/-! ### Commands and statuses (Table 15.2, Table 15.3) -/

def dcIdentify : Nat := 0x0001
def dcStatus : Nat := 0x0002
def dcSessionOpen : Nat := 0x0010
def dcSessionClose : Nat := 0x0011
def dcGetNonce : Nat := 0x0012
def dcRegRead : Nat := 0x0020
def dcRegWrite : Nat := 0x0021
def dcLogRead : Nat := 0x0030
def dcEventSubscribe : Nat := 0x0031
def dcMboxPost : Nat := 0x0040
def dcConfigCommit : Nat := 0x0050
def dcRecordWrite : Nat := 0x0051
def dcCounterClear : Nat := 0x0052
def dcFallowExit : Nat := 0x0053
def dcLifecycle : Nat := 0x0054
def dcDebugToken : Nat := 0x0055
def dcRestart : Nat := 0x0056
def dcImageWrite : Nat := 0x0058
def dcImageCommit : Nat := 0x0059
def dcAttest : Nat := 0x0060

def dsOk : Nat := 0
def dsBadRequest : Nat := 1
def dsBadAuth : Nat := 2
def dsBadNonce : Nat := 3
def dsNoSession : Nat := 4
def dsNotPermitted : Nat := 5
def dsHoldupLow : Nat := 6
def dsFallow : Nat := 7
def dsBusy : Nat := 8
def dsRefused : Nat := 9

/-- What a command answers: its status, the fields of its payload, and the state after it. -/
abbrev Answer : Type := Nat × List Nat × State

/-! ### Answers and classes (R454, R455, R457, R485, R544) -/

/-- The response to a request (Table 15.1). -/
def State.respOf (s : State) (h : DfpHdr) (cmd st : Nat) (body : List Nat) : DfpResp :=
  { port := h.port, cmd, reqId := h.reqId.toNat, session := h.session.toNat, status := st, bell := s.bellCount.toNat, body }

/-- Send a response. -/
def State.respond (s : State) (h : DfpHdr) (cmd st : Nat) (body : List Nat) : State := s.emit (.dfp (s.respOf h cmd st body))

/-- The status that stops a command before its class is looked at: zeroising lets only `IDENTIFY` and `STATUS` through,
Fallow mode only what R457 lists. -/
def State.dfpStops (s : State) (cmd : Nat) (inFallow : Bool) : Option Nat :=
  if s.crook.zeroing && cmd ≠ dcIdentify && cmd ≠ dcStatus then some dsBusy
  else if s.fallow && !inFallow then some dsFallow
  else none

/-- An open command. -/
def State.dfpOpen (s : State) (h : DfpHdr) (cmd : Nat) (eff : State → Answer) : State :=
  if !s.managed then s
  else match s.dfpStops cmd true with
    | some st => s.respond h cmd st []
    | none =>
      let (st, body, s) := eff s
      s.respond h cmd st body

/-- The open session a request names. -/
def State.session? (s : State) (h : DfpHdr) : Option Session := s.crook.sessions.find? fun x => x.id = h.session.toNat

/-- Replace a session. -/
def State.setSession (s : State) (x : Session) : State :=
  s.setCrook { s.crook with sessions := updateWhere (fun y => y.id = x.id) (fun _ => x) s.crook.sessions }

/-- A session command: `REQ_ID` must rise; one of the last 64 answered is answered again, and any other old one is
discarded. -/
def State.dfpSession (s : State) (h : DfpHdr) (cmd : Nat) (inFallow : Bool) (eff : State → Answer) : State :=
  if !s.managed then s
  else match s.dfpStops cmd inFallow with
    | some st => s.respond h cmd st []
    | none => match s.session? h with
      | none => s.respond h cmd dsNoSession []
      | some x =>
        if h.auth ≠ 1 ∨ !h.authOk then s.respond h cmd dsBadAuth []
        else
          let now := s.log.time
          match x.answered.find? fun r => r.reqId = h.reqId.toNat with
          | some r => (s.setSession { x with last := now }).emit (.dfp r)
          | none =>
            if h.reqId.toNat ≤ x.high then s
            else
              let (st, body, s) := eff s
              let r := s.respOf h cmd st body
              (s.setSession { x with high := h.reqId.toNat, answered := (r :: x.answered).take 64, last := now }).emit (.dfp r)

/-- Roles that stand for a list in the present lifecycle state: in Returned `NIRUA_SERVICE` takes the place of `OWNER`
(R473). -/
def State.rolesNow (s : State) (roles : List KeyRole) : List KeyRole :=
  if s.mram.lifecycle = lcReturned ∧ roles.contains .owner then .niruaService :: roles else roles

/-- Whether a signed request's authenticator verifies with a key that its command accepts. While S0 step 2 or 3 has failed
no key slot is valid; after step 3 a key whose chain the payload carries is accepted for some commands (R544). -/
def State.authorised (s : State) (h : DfpHdr) (roles : List KeyRole) (chain : Bool) : Bool :=
  decide (h.auth = 2) && h.authOk &&
    (if s.crook.s0Fail = 2 then false
     else if s.crook.s0Fail = 3 then chain && (h.chainRole = some .niruaMfg || h.chainRole = some .niruaService)
     else (s.keyRole h.slot).any fun r => (s.rolesNow roles).contains r)

/-- Whether a nonce is one that was issued and has neither been used nor expired, and the device number matches. -/
def State.nonceOk (s : State) (nonce : BitVec 128) (device : BitVec 14) : Bool :=
  s.crook.nonces.any (fun e => e.1 = nonce && s.log.time < e.2 + 60000000000) && device.toNat = s.device

/-- A nonce is used. -/
def State.useNonce (s : State) (nonce : BitVec 128) : State :=
  s.setCrook { s.crook with nonces := s.crook.nonces.filter (·.1 ≠ nonce) }

/-- A refused signed command shows in `SEC_REFUSAL` (Table 16.14). -/
def State.refusedCmd (s : State) (cmd st : Nat) : State :=
  if st = dsOk then s else (s.wr Fd.secRefusalCmd cmd).wr Fd.secRefusalStatus st

/-- A signed command: its key, then its nonce, then its effect. -/
def State.dfpSigned (s : State) (h : DfpHdr) (cmd : Nat) (roles : List KeyRole) (chain : Bool) (eff : State → Answer) : State :=
  if !s.managed then s
  else match s.dfpStops cmd true with
    | some st => s.respond h cmd st []
    | none =>
      if !s.authorised h roles chain then (s.refusedCmd cmd dsBadAuth).respond h cmd dsBadAuth []
      else if !s.nonceOk h.nonce h.device then (s.refusedCmd cmd dsBadNonce).respond h cmd dsBadNonce []
      else
        let (st, body, s) := eff (s.useNonce h.nonce)
        (s.refusedCmd cmd st).respond h cmd st body

/-- A non-volatile commit for a command: `HOLDUP_LOW`, or its effect (R457, R515). -/
def State.nvCommit (s : State) (mj kind : Nat) (eff : State → State) : Answer :=
  match s.mayCommit mj kind with
  | (true, s) => (dsOk, [], eff s)
  | (false, s) => (dsHoldupLow, [], s)

/-! ### Open commands -/

/-- IDENTIFY: order code, device number, die revision, lifecycle state, and the device public key while Crook holds S
(R470). -/
def execDfpIdentify (h : DfpHdr) (s : State) : Host.Outcome State Fault Refusal :=
  .next (s.dfpOpen h dcIdentify fun s =>
    (dsOk, [goodOf s.record?.order, gibOf s.record?.order, letterOf s.record?.population, s.device, Config.dieRev.code, s.mram.lifecycle,
            if s.crook.puf then Config.deviceKey else 0], s))

/-- STATUS: `READY`, start stage, the reason of Fallow mode, and the power state. -/
def execDfpStatus (h : DfpHdr) (s : State) : Host.Outcome State Fault Refusal :=
  .next (s.dfpOpen h dcStatus fun s =>
    (dsOk, [s.rd Fd.modStatusReady, s.rd Fd.modStatusStage, b2n s.fallow, s.rd Fd.startFailStage, s.rd Fd.startFailStep,
            s.rd Fd.startFailCode, s.rd Fd.pwrStatusState], s))

/-- Whether a key may open a session (R455, R473, R544). -/
def State.mayOpen (s : State) (slot : Nat) (sigOk : Bool) (chain : Option KeyRole) : Bool :=
  sigOk &&
    (if s.crook.s0Fail = 2 then false
     else if s.crook.s0Fail = 3 then chain = some .niruaMfg || chain = some .niruaService
     else (s.keyRole slot).any fun r => [KeyRole.operator, .niruaMfg, .niruaService].contains r)

/-- SESSION_OPEN: a session with a key of the record; its number and the module's ephemeral key are answered. -/
def execDfpSessionOpen (h : DfpHdr) (slot : Fin 16) (sigOk : Bool) (chain : Option KeyRole) (s : State) :
    Host.Outcome State Fault Refusal :=
  .next (s.dfpOpen h dcSessionOpen fun s =>
    if !s.mayOpen slot sigOk chain then (dsBadAuth, [], s)
    else if 8 ≤ s.crook.sessions.length then (dsBusy, [], s)
    else
      let n := s.crook.nextSess
      let x : Session := { id := n, high := 0, answered := [], last := s.log.time }
      let key := s.freeWord.toNat
      (dsOk, [n, key], s.taken.setCrook { s.crook with sessions := s.crook.sessions ++ [x], nextSess := (n + 1) % 2 ^ 32 }))

/-! ### Session commands -/

/-- A session closes, and its subscription with it. -/
def State.endSession (s : State) (id : Nat) : State :=
  s.setCrook { s.crook with sessions := s.crook.sessions.filter (·.id ≠ id), subs := s.crook.subs.filter (·.2 ≠ id) }

/-- SESSION_CLOSE. -/
def execDfpSessionClose (h : DfpHdr) (s : State) : Host.Outcome State Fault Refusal :=
  .next (s.dfpSession h dcSessionClose true fun s => (dsOk, [], s.endSession h.session.toNat))

/-- SESSION_TIMEOUT: 300 s passed without a valid request. -/
def execSessionTimeout (session : BitVec 32) (s : State) : Host.Outcome State Fault Refusal :=
  if s.crook.sessions.any fun x => x.id = session.toNat && decide (x.last + 300000000000 ≤ s.log.time) then
    .next (s.endSession session.toNat)
  else .next s

/-- A nonce of two fresh values. -/
def State.newNonce (s : State) : BitVec 128 × State :=
  let n : BitVec 128 := (Config.freeValue s.free).setWidth 128 ||| ((Config.freeValue (s.free + 1)).setWidth 128 <<< 64)
  (n, s.taken.taken.setCrook { s.crook with nonces := s.crook.nonces ++ [(n, s.log.time)] })

/-- GET_NONCE. -/
def execDfpGetNonce (h : DfpHdr) (s : State) : Host.Outcome State Fault Refusal :=
  .next (s.dfpSession h dcGetNonce true fun s =>
    let (n, s) := s.newNonce
    (dsOk, [n.toNat], s))

/-- NONCE_EXPIRY: a nonce ends 60 s after it was issued. -/
def execNonceExpiry (nonce : BitVec 128) (s : State) : Host.Outcome State Fault Refusal :=
  .next (s.setCrook { s.crook with
    nonces := s.crook.nonces.filter fun e => !(e.1 = nonce && decide (e.2 + 60000000000 ≤ s.log.time)) })

/-- REG_READ: up to 128 registers; each answers its access status and value. -/
def execDfpRegRead (h : DfpHdr) (addrs : List (BitVec 64)) (s : State) : Host.Outcome State Fault Refusal :=
  .next (s.dfpSession h dcRegRead false fun s =>
    if 128 < addrs.length then (dsBadRequest, [], s)
    else
      let (rs, s) := addrs.foldl (fun (acc : List (Nat × Word) × State) a => (acc.1 ++ [acc.2.readReg a.toNat 64], acc.2.taken)) ([], s)
      (if rs.any (·.1 = stNotPermitted) then dsNotPermitted else dsOk, rs.flatMap fun r => [r.1, r.2.toNat], s))

/-- Whether a write is a commit that only a signed command may make (R456, R591). -/
def signedCommit (a : Nat) (v : Word) : Bool :=
  match gateAt a with
  | some (b, i) => b.signed && a = b.base + 0x1000 * i + 0x10 && bit v 63 && !bit v 62
  | none => false

/-- REG_WRITE: up to 128 writes in order, as management firmware performs them; each answers its access status. -/
def execDfpRegWrite (h : DfpHdr) (pairs : List (BitVec 64 × BitVec 64)) (s : State) : Host.Outcome State Fault Refusal :=
  .next (s.dfpSession h dcRegWrite false fun s =>
    if 128 < pairs.length then (dsBadRequest, [], s)
    else
      let (rs, s) := pairs.foldl (fun (acc : List Nat × State) (p : BitVec 64 × BitVec 64) =>
        let (st, t) := acc.2.writeReg .dfp p.1.toNat 64 p.2
        (acc.1 ++ [if signedCommit p.1.toNat p.2 then stNotPermitted else st], t)) ([], s)
      (if rs.any (· = stNotPermitted) then dsNotPermitted else dsOk, rs, s))

/-- Records that a response holds at most: 1,232 bytes less header, session tag and the two end sequence numbers. -/
def logReadMax : Nat := 35

/-- LOG_READ: records from a sequence number, with the end sequence before and after; one not held reads zero (R575). -/
def execDfpLogRead (h : DfpHdr) (start : BitVec 32) (count : Nat) (s : State) : Host.Outcome State Fault Refusal :=
  .next (s.dfpSession h dcLogRead true fun s =>
    let bs := (List.range (min count logReadMax)).flatMap fun i =>
      match s.heldRec (start.toNat + i) with
      | some r => r.bytes
      | none => zeros 32
    (dsOk, s.rd Fd.logEnd :: bs.map (·.toNat) ++ [s.rd Fd.logEnd], s))

/-- EVENT_SUBSCRIBE: one datagram for each new record, to at most 4 subscribers. -/
def execDfpEventSubscribe (h : DfpHdr) (s : State) : Host.Outcome State Fault Refusal :=
  .next (s.dfpSession h dcEventSubscribe false fun s =>
    let me : Nat × Nat := (h.port, h.session.toNat)
    if s.crook.subs.contains me then (dsOk, [], s)
    else if 4 ≤ s.crook.subs.length then (dsBusy, [], s)
    else (dsOk, [], s.setCrook { s.crook with subs := s.crook.subs ++ [me] }))

/-- MBOX_POST: a post by platform firmware to a system mailbox of 52 to 63 (Table 15.4, R461, R462). -/
def execDfpMboxPost (h : DfpHdr) (m : Fin 64) (regs : List (BitVec 64)) (s : State) : Host.Outcome State Fault Refusal :=
  .next (s.dfpSession h dcMboxPost false fun s =>
    let n := regs.length
    if m.val < 52 then (dsNotPermitted, [], s)
    else if n < 8 ∨ 16 < n then (dsRefused, [mrBadLen], s.wr (mfResult m) mrBadLen)
    else
      let sender := senderDfp h.session.toNat
      match mboxSite m with
      | some k => (dsOk, [], (s.setMboxRegs m regs).mboxOut m k regs sender)
      | none => (dsOk, [], s.postIn m regs sender none))

/-- Image types (Table 16.5). -/
def imageCode : ImageKind → Nat
  | .crookRuntime => imCrook
  | .management => imMgmt
  | .walker => imWalker

/-- IMAGE_WRITE: the non-active slot holds the image that results (R477). -/
def execDfpImageWrite (h : DfpHdr) (kind : ImageKind) (img : Image) (s : State) : Host.Outcome State Fault Refusal :=
  .next (s.dfpSession h dcImageWrite false fun s =>
    let k := imageCode kind
    let f := s.flash
    (dsOk, [], s.setFlash { f with images := Tab.put Config.factoryImage f.images (2 * k + (1 - s.activeSlot k)) img }))

/-- The fields of the attestation report (Table 16.7) but its signature. -/
def State.attestation (s : State) (nonce : Nat) : List Nat :=
  let body (k : Nat) : Nat := match s.crook.running.find? fun e => e.1 = k with
    | some e => Config.bodyHash e.2
    | none => 0
  [1, s.mram.lifecycle, s.rd Fd.secStatusLevel, s.rd Fd.pwrStatusState, s.device, Config.dieRev.code,
   s.rd Fd.secStatusArbRebuilt, s.rd Fd.tallyStatusBelowGrade, b2n s.fallow, b2n s.mram.zeroPending, s.mram.epoch, s.log.cycles,
   nonce, Config.recordHash s.record?, body imCrook, body imMgmt, body imWalker] ++
  (List.range 16).map s.counter ++ [s.bellCount.toNat, s.seconds] ++
  ((List.range 4).map fun k => s.rd (Fd.siteStatusSiteRev k)) ++ ((List.range 4).map fun k => s.rd (Fd.siteCapsEnabled k)) ++
  [(s.reg Fd.tallyStatusGrade.addr).toNat, Config.deviceKey]

/-- ATTEST: the report, signed with the device key (R482). -/
def execDfpAttest (h : DfpHdr) (nonce : BitVec 256) (s : State) : Host.Outcome State Fault Refusal :=
  .next (s.dfpSession h dcAttest true fun s =>
    let sig := s.freeWord.toNat
    (dsOk, s.attestation nonce.toNat ++ [sig], s.taken))

/-! ### Signed configuration and record commands -/

/-- CONFIG_COMMIT: every pair must name an ST register of the block, or nothing is written; Crook stages them, sets the
target and commits (R590). -/
def execDfpConfigCommit (h : DfpHdr) (base : BitVec 64) (pairs : List (BitVec 64 × BitVec 64)) (mode : Bool)
    (target : BitVec 64) (s : State) : Host.Outcome State Fault Refusal :=
  .next (s.dfpSigned h dcConfigCommit [.owner] false fun s =>
    match gateAt base.toNat with
    | none => (dsBadRequest, [], s)
    | some (b, i) =>
      let at_ (p : BitVec 64 × BitVec 64) : Nat := base.toNat + p.1.toNat
      if base.toNat ≠ b.base + 0x1000 * i || 64 < pairs.length || pairs.any (fun p => 0x1000 ≤ p.1.toNat || stMask (at_ p) = 0) then
        (dsBadRequest, [], s)
      else if !s.reaches base.toNat then (dsRefused, [stAsleep], s)
      else
        let armed := decide (s.rd (Fd.gateState base.toNat) = 1)
        let s := pairs.foldl (fun t p => t.writeStaged .crook base.toNat (at_ p) p.2) s
        let s := if armed then s else s.setReg (Fd.gateBell base.toNat).addr target
        let s := s.gateCtl .crook b i (BitVec.ofNat 64 (2 ^ 63 + 2 ^ 61 * b2n mode)) true false
        let st := s.rd (Fd.gateState base.toNat)
        (if armed || st = 3 then dsRefused else dsOk, [st, s.rd (Fd.gateReason base.toNat)], s))

/-- The record with a section replaced (Table 20.2). -/
def sectionInto (x : RecordSection) (old : ModuleRecord) : ModuleRecord :=
  let c := x.content
  let low (ks : List (Nat × KeySlot)) : List (Nat × KeySlot) := ks.filter fun e => decide (e.1 < 8)
  let high (ks : List (Nat × KeySlot)) : List (Nat × KeySlot) := ks.filter fun e => decide (8 ≤ e.1)
  if x.code = 1 then
    { old with
      niruaVersion := x.version, order := c.order, population := c.population
      keys := low c.keys ++ high old.keys, badDrovers := c.badDrovers, badRows := c.badRows, retired := c.retired
      spares := c.spares, siteSpares := c.siteSpares, siteRails := c.siteRails, mapTime := c.mapTime, floors := c.floors, macs := c.macs }
  else if x.code = 2 then
    { old with
      ownerVersion := x.version, keys := low old.keys ++ high c.keys, siteLimits := c.siteLimits, ownerRegs := c.ownerRegs
      memTest := c.memTest, forceBridged := c.forceBridged, stripe := c.stripe, addrs := c.addrs, fec := c.fec }
  else { old with enrolled := c.enrolled, certified := c.certified }

/-- Roles that may write a section (Table 16.3). -/
def sectionRoles (code : Byte) : List KeyRole := if code = 2 then [.owner] else [.niruaMfg]

/-- RECORD_WRITE: the section's signature, what the lifecycle and the counter allow, then the write over the copy not in
use (R480, R583 to R585, R588). -/
def execDfpRecordWrite (h : DfpHdr) (adv : Bool) (sec : RecordSection) (mj : Nat) (s : State) :
    Host.Outcome State Fault Refusal :=
  .next (s.dfpSigned h dcRecordWrite (sectionRoles sec.code) true fun s =>
    let old := s.flash.inUse
    let new := sectionInto sec old
    let c := s.counter 0
    let lc := s.mram.lifecycle
    if sec.code = 0 ∨ 3 < sec.code.toNat then (dsBadRequest, [], s)
    else if sec.code ≠ 3 && !sec.sigOk then (dsBadAuth, [], s)
    else if sec.code = 3 ∧ lc ≠ lcBlank ∧ lc ≠ lcReturned then (dsNotPermitted, [], s)
    else if goodOf new.order ≠ goodOf old.order ∧ lc ≠ lcBlank then (dsRefused, [], s)
    else if adv && (new.niruaVersion.toNat < c / 256 || new.ownerVersion.toNat < c % 256) then (dsRefused, [], s)
    else s.nvCommit mj nvRecord fun s =>
      let s := s.setFlash (s.flash.putRecord new)
      if adv then s.setCounter 0 (ModuleRecord.version new) else s)

/-- IMAGE_COMMIT (R477, R478): what it names, then what `ADVANCE` says. -/
def execDfpImageCommit (h : DfpHdr) (kind : ImageKind) (adv : Bool) (hash : BitVec 384) (mj : Nat) (s : State) :
    Host.Outcome State Fault Refusal :=
  .next (s.dfpSigned h dcImageCommit [.owner] false fun s =>
    let k := imageCode kind
    let a := s.activeSlot k
    let staged := s.image k (1 - a)
    let running := (s.crook.running.find? fun e => e.1 = k).map (·.2)
    let no (c : Nat) : Answer := (dsRefused, [(Config.checkCode c).toNat], s)
    if staged.header = hash then
      if adv then no 4
      else if s.imageFault staged ≠ 0 then no (s.imageFault staged)
      else s.nvCommit mj nvSelector fun s => s.setFlash { s.flash with active := Nats.set s.flash.active k (decide (a = 0)) }
    else match running with
      | none => no 5
      | some r =>
        if r.header ≠ hash then no 5
        else if !adv then (dsOk, [], s)
        else if r.svn.toNat < s.counter r.counterSlot.toNat then (dsRefused, [], s)
        else s.nvCommit mj nvCounter fun s => s.setCounter r.counterSlot.toNat r.svn.toNat)

/-- Whether Fallow mode was entered for low hold-up (R542, R545). -/
def State.fallowLow (s : State) : Bool :=
  s.fallow && s.rd Fd.startFailStage = 0 && s.rd Fd.startFailStep = 4 && s.rd Fd.startFailCode = 8

/-- COUNTER_CLEAR: the boot-attempt counter is written as 0 (R545). -/
def execDfpCounterClear (h : DfpHdr) (mj : Nat) (s : State) : Host.Outcome State Fault Refusal :=
  .next (s.dfpSigned h dcCounterClear [.owner, .niruaService] true fun s =>
    if s.fallowLow then (dsHoldupLow, [], s)
    else s.nvCommit mj nvCounter fun s => s.setMram { s.mram with attempts := 0 })

/-- FALLOW_EXIT: the counter is written as 0 and a start begins from S0 step 1 (R545). -/
def execDfpFallowExit (h : DfpHdr) (mj : Nat) (s : State) : Host.Outcome State Fault Refusal :=
  .next (s.dfpSigned h dcFallowExit [.owner, .niruaService] true fun s =>
    if !s.fallow then (dsRefused, [], s)
    else if s.fallowLow then (dsHoldupLow, [], s)
    else s.nvCommit mj nvCounter fun s => (s.setMram { s.mram with attempts := 0 }).beginStart 4)

/-! ### Lifecycle (R483 to R486) -/

/-- The roles that may sign a transition (Table 16.6); none for one that does not exist. -/
def lifecycleRoles (a b : Nat) : List KeyRole :=
  if a = lcBlank ∧ b = lcSealed then [.niruaMfg]
  else if a = lcSealed ∧ (b = lcInspect ∨ b = lcReturned) then [.owner]
  else if a = lcInspect ∧ b = lcSealed then [.owner]
  else if a = lcInspect ∧ b = lcReturned then [.owner, .niruaService]
  else if a = lcReturned ∧ b = lcInspect then [.niruaService]
  else if a = lcReturned ∧ b = lcBlank then [.niruaMfg]
  else []

/-- Erase the owner, operator and debug slots of a record. -/
def bareRecord (r : ModuleRecord) : ModuleRecord :=
  { r with keys := r.keys.filter fun e => e.2.role ≠ .owner && e.2.role ≠ .operator && e.2.role ≠ .debug }

/-- Steps 1 to 5 of Table 16.8: the new state; sessions, nonces and the token end; every Paddock is reset with zeroising;
management memory is zeroed and the management complex restarts. ZEROISE_COMPLETE runs the rest. -/
def State.transitTo (s : State) (b : Nat) : State :=
  let a := s.mram.lifecycle
  let s := (s.setMram { s.mram with
    lifecycle := b, lcOld := a, lcSeq := (s.mram.lcSeq + 1) % 2 ^ 32, zeroPending := true, epoch := s.mram.epoch + 1 }).showMram
  let s := if a = lcReturned ∧ b = lcBlank then
      { s.setFlash (s.flash.putRecord (bareRecord s.flash.inUse)) with loaded := s.loaded.map bareRecord }
    else s
  let s := s.closeSessions.closeLevel
  let s := s.setCrook { s.crook with nonces := [], zeroing := true, lcFrom := some a, raise := none }
  let s := eachUpTo 4 (fun s k => s.resetPaddock k true) s
  ({ s with mem := Tab.keep (fun k => !isMgmtMem k) s.mem }).mgmtRestart 4

/-- LIFECYCLE: a transition of Table 16.6 from the present state, as a non-volatile commit (R484, R485). -/
def execDfpLifecycle (h : DfpHdr) (present target : BitVec 8) (mj : Nat) (s : State) : Host.Outcome State Fault Refusal :=
  let a := present.toNat
  let b := target.toNat
  let roles := lifecycleRoles a b
  .next (s.dfpSigned h dcLifecycle (if roles = [] then [.owner, .niruaMfg, .niruaService] else roles) false fun s =>
    let owned := (List.range 16).any fun n => s.keyRole n = some .owner
    if roles = [] ∨ a ≠ s.mram.lifecycle then (dsNotPermitted, [], s)
    else if a = lcBlank && !(s.record?.certified && owned) then (dsNotPermitted, [], s)
    else s.nvCommit mj nvLifecycle fun s => s.transitTo b)

/-- ZEROISE_COMPLETE: steps 6 and 7 of Table 16.8: the stacks are zero, `ZERO_PENDING` is cleared, the transition recorded
and the Paddocks released; stacks of a module in P2 or P3 stay in self-refresh. -/
def execZeroiseComplete (s : State) : Host.Outcome State Fault Refusal :=
  if s.down.isSome || !s.crook.zeroing then .next s
  else
    let s := eachUpTo 4 State.openPaddock s.zeroised
    let s := if psP2 ≤ s.pwr then eachUpTo 8 State.stackSleeps s else s
    .next s.heldAgain

/-! ### Restarts (R450, R546) -/

/-- RESTART of the management complex. -/
def execDfpRestartManagement (h : DfpHdr) (s : State) : Host.Outcome State Fault Refusal :=
  .next (s.dfpSigned h dcRestart [.owner, .niruaService] false fun s => (dsOk, [], s.mgmtRestart 1))

/-- What a reset that DFP asked for answers. -/
def State.resetAnswer (s : State) : Answer :=
  let r := s.rd Fd.resetCmdResult
  if r = 0 then (dsOk, [], s) else if r = 1 then (dsBusy, [], s) else (dsRefused, [r], s)

/-- RESTART of a Paddock. -/
def execDfpRestartPaddock (h : DfpHdr) (k : Fin 4) (s : State) : Host.Outcome State Fault Refusal :=
  .next (s.dfpSigned h dcRestart [.owner, .niruaService] false fun s => (s.resetGo rlPaddock k false false).resetAnswer)

/-- RESTART of the module. -/
def execDfpRestartModule (h : DfpHdr) (s : State) : Host.Outcome State Fault Refusal :=
  .next (s.dfpSigned h dcRestart [.owner, .niruaService] false fun s => (s.resetGo rlModule 0 false false).resetAnswer)

/-! ### Debug tokens (R490 to R493) -/

/-- Whether a lifecycle state can reach a debug level by a token (Table 16.11). -/
def levelReached (lc level : Nat) : Bool := lc ≠ lcBlank && (level < lvFull || lc = lcInspect)

/-- What Crook answers to a token, in the order of R491, and the nonce it uses up. -/
def State.tokenStatus (s : State) (t : DebugTok) : Nat :=
  let roles : List KeyRole := if s.mram.lifecycle = lcReturned then [.niruaService] else [.debug, .niruaService]
  let good := t.sigOk && s.crook.s0Fail = 0 && (s.keyRole t.slot).any fun r => roles.contains r
  let life := t.lifetime.toNat
  if 2 < t.level.toNat ∨ 64 ≤ t.scope.toNat ∨ life = 0 ∨ 86400 < life then dsBadRequest
  else if s.crook.zeroing then dsNotPermitted
  else if !good then dsBadAuth
  else if !s.nonceOk t.nonce t.device then dsBadNonce
  else if !t.deviceKeyOk || t.lifecycle.toNat ≠ s.mram.lifecycle || !levelReached s.mram.lifecycle t.level.toNat then
    dsNotPermitted
  else dsOk

/-- A token is judged: accepted, it replaces any earlier one; refused, it is recorded. -/
def State.takeToken (s : State) (t : DebugTok) : Nat × State :=
  let st := s.tokenStatus t
  let s := if st = dsOk ∨ st = dsNotPermitted then s.useNonce t.nonce else s
  if st ≠ dsOk then (st, s.record srcCrook 0x0806 uwCrook st 0)
  else if t.level = 0 then (st, s.closeLevel)
  else (st, s.setLevel t.level.toNat t.scope.toNat t.slot (some (s.log.time + 1000000000 * t.lifetime.toNat)))

/-- DEBUG_TOKEN: a token under the signature of the same key. -/
def execDfpDebugToken (h : DfpHdr) (t : DebugTok) (s : State) : Host.Outcome State Fault Refusal :=
  if !s.managed then .next s
  else match s.dfpStops dcDebugToken true with
    | some st => .next (s.respond h dcDebugToken st [])
    | none =>
      let t' := { t with sigOk := t.sigOk && decide (h.auth = 2) && h.authOk && decide (h.slot = t.slot) }
      let (st, s) := s.takeToken t'
      .next ((s.refusedCmd dcDebugToken st).respond h dcDebugToken st [])

/-- TOKEN_EXPIRY: the token's lifetime, in operating time, has ended (R493). -/
def execTokenExpiry (s : State) : Host.Outcome State Fault Refusal :=
  match s.crook.tokenEnd with
  | some t => if t ≤ s.log.time then .next s.closeLevel else .next s
  | none => .next s

end Sys2Proof.Machine
end

