-- ==== Sys2Proof/Machine/Debug.lean ====
section
/-! DEFINITION. Machine/Debug.lean: the 1149.1 port, debug accesses and the trace buffer (R488 to R499, R612). -/
namespace Sys2Proof.Machine

/-! ### Port instructions (Table 16.12) -/

def tiExtest : Nat := 0x00
def tiSamplePreload : Nat := 0x01
def tiIdcode : Nat := 0x02
def tiNonce : Nat := 0x10
def tiToken : Nat := 0x11
def tiLevel : Nat := 0x12
def tiAccess : Nat := 0x13
def tiTrace : Nat := 0x14
def tiDtm : Nat := 0x15
def tiBypass : Nat := 0xFF

/-- Select a port instruction. -/
def State.tapSelects (s : State) (code : Nat) : State := s.setCrook { s.crook with tap := code }

/-- A port instruction: granted, it is selected and has its effect; otherwise the bypass register is selected and the
attempt recorded. While a transition zeroises every debug request is refused (R485). An unpowered port does nothing. -/
def State.tapDoes (s : State) (code : Nat) (granted : Bool) (eff : State → State) : State :=
  if s.down.isSome then s
  else if granted && (!s.crook.zeroing || code = tiIdcode || code = tiBypass) then eff (s.tapSelects code)
  else (s.tapSelects tiBypass).record srcCrook 0x0806 uwCrook code 0

/-- The debug level. -/
def State.level (s : State) : Nat := s.rd Fd.secStatusLevel

/-- Whether the lifecycle state uses tokens. -/
def State.tokens (s : State) : Bool := s.mram.lifecycle ≠ lcBlank

/-- IDCODE reads the identification register. -/
def execTapIdcode (s : State) : Host.Outcome State Fault Refusal :=
  .next (s.tapDoes tiIdcode true fun s => s.emit (.tdo tiIdcode [Config.dieRev.idcode]))

/-- BYPASS. -/
def execTapBypass (s : State) : Host.Outcome State Fault Refusal :=
  .next (s.tapDoes tiBypass true fun s => s.emit (.tdo tiBypass [0]))

/-- EXTEST: boundary scan at Full (notes/assumptions/6.md). -/
def execTapExtest (s : State) : Host.Outcome State Fault Refusal :=
  .next (s.tapDoes tiExtest (decide (s.level = lvFull)) fun s =>
    s.taken.emit (.tdo tiExtest [(Config.boundaryScan s.free).toNat]))

/-- SAMPLE/PRELOAD: boundary scan at Full. -/
def execTapSamplePreload (s : State) : Host.Outcome State Fault Refusal :=
  .next (s.tapDoes tiSamplePreload (decide (s.level = lvFull)) fun s =>
    s.taken.emit (.tdo tiSamplePreload [(Config.boundaryScan s.free).toNat]))

/-- DBG_NONCE reads a nonce (R490). -/
def execTapDbgNonce (s : State) : Host.Outcome State Fault Refusal :=
  .next (s.tapDoes tiNonce s.tokens fun s =>
    let (n, s) := s.newNonce
    s.emit (.tdo tiNonce [n.toNat]))

/-- DBG_TOKEN: capture gives the status of the last token; the token shifted in is judged (R491). -/
def execTapDbgToken (t : DebugTok) (s : State) : Host.Outcome State Fault Refusal :=
  .next (s.tapDoes tiToken s.tokens fun s =>
    let (st, u) := (s.emit (.tdo tiToken [s.crook.portTok])).takeToken t
    u.setCrook { u.crook with portTok := st })

/-- DBG_LEVEL: in Blank, any level with full scope (R492). -/
def execTapDbgLevel (level : BitVec 2) (s : State) : Host.Outcome State Fault Refusal :=
  .next (s.tapDoes tiLevel (!s.tokens && level ≠ 3) fun s =>
    if level = 0 then s.closeLevel else s.setLevel level.toNat 0x3F 0 none)

/-- DTM: the RISC-V debug transport module at Full, with the management complex in scope (R489). -/
def execTapDtm (s : State) : Host.Outcome State Fault Refusal :=
  .next (s.tapDoes tiDtm (decide (s.level = lvFull) && s.observes 5) fun s => s.emit (.tdo tiDtm []))

/-- TEST_LOGIC_RESET: `TRST_N` low resets the test logic: `IDCODE` is selected and the access register clear; the debug
level stays (R612). -/
def execTestLogicReset (s : State) : Host.Outcome State Fault Refusal :=
  if s.down.isSome then .next s else .next (s.setCrook { s.crook with tap := tiIdcode, access := (0, 0) })

/-! ### Debug accesses (R495, R498, R499) -/

/-- The scope bits an address needs. -/
def State.scopesOf (s : State) (a : Nat) : List Nat :=
  if isStack a then [a / 2 ^ 37]
  else if isScratch a then [bankPen (bankOf a) / 4]
  else if isMgmtMem a then [5]
  else match findBlk a with
    | none => []
    | some (b, i) =>
      if b.base = doorbellBlk.base then
        match s.physical? (8 * i + (a - b.base) % 0x1000 / 0x200) with
        | some d => [paddockOf d]
        | none => []
      else match b.kind with
        | 0x0004 => if i = 3 then [5] else if i = 2 then [4] else [2 * i, 2 * i + 1]
        | 0x0020 => [2 * i, 2 * i + 1]
        | 0x0021 => [i / 2]
        | 0x0030 => [i / 4]
        | 0x0031 => [i / 4]
        | 0x0032 => [i / 4]
        | 0x0041 => [i / 4]
        | 0x0033 => [i]
        | 0x0034 => [i]
        | _ => if 0x30000100000 ≤ a then [4] else [5]

/-- The Paddock an address belongs to, if one: a stack, the scratchpad of its Pens, or a register block. -/
def State.paddockAt (s : State) (a : Nat) : Option Nat :=
  match s.scopesOf a with
  | [k] => if k < 4 then some k else none
  | _ => none

/-- Whether the Fold holds the sector of a stack address. -/
def State.inFold (s : State) (a : Nat) : Bool :=
  match s.line (a / 128) with
  | some x => x.ways ≠ [] || x.valid.getLsbD (a % 128 / 32)
  | none => false

/-- Whether the power state keeps a debug request from an address (Table 16.11): P3 serves the auxiliary domain alone; P2
neither Drovers, sites and DRAM counters nor DRAM. -/
def State.dbgAsleep (s : State) (a : Nat) : Bool :=
  if isMgmtMem a then false
  else if s.dark then isLocalMem a || outsideAux a
  else if s.pwr = psP2 then
    (isStack a && !s.inFold a) ||
      (match findBlk a with
       | some (b, _) => [0x0030, 0x0041, 0x0034, 0x0021].contains b.kind || b.base = doorbellBlk.base
       | none => false)
  else false

/-- Whether an address lies in a held accumulator line. -/
def State.inAccLine (s : State) (a : Nat) : Bool := (s.line (a / 128)).any fun x => x.ways ≠ []

/-- The status of a debug access to memory. -/
def State.dbgMem (s : State) (a : Nat) (wr : Bool) : Nat :=
  if isStack a then
    if s.stripeOn a then stUnmapped
    else if s.fab.faulty.contains (bankPen (bankOf a)) then stPoison
    else if !s.inFold a && s.rd (Fd.dramStackStatusState (a / 2 ^ 36)) ≠ dsInService then stAsleep
    else if wr && s.inAccLine a then stAccRegion
    else stOk
  else if isScratch a then
    let p := bankPen (bankOf a)
    if s.fab.faulty.contains p then stPoison
    else if s.rd (Fd.foldWaystatScratchActive p) ≤ slotOf a then stUnmapped
    else if (s.rd (Fd.foldWaystatOffActive p)).testBit (15 - slotOf a) then stAsleep
    else stOk
  else if isMgmtMem a then stOk
  else stUnmapped

/-- A debug request is done: its outcome is in the access register. -/
def State.dbgDone (s : State) (a st : Nat) (v : Word) : State :=
  (s.setCrook { s.crook with access := (st, v) }).emit (.access .debug a st v)

/-- Perform a request that its level, its scope and the power state allow. -/
def State.dbgServe (s : State) (q : DbgReq) : State :=
  match q with
  | .read a =>
    if isRegSpace a then
      let (st, v) := s.readReg a 64
      s.taken.dbgDone a st v
    else
      let st := s.dbgMem a false
      if st ≠ stOk then s.dbgDone a st 0
      else if isMgmtMem a then s.dbgDone a stOk (BitVec.ofNat 64 (ofBytes (s.mgmtRead a 8)))
      else
        let bad := s.anyBad a 8
        let v := BitVec.ofNat 64 (ofBytes (s.readBytes a 8))
        (if s.pwr = psP2 then s else s.touch a 8 false false).dbgDone a (if bad then stPoison else stOk) (if bad then 0 else v)
  | .write a v =>
    if isRegSpace a then
      let (st, t) := s.writeReg .debug a 64 v
      t.dbgDone a st 0
    else
      let st := s.dbgMem a true
      if st ≠ stOk then s.dbgDone a st 0 else (s.writeBytes a (toBytes 8 v.toNat) false false).dbgDone a stOk 0

/-- `DBG_ACCESS`: alignment, level, scope, a Paddock under reset, the power state, then the access. In Inspect at Full a
request to a domain that is powered down waits for the module to be raised. -/
def State.dbgAccess (s : State) (q : DbgReq) : State :=
  let a := match q with
    | .read a => a
    | .write a _ => a
  let reads := match q with
    | .read _ => true
    | .write _ _ => false
  let observed := reads && ((findBlk a).any fun e => (debugScope e.1 e.2).isSome)
  if s.crook.raise.isSome then s
  else if a % 8 ≠ 0 then s.dbgDone a stRegWidth 0
  else if s.level < lvFull && !observed then s.dbgDone a stNotPermitted 0
  else if isSiteWin a then s.dbgDone a stUnmapped 0
  else if (s.scopesOf a).any fun k => !s.rdBit Fd.secStatusScope k then s.dbgDone a stNotPermitted 0
  else if (s.paddockAt a).any fun k => s.resetPaddocks.contains k then s.dbgDone a stReset 0
  else if s.dbgAsleep a then
    if s.level = lvFull ∧ s.mram.lifecycle = lcInspect then s.setCrook { s.crook with raise := some q }
    else s.dbgDone a stAsleep 0
  else s.dbgServe q

/-- DBG_ACCESS_READ: `DBG_ACCESS` with `OP` 0x1. -/
def execTapAccessRead (addr : BitVec 64) (s : State) : Host.Outcome State Fault Refusal :=
  .next (s.tapDoes tiAccess (decide (lvObserve ≤ s.level)) fun s => s.dbgAccess (.read addr.toNat))

/-- DBG_ACCESS_WRITE: `DBG_ACCESS` with `OP` 0x2. -/
def execTapAccessWrite (addr data : BitVec 64) (s : State) : Host.Outcome State Fault Refusal :=
  .next (s.tapDoes tiAccess (decide (lvObserve ≤ s.level)) fun s => s.dbgAccess (.write addr.toNat data))

/-- DEBUG_RAISE: the raise that a request waits for ends, with the wavelengths that the lasers show, or fails with none. In P1
the request is served, with the sites held in reset and `RAISED` 1; a raise that fails, as in Fallow mode it must, completes it
with `ASLEEP`. From P3 the ports train first, and the raise ends once none trains any longer (R509). -/
def execDebugRaise (found : Option (List (BitVec 4))) (s : State) : Host.Outcome State Fault Refusal :=
  match s.crook.raise with
  | none => .next s
  | some q =>
    let done (s : State) : State := s.setCrook { s.crook with raise := none }
    let fails : State := (done s).dbgDone (match q with
      | .read a => a
      | .write a _ => a) stAsleep 0
    if s.pwr < psP2 then .next ((done s).dbgServe q)
    else match found with
      | none => .next fails
      | some lasers =>
        if s.fallow then .next fails
        else
          let s := if s.dark then s.leaveP3 lasers else s
          if s.waking && s.portsTrain then .next s
          else .next ((((done s).changePower psP1 [] false).wr Fd.secStatusRaised 1).dbgServe q)

/-- BAD_OP: a write with `GO` to a command register, or, with `port`, a `DBG_ACCESS`, that names an `OP` not assigned: the
register's own check refuses it, or the access reads `NOT_PERMITTED` (Table 16.13). -/
def execBadOp (port : Bool) (addr val : BitVec 64) (s : State) : Host.Outcome State Fault Refusal :=
  if port then
    .next (s.tapDoes tiAccess (decide (lvObserve ≤ s.level)) fun s => s.dbgDone addr.toNat stNotPermitted 0)
  else if s.down.isSome then .next s
  else
    let (st, t) := s.writeReg .mgmt addr.toNat 64 (val ||| 0x8000000000000000)
    .next (t.emit (.access .mgmt addr.toNat st 0))

/-! ### Trace (R496) -/

/-- Records the buffer holds. -/
def traceMax : Nat := 2048

/-- The 32 bytes of a trace record, with the Bell count and a phase (Table 16.17). -/
def State.traceBytes (s : State) (r : TraceRec) (phase : Nat) : List Byte :=
  toBytes 8 s.bellCount.toNat ++ [r.kind] ++ toBytes 1 phase ++ [r.logical] ++ toBytes 1 r.strand.toNat ++
    toBytes 4 r.unit.toNat ++ toBytes 6 r.pc.toNat ++ [r.opcode, 0] ++ toBytes 2 r.status.toNat ++ toBytes 6 r.detail.toNat

/-- A record arrives: it takes the next number; a full buffer loses its oldest, or drops and counts the record. -/
def State.traceAdd (s : State) (r : TraceRec) : State :=
  let n := s.rd Fd.traceStatusNext
  let bs := s.traceBytes r (s.freeWord.toNat % 256)
  let full := decide (traceMax ≤ s.trace.length)
  if full && !s.flag Fd.traceCtlWrap then s.sat Fd.traceStatusDropped 1
  else
    let kept := if full then s.trace.drop 1 else s.trace
    { s.taken with trace := kept ++ [(n, bs)] }.inc Fd.traceStatusNext 1

/-- Whether records of a kind are collected now: `EN`, the kind, and for those of a Pen's units the Pen and the token's
scope. Drovers and controllers are off in P2 and send nothing; `TRACE_CTL` lies in the transit domain, so in P3 no tap
sends. -/
def State.traces (s : State) (kind : Nat) (pen : Option Nat) : Bool :=
  s.down.isNone && !s.asleepAt Fd.traceCtlEn.addr && s.flag Fd.traceCtlEn && 1 ≤ kind && kind ≤ 8 &&
    s.rdBit Fd.traceCtlKinds (kind - 1) && (s.pwr < psP2 || kind = 5 || 7 ≤ kind) &&
    (match pen with
     | some p => s.rdBit Fd.traceCtlPens p && s.rdBit Fd.secStatusScope (p / 4)
     | none => 7 ≤ kind)

/-- TRACE_RECORD: a tap of a powered unit sends a record. -/
def execTraceRecord (r : TraceRec) (unitOk : Bool) (s : State) : Host.Outcome State Fault Refusal :=
  if unitOk && s.traces r.kind.toNat (r.pen.map (·.val)) then .next (s.traceAdd r) else .next s

/-- A sample of a counter: its offset in its block and its low 32 bits. -/
def sampleRec (kind unit off : Nat) (w : Word) : TraceRec :=
  { kind := BitVec.ofNat 8 kind, pen := none, logical := 0xFF, strand := 0, unit := BitVec.ofNat 32 unit, pc := 0, opcode := 0
    status := 0, detail := BitVec.ofNat 48 (off + 2 ^ 16 * (w.toNat % 2 ^ 32)) }

/-- Offsets of the counters of a Pen's Fold block and of a stack block (Table 7.9, Table 9.8). -/
def foldCounters : List Nat := [0x30, 0x38, 0x40, 0x48, 0x50, 0x58, 0x60]
def dramCounters : List Nat := [0x68, 0x70, 0x78, 0x80]

/-- TRACE_SAMPLE: every `SAMPLE` Rounds the counters of the enabled Pens, and of the stacks beneath them, are sampled; in
P2 the DRAM counters are not. -/
def execTraceSample (s : State) : Host.Outcome State Fault Refusal :=
  let round := s.bellCount.toNat / 65536
  let every := s.rd Fd.traceCtlSample
  if every = 0 || round < s.crook.sampled + every || s.down.isSome || s.asleepAt Fd.traceCtlEn.addr || !s.flag Fd.traceCtlEn then
    .next s
  else
    let s := s.setCrook { s.crook with sampled := round }
    let s := eachUpTo 16 (fun s p =>
      if s.traces 5 (some p) then
        foldCounters.foldl (fun t off =>
          t.traceAdd (sampleRec 5 (uwFold (32 * p) 1023 63) off (t.reg (penFoldBlk.base + 0x1000 * p + off)))) s
      else s) s
    .next (eachUpTo 8 (fun s k =>
      if s.traces 6 (some (2 * k)) || s.traces 6 (some (2 * k + 1)) then
        dramCounters.foldl (fun t off =>
          t.traceAdd (sampleRec 6 (uwDram k 63 1 63) off (t.reg (stackBlk.base + 0x1000 * k + off)))) s
      else s) s)

/-- TRACE streams the held records, oldest first, at Observe or Full with the transit domain in scope and powered. -/
def execTapTrace (s : State) : Host.Outcome State Fault Refusal :=
  .next (s.tapDoes tiTrace (decide (lvObserve ≤ s.level)) fun s =>
    if !s.observes 4 then s.dbgDone Fd.traceStatusNext.addr stNotPermitted 0
    else if s.asleepAt Fd.traceCtlEn.addr then s.dbgDone Fd.traceStatusNext.addr stAsleep 0
    else s.emit (.tdo tiTrace ((s.trace.flatMap (·.2)).map (·.toNat))))

end Sys2Proof.Machine
end

