-- ==== Sys2Proof/Machine/Iface.lean ====
section
/-! DEFINITION. Machine/Iface.lean: the management ports below DFP (R452, R453, R611) and the levels of the pins that follow
from the state (R609, R610). -/
namespace Sys2Proof.Machine

/-! ### Management ports -/

def State.setPorts (s : State) (p : MgmtPorts) : State := { s with ports := p }

/-- The MAC address of a port, from the Module Record (R451). -/
def State.mac (s : State) (p : Nat) : BitVec 48 := ((s.record?.macs.find? fun e => e.1 = p).map (·.2)).getD 0

/-- The interface identifier of a port: the modified EUI-64 of its MAC address (notes/assumptions/55.md). -/
def State.ifaceId (s : State) (p : Nat) : Nat :=
  let m := (s.mac p).toNat
  (m / 2 ^ 24 * 2 ^ 40 + 0xFFFE * 2 ^ 24 + m % 2 ^ 24) ^^^ (2 ^ 57)

/-- The addresses of a port: link-local, one for each prefix heard, and those of the Module Record (R452). -/
def State.portAddrs (s : State) (p : Nat) : List (BitVec 128) :=
  let of (pref : Nat) : BitVec 128 := BitVec.ofNat 128 (2 ^ 64 * pref + s.ifaceId p)
  of 0xFE80000000000000 :: ((s.ports.prefixes.filter fun e => e.1 = p).map fun e => of e.2.toNat) ++
    (s.record?.addrs.filter fun e => e.1 = p).map (·.2)

/-- ICMPv6 message types that leave the module. -/
def icEchoReply : Nat := 129
def icRouterSolicitation : Nat := 133
def icNeighborSolicitation : Nat := 135
def icNeighborAdvertisement : Nat := 136

/-- ICMPV6_ECHO: an echo request is answered with its identifier and data. -/
def execIcmpv6Echo (port : Fin 2) (ident : BitVec 32) (data : List (BitVec 8)) (s : State) :
    Host.Outcome State Fault Refusal :=
  if s.managed then .next (s.emit (.icmp port icEchoReply 0 ident.toNat data)) else .next s

/-- NEIGHBOR_DISCOVERY: a solicitation of one of the port's addresses is answered; a prefix that a router advertises forms
an address, which the port solicits before it is used (RFC 4861, RFC 4862). -/
def execNeighborDiscovery (port : Fin 2) (n : NdMsg) (s : State) : Host.Outcome State Fault Refusal :=
  let p := port.val
  if !s.managed then .next s
  else match n with
    | .solicitation target =>
      if (s.portAddrs p).contains target then .next (s.emit (.icmp p icNeighborAdvertisement target 0 [])) else .next s
    | .routerAdvertisement pref =>
      if s.ports.prefixes.contains (p, pref) then .next s
      else
        let a := BitVec.ofNat 128 (2 ^ 64 * pref.toNat + s.ifaceId p)
        .next ((s.setPorts { s.ports with prefixes := s.ports.prefixes ++ [(p, pref)] }).emit
          (.icmp p icNeighborSolicitation a 0 []))

/-- DATAGRAM_DISCARD: one to another port, or that breaks the layout or the length, is discarded and counted; one that names
no command of Table 15.2 is answered `BAD_REQUEST`. -/
def execDatagramDiscard (port : Fin 2) (d : BadDatagram) (s : State) : Host.Outcome State Fault Refusal :=
  let p := port.val
  let counted := s.setPorts { s.ports with
    discards := Tab.put (fun _ => 0) s.ports.discards p (Tab.get (fun _ => 0) s.ports.discards p + 1) }
  if !s.managed then .next s
  else match d with
    | .otherPort => .next counted
    | .badLayout => .next counted
    | .tooLong => .next counted
    | .unknownCmd cmd reqId =>
      let st := (s.dfpStops cmd.toNat true).getD dsBadRequest
      .next (s.emit (.dfp { port := p, cmd := cmd.toNat, reqId := reqId.toNat, session := 0, status := st,
                            bell := s.bellCount.toNat, body := [] }))

/-- AUTO_NEGOTIATION: a port's link comes up, and the port solicits routers; or it fails and keeps retrying, which is noted
at most once a minute (R611). -/
def execAutoNegotiation (port : Fin 2) (up : Bool) (s : State) : Host.Outcome State Fault Refusal :=
  let p := port.val
  let x := s.ports
  if !s.managed then .next s
  else if up then
    if x.up.contains p then .next s
    else .next ((s.setPorts { x with up := Nats.ins x.up p }).emit (.icmp p icRouterSolicitation 0 0 []))
  else
    let now := s.log.time
    let noted (e : Nat × Nat) : Bool := decide (e.1 = p ∧ now < e.2 + 60000000000)
    let anFail := if x.anFail.any noted then x.anFail else Tab.ins x.anFail p now
    let prefixes := x.prefixes.filter fun (e : Nat × BitVec 64) => e.1 ≠ p
    .next (s.setPorts { x with up := Nats.del x.up p, prefixes, anFail })

/-! ### Pins (Table 21.3, R610) -/

/-- `MOD_READY`: high while `MOD_STATUS.READY` is 1. -/
def State.modReady (s : State) : Bool := s.down.isNone && s.flag Fd.modStatusReady

/-- `MOD_ALERT_N` is driven low: a notification of severity Fault or Fatal is in service, or the module is in Fallow mode. -/
def State.modAlert (s : State) : Bool :=
  s.down.isNone && (s.fallow || (List.range 4).any fun u => s.flag (Fd.errStatusInService u) && 4 ≤ s.rd (Fd.errStatusSvcSev u))

/-- `MOD_THERM_N` is driven low: a zone reads Trip. -/
def State.modTherm (s : State) : Bool := s.down.isNone && (List.range 14).any fun z => s.rd (Fd.thermZoneState z) = 3

/-- `LS_EN_m` is driven high: the optical step of the start has come, and source m is neither disabled nor faulty. -/
def State.laserEnable (s : State) (m : Nat) : Bool :=
  let st := s.rd (Fd.optLaserState m)
  s.down.isNone && !s.dark && (s.flag Fd.modStatusReady || 4 ≤ s.rd Fd.modStatusStage ||
    (s.rd Fd.modStatusStage = 3 && s.rd Fd.modStatusStep = 4)) && !s.fallow &&
    st ≠ lsFault && st ≠ lsDisabled

end Sys2Proof.Machine
end

