-- ==== Sys2Proof/Machine/KeisMem.lean ====
section
/-! DEFINITION. Machine/KeisMem.lean: the operations of format 0x4 on local memory, and `DLD` and `DST` (R117, R118,
R246, R254 to R268, R332). -/
namespace Sys2Proof.Machine

/-- Issue of an operation of format 0x4 on local memory: it takes a tag, marks its result register busy and begins. -/
def State.memOp (s : State) (w : Issue) (c : OpCode) (o : MemOps) : State :=
  s.issue w (.mem c o) 0 fun s =>
    (s.advance w.drover w.strand 8).beginMem (s.freshOp w.drover w.strand c (memWord c w.pn w.pg o)) o

/-- Issue of a `DLD` or `DST` (R118). -/
def State.descOp (s : State) (w : Issue) (c : OpCode) (o : XferOps) : State :=
  s.issue w (.xfer c o) 0 fun s =>
    (s.advance w.drover w.strand 8).beginDesc (s.freshOp w.drover w.strand c (xferWord c w.pn w.pg o)) o

/-- LD: g[ga] takes the element at g[gp] + imm16, extended (R117). -/
def execKLd (w : Issue) (o : MemOps) (s : State) : Host.Outcome State Fault Refusal := .next (s.memOp w .ld o)

/-- ST: the low bytes of g[gv] are written at g[gp] + imm16 (R117). -/
def execKSt (w : Issue) (o : MemOps) (s : State) : Host.Outcome State Fault Refusal := .next (s.memOp w .st o)

/-- DLD: dn takes 64 bytes of memory at g[gx] (R118). -/
def execKDld (w : Issue) (o : XferOps) (s : State) : Host.Outcome State Fault Refusal := .next (s.descOp w .dld o)

/-- DST: dn is written to 64 bytes of memory at g[gx] (R118). -/
def execKDst (w : Issue) (o : XferOps) (s : State) : Host.Outcome State Fault Refusal := .next (s.descOp w .dst o)

/-- AADD: an element takes the sum with g[gv] at its home bank; g[ga] takes the old value (R254, Table 8.2). -/
def execKAadd (w : Issue) (o : MemOps) (s : State) : Host.Outcome State Fault Refusal := .next (s.memOp w .aadd o)

/-- AMIN: an element takes the minimum with g[gv]; g[ga] takes the old value (R254). -/
def execKAmin (w : Issue) (o : MemOps) (s : State) : Host.Outcome State Fault Refusal := .next (s.memOp w .amin o)

/-- AMAX: an element takes the maximum with g[gv]; g[ga] takes the old value (R254). -/
def execKAmax (w : Issue) (o : MemOps) (s : State) : Host.Outcome State Fault Refusal := .next (s.memOp w .amax o)

/-- AXCH: an element takes g[gv]; g[ga] takes the old value (R254). -/
def execKAxch (w : Issue) (o : MemOps) (s : State) : Host.Outcome State Fault Refusal := .next (s.memOp w .axch o)

/-- ACAS: an element equal to g[gk] takes g[gv]; g[ga] takes the old value (R254). -/
def execKAcas (w : Issue) (o : MemOps) (s : State) : Host.Outcome State Fault Refusal := .next (s.memOp w .acas o)

/-- AACC: g[gv] is accumulated into one element of an accumulator region (R264). -/
def execKAacc (w : Issue) (o : MemOps) (s : State) : Host.Outcome State Fault Refusal := .next (s.memOp w .aacc o)

/-- SETTLE: a range's accumulator lines are queued for conversion to their external format (R267). -/
def execKSettle (w : Issue) (o : MemOps) (s : State) : Host.Outcome State Fault Refusal := .next (s.memOp w .settle o)

/-- FRANGE: a range command joins the queue of the home half's range engine (R246). -/
def execKFrange (w : Issue) (o : MemOps) (s : State) : Host.Outcome State Fault Refusal := .next (s.memOp w .frange o)

/-- TTOUCH: a translation is resolved into the buffers; g[ga] takes the page size code (R332). -/
def execKTtouch (w : Issue) (o : MemOps) (s : State) : Host.Outcome State Fault Refusal := .next (s.memOp w .ttouch o)

end Sys2Proof.Machine
end

