-- ==== Sys2Proof/Machine/Scalar.lean ====
section
/-! DEFINITION. Machine/Scalar.lean: control, scalar, descriptor and wait instructions (R83, R112 to R123). -/
namespace Sys2Proof.Machine

/-! ### Scalar arithmetic (Table 4.4) -/

/-- Issue of an instruction that writes g[ga] and goes on: `f` gives the value. -/
def State.scalar (s : State) (w : Issue) (i : KInstr) (ext : Word) (ga : BitVec 5) (f : Strand → Word) : State :=
  s.issue w i ext fun s =>
    let x := s.strand w.drover w.strand
    s.retire w.drover w.strand i.len (x.wg ga.toNat (f x))

/-- Formats 0x0 and 0x1: g[ga] takes `f` of g[gb] and the second source (R112). -/
def State.alu (s : State) (w : Issue) (k : AluOp) (o : AluOps) (f : Word → Word → Word) : State :=
  s.scalar w (.alu k o) 0 o.ga fun x => f (x.rg o.gb.toNat) (x.src2 o.src)

/-- ADD: g[ga] takes the sum modulo 2^64 (R112). -/
def aluAdd (a b : Word) : Word := a + b
/-- SUB: g[ga] takes the difference modulo 2^64 (R112). -/
def aluSub (a b : Word) : Word := a - b
/-- MUL: g[ga] takes the low 64 bits of the product (R112). -/
def aluMul (a b : Word) : Word := a * b
/-- AND: g[ga] takes the bitwise and (R112). -/
def aluAnd (a b : Word) : Word := a &&& b
/-- OR: g[ga] takes the bitwise or (R112). -/
def aluOr (a b : Word) : Word := a ||| b
/-- XOR: g[ga] takes the bitwise exclusive or (R112). -/
def aluXor (a b : Word) : Word := a ^^^ b
/-- SHL: g[ga] takes g[gb] shifted left by src2 mod 64 (R112). -/
def aluShl (a b : Word) : Word := a <<< (b.toNat % 64)
/-- SHR: g[ga] takes g[gb] shifted logically right by src2 mod 64 (R112). -/
def aluShr (a b : Word) : Word := a >>> (b.toNat % 64)
/-- SRA: g[ga] takes g[gb] shifted arithmetically right by src2 mod 64 (R112). -/
def aluSra (a b : Word) : Word := a.sshiftRight (b.toNat % 64)
/-- MIN: g[ga] takes the signed minimum (R112). -/
def aluMin (a b : Word) : Word := if a.slt b then a else b
/-- MAX: g[ga] takes the signed maximum (R112). -/
def aluMax (a b : Word) : Word := if a.slt b then b else a
/-- MINU: g[ga] takes the unsigned minimum (R112). -/
def aluMinu (a b : Word) : Word := if a.ult b then a else b
/-- MAXU: g[ga] takes the unsigned maximum (R112). -/
def aluMaxu (a b : Word) : Word := if a.ult b then b else a

def execKAdd (w : Issue) (o : AluOps) (s : State) : Host.Outcome State Fault Refusal := .next (s.alu w .add o aluAdd)
def execKSub (w : Issue) (o : AluOps) (s : State) : Host.Outcome State Fault Refusal := .next (s.alu w .sub o aluSub)
def execKMul (w : Issue) (o : AluOps) (s : State) : Host.Outcome State Fault Refusal := .next (s.alu w .mul o aluMul)
def execKAnd (w : Issue) (o : AluOps) (s : State) : Host.Outcome State Fault Refusal := .next (s.alu w .and o aluAnd)
def execKOr (w : Issue) (o : AluOps) (s : State) : Host.Outcome State Fault Refusal := .next (s.alu w .or o aluOr)
def execKXor (w : Issue) (o : AluOps) (s : State) : Host.Outcome State Fault Refusal := .next (s.alu w .xor o aluXor)
def execKShl (w : Issue) (o : AluOps) (s : State) : Host.Outcome State Fault Refusal := .next (s.alu w .shl o aluShl)
def execKShr (w : Issue) (o : AluOps) (s : State) : Host.Outcome State Fault Refusal := .next (s.alu w .shr o aluShr)
def execKSra (w : Issue) (o : AluOps) (s : State) : Host.Outcome State Fault Refusal := .next (s.alu w .sra o aluSra)
def execKMin (w : Issue) (o : AluOps) (s : State) : Host.Outcome State Fault Refusal := .next (s.alu w .min o aluMin)
def execKMax (w : Issue) (o : AluOps) (s : State) : Host.Outcome State Fault Refusal := .next (s.alu w .max o aluMax)
def execKMinu (w : Issue) (o : AluOps) (s : State) : Host.Outcome State Fault Refusal := .next (s.alu w .minu o aluMinu)
def execKMaxu (w : Issue) (o : AluOps) (s : State) : Host.Outcome State Fault Refusal := .next (s.alu w .maxu o aluMaxu)

/-- CMP: g[ga] takes 1 when the condition holds and 0 otherwise; with `ALWAYS` the comparands must be 0 (R112, R113). -/
def execKCmp (w : Issue) (o : AluOps) (s : State) : Host.Outcome State Fault Refusal :=
  .next (s.scalar w (.alu .cmp o) 0 o.ga fun x =>
    if condHolds o.cond (x.rg o.gb.toNat) (x.src2 o.src) then 1 else 0)

/-- LI: g[ga] takes the extension word; the next instruction lies 16 bytes on (R105, R112). -/
def execKLi (w : Issue) (ga : BitVec 5) (imm : BitVec 64) (s : State) : Host.Outcome State Fault Refusal :=
  .next (s.scalar w (.li ga) imm ga fun _ => imm)

/-- BELL: g[ga] takes `BELL_COUNT` at issue (R112). -/
def execKBell (w : Issue) (o : SyncOps) (s : State) : Host.Outcome State Fault Refusal :=
  .next (s.scalar w (.sync .bell o) 0 o.ga fun _ => s.bellCount)

/-- The identity word of `SELF` (Table 4.4). -/
def State.selfWord (s : State) (d t : Nat) : Word :=
  BitVec.ofNat 64 (s.device * 2 ^ 48 + s.logicalOf d * 2 ^ 40 + t * 2 ^ 37 + s.rd Fd.tallyStatusGeneration * 2 ^ 16)

/-- SELF: g[ga] takes device, logical Drover, strand and Tally generation (R112). -/
def execKSelf (w : Issue) (o : SyncOps) (s : State) : Host.Outcome State Fault Refusal :=
  .next (s.scalar w (.sync .self o) 0 o.ga fun _ => s.selfWord w.drover w.strand)

/-- FAILRD: g[ga] takes `FIRST_FAIL`, which then reads 0 (R112, R116). -/
def execKFailrd (w : Issue) (o : SyncOps) (s : State) : Host.Outcome State Fault Refusal :=
  .next (s.issue w (.sync .failrd o) 0 fun s =>
    let x := s.strand w.drover w.strand
    s.retire w.drover w.strand 8 { x.wg o.ga.toNat (x.firstFail.setWidth 64) with firstFail := 0 })

/-! ### Control -/

/-- NOP: does nothing (R112). -/
def execKNop (w : Issue) (o : SyncOps) (s : State) : Host.Outcome State Fault Refusal :=
  .next (s.issue w (.sync .nop o) 0 fun s => s.advance w.drover w.strand 8)

/-- END: issue stops and the strand is `ENDING`; its address stays at the `END` (R83). -/
def execKEnd (w : Issue) (o : SyncOps) (s : State) : Host.Outcome State Fault Refusal :=
  .next (s.issue w (.sync .stop o) 0 fun s =>
    s.setStrand w.drover w.strand { s.strand w.drover w.strand with phase := phEnding })

/-- Target of a branch of format 0x2: pc + 8 × offset. -/
def Strand.brTarget (x : Strand) (o : BrOps) : Word := x.pc.setWidth 64 + 8 * sext o.offset

/-- BR: branches when its condition holds; with `ALWAYS` the comparands must be 0 (R112, R113). -/
def execKBr (w : Issue) (o : BrOps) (s : State) : Host.Outcome State Fault Refusal :=
  .next (s.issue w (.br o) 0 fun s =>
    let x := s.strand w.drover w.strand
    if condHolds o.cond (x.rg o.ga.toNat) (x.rg o.gb.toNat) then s.branch w.drover w.strand x (x.brTarget o)
    else s.advance w.drover w.strand 8)

/-- LOOP: g[ga] falls by 1 and the strand branches while it is not zero (R112). -/
def execKLoop (w : Issue) (o : BrOps) (s : State) : Host.Outcome State Fault Refusal :=
  .next (s.issue w (.loop o) 0 fun s =>
    let x := s.strand w.drover w.strand
    let y := x.wg o.ga.toNat (x.rg o.ga.toNat - 1)
    if y.rg o.ga.toNat ≠ 0 then s.branch w.drover w.strand y (x.brTarget o)
    else s.retire w.drover w.strand 8 y)

/-- JR: g[ga] takes pc + 8 and the strand goes to g[gb] as it was (R112). -/
def execKJr (w : Issue) (o : JrOps) (s : State) : Host.Outcome State Fault Refusal :=
  .next (s.issue w (.jr o) 0 fun s =>
    let x := s.strand w.drover w.strand
    s.branch w.drover w.strand (x.wg o.ga.toNat (x.pc.setWidth 64 + 8)) (x.rg o.gb.toNat))

/-- ILLEGAL_INSTRUCTION: a word that R106 or a chapter makes illegal, at the address of a ready strand whose turn it is,
raises the strand fault `ILLEGAL`; any other word is not this command's (R106, R115). -/
def execIllegalInstruction (w : Issue) (word : BitVec 64) (s : State) : Host.Outcome State Fault Refusal :=
  let d := w.drover.val
  let t := w.strand.val
  match s.fetched d t with
  | none => .next s
  | some (first, e) =>
    if first ≠ word || !keisIllegal first e || !s.ready d t || !s.myTurn d t then .next s
    else .next ((s.passTurn d t).strandFault d t stIllegal (s.strand d t).pc)

/-! ### Descriptor fields (R119) -/

/-- The field of a descriptor. -/
def dfldGet (o : DfldOps) (d : Desc) : Nat := bits d (8 * o.off.toNat + dfldBits o - 1) (8 * o.off.toNat)

/-- A descriptor with the field set to the low bits of v. -/
def dfldPut (o : DfldOps) (d : Desc) (v : Nat) : Desc :=
  setBits d (8 * o.off.toNat + dfldBits o - 1) (8 * o.off.toNat) v

/-- Issue of a descriptor edit: `f` gives the strand with its result. -/
def State.dfld (s : State) (w : Issue) (k : DfldOp) (o : DfldOps) (f : Strand → Strand) : State :=
  s.issue w (.dfld k o) 0 fun s => s.retire w.drover w.strand 8 (f (s.strand w.drover w.strand))

/-- DSET: the field takes the low bytes of g[gb] (R119). -/
def execKDset (w : Issue) (o : DfldOps) (s : State) : Host.Outcome State Fault Refusal :=
  .next (s.dfld w .dset o fun x => x.wdd o.dn.toNat (dfldPut o (x.rdd o.dn.toNat) (x.rg o.gb.toNat).toNat))

/-- DGET: g[gb] takes the field, zero-extended (R119). -/
def execKDget (w : Issue) (o : DfldOps) (s : State) : Host.Outcome State Fault Refusal :=
  .next (s.dfld w .dget o fun x => x.wg o.gb.toNat (BitVec.ofNat 64 (dfldGet o (x.rdd o.dn.toNat))))

/-- DADD: g[gb] is added to the field modulo its width (R119). -/
def execKDadd (w : Issue) (o : DfldOps) (s : State) : Host.Outcome State Fault Refusal :=
  .next (s.dfld w .dadd o fun x =>
    let d := x.rdd o.dn.toNat
    x.wdd o.dn.toNat (dfldPut o d (dfldGet o d + (x.rg o.gb.toNat).toNat)))

/-! ### Waits (R121 to R123) -/

/-- WAITC: the strand stalls until counter cn has reached g[ga] + imm32 (R121). -/
def execKWaitc (w : Issue) (o : SyncOps) (s : State) : Host.Outcome State Fault Refusal :=
  .next (s.issue w (.sync .waitc o) 0 fun s =>
    let v := (s.strand w.drover w.strand).rg o.ga.toNat + sext o.imm
    s.beginWait w.drover w.strand (.counter o.cn.toNat (v.setWidth 32)))

/-- A `FENCE` of a variant, which the row names: it stands in `VAR` (R122). -/
def State.fence (s : State) (w : Issue) (o : SyncOps) (variant : Nat) : State :=
  s.issue w (.sync .fence { o with varnt := BitVec.ofNat 2 variant }) 0 fun s =>
    s.beginWait w.drover w.strand (.fence variant)

/-- FENCE_LOCAL, FENCE_FOLD and FENCE_GLOBAL: the row names the variant (Table 3.4, R122). -/
def execKFenceLocal (w : Issue) (o : SyncOps) (s : State) : Host.Outcome State Fault Refusal := .next (s.fence w o 0)
def execKFenceFold (w : Issue) (o : SyncOps) (s : State) : Host.Outcome State Fault Refusal := .next (s.fence w o 1)
def execKFenceGlobal (w : Issue) (o : SyncOps) (s : State) : Host.Outcome State Fault Refusal := .next (s.fence w o 2)

/-- WAITBELL: the strand stalls until `BELL_COUNT` has reached g[ga] + imm32, or `UNLOCKED` (R123). -/
def execKWaitbell (w : Issue) (o : SyncOps) (s : State) : Host.Outcome State Fault Refusal :=
  .next (s.issue w (.sync .waitbell o) 0 fun s =>
    s.beginWait w.drover w.strand (.bell ((s.strand w.drover w.strand).rg o.ga.toNat + sext o.imm)))

/-! ### The end of a strand (R83) -/

/-- The end record of a strand. -/
def State.endRecord (s : State) (d t : Nat) : List Byte :=
  let x := s.strand d t
  toBytes 2 (bits x.start.ctl 63 48) ++ toBytes 2 x.firstFail.toNat ++ toBytes 1 (s.logicalOf d) ++ toBytes 1 t ++
    toBytes 2 (s.rd Fd.tallyStatusGeneration) ++ toBytes 8 (x.rg 1).toNat

/-- STRAND_END: with every operation of an `ENDING` strand complete, the end record is written and the strand is
`IDLE`, all its state zero (R68, R83). A record its bank holds keeps the strand `ENDING`; one its bank refuses is not
written (notes/assumptions/14.md). -/
def execStrandEnd (drover : Fin 128) (strand : Fin 8) (s : State) : Host.Outcome State Fault Refusal :=
  let d := drover.val
  let t := strand.val
  let x := s.strand d t
  if x.phase ≠ phEnding ∨ s.opsOf d t ≠ [] then .next s
  else if x.notify = 0 then .next (s.setStrand d t {})
  else match s.servedSpan (halfOf d) x.notify 16 .write with
    | .waits => .next s
    | .fails _ => .next (s.setStrand d t {})
    | .ok => .next ((s.writeBytes x.notify (s.endRecord d t) false false).setStrand d t {})

/-! ### Fetch (R70, R115) -/

/-- Line address of the next line a strand needs: its instruction's, or, that one in the store, the line of the second
word of a long instruction at its end (R70, R105). -/
def State.needsLine (s : State) (d t : Nat) : Option Nat :=
  let a := (s.strand d t).pc.toNat
  match s.storeWord d a with
  | none => some (a / 128 * 128)
  | some w => if isLong w && (s.storeWord d (a + 8)).isNone then some ((a + 8) / 128 * 128) else none

/-- A fetched line joins a Drover's instruction store of 64 lines; the oldest gives way, an order the spec does not name
(DESIGN CHOICE, notes/assumptions/139.md). -/
def State.storeFetched (s : State) (d line : Nat) (b : List Byte) : State :=
  let st := (s.drv d).store
  s.setDrv d { s.drv d with store := (if st.length < 64 then st else st.drop 1) ++ [(line, b)] }

/-- FETCH_LINE: the line a strand needs arrives from the Fold into the instruction store; a fetch its bank holds waits, an
uncorrectable error raises `FETCH_POISON`, and any other status, or an address outside module-local memory, `FETCH_ADDR`
(R70, R115, Table 4.7). -/
def execFetchLine (drover : Fin 128) (strand : Fin 8) (s : State) : Host.Outcome State Fault Refusal :=
  let d := drover.val
  let t := strand.val
  let x := s.strand d t
  if !x.canIssue then .next s
  else match s.needsLine d t with
    | none => .next s
    | some a =>
      if x.pc.toNat % 8 ≠ 0 || !isLocalMem a then .next (s.strandFault d t stFetchAddr x.pc)
      else match s.servedSpan (halfOf d) a 128 with
        | .waits => .next s
        | .fails st => .next (s.strandFault d t (if st = stPoison then stFetchPoison else stFetchAddr) x.pc)
        | .ok =>
          let s1 := s.touch a 128 false false
          if s.anyBad a 128 then .next (s1.strandFault d t stFetchPoison x.pc)
          else .next (s1.storeFetched d (a / 128) (s1.readBytes a 128))

end Sys2Proof.Machine
end

