-- ==== Sys2Proof/Machine/Dispatch.lean ====
section
/-! DEFINITION. Machine/Dispatch.lean: one arm per command, each one call of its meaning. -/
namespace Sys2Proof.Machine

def exec (i : Instr) (s : State) : Host.Outcome State Fault Refusal :=
  match i with
  | .registerWrite who addr width val => Sys2Proof.Machine.execRegisterWrite who addr width val s
  | .commit who block val => Sys2Proof.Machine.execCommit who block val s
  | .abort who block val => Sys2Proof.Machine.execAbort who block val s
  | .gateApplyAtBell block => Sys2Proof.Machine.execGateApplyAtBell block s
  | .bellBoundary vin pin => Sys2Proof.Machine.execBellBoundary vin pin s
  | .bellMarker port m => Sys2Proof.Machine.execBellMarker port m s
  | .holdoverExpiry => Sys2Proof.Machine.execHoldoverExpiry s
  | .standbyTakeover => Sys2Proof.Machine.execStandbyTakeover s
  | .acquireTimeout => Sys2Proof.Machine.execAcquireTimeout s
  | .schedOkQualify => Sys2Proof.Machine.execSchedOkQualify s
  | .penClockDown pen => Sys2Proof.Machine.execPenClockDown pen s
  | .kNop w o => Sys2Proof.Machine.execKNop w o s
  | .kEnd w o => Sys2Proof.Machine.execKEnd w o s
  | .strandEnd drover strand => Sys2Proof.Machine.execStrandEnd drover strand s
  | .kBr w o => Sys2Proof.Machine.execKBr w o s
  | .kLoop w o => Sys2Proof.Machine.execKLoop w o s
  | .kJr w o => Sys2Proof.Machine.execKJr w o s
  | .kAdd w o => Sys2Proof.Machine.execKAdd w o s
  | .kSub w o => Sys2Proof.Machine.execKSub w o s
  | .kMul w o => Sys2Proof.Machine.execKMul w o s
  | .kAnd w o => Sys2Proof.Machine.execKAnd w o s
  | .kOr w o => Sys2Proof.Machine.execKOr w o s
  | .kXor w o => Sys2Proof.Machine.execKXor w o s
  | .kShl w o => Sys2Proof.Machine.execKShl w o s
  | .kShr w o => Sys2Proof.Machine.execKShr w o s
  | .kSra w o => Sys2Proof.Machine.execKSra w o s
  | .kMin w o => Sys2Proof.Machine.execKMin w o s
  | .kMax w o => Sys2Proof.Machine.execKMax w o s
  | .kMinu w o => Sys2Proof.Machine.execKMinu w o s
  | .kMaxu w o => Sys2Proof.Machine.execKMaxu w o s
  | .kCmp w o => Sys2Proof.Machine.execKCmp w o s
  | .kLi w ga imm => Sys2Proof.Machine.execKLi w ga imm s
  | .kBell w o => Sys2Proof.Machine.execKBell w o s
  | .kSelf w o => Sys2Proof.Machine.execKSelf w o s
  | .kFailrd w o => Sys2Proof.Machine.execKFailrd w o s
  | .kLd w o => Sys2Proof.Machine.execKLd w o s
  | .kSt w o => Sys2Proof.Machine.execKSt w o s
  | .kDld w o => Sys2Proof.Machine.execKDld w o s
  | .kDst w o => Sys2Proof.Machine.execKDst w o s
  | .kDset w o => Sys2Proof.Machine.execKDset w o s
  | .kDget w o => Sys2Proof.Machine.execKDget w o s
  | .kDadd w o => Sys2Proof.Machine.execKDadd w o s
  | .kMove w o => Sys2Proof.Machine.execKMove w o s
  | .kGather w o => Sys2Proof.Machine.execKGather w o s
  | .kScatter w o => Sys2Proof.Machine.execKScatter w o s
  | .kGraze w o => Sys2Proof.Machine.execKGraze w o s
  | .kCompact w o => Sys2Proof.Machine.execKCompact w o s
  | .kIsect w o => Sys2Proof.Machine.execKIsect w o s
  | .kUnion w o => Sys2Proof.Machine.execKUnion w o s
  | .kMerge w o => Sys2Proof.Machine.execKMerge w o s
  | .kSegredSum w o => Sys2Proof.Machine.execKSegredSum w o s
  | .kSegredMin w o => Sys2Proof.Machine.execKSegredMin w o s
  | .kSegredMax w o => Sys2Proof.Machine.execKSegredMax w o s
  | .kSegredMean w o => Sys2Proof.Machine.execKSegredMean w o s
  | .kEbag w o => Sys2Proof.Machine.execKEbag w o s
  | .kHist w o => Sys2Proof.Machine.execKHist w o s
  | .kTopkLargest w o => Sys2Proof.Machine.execKTopkLargest w o s
  | .kTopkSmallest w o => Sys2Proof.Machine.execKTopkSmallest w o s
  | .selectionStoreGrant drover op => Sys2Proof.Machine.execSelectionStoreGrant drover op s
  | .kAadd w o => Sys2Proof.Machine.execKAadd w o s
  | .kAmin w o => Sys2Proof.Machine.execKAmin w o s
  | .kAmax w o => Sys2Proof.Machine.execKAmax w o s
  | .kAxch w o => Sys2Proof.Machine.execKAxch w o s
  | .kAcas w o => Sys2Proof.Machine.execKAcas w o s
  | .kAacc w o => Sys2Proof.Machine.execKAacc w o s
  | .kSettle w o => Sys2Proof.Machine.execKSettle w o s
  | .kPut w o => Sys2Proof.Machine.execKPut w o s
  | .kGet w o => Sys2Proof.Machine.execKGet w o s
  | .kRacc w o => Sys2Proof.Machine.execKRacc w o s
  | .kRatomAdd w o => Sys2Proof.Machine.execKRatomAdd w o s
  | .kRatomMin w o => Sys2Proof.Machine.execKRatomMin w o s
  | .kRatomMax w o => Sys2Proof.Machine.execKRatomMax w o s
  | .kRatomExchange w o => Sys2Proof.Machine.execKRatomExchange w o s
  | .kRatomCas w o => Sys2Proof.Machine.execKRatomCas w o s
  | .kSignal w o => Sys2Proof.Machine.execKSignal w o s
  | .kWaitc w o => Sys2Proof.Machine.execKWaitc w o s
  | .kFenceLocal w o => Sys2Proof.Machine.execKFenceLocal w o s
  | .kFenceFold w o => Sys2Proof.Machine.execKFenceFold w o s
  | .kFenceGlobal w o => Sys2Proof.Machine.execKFenceGlobal w o s
  | .kWaitbell w o => Sys2Proof.Machine.execKWaitbell w o s
  | .kAt w o second => Sys2Proof.Machine.execKAt w o second s
  | .atIssue op => Sys2Proof.Machine.execAtIssue op s
  | .kFrange w o => Sys2Proof.Machine.execKFrange w o s
  | .kTtouch w o => Sys2Proof.Machine.execKTtouch w o s
  | .fetchLine drover strand => Sys2Proof.Machine.execFetchLine drover strand s
  | .operationComplete op => Sys2Proof.Machine.execOperationComplete op s
  | .chunkCommit op chunk => Sys2Proof.Machine.execChunkCommit op chunk s
  | .doorbellWindowSubmit logical strand control => Sys2Proof.Machine.execDoorbellWindowSubmit logical strand control s
  | .preempt pen k mask => Sys2Proof.Machine.execPreempt pen k mask s
  | .contextSave drover strand => Sys2Proof.Machine.execContextSave drover strand s
  | .detachedComplete op => Sys2Proof.Machine.execDetachedComplete op s
  | .droverFence drover part => Sys2Proof.Machine.execDroverFence drover part s
  | .watchdogExpiry drover => Sys2Proof.Machine.execWatchdogExpiry drover s
  | .fencedContextSave drover strand ok => Sys2Proof.Machine.execFencedContextSave drover strand ok s
  | .tallyCopyUpdate => Sys2Proof.Machine.execTallyCopyUpdate s
  | .rebind logical paddockOnly explicit target => Sys2Proof.Machine.execRebind logical paddockOnly explicit target s
  | .rebindTakeEffect => Sys2Proof.Machine.execRebindTakeEffect s
  | .tallyFence logical => Sys2Proof.Machine.execTallyFence logical s
  | .transferPark op => Sys2Proof.Machine.execTransferPark op s
  | .bankRequest r => Sys2Proof.Machine.execBankRequest r s
  | .foldFill bank line => Sys2Proof.Machine.execFoldFill bank line s
  | .mergeBufferExpiry bank line => Sys2Proof.Machine.execMergeBufferExpiry bank line s
  | .slotConversionDone pen => Sys2Proof.Machine.execSlotConversionDone pen s
  | .cacheDisableDone pen => Sys2Proof.Machine.execCacheDisableDone pen s
  | .wayPowerDown pen way => Sys2Proof.Machine.execWayPowerDown pen way s
  | .wayPowerUp pen way => Sys2Proof.Machine.execWayPowerUp pen way s
  | .frClean half => Sys2Proof.Machine.execFrClean half s
  | .frInvalidate half => Sys2Proof.Machine.execFrInvalidate half s
  | .frCleanInv half => Sys2Proof.Machine.execFrCleanInv half s
  | .frZero half => Sys2Proof.Machine.execFrZero half s
  | .frPin half => Sys2Proof.Machine.execFrPin half s
  | .frUnpin half => Sys2Proof.Machine.execFrUnpin half s
  | .rangeEngineStart half => Sys2Proof.Machine.execRangeEngineStart half s
  | .rangeComplete half => Sys2Proof.Machine.execRangeComplete half s
  | .foldScrubPass bank errors => Sys2Proof.Machine.execFoldScrubPass bank errors s
  | .foldScrubWindow bank => Sys2Proof.Machine.execFoldScrubWindow bank s
  | .dramRequest r => Sys2Proof.Machine.execDramRequest r s
  | .dramDataReturn stack line d => Sys2Proof.Machine.execDramDataReturn stack line d s
  | .dramRefresh stack pch => Sys2Proof.Machine.execDramRefresh stack pch s
  | .dramPatrolScrub stack chan e => Sys2Proof.Machine.execDramPatrolScrub stack chan e s
  | .recentreAnnounce stack chan start => Sys2Proof.Machine.execRecentreAnnounce stack chan start s
  | .recentreWindow stack narrowEye => Sys2Proof.Machine.execRecentreWindow stack narrowEye s
  | .forcedRetrain stack chan trigger => Sys2Proof.Machine.execForcedRetrain stack chan trigger s
  | .dramCaParity stack chan => Sys2Proof.Machine.execDramCaParity stack chan s
  | .retrainComplete stack chan r => Sys2Proof.Machine.execRetrainComplete stack chan r s
  | .chanRetrain stack chan => Sys2Proof.Machine.execChanRetrain stack chan s
  | .chanRetire stack chan => Sys2Proof.Machine.execChanRetire stack chan s
  | .walkerRingResume tail => Sys2Proof.Machine.execWalkerRingResume tail s
  | .xlFill ticket => Sys2Proof.Machine.execXlFill ticket s
  | .xlDefer ticket => Sys2Proof.Machine.execXlDefer ticket s
  | .xlResume ticket => Sys2Proof.Machine.execXlResume ticket s
  | .xlFail ticket status => Sys2Proof.Machine.execXlFail ticket status s
  | .xlShadowFill pen => Sys2Proof.Machine.execXlShadowFill pen s
  | .xlShadowClear pen => Sys2Proof.Machine.execXlShadowClear pen s
  | .shootdown paddocks pages => Sys2Proof.Machine.execShootdown paddocks pages s
  | .shootdownDone => Sys2Proof.Machine.execShootdownDone s
  | .migFetch size => Sys2Proof.Machine.execMigFetch size s
  | .migEvict size => Sys2Proof.Machine.execMigEvict size s
  | .migrationPiece status data poison => Sys2Proof.Machine.execMigrationPiece status data poison s
  | .migrationDone => Sys2Proof.Machine.execMigrationDone s
  | .laserPoll src r => Sys2Proof.Machine.execLaserPoll src r s
  | .laserPresenceChange src present => Sys2Proof.Machine.execLaserPresenceChange src present s
  | .laneJudge port lane corrected uncorrectable => Sys2Proof.Machine.execLaneJudge port lane corrected uncorrectable s
  | .laneLossOfSignal port lane => Sys2Proof.Machine.execLaneLossOfSignal port lane s
  | .laneRemoval port lane => Sys2Proof.Machine.execLaneRemoval port lane s
  | .optRemoveLane port lane => Sys2Proof.Machine.execOptRemoveLane port lane s
  | .optRetrainLane port lane => Sys2Proof.Machine.execOptRetrainLane port lane s
  | .laneRetrainDone port lane ok => Sys2Proof.Machine.execLaneRetrainDone port lane ok s
  | .optPortDisable port => Sys2Proof.Machine.execOptPortDisable port s
  | .optPortEnable port => Sys2Proof.Machine.execOptPortEnable port s
  | .optLaserDisable src => Sys2Proof.Machine.execOptLaserDisable src s
  | .optLaserEnable src => Sys2Proof.Machine.execOptLaserEnable src s
  | .portTrainingDone port r => Sys2Proof.Machine.execPortTrainingDone port r s
  | .portBufferStall port => Sys2Proof.Machine.execPortBufferStall port s
  | .neighbourLossOfSignal port => Sys2Proof.Machine.execNeighbourLossOfSignal port s
  | .neighbourReacquire port r => Sys2Proof.Machine.execNeighbourReacquire port r s
  | .portBroken port => Sys2Proof.Machine.execPortBroken port s
  | .flitSlot port lane pos => Sys2Proof.Machine.execFlitSlot port lane pos s
  | .dataFlit port lane f checkOk => Sys2Proof.Machine.execDataFlit port lane f checkOk s
  | .acknowledge port below missing => Sys2Proof.Machine.execAcknowledge port below missing s
  | .flitResendTimeout port seq => Sys2Proof.Machine.execFlitResendTimeout port seq s
  | .credit port c0 c1 c2 c3 => Sys2Proof.Machine.execCredit port c0 c1 c2 c3 s
  | .windowAnnouncement port dest win => Sys2Proof.Machine.execWindowAnnouncement port dest win s
  | .laneNotice port lane action bell => Sys2Proof.Machine.execLaneNotice port lane action bell s
  | .faultNotice port dim farPort lastFar kind => Sys2Proof.Machine.execFaultNotice port dim farPort lastFar kind s
  | .thermalNotice port dest source stack state bell => Sys2Proof.Machine.execThermalNotice port dest source stack state bell s
  | .releaseNotice port dim bell => Sys2Proof.Machine.execReleaseNotice port dim bell s
  | .musterMessage port dest m => Sys2Proof.Machine.execMusterMessage port dest m s
  | .meshPacket router v => Sys2Proof.Machine.execMeshPacket router v s
  | .routerFault router crossbar => Sys2Proof.Machine.execRouterFault router crossbar s
  | .stuckPacket router => Sys2Proof.Machine.execStuckPacket router s
  | .seamBundleLost row failed => Sys2Proof.Machine.execSeamBundleLost row failed s
  | .inboundPut r => Sys2Proof.Machine.execInboundPut r s
  | .inboundGet r => Sys2Proof.Machine.execInboundGet r s
  | .inboundRacc r => Sys2Proof.Machine.execInboundRacc r s
  | .inboundRatom r => Sys2Proof.Machine.execInboundRatom r s
  | .inboundSignal r => Sys2Proof.Machine.execInboundSignal r s
  | .getReply op chunk status data poison => Sys2Proof.Machine.execGetReply op chunk status data poison s
  | .ratomReply op status old => Sys2Proof.Machine.execRatomReply op status old s
  | .signalReply op status => Sys2Proof.Machine.execSignalReply op status s
  | .remoteAck op chunk status delivery => Sys2Proof.Machine.execRemoteAck op chunk status delivery s
  | .requestExpiry source packet => Sys2Proof.Machine.execRequestExpiry source packet s
  | .issuerReplyTimeout op chunk => Sys2Proof.Machine.execIssuerReplyTimeout op chunk s
  | .musterRelease group => Sys2Proof.Machine.execMusterRelease group s
  | .musterForceRelease group => Sys2Proof.Machine.execMusterForceRelease group s
  | .siteRead c => Sys2Proof.Machine.execSiteRead c s
  | .siteWrite c => Sys2Proof.Machine.execSiteWrite c s
  | .siteAtomic c => Sys2Proof.Machine.execSiteAtomic c s
  | .siteAccum c => Sys2Proof.Machine.execSiteAccum c s
  | .siteSettle c => Sys2Proof.Machine.execSiteSettle c s
  | .siteRange c => Sys2Proof.Machine.execSiteRange c s
  | .siteDoorbell c => Sys2Proof.Machine.execSiteDoorbell c s
  | .siteMailbox c => Sys2Proof.Machine.execSiteMailbox c s
  | .swData site bundle packets tag status data poison => Sys2Proof.Machine.execSwData site bundle packets tag status data poison s
  | .swDone site bundle packets tag status => Sys2Proof.Machine.execSwDone site bundle packets tag status s
  | .siteReplyTimeout site tag => Sys2Proof.Machine.execSiteReplyTimeout site tag s
  | .linkControl site bundle l => Sys2Proof.Machine.execLinkControl site bundle l s
  | .checkPattern site bundle wires => Sys2Proof.Machine.execCheckPattern site bundle wires s
  | .slpRetryTimeout site bundle => Sys2Proof.Machine.execSlpRetryTimeout site bundle s
  | .bundleRepair site up bundle t => Sys2Proof.Machine.execBundleRepair site up bundle t s
  | .siteRepair site up bundle => Sys2Proof.Machine.execSiteRepair site up bundle s
  | .siteClose site up bundle => Sys2Proof.Machine.execSiteClose site up bundle s
  | .capabilityFrame site rev level caps pmax => Sys2Proof.Machine.execCapabilityFrame site rev level caps pmax s
  | .handshakeTimeout site => Sys2Proof.Machine.execHandshakeTimeout site s
  | .temperatureFrame site t => Sys2Proof.Machine.execTemperatureFrame site t s
  | .siteTempStale site => Sys2Proof.Machine.execSiteTempStale site s
  | .faultFrame site code => Sys2Proof.Machine.execFaultFrame site code s
  | .siteAlert site => Sys2Proof.Machine.execSiteAlert site s
  | .sitePowerSample site watts => Sys2Proof.Machine.execSitePowerSample site watts s
  | .siteRailFault site rail mv => Sys2Proof.Machine.execSiteRailFault site rail mv s
  | .siteLevelUpdate site => Sys2Proof.Machine.execSiteLevelUpdate site s
  | .dfpIdentify h => Sys2Proof.Machine.execDfpIdentify h s
  | .dfpStatus h => Sys2Proof.Machine.execDfpStatus h s
  | .dfpSessionOpen h slot sigOk chainRole => Sys2Proof.Machine.execDfpSessionOpen h slot sigOk chainRole s
  | .dfpSessionClose h => Sys2Proof.Machine.execDfpSessionClose h s
  | .sessionTimeout session => Sys2Proof.Machine.execSessionTimeout session s
  | .dfpGetNonce h => Sys2Proof.Machine.execDfpGetNonce h s
  | .nonceExpiry nonce => Sys2Proof.Machine.execNonceExpiry nonce s
  | .dfpRegRead h addrs => Sys2Proof.Machine.execDfpRegRead h addrs s
  | .dfpRegWrite h pairs => Sys2Proof.Machine.execDfpRegWrite h pairs s
  | .dfpLogRead h start count => Sys2Proof.Machine.execDfpLogRead h start count s
  | .dfpEventSubscribe h => Sys2Proof.Machine.execDfpEventSubscribe h s
  | .dfpMboxPost h m regs => Sys2Proof.Machine.execDfpMboxPost h m regs s
  | .dfpConfigCommit h base pairs mode target => Sys2Proof.Machine.execDfpConfigCommit h base pairs mode target s
  | .dfpRecordWrite h adv sec mj => Sys2Proof.Machine.execDfpRecordWrite h adv sec mj s
  | .dfpCounterClear h mj => Sys2Proof.Machine.execDfpCounterClear h mj s
  | .dfpFallowExit h mj => Sys2Proof.Machine.execDfpFallowExit h mj s
  | .dfpLifecycle h present target mj => Sys2Proof.Machine.execDfpLifecycle h present target mj s
  | .zeroiseComplete => Sys2Proof.Machine.execZeroiseComplete s
  | .dfpDebugToken h t => Sys2Proof.Machine.execDfpDebugToken h t s
  | .tokenExpiry => Sys2Proof.Machine.execTokenExpiry s
  | .dfpRestartManagement h => Sys2Proof.Machine.execDfpRestartManagement h s
  | .dfpRestartPaddock h k => Sys2Proof.Machine.execDfpRestartPaddock h k s
  | .dfpRestartModule h => Sys2Proof.Machine.execDfpRestartModule h s
  | .mgmtMemUe core addr => Sys2Proof.Machine.execMgmtMemUe core addr s
  | .dfpImageWrite h kind img => Sys2Proof.Machine.execDfpImageWrite h kind img s
  | .dfpImageCommit h kind adv hash mj => Sys2Proof.Machine.execDfpImageCommit h kind adv hash mj s
  | .dfpAttest h nonce => Sys2Proof.Machine.execDfpAttest h nonce s
  | .mboxGo m core crook len => Sys2Proof.Machine.execMboxGo m core crook len s
  | .mboxAck m => Sys2Proof.Machine.execMboxAck m s
  | .tapIdcode => Sys2Proof.Machine.execTapIdcode s
  | .tapBypass => Sys2Proof.Machine.execTapBypass s
  | .tapExtest => Sys2Proof.Machine.execTapExtest s
  | .tapSamplePreload => Sys2Proof.Machine.execTapSamplePreload s
  | .tapDbgNonce => Sys2Proof.Machine.execTapDbgNonce s
  | .tapDbgToken t => Sys2Proof.Machine.execTapDbgToken t s
  | .tapDbgLevel level => Sys2Proof.Machine.execTapDbgLevel level s
  | .tapAccessRead addr => Sys2Proof.Machine.execTapAccessRead addr s
  | .tapAccessWrite addr data => Sys2Proof.Machine.execTapAccessWrite addr data s
  | .debugRaise found => Sys2Proof.Machine.execDebugRaise found s
  | .tapTrace => Sys2Proof.Machine.execTapTrace s
  | .tapDtm => Sys2Proof.Machine.execTapDtm s
  | .testLogicReset => Sys2Proof.Machine.execTestLogicReset s
  | .traceCtlWrite val => Sys2Proof.Machine.execTraceCtlWrite val s
  | .traceRecord r unitOk => Sys2Proof.Machine.execTraceRecord r unitOk s
  | .traceSample => Sys2Proof.Machine.execTraceSample s
  | .powerFail vin => Sys2Proof.Machine.execPowerFail vin s
  | .inputOvervoltage vin => Sys2Proof.Machine.execInputOvervoltage vin s
  | .auxPowerGood => Sys2Proof.Machine.execAuxPowerGood s
  | .pwrCmdP0 atBell => Sys2Proof.Machine.execPwrCmdP0 atBell s
  | .pwrCmdP1 atBell => Sys2Proof.Machine.execPwrCmdP1 atBell s
  | .pwrCmdP2 atBell => Sys2Proof.Machine.execPwrCmdP2 atBell s
  | .pwrCmdP3 atBell => Sys2Proof.Machine.execPwrCmdP3 atBell s
  | .pwrCmdP4 atBell => Sys2Proof.Machine.execPwrCmdP4 atBell s
  | .powerTransition t => Sys2Proof.Machine.execPowerTransition t s
  | .penClockGate pen => Sys2Proof.Machine.execPenClockGate pen s
  | .zoneSample zone readings invalid => Sys2Proof.Machine.execZoneSample zone readings invalid s
  | .zoneStateChange zone => Sys2Proof.Machine.execZoneStateChange zone s
  | .thermalShutdown zone sensor temp => Sys2Proof.Machine.execThermalShutdown zone sensor temp s
  | .stageS0 r => Sys2Proof.Machine.execStageS0 r s
  | .stageS1 r => Sys2Proof.Machine.execStageS1 r s
  | .stageS2 r => Sys2Proof.Machine.execStageS2 r s
  | .stageS3 r => Sys2Proof.Machine.execStageS3 r s
  | .stageS4 r => Sys2Proof.Machine.execStageS4 r s
  | .startRetry => Sys2Proof.Machine.execStartRetry s
  | .droverReset target => Sys2Proof.Machine.execDroverReset target s
  | .penReset target => Sys2Proof.Machine.execPenReset target s
  | .paddockReset target force => Sys2Proof.Machine.execPaddockReset target force s
  | .paddockResetZeroise target force => Sys2Proof.Machine.execPaddockResetZeroise target force s
  | .moduleReset => Sys2Proof.Machine.execModuleReset s
  | .resetRelease => Sys2Proof.Machine.execResetRelease s
  | .siteRelease site => Sys2Proof.Machine.execSiteRelease site s
  | .recordClose seq => Sys2Proof.Machine.execRecordClose seq s
  | .bucketRefill code => Sys2Proof.Machine.execBucketRefill code s
  | .errAck unit seq => Sys2Proof.Machine.execErrAck unit seq s
  | .logFwWrite w0 => Sys2Proof.Machine.execLogFwWrite w0 s
  | .runtimeCheckFailed => Sys2Proof.Machine.execRuntimeCheckFailed s
  | .illegalInstruction w word => Sys2Proof.Machine.execIllegalInstruction w word s
  | .badOp port addr val => Sys2Proof.Machine.execBadOp port addr val s
  | .sitePacket site bundle fault => Sys2Proof.Machine.execSitePacket site bundle fault s
  | .sidebandRepeat site => Sys2Proof.Machine.execSidebandRepeat site s
  | .linkControlTimer site bundle => Sys2Proof.Machine.execLinkControlTimer site bundle s
  | .icmpv6Echo port ident data => Sys2Proof.Machine.execIcmpv6Echo port ident data s
  | .neighborDiscovery port n => Sys2Proof.Machine.execNeighborDiscovery port n s
  | .datagramDiscard port d => Sys2Proof.Machine.execDatagramDiscard port d s
  | .autoNegotiation port up => Sys2Proof.Machine.execAutoNegotiation port up s
  | .inputRemoval => Sys2Proof.Machine.execInputRemoval s

end Sys2Proof.Machine
end

