-- ==== Sys2Proof/Safety.lean ====
section
/-! DEFINITION. Safety.lean: what a claim says of a run: the canonical form of the state's memories and
register files, and what a command leaves as it was. -/
namespace Sys2Proof.Machine

/-- The sparse memories, register files and sets of the state are in canonical form: keys strictly rising, no entry equal
to what an unlisted one reads as. So equal contents are equal data. -/
def State.wf (s : State) : Bool :=
  Memory.wf s.mem && Memory.wf s.fold && Tab.wf regReset s.regs && Tab.wf regReset s.staged &&
  Tab.wf (fun _ => none) s.lines && Tab.wf (fun _ => {}) s.banks && Tab.wf (fun _ => {}) s.ways &&
  Tab.wf (fun _ => []) s.ranges && Tab.wf (fun _ => {}) s.strands && Tab.wf (fun _ => {}) s.drovers &&
  Tab.wf (fun _ => {}) s.chans && Tab.wf (fun _ => {}) s.drams && Tab.wf (fun _ => 20) s.penClock &&
  Tab.wf (fun _ => {}) s.sites && Tab.wf (fun _ => {}) s.mboxes && Tab.wf (fun _ => {}) s.zones &&
  Nats.wf s.dramPoison && Nats.wf s.foldPoison && Nats.wf s.dramUe && Nats.wf s.irqs && Nats.wf s.closed &&
  Nats.wf s.resetPaddocks && Nats.wf s.zeroPads && Nats.wf s.penGated

/-- The state of a machine whose next command is `c`. -/
def State.front (s : State) (c : Instr) : State := { s with pending := c :: s.pending }

/-- The parts of the state, one for each of its fields. -/
inductive Part where
  | pending | out | free | regs | staged | mem | dramPoison | fold | foldPoison | lines | banks
  | ways | ranges | strands | drovers | ops | nextOp | xl | chans | drams | bell | tally
  | log | dramUe | irqs | closed | resetPaddocks | siteReqs | fab | penClock | penGated | savedXfers | loaded
  | sites | siteHeld | mboxes | zones | move | waking | down | resetting | zeroPads | mram | flash
  | crook | ports | trace
  deriving DecidableEq, Repr

/-- A part is the same in two states. -/
def Part.same (s t : State) : Part → Prop
  | .pending => t.pending = s.pending
  | .out => t.out = s.out
  | .free => t.free = s.free
  | .regs => t.regs = s.regs
  | .staged => t.staged = s.staged
  | .mem => t.mem = s.mem
  | .dramPoison => t.dramPoison = s.dramPoison
  | .fold => t.fold = s.fold
  | .foldPoison => t.foldPoison = s.foldPoison
  | .lines => t.lines = s.lines
  | .banks => t.banks = s.banks
  | .ways => t.ways = s.ways
  | .ranges => t.ranges = s.ranges
  | .strands => t.strands = s.strands
  | .drovers => t.drovers = s.drovers
  | .ops => t.ops = s.ops
  | .nextOp => t.nextOp = s.nextOp
  | .xl => t.xl = s.xl
  | .chans => t.chans = s.chans
  | .drams => t.drams = s.drams
  | .bell => t.bell = s.bell
  | .tally => t.tally = s.tally
  | .log => t.log = s.log
  | .dramUe => t.dramUe = s.dramUe
  | .irqs => t.irqs = s.irqs
  | .closed => t.closed = s.closed
  | .resetPaddocks => t.resetPaddocks = s.resetPaddocks
  | .siteReqs => t.siteReqs = s.siteReqs
  | .fab => t.fab = s.fab
  | .penClock => t.penClock = s.penClock
  | .penGated => t.penGated = s.penGated
  | .savedXfers => t.savedXfers = s.savedXfers
  | .loaded => t.loaded = s.loaded
  | .sites => t.sites = s.sites
  | .siteHeld => t.siteHeld = s.siteHeld
  | .mboxes => t.mboxes = s.mboxes
  | .zones => t.zones = s.zones
  | .move => t.move = s.move
  | .waking => t.waking = s.waking
  | .down => t.down = s.down
  | .resetting => t.resetting = s.resetting
  | .zeroPads => t.zeroPads = s.zeroPads
  | .mram => t.mram = s.mram
  | .flash => t.flash = s.flash
  | .crook => t.crook = s.crook
  | .ports => t.ports = s.ports
  | .trace => t.trace = s.trace

/-- A command leaves every part of the state as it was but the listed ones. -/
def Keeps (ps : List Part) (s t : State) : Prop := ∀ p, p ∉ ps → p.same s t

/-- Every register reads as it did but those at the listed addresses. -/
def RegsBut (as : List Nat) (s t : State) : Prop := ∀ a, a ∉ as → t.reg a = s.reg a

/-- Every strand is as it was but strand k of Drover d. -/
def StrandsBut (d k : Nat) (s t : State) : Prop := ∀ e f, 8 * e + f ≠ 8 * d + k → t.strand e f = s.strand e f

/-- Every part but the listed ones. -/
def Part.others (ps : List Part) : List Part :=
  [.pending, .out, .free, .regs, .staged, .mem, .dramPoison, .fold, .foldPoison, .lines, .banks, .ways, .ranges,
    .strands, .drovers, .ops, .nextOp, .xl, .chans, .drams, .bell, .tally, .log, .dramUe, .irqs, .closed,
    .resetPaddocks, .siteReqs, .fab, .penClock, .penGated, .savedXfers, .loaded, .sites, .siteHeld, .mboxes, .zones,
    .move, .waking, .down, .resetting, .zeroPads, .mram, .flash, .crook, .ports, .trace].filter
    fun p => !ps.contains p

/-- The parts of the state a command may change, whatever the state it meets. -/
def footprint : Instr → List Part
  | .registerWrite .. | .dfpRegWrite .. | .tapAccessRead .. | .tapAccessWrite .. | .debugRaise ..
  | .badOp .. =>
    Part.others [.pending, .loaded, .down, .mram, .flash, .ports]
  | .commit .. | .abort .. | .dfpConfigCommit .. =>
    [.out, .regs, .staged, .fold, .foldPoison, .ways, .xl, .bell, .log, .irqs, .fab, .sites, .crook]
  | .gateApplyAtBell .. =>
    [.out, .regs, .fold, .foldPoison, .ways, .xl, .bell, .log, .irqs, .fab, .sites]
  | .bellBoundary .. =>
    Part.others [.pending, .flash]
  | .bellMarker .. =>
    [.regs, .bell]
  | .holdoverExpiry .. | .acquireTimeout .. =>
    [.out, .regs, .strands, .ops, .xl, .bell, .log, .irqs, .fab, .sites]
  | .standbyTakeover .. =>
    [.out, .regs, .bell, .log, .irqs, .sites]
  | .schedOkQualify .. | .sitePowerSample .. =>
    [.regs]
  | .penClockDown .. =>
    [.penClock]
  | .kNop .. | .kEnd .. | .kBr .. | .kLoop .. | .kJr ..
  | .kAdd .. | .kSub .. | .kMul .. | .kAnd .. | .kOr ..
  | .kXor .. | .kShl .. | .kShr .. | .kSra .. | .kMin ..
  | .kMax .. | .kMinu .. | .kMaxu .. | .kCmp .. | .kLi ..
  | .kBell .. | .kSelf .. | .kFailrd .. | .kDset .. | .kDget ..
  | .kDadd .. | .kWaitc .. | .kFenceLocal .. | .kFenceFold .. | .kFenceGlobal ..
  | .kWaitbell .. | .illegalInstruction .. =>
    [.out, .regs, .strands, .drovers, .log, .irqs]
  | .strandEnd .. =>
    [.out, .regs, .mem, .dramPoison, .fold, .foldPoison, .lines, .banks, .strands, .chans, .drams, .log, .dramUe, .irqs]
  | .kLd .. | .kSt .. | .kDld .. | .kDst .. | .kAadd ..
  | .kAmin .. | .kAmax .. | .kAxch .. | .kAcas .. | .kAacc ..
  | .kSettle .. | .kFrange .. | .kTtouch .. =>
    [.out, .regs, .mem, .ranges, .strands, .drovers, .ops, .nextOp, .xl, .log, .irqs, .siteReqs, .sites]
  | .kMove .. | .kGather .. | .kScatter .. | .kGraze .. | .kCompact ..
  | .kIsect .. | .kUnion .. | .kMerge .. | .kSegredSum .. | .kSegredMin ..
  | .kSegredMax .. | .kSegredMean .. | .kEbag .. | .kHist .. | .kTopkLargest ..
  | .kTopkSmallest .. =>
    [.out, .regs, .mem, .strands, .drovers, .ops, .nextOp, .xl, .log, .irqs]
  | .selectionStoreGrant .. =>
    [.drovers, .ops]
  | .kPut .. | .kGet .. | .kRacc .. =>
    [.out, .regs, .mem, .strands, .drovers, .ops, .nextOp, .xl, .log, .irqs, .fab]
  | .kRatomAdd .. | .kRatomMin .. | .kRatomMax .. | .kRatomExchange .. | .kRatomCas ..
  | .kSignal .. =>
    [.out, .regs, .strands, .drovers, .ops, .nextOp, .xl, .log, .irqs, .fab]
  | .kAt .. =>
    [.out, .regs, .strands, .drovers, .ops, .nextOp, .xl, .log, .irqs]
  | .atIssue .. | .xlDefer .. | .xlFail .. =>
    [.out, .regs, .mem, .ranges, .strands, .drovers, .ops, .nextOp, .xl, .log, .irqs, .siteReqs, .fab, .sites]
  | .fetchLine .. =>
    [.out, .regs, .mem, .dramPoison, .fold, .foldPoison, .lines, .banks, .strands, .drovers, .chans, .drams, .log,
     .dramUe, .irqs]
  | .operationComplete .. | .xlFill .. | .xlResume .. =>
    [.out, .regs, .mem, .dramPoison, .fold, .foldPoison, .lines, .banks, .ranges, .strands, .drovers, .ops, .nextOp, .xl,
     .chans, .drams, .log, .dramUe, .irqs, .siteReqs, .fab, .sites]
  | .chunkCommit .. | .getReply .. =>
    [.out, .free, .regs, .mem, .dramPoison, .fold, .foldPoison, .lines, .banks, .strands, .drovers, .ops, .xl, .chans,
     .drams, .log, .dramUe, .irqs, .siteReqs, .fab, .sites]
  | .doorbellWindowSubmit .. | .siteDoorbell .. =>
    [.out, .free, .regs, .mem, .ranges, .strands, .drovers, .ops, .nextOp, .xl, .log, .irqs, .siteReqs, .penGated, .sites]
  | .preempt .. =>
    [.regs, .strands]
  | .contextSave .. | .fencedContextSave .. =>
    [.out, .regs, .mem, .dramPoison, .fold, .foldPoison, .lines, .banks, .strands, .drovers, .ops, .xl, .chans, .drams,
     .log, .dramUe, .irqs, .savedXfers]
  | .detachedComplete .. =>
    [.out, .regs, .mem, .dramPoison, .fold, .foldPoison, .lines, .banks, .strands, .ops, .xl, .chans, .drams, .log,
     .dramUe, .irqs, .fab]
  | .droverFence .. | .watchdogExpiry .. | .tallyFence .. =>
    [.out, .regs, .strands, .drovers, .ops, .xl, .tally, .log, .irqs]
  | .tallyCopyUpdate .. =>
    [.tally]
  | .rebind .. =>
    [.regs, .tally, .irqs]
  | .rebindTakeEffect .. =>
    [.out, .regs, .tally, .log, .irqs]
  | .transferPark .. | .shootdown .. | .shootdownDone .. =>
    [.out, .regs, .mem, .dramPoison, .fold, .foldPoison, .lines, .banks, .strands, .drovers, .ops, .nextOp, .xl, .chans,
     .drams, .log, .dramUe, .irqs]
  | .bankRequest .. =>
    [.out, .regs, .mem, .dramPoison, .fold, .foldPoison, .lines, .banks, .strands, .ops, .chans, .drams, .log, .dramUe,
     .irqs, .fab, .penGated]
  | .foldFill .. =>
    [.out, .regs, .mem, .dramPoison, .fold, .foldPoison, .lines, .banks, .ranges, .strands, .ops, .chans, .drams, .log,
     .dramUe, .irqs, .fab, .penGated]
  | .mergeBufferExpiry .. | .foldScrubWindow .. =>
    [.banks]
  | .slotConversionDone .. | .cacheDisableDone .. =>
    [.out, .regs, .mem, .dramPoison, .fold, .foldPoison, .lines, .banks, .ways, .strands, .ops, .chans, .drams, .log,
     .dramUe, .irqs, .fab, .penGated]
  | .wayPowerDown .. =>
    [.out, .regs, .mem, .dramPoison, .fold, .foldPoison, .lines, .ways, .chans, .drams, .log, .dramUe, .irqs]
  | .wayPowerUp .. =>
    [.regs, .fold, .foldPoison, .ways]
  | .frClean .. | .frInvalidate .. | .frCleanInv .. | .frZero .. | .frPin ..
  | .frUnpin .. =>
    [.regs, .ranges]
  | .rangeEngineStart .. | .rangeComplete .. =>
    [.out, .regs, .mem, .dramPoison, .fold, .foldPoison, .lines, .banks, .ranges, .ops, .nextOp, .chans, .drams, .log,
     .dramUe, .irqs, .sites]
  | .foldScrubPass .. =>
    [.out, .regs, .foldPoison, .banks, .bell, .log, .irqs, .fab, .penGated]
  | .dramRequest .. =>
    [.out, .chans]
  | .dramDataReturn .. =>
    [.out, .regs, .banks, .chans, .log, .dramUe, .irqs]
  | .dramRefresh .. =>
    [.chans, .drams]
  | .dramPatrolScrub .. =>
    [.out, .regs, .chans, .log, .dramUe, .irqs]
  | .recentreAnnounce .. =>
    [.out, .regs, .chans, .drams, .bell, .log, .irqs, .fab]
  | .recentreWindow .. =>
    [.out, .free, .regs, .chans, .drams, .bell, .log, .irqs, .fab]
  | .forcedRetrain .. =>
    [.regs, .chans]
  | .dramCaParity .. =>
    [.chans]
  | .retrainComplete .. | .chanRetire .. =>
    [.out, .regs, .mem, .dramPoison, .lines, .banks, .chans, .drams, .log, .dramUe, .irqs]
  | .chanRetrain .. =>
    [.regs, .chans, .irqs]
  | .walkerRingResume .. =>
    [.regs, .mem, .xl, .irqs]
  | .xlShadowFill .. | .xlShadowClear .. =>
    [.regs, .xl]
  | .migFetch .. | .migEvict .. | .migrationPiece .. =>
    [.out, .regs, .mem, .dramPoison, .fold, .foldPoison, .lines, .banks, .xl, .chans, .drams, .log, .dramUe, .irqs]
  | .migrationDone .. =>
    [.regs, .xl, .irqs]
  | .laserPoll .. | .laserPresenceChange .. | .laneJudge .. | .laneRemoval .. | .optLaserEnable ..
  | .portBufferStall .. | .neighbourLossOfSignal .. | .dataFlit .. | .faultNotice .. | .thermalNotice .. =>
    [.out, .regs, .log, .irqs, .fab]
  | .laneLossOfSignal .. | .acknowledge .. | .flitResendTimeout .. | .credit .. | .releaseNotice .. =>
    [.fab]
  | .optRemoveLane .. | .optRetrainLane .. | .laneRetrainDone .. | .optPortDisable .. | .optPortEnable ..
  | .optLaserDisable .. | .musterForceRelease .. =>
    [.regs, .irqs, .fab]
  | .portTrainingDone .. | .neighbourReacquire .. | .windowAnnouncement .. =>
    [.out, .regs, .bell, .log, .irqs, .fab]
  | .portBroken .. =>
    [.out, .free, .regs, .log, .irqs, .fab]
  | .flitSlot .. =>
    [.out, .regs, .fab]
  | .laneNotice .. =>
    [.free, .fab]
  | .musterMessage .. | .musterRelease .. =>
    [.out, .regs, .mem, .dramPoison, .fold, .foldPoison, .lines, .banks, .strands, .chans, .drams, .log, .dramUe, .irqs,
     .fab]
  | .meshPacket .. =>
    [.out, .regs, .ops, .log, .irqs, .fab]
  | .routerFault .. | .stuckPacket .. =>
    [.out, .regs, .strands, .drovers, .ops, .xl, .tally, .log, .irqs, .fab]
  | .seamBundleLost .. | .siteAlert .. | .recordClose .. | .bucketRefill .. | .errAck ..
  | .logFwWrite .. =>
    [.out, .regs, .log, .irqs]
  | .inboundPut .. | .inboundGet .. | .inboundRacc .. | .inboundRatom .. | .inboundSignal .. =>
    [.out, .regs, .mem, .dramPoison, .fold, .foldPoison, .lines, .banks, .strands, .xl, .chans, .drams, .log, .dramUe,
     .irqs, .siteReqs, .fab, .sites]
  | .ratomReply .. | .signalReply .. =>
    [.regs, .strands, .ops, .xl, .fab]
  | .remoteAck .. | .issuerReplyTimeout .. =>
    [.regs, .strands, .drovers, .ops, .xl, .fab]
  | .requestExpiry .. =>
    [.out, .regs, .xl, .log, .irqs, .fab]
  | .siteRead .. | .siteWrite .. | .siteAtomic .. | .siteAccum .. | .siteSettle ..
  | .siteRange .. =>
    [.out, .regs, .mem, .dramPoison, .fold, .foldPoison, .lines, .banks, .ranges, .strands, .chans, .drams, .log, .dramUe,
     .irqs, .fab, .sites, .siteHeld]
  | .siteMailbox .. =>
    [.out, .regs, .irqs, .sites, .mboxes]
  | .swData .. | .swDone .. | .siteReplyTimeout .. =>
    [.out, .free, .regs, .mem, .dramPoison, .fold, .foldPoison, .lines, .banks, .strands, .drovers, .ops, .xl, .chans,
     .drams, .log, .dramUe, .irqs, .siteReqs, .fab, .sites, .mboxes]
  | .linkControl .. | .siteLevelUpdate .. | .sitePacket .. =>
    [.out, .regs, .sites]
  | .checkPattern .. | .faultFrame .. =>
    [.sites]
  | .slpRetryTimeout .. =>
    [.out, .regs]
  | .bundleRepair .. | .siteClose .. | .capabilityFrame .. | .siteRailFault .. =>
    [.out, .free, .regs, .mem, .dramPoison, .fold, .foldPoison, .lines, .banks, .ranges, .strands, .drovers, .ops, .xl,
     .chans, .drams, .log, .dramUe, .irqs, .siteReqs, .fab, .sites, .siteHeld, .mboxes]
  | .siteRepair .. | .temperatureFrame .. =>
    [.regs, .sites]
  | .handshakeTimeout .. | .siteTempStale .. =>
    [.out, .regs, .log, .irqs, .sites]
  | .dfpIdentify .. | .dfpStatus .. | .sidebandRepeat .. | .icmpv6Echo .. =>
    [.out]
  | .dfpSessionOpen .. | .dfpGetNonce .. | .dfpRegRead .. | .dfpAttest .. =>
    [.out, .free, .crook]
  | .dfpSessionClose .. | .dfpLogRead .. | .dfpEventSubscribe .. =>
    [.out, .crook]
  | .sessionTimeout .. | .nonceExpiry .. | .testLogicReset .. =>
    [.crook]
  | .dfpMboxPost .. =>
    [.out, .regs, .irqs, .siteReqs, .sites, .mboxes, .crook]
  | .dfpRecordWrite .. | .dfpImageCommit .. =>
    [.out, .regs, .log, .irqs, .mram, .flash, .crook]
  | .dfpCounterClear .. =>
    [.out, .regs, .log, .irqs, .mram, .crook]
  | .dfpFallowExit .. =>
    Part.others [.pending, .nextOp, .down, .flash, .ports]
  | .dfpLifecycle .. =>
    Part.others [.pending, .nextOp, .bell, .tally, .penClock, .savedXfers, .zones, .move, .waking, .down, .resetting,
     .ports, .trace]
  | .zeroiseComplete .. =>
    [.out, .free, .regs, .mem, .dramPoison, .fold, .foldPoison, .lines, .banks, .ranges, .strands, .drovers, .ops,
     .nextOp, .xl, .chans, .drams, .log, .dramUe, .irqs, .closed, .resetPaddocks, .siteReqs, .fab, .penGated, .sites,
     .siteHeld, .zeroPads, .mram, .crook]
  | .dfpDebugToken .. | .tokenExpiry .. | .tapIdcode .. | .tapBypass .. | .tapDbgToken ..
  | .tapDbgLevel .. | .tapTrace .. | .tapDtm .. =>
    [.out, .regs, .log, .irqs, .crook]
  | .dfpRestartManagement .. | .mgmtMemUe .. | .runtimeCheckFailed .. =>
    [.out, .regs, .log, .irqs, .sites, .mboxes, .crook]
  | .dfpRestartPaddock .. | .dfpRestartModule .. | .droverReset .. | .penReset .. | .paddockReset ..
  | .paddockResetZeroise .. | .moduleReset .. =>
    Part.others [.pending, .nextOp, .loaded, .down, .mram, .flash, .ports]
  | .dfpImageWrite .. =>
    [.out, .flash, .crook]
  | .mboxGo .. | .siteRelease .. =>
    [.out, .regs, .irqs, .siteReqs, .sites, .mboxes]
  | .mboxAck .. =>
    [.out, .regs, .sites, .mboxes]
  | .tapExtest .. | .tapSamplePreload .. | .tapDbgNonce .. =>
    [.out, .free, .regs, .log, .irqs, .crook]
  | .traceCtlWrite .. =>
    [.regs, .crook, .trace]
  | .traceRecord .. =>
    [.free, .regs, .trace]
  | .traceSample .. =>
    [.free, .regs, .crook, .trace]
  | .powerFail .. | .inputOvervoltage .. | .powerTransition .. | .thermalShutdown .. =>
    Part.others [.pending, .nextOp, .flash]
  | .auxPowerGood .. =>
    [.regs, .log, .down]
  | .pwrCmdP0 .. | .pwrCmdP1 .. | .pwrCmdP2 .. | .pwrCmdP3 .. | .pwrCmdP4 .. =>
    [.regs, .fab, .move]
  | .penClockGate .. =>
    [.penGated]
  | .zoneSample .. =>
    [.out, .regs, .log, .irqs, .zones]
  | .zoneStateChange .. =>
    [.out, .free, .regs, .mem, .dramPoison, .fold, .foldPoison, .lines, .banks, .ranges, .strands, .drovers, .ops, .xl,
     .chans, .drams, .log, .dramUe, .irqs, .siteReqs, .fab, .sites, .siteHeld, .mboxes, .zones]
  | .stageS0 .. =>
    Part.others [.pending, .nextOp, .zones, .down, .ports]
  | .stageS1 .. | .stageS2 .. | .stageS3 .. | .stageS4 .. =>
    Part.others [.pending, .nextOp, .loaded, .zones, .down, .flash, .ports]
  | .startRetry .. =>
    Part.others [.pending, .nextOp, .down, .mram, .flash, .ports]
  | .resetRelease .. =>
    [.out, .regs, .mem, .dramPoison, .fold, .foldPoison, .lines, .banks, .ranges, .strands, .drovers, .ops, .nextOp, .xl,
     .chans, .drams, .log, .dramUe, .irqs, .closed, .resetPaddocks, .siteReqs, .fab, .penGated, .sites, .siteHeld,
     .resetting, .zeroPads]
  | .linkControlTimer .. =>
    [.out, .sites]
  | .neighborDiscovery .. | .datagramDiscard .. | .autoNegotiation .. =>
    [.out, .ports]
  | .inputRemoval .. =>
    [.down]

/-- The instruction a command of an instruction's row issues, with its second word or 0: the strand, the fields of the
first word, the second word. The rows of `FENCE`, `RATOM`, `SEGRED` and `TOPK` name the variant or code. -/
def issueOf : Instr → Option (Issue × KInstr × Word)
  | .kAdd w o => some (w, .alu .add o, 0)
  | .kSub w o => some (w, .alu .sub o, 0)
  | .kMul w o => some (w, .alu .mul o, 0)
  | .kAnd w o => some (w, .alu .and o, 0)
  | .kOr w o => some (w, .alu .or o, 0)
  | .kXor w o => some (w, .alu .xor o, 0)
  | .kShl w o => some (w, .alu .shl o, 0)
  | .kShr w o => some (w, .alu .shr o, 0)
  | .kSra w o => some (w, .alu .sra o, 0)
  | .kMin w o => some (w, .alu .min o, 0)
  | .kMax w o => some (w, .alu .max o, 0)
  | .kMinu w o => some (w, .alu .minu o, 0)
  | .kMaxu w o => some (w, .alu .maxu o, 0)
  | .kCmp w o => some (w, .alu .cmp o, 0)
  | .kNop w o => some (w, .sync .nop o, 0)
  | .kEnd w o => some (w, .sync .stop o, 0)
  | .kBr w o => some (w, .br o, 0)
  | .kLoop w o => some (w, .loop o, 0)
  | .kJr w o => some (w, .jr o, 0)
  | .kLi w ga imm => some (w, .li ga, imm)
  | .kBell w o => some (w, .sync .bell o, 0)
  | .kSelf w o => some (w, .sync .self o, 0)
  | .kFailrd w o => some (w, .sync .failrd o, 0)
  | .kWaitc w o => some (w, .sync .waitc o, 0)
  | .kWaitbell w o => some (w, .sync .waitbell o, 0)
  | .kFenceLocal w o => some (w, .sync .fence { o with varnt := 0 }, 0)
  | .kFenceFold w o => some (w, .sync .fence { o with varnt := 1 }, 0)
  | .kFenceGlobal w o => some (w, .sync .fence { o with varnt := 2 }, 0)
  | .kAt w o p => some (w, .sync .at_ o, pairWord p)
  | .kDset w o => some (w, .dfld .dset o, 0)
  | .kDget w o => some (w, .dfld .dget o, 0)
  | .kDadd w o => some (w, .dfld .dadd o, 0)
  | .kLd w o => some (w, .mem .ld o, 0)
  | .kSt w o => some (w, .mem .st o, 0)
  | .kAadd w o => some (w, .mem .aadd o, 0)
  | .kAmin w o => some (w, .mem .amin o, 0)
  | .kAmax w o => some (w, .mem .amax o, 0)
  | .kAxch w o => some (w, .mem .axch o, 0)
  | .kAcas w o => some (w, .mem .acas o, 0)
  | .kAacc w o => some (w, .mem .aacc o, 0)
  | .kSettle w o => some (w, .mem .settle o, 0)
  | .kFrange w o => some (w, .mem .frange o, 0)
  | .kTtouch w o => some (w, .mem .ttouch o, 0)
  | .kSignal w o => some (w, .mem .signal o, 0)
  | .kRatomAdd w o => some (w, .mem .ratom { o with imm := 0 }, 0)
  | .kRatomMin w o => some (w, .mem .ratom { o with imm := 1 }, 0)
  | .kRatomMax w o => some (w, .mem .ratom { o with imm := 2 }, 0)
  | .kRatomExchange w o => some (w, .mem .ratom { o with imm := 3 }, 0)
  | .kRatomCas w o => some (w, .mem .ratom { o with imm := 4 }, 0)
  | .kDld w o => some (w, .xfer .dld o, 0)
  | .kDst w o => some (w, .xfer .dst o, 0)
  | .kMove w o => some (w, .xfer .move o, 0)
  | .kGather w o => some (w, .xfer .gather o, 0)
  | .kScatter w o => some (w, .xfer .scatter o, 0)
  | .kGraze w o => some (w, .xfer .graze o, 0)
  | .kCompact w o => some (w, .xfer .compact o, 0)
  | .kIsect w o => some (w, .xfer .isect o, 0)
  | .kUnion w o => some (w, .xfer .union o, 0)
  | .kMerge w o => some (w, .xfer .merge o, 0)
  | .kEbag w o => some (w, .xfer .ebag o, 0)
  | .kHist w o => some (w, .xfer .hist o, 0)
  | .kPut w o => some (w, .xfer .put o, 0)
  | .kGet w o => some (w, .xfer .get o, 0)
  | .kRacc w o => some (w, .xfer .racc o, 0)
  | .kSegredSum w o => some (w, .xfer .segred { o with gx := 0 }, 0)
  | .kSegredMin w o => some (w, .xfer .segred { o with gx := 1 }, 0)
  | .kSegredMax w o => some (w, .xfer .segred { o with gx := 2 }, 0)
  | .kSegredMean w o => some (w, .xfer .segred { o with gx := 3 }, 0)
  | .kTopkLargest w o => some (w, .xfer .topk { o with gx := 0 }, 0)
  | .kTopkSmallest w o => some (w, .xfer .topk { o with gx := 1 }, 0)
  | _ => none

/-- The opcode of an instruction of format 0x3 or 0x4 admits its format (Table 4.3). -/
def KInstr.formed : KInstr → Bool
  | .xfer c _ => usesXfer c
  | .mem c _ => !usesXfer c
  | _ => true

/-- An instruction and its second word stand at the address of a strand in the instruction store; the strand is ready,
and its turn has come (R70, R71). -/
def State.offers (s : State) (w : Issue) (i : KInstr) (ext : Word) : Prop :=
  s.fetched w.drover w.strand = some (i.word w.pn w.pg, ext) ∧ s.ready w.drover w.strand = true ∧
  s.myTurn w.drover w.strand = true

/-- A ready strand's instruction, its turn come, is legal and its predicate true: so it executes (R106, R109). -/
def State.issues (s : State) (w : Issue) (i : KInstr) (ext : Word) : Prop :=
  s.offers w i ext ∧ keisIllegal (i.word w.pn w.pg) ext = false ∧
  (s.strand w.drover w.strand).pred w.pn w.pg = true

/-- The command is an instruction's, which its strand offers. -/
def State.offered (s : State) (c : Instr) : Prop :=
  match issueOf c with
  | some (w, i, ext) => s.offers w i ext
  | none => False

/-- The command is an instruction's, and that instruction executes. -/
def State.executes (s : State) (c : Instr) : Prop :=
  match issueOf c with
  | some (w, i, ext) => s.issues w i ext
  | none => False

/-- The register that counts the instructions a Drover has issued. -/
def issuedReg (w : Issue) : Nat := (Fd.dbgIssued (penOf w.drover) (w.drover.val % 8)).addr

/-- One instruction more is counted as issued by the Drover, and no other register changes. -/
def CountsIssue (w : Issue) (s t : State) : Prop :=
  t.reg (issuedReg w) = s.reg (issuedReg w) + 1 ∧ RegsBut [issuedReg w] s t

/-- The strand after the command's is first in its Drover's turn, and no Drover changes otherwise (R71). -/
def PassesTurn (w : Issue) (s t : State) : Prop :=
  t.drv w.drover = { s.drv w.drover with turn := (w.strand.val + 1) % 8 } ∧ ∀ d, d ≠ w.drover.val → t.drv d = s.drv d

/-- The command leaves strand k of Drover d as x, counts an issue, passes the turn, and changes nothing else. -/
def Leaves (c : Instr) (w : Issue) (s : State) (x : Strand) : Prop :=
  ∃ t, exec c s = .next t ∧ t.strand w.drover w.strand = x ∧ StrandsBut w.drover w.strand s t ∧ CountsIssue w s t ∧
    PassesTurn w s t ∧ Keeps [.strands, .regs, .drovers] s t

/-- The same, the strand running on `len` bytes further (R71). -/
def Retires (c : Instr) (w : Issue) (s : State) (len : Nat) (x : Strand) : Prop :=
  Leaves c w s { x with pc := x.pc + BitVec.ofNat 48 len, phase := phRunning }

/-- The command raises a strand fault: g1 takes the instruction's address, `FIRST_FAIL` the status if it was 0, and the
strand is `ENDING`; the turn passes, an event is recorded, and nothing else changes (R115, R116). -/
def Faults (c : Instr) (w : Issue) (s : State) (st : Nat) : Prop :=
  let x := s.strand w.drover w.strand
  ∃ t, exec c s = .next t ∧
    t.strand w.drover w.strand = { (x.wg 1 (x.pc.setWidth 64)).offer st with phase := phEnding, wait := none } ∧
    StrandsBut w.drover w.strand s t ∧ PassesTurn w s t ∧ Keeps [.strands, .regs, .drovers, .log, .out, .irqs] s t

/-- A condition of Table 4.5. -/
def condTrue (code : Nat) (a b : Word) : Prop :=
  match code with
  | 0 => a = b
  | 1 => a ≠ b
  | 2 => a.toInt < b.toInt
  | 3 => b.toInt ≤ a.toInt
  | 4 => a.toNat < b.toNat
  | 5 => b.toNat ≤ a.toNat
  | 6 => True
  | _ => False

/-- The command issues an operation: its strand goes on at the next instruction, and the operation with the next number
is in flight as q; no other operation, strand, memory, line or channel changes (R73, R117). -/
def Begins (c : Instr) (w : Issue) (s : State) (q : Op → Prop) : Prop :=
  let x := s.strand w.drover w.strand
  ∃ t op, exec c s = .next t ∧ t.op? s.nextOp = some op ∧ q op ∧ (∀ n, n ≠ s.nextOp → t.op? n = s.op? n) ∧
    t.strand w.drover w.strand = { x with pc := x.pc + 8, phase := phRunning } ∧
    StrandsBut w.drover w.strand s t ∧ PassesTurn w s t ∧ Keeps [.strands, .regs, .drovers, .ops, .nextOp, .xl] s t

/-- The command answers a next state of which P holds. -/
def Completes (c : Instr) (s : State) (P : State → Prop) : Prop := ∃ t, exec c s = .next t ∧ P t

/-- A strand after one of its operations completes (R138, R139, R116): the counter cn rises by k, gs takes the status
word, and a status that is not `OK` is offered to `FIRST_FAIL`. -/
def Strand.completed (x : Strand) (cn : Option Nat) (k gs st reason hi : Nat) : Strand :=
  let y := (match cn with
    | some c => x.raise c (BitVec.ofNat 32 k)
    | none => x).wg gs (statusWord st (if st = stRefused then reason else 0) hi)
  if st = stOk then y else y.offer st

end Sys2Proof.Machine
end

