-- ==== Sys2Proof/WellFormed.lean ====
section
/-! DEFINITION. WellFormed.lean: which commands the world outside can send: the lengths that the layouts of flits,
packets, records and site commands fix, and the operands that an `AT` pair or a port can carry. -/
namespace Sys2Proof

/-- A data flit: 224 payload bytes, of which at most 224 are valid, and a type that an arriving data flit has (R361,
Table 12.2). -/
def Flit.wf (f : Flit) : Bool := f.payload.length = 224 && f.bytes.toNat ≤ 224 && (f.kind = 1 || f.kind = 2)

/-- A site command: it carries whole sectors, one to eight (Table 14.5). -/
def SiteCmd.wf (c : SiteCmd) : Bool := c.data.length % 32 = 0 && c.data.length ≤ 256 && 1 ≤ c.packets

/-- A remote request: one chunk of at most 4,096 bytes (R394). -/
def RemReq.wf (r : RemReq) : Bool := r.data.length ≤ 4096

/-- A request at a bank: one to 128 bytes, all of one line (R215). -/
def BankReq.wf (r : BankReq) : Bool :=
  match r.ask with
  | .read n => 1 ≤ n && r.addr.toNat % 128 + n ≤ 128
  | .write d => 1 ≤ d.length && r.addr.toNat % 128 + d.length ≤ 128
  | .operation _ => true

/-- A link-control body returns credits for the eight channels (Table 14.7). -/
def LinkCtl.wf (l : LinkCtl) : Bool := l.credits.length = 8

/-- The word after an `AT`: an operation whose format carries it (Table 4.3, R124). -/
def PairOp.wf : PairOp → Bool
  | .xfer c _ _ => [OpCode.dld, .dst, .move, .gather, .scatter, .graze, .compact, .isect, .union, .merge, .segred, .ebag, .hist,
      .topk, .put, .get, .racc].contains c
  | .mem c _ _ => [OpCode.ld, .st, .aadd, .amin, .amax, .axch, .acas, .aacc, .settle, .ratom, .signal, .frange, .ttouch].contains c
  | .other _ => true

/-- Record section codes (R585). -/
def RecordSection.wf (x : RecordSection) : Bool := x.content.keys.all fun e => e.1 < 16

/-- A reading of a laser source names its eight outputs (R345). -/
def LaserReading.wf (r : LaserReading) : Bool := r.drops.length = 8

/-- Whether a command is one that can be sent. -/
def Instr.wf : Instr → Bool
  | .bankRequest r => r.wf
  | .dataFlit _ _ f _ => f.wf
  | .inboundPut r => r.wf
  | .inboundGet r => r.wf
  | .inboundRacc r => r.wf
  | .inboundRatom r => r.wf
  | .inboundSignal r => r.wf
  | .getReply _ _ _ d _ => d.length ≤ 4096
  | .migrationPiece _ d _ => d.length ≤ 4096
  | .siteRead c => c.wf
  | .siteWrite c => c.wf
  | .siteAtomic c => c.wf
  | .siteAccum c => c.wf
  | .siteSettle c => c.wf
  | .siteRange c => c.wf
  | .siteDoorbell c => c.wf
  | .siteMailbox c => c.wf
  | .swData _ _ n _ _ d _ => d.length % 32 = 0 && d.length ≤ 256 && 1 ≤ n
  | .linkControl _ _ l => l.wf
  | .kAt _ _ p => p.wf
  | .laserPoll _ r => r.wf
  | .dfpRecordWrite _ _ x _ => x.wf
  | .dfpConfigCommit _ _ ps _ _ => ps.length ≤ 75
  | .dfpRegRead _ as => as.length ≤ 144
  | .dfpRegWrite _ ps => ps.length ≤ 72
  | .zoneSample _ rs _ => 1 ≤ rs.length
  | _ => true

end Sys2Proof
end

