-- ==== Sys2Proof/Certificates/Slice0/Obligations.lean ====
section
/-! DEFINITION. Certificates/Slice0/Obligations.lean: the statements for the provers. -/
open Sys2Proof Sys2Proof.Machine

/-- R112, Table 4.4: the results of the arithmetic instructions. -/
def Obligations.ArithmeticResults : Prop := ∀ (w : Issue) (o : AluOps) (s : State),
  let x := s.strand w.drover w.strand
  let a := x.rg o.gb.toNat
  let b := x.src2 o.src
  let gives (c : Instr) (v : Word) := s.executes c → Retires c w s 8 (x.wg o.ga.toNat v)
  gives (.kAdd w o) (BitVec.ofNat 64 (a.toNat + b.toNat)) ∧
  gives (.kSub w o) (BitVec.ofInt 64 (a.toInt - b.toInt)) ∧
  gives (.kMul w o) (BitVec.ofNat 64 (a.toNat * b.toNat)) ∧
  gives (.kAnd w o) (a &&& b) ∧
  gives (.kOr w o) (a ||| b) ∧
  gives (.kXor w o) (a ^^^ b) ∧
  gives (.kShl w o) (BitVec.ofNat 64 (a.toNat * 2 ^ (b.toNat % 64))) ∧
  gives (.kShr w o) (BitVec.ofNat 64 (a.toNat / 2 ^ (b.toNat % 64))) ∧
  gives (.kSra w o) (BitVec.ofInt 64 (a.toInt / 2 ^ (b.toNat % 64))) ∧
  gives (.kMin w o) (if a.toInt < b.toInt then a else b) ∧
  gives (.kMax w o) (if a.toInt < b.toInt then b else a) ∧
  gives (.kMinu w o) (if a.toNat < b.toNat then a else b) ∧
  gives (.kMaxu w o) (if a.toNat < b.toNat then b else a)

/-- R113, Table 4.5: conditions. An instruction runs that its strand offers, under a predicate that is legal and true. -/
def Obligations.ConditionsCompare : Prop :=
  (∀ (w : Issue) (o : AluOps) (s : State),
    let x := s.strand w.drover w.strand
    let c := Instr.kCmp w o
    let runs := s.offered c ∧ (w.pn = true → w.pg ≠ 0) ∧ x.pred w.pn w.pg = true
    let p := condTrue o.cond.toNat (x.rg o.gb.toNat) (x.src2 o.src)
    let legal := o.cond.toNat ≤ 6 ∧ (o.cond = 6 → o.gb = 0 ∧ srcIsZero o.src = true)
    (runs → legal → p → Retires c w s 8 (x.wg o.ga.toNat 1)) ∧
    (runs → legal → ¬p → Retires c w s 8 (x.wg o.ga.toNat 0)) ∧
    (s.offered c → ¬legal → Faults c w s stIllegal)) ∧
  (∀ (w : Issue) (o : BrOps) (s : State),
    let x := s.strand w.drover w.strand
    let c := Instr.kBr w o
    let runs := s.offered c ∧ (w.pn = true → w.pg ≠ 0) ∧ x.pred w.pn w.pg = true
    let p := condTrue o.cond.toNat (x.rg o.ga.toNat) (x.rg o.gb.toNat)
    let legal := o.cond.toNat ≤ 6 ∧ (o.cond = 6 → o.ga = 0 ∧ o.gb = 0)
    let target := x.pc.setWidth 64 + 8 * sext o.offset
    (runs → legal → p → targetOk target = true →
      Leaves c w s { x with pc := target.setWidth 48, phase := phRunning }) ∧
    (runs → legal → p → targetOk target = false → Faults c w s stFetchAddr) ∧
    (runs → legal → ¬p → Retires c w s 8 x) ∧
    (s.offered c → ¬legal → Faults c w s stIllegal))

/-- R112, Table 4.4: the other instructions that write one register, `NOP` and `END`. -/
def Obligations.RegisterAndControlResults : Prop := ∀ (w : Issue) (o : SyncOps) (ga : BitVec 5) (imm : BitVec 64) (s : State),
  let x := s.strand w.drover w.strand
  (s.executes (.kLi w ga imm) → Retires (.kLi w ga imm) w s 16 (x.wg ga.toNat imm)) ∧
  (s.executes (.kBell w o) → Retires (.kBell w o) w s 8 (x.wg o.ga.toNat s.bellCount)) ∧
  (s.executes (.kSelf w o) →
    Retires (.kSelf w o) w s 8 (x.wg o.ga.toNat (BitVec.ofNat 64 (s.rd Fd.fabGeomDevice * 2 ^ 48 +
      s.logicalOf w.drover * 2 ^ 40 + w.strand.val * 2 ^ 37 + s.rd Fd.tallyStatusGeneration * 2 ^ 16)))) ∧
  (s.executes (.kFailrd w o) →
    Retires (.kFailrd w o) w s 8 { x.wg o.ga.toNat (x.firstFail.setWidth 64) with firstFail := 0 }) ∧
  (s.executes (.kNop w o) → Retires (.kNop w o) w s 8 x) ∧
  (s.executes (.kEnd w o) → Leaves (.kEnd w o) w s { x with phase := phEnding })

/-- R112, R115: `LOOP` and `JR`, and the strand fault of a bad target. -/
def Obligations.LoopsAndJumps : Prop :=
  (∀ (w : Issue) (o : BrOps) (s : State),
    let x := s.strand w.drover w.strand
    let v := if o.ga = 0 then 0 else x.rg o.ga.toNat - 1
    let target := x.pc.setWidth 64 + 8 * sext o.offset
    let c := Instr.kLoop w o
    s.executes c →
    (v = 0 → Retires c w s 8 (x.wg o.ga.toNat v)) ∧
    (v ≠ 0 → targetOk target = true →
      Leaves c w s { x.wg o.ga.toNat v with pc := target.setWidth 48, phase := phRunning }) ∧
    (v ≠ 0 → targetOk target = false → Faults c w s stFetchAddr)) ∧
  (∀ (w : Issue) (o : JrOps) (s : State),
    let x := s.strand w.drover w.strand
    let target := x.rg o.gb.toNat
    let c := Instr.kJr w o
    s.executes c →
    (targetOk target = true →
      Leaves c w s { x.wg o.ga.toNat (x.pc.setWidth 64 + 8) with pc := target.setWidth 48, phase := phRunning }) ∧
    (targetOk target = false → Faults c w s stFetchAddr))

/-- R119: the descriptor instructions. -/
def Obligations.DescriptorFieldInstructions : Prop := ∀ (w : Issue) (o : DfldOps) (s : State),
  let x := s.strand w.drover w.strand
  let width := 8 * 2 ^ o.w.toNat
  let at_ := 8 * o.off.toNat
  let field := (x.rdd o.dn.toNat).toNat / 2 ^ at_ % 2 ^ width
  let legal := o.off.toNat % 2 ^ o.w.toNat = 0
  let put (v : Nat) : Desc := setBits (x.rdd o.dn.toNat) (at_ + width - 1) at_ v
  let runs (c : Instr) := s.offered c ∧ (w.pn = true → w.pg ≠ 0) ∧ x.pred w.pn w.pg = true
  (legal →
    (runs (.kDset w o) → Retires (.kDset w o) w s 8 (x.wdd o.dn.toNat (put (x.rg o.gb.toNat).toNat))) ∧
    (runs (.kDget w o) → Retires (.kDget w o) w s 8 (x.wg o.gb.toNat (BitVec.ofNat 64 field))) ∧
    (runs (.kDadd w o) → Retires (.kDadd w o) w s 8 (x.wdd o.dn.toNat (put (field + (x.rg o.gb.toNat).toNat))))) ∧
  (¬legal → ∀ c ∈ [Instr.kDset w o, .kDget w o, .kDadd w o], s.offered c → Faults c w s stIllegal)

/-- R121, R122, R123: the waits, released at once when they are over. -/
def Obligations.WaitInstructions : Prop := ∀ (w : Issue) (o : SyncOps) (s : State),
  let d := w.drover.val
  let k := w.strand.val
  let x := s.strand d k
  let v := (x.rg o.ga.toNat + sext o.imm).setWidth 32
  let b := x.rg o.ga.toNat + sext o.imm
  let waits (c : Instr) (wt : Wait) := Leaves c w s { x with wait := some wt, phase := phStalled }
  let goesOn (c : Instr) (y : Strand) := Retires c w s 8 { y with wait := none }
  (s.executes (.kWaitc w o) →
    ((x.rc o.cn.toNat - v).toInt ≥ 0 → goesOn (.kWaitc w o) x) ∧
    ((x.rc o.cn.toNat - v).toInt < 0 → waits (.kWaitc w o) (.counter o.cn.toNat v))) ∧
  (let clear_ (n : Nat) := ∀ op ∈ s.opsOf d k, op.fences n = false
    let fence (c : Instr) (n : Nat) := s.executes c → (clear_ n → goesOn c x) ∧ (¬clear_ n → waits c (.fence n))
    fence (.kFenceLocal w o) 0 ∧ fence (.kFenceFold w o) 1 ∧ fence (.kFenceGlobal w o) 2) ∧
  (s.executes (.kWaitbell w o) →
    (s.bellState = bsUnlocked → goesOn (.kWaitbell w o) (x.offer stUnlocked)) ∧
    (s.bellState ≠ bsUnlocked → b.toNat ≤ s.bellCount.toNat → goesOn (.kWaitbell w o) x) ∧
    (s.bellState ≠ bsUnlocked → s.bellCount.toNat < b.toNat → waits (.kWaitbell w o) (.bell b)))

/-- R83, R68, R70, R115: the end of a strand, its end record, and its return to `IDLE` with all its state zero; a line of
instructions is fetched, or raises a strand fault. -/
def Obligations.StrandsFetchAndEnd : Prop := ∀ (drover : Fin 128) (strand : Fin 8) (s : State),
  let d := drover.val
  let k := strand.val
  let x := s.strand d k
  (let record := toBytes 2 (bits x.start.ctl 63 48) ++ toBytes 2 x.firstFail.toNat ++ toBytes 1 (s.logicalOf d) ++
      toBytes 1 k ++ toBytes 2 (s.rd Fd.tallyStatusGeneration) ++ toBytes 8 (x.rg 1).toNat
    let c := Instr.strandEnd drover strand
    let ends (u : State) := ∃ t, exec c s = .next t ∧ t.strand d k = {} ∧ StrandsBut d k s t ∧ Keeps [.strands] u t
    let bank := s.servedSpan (halfOf d) x.notify 16 .write;
    (x.phase = phEnding → s.opsOf d k = [] →
      (x.notify = 0 → ends s) ∧ (x.notify ≠ 0 → bank = .ok → ends (s.writeBytes x.notify record false false)) ∧
      (x.notify ≠ 0 → bank = .waits → exec c s = .next s)) ∧
    (x.phase ≠ phEnding ∨ s.opsOf d k ≠ [] → exec c s = .next s)) ∧
  (let c := Instr.fetchLine drover strand;
    (s.storeWord d x.pc.toNat = none → s.needsLine d k = some (x.pc.toNat / 128 * 128)) ∧
    (x.canIssue = false ∨ s.needsLine d k = none → exec c s = .next s) ∧
    (x.canIssue = true → ∀ a, s.needsLine d k = some a →
      let bank := s.servedSpan (halfOf d) a 128
      let read := s.touch a 128 false false
      let faults (st : Nat) := ∃ t, exec c s = .next t ∧
        t.strand d k = { (x.wg 1 (x.pc.setWidth 64)).offer st with phase := phEnding, wait := none } ∧ StrandsBut d k s t;
      (x.pc.toNat % 8 ≠ 0 ∨ isLocalMem a = false → faults stFetchAddr) ∧
      (x.pc.toNat % 8 = 0 → isLocalMem a = true →
        (bank = .ok → s.anyBad a 128 = false →
          ∃ t, exec c s = .next t ∧ t.storeLine d (a / 128) = some (read.readBytes a 128) ∧
            (∀ e, e ≠ d → t.drv e = read.drv e) ∧ Keeps [.drovers] read t) ∧
        (bank = .ok → s.anyBad a 128 = true → faults stFetchPoison) ∧
        (∀ st, bank = .fails st → faults (if st = stPoison then stFetchPoison else stFetchAddr)) ∧
        (bank = .waits → exec c s = .next s))))

/-- R68, R108: g0 reads zero and discards what is written; any other register takes it, and no other changes. -/
def Obligations.RegisterFile : Prop := ∀ (x : Strand) (n k : Nat) (v : Word),
  x.rg 0 = 0 ∧ x.wg 0 v = x ∧ (n ≠ 0 → (x.wg n v).rg n = v) ∧ (k ≠ n → (x.wg n v).rg k = x.rg k)

/-- R117, R118, R254, R264, R332: loads, stores, descriptor loads and stores, atomics, accumulation and touch issue. -/
def Obligations.MemoryOperationsIssue : Prop := ∀ (w : Issue) (s : State) (pa : Nat) (leaf : Word) (size : Nat),
  let x := s.strand w.drover w.strand
  (∀ (o : MemOps) (c : OpCode) (i : Instr),
    (c, i) ∈ [(.ld, .kLd w o), (.st, .kSt w o), (.aadd, .kAadd w o), (.amin, .kAmin w o), (.amax, .kAmax w o),
      (.axch, .kAxch w o), (.acas, .kAcas w o), (.aacc, .kAacc w o), (.ttouch, .kTtouch w o)] →
    let va := x.rg o.gp.toNat + sext o.imm
    let bytes := if c = .ld ∨ c = .st then (ldWidth? o.sub.toNat).getD 1 else (fmtOf o.sub.toNat).size
    s.executes i →
    (c = .aacc ∨ c = .ttouch ∨ va.toNat % bytes = 0) →
    s.lookup w.drover va (accOf c o.sub.toNat) = .hit pa leaf size → (isSiteWin pa = false ∨ c = .ttouch) →
    Begins i w s fun q => q.code = c ∧ q.phase = .ready ∧ q.va = va ∧ q.pa = pa ∧ q.leafAcc = leafAcc leaf ∧
      q.val = x.rg o.gv.toNat ∧ q.cmp = x.rg o.gk.toNat ∧ q.sub = o.sub.toNat ∧ q.ga = o.ga.toNat ∧
      q.drover = w.drover ∧ q.strand = w.strand ∧ q.cn = counterOf o.ce o.cn ∧ q.n = size) ∧
  (∀ (o : XferOps) (c : OpCode) (i : Instr), (c, i) ∈ [(.dld, .kDld w o), (.dst, .kDst w o)] →
    let va := x.rg o.gx.toNat
    s.executes i → va.toNat % 64 = 0 →
    s.lookup w.drover va (accOf c 0) = .hit pa leaf size → isSiteWin pa = false →
    Begins i w s fun q => q.code = c ∧ q.phase = .ready ∧ q.va = va ∧ q.pa = pa ∧ q.leafAcc = leafAcc leaf ∧
      q.data = x.rdd o.dn.toNat ∧ q.dn = o.dn.toNat ∧ q.gs = o.gs.toNat ∧ q.drover = w.drover ∧ q.strand = w.strand ∧
      q.cn = counterOf o.ce o.cn)

/-- R130, R131, R144, R145, R175, R198: the transfers on local memory issue. The descriptor must keep the rules of its
kind, and the cursor be 0 or its area translate to local memory; the transfer then runs with its N fixed and dn busy. A
`TOPK` takes its Drover's selection store too. A descriptor that breaks a rule completes at once with its status. -/
def Obligations.TransfersIssue : Prop := ∀ (w : Issue) (o : XferOps) (s : State) (c : OpCode) (gx : Nat) (i : Instr),
  (i, c, gx) ∈ [(.kMove w o, .move, o.gx.toNat), (.kGather w o, .gather, o.gx.toNat), (.kScatter w o, .scatter, o.gx.toNat),
    (.kGraze w o, .graze, o.gx.toNat), (.kCompact w o, .compact, o.gx.toNat), (.kIsect w o, .isect, o.gx.toNat),
    (.kUnion w o, .union, o.gx.toNat), (.kMerge w o, .merge, o.gx.toNat), (.kSegredSum w o, .segred, 0),
    (.kSegredMin w o, .segred, 1), (.kSegredMax w o, .segred, 2), (.kSegredMean w o, .segred, 3),
    (.kEbag w o, .ebag, o.gx.toNat), (.kHist w o, .hist, o.gx.toNat), (.kTopkLargest w o, .topk, 0),
    (.kTopkSmallest w o, .topk, 1)] →
  let x := s.strand w.drover w.strand
  let d := x.rdd o.dn.toNat
  let e := if dExt d && o.dn.toNat < 15 then x.rdd (o.dn.toNat + 1) else 0
  let ds := if c = .move && dExt d && o.dn.toNat < 15 then [o.dn.toNat, o.dn.toNat + 1] else [o.dn.toNat]
  s.executes i → (c = .topk → (s.drv w.drover).selHold = none) →
  (checkDesc c gx o.dn.toNat d e = stOk →
    (dCursor d = 0 ∨ ∃ pa leaf size, s.lookup w.drover (BitVec.ofNat 64 (dCursor d)) .write = .hit pa leaf size ∧
      isLocalMem pa = true ∧ isSiteWin pa = false ∧ isRegSpace pa = false) →
    ∃ t q, exec i s = .next t ∧ t.op? s.nextOp = some q ∧ q.code = c ∧ q.phase = .running ∧ q.desc = d ∧
      q.n = chunksOf c d e ∧ q.mark = 0 ∧ q.done = [] ∧ q.holdD = ds ∧ q.gs = o.gs.toNat ∧ q.cn = counterOf o.ce o.cn ∧
      t.strand w.drover w.strand = { x with pc := x.pc + 8, phase := phRunning } ∧
      StrandsBut w.drover w.strand s t ∧ (c = .topk → (t.drv w.drover).selHold = some s.nextOp) ∧
      Keeps [.strands, .regs, .ops, .nextOp, .xl, .drovers] s t ∧ (c ≠ .topk → PassesTurn w s t)) ∧
  (checkDesc c gx o.dn.toNat d e ≠ stOk → Completes i s fun t =>
    t.strand w.drover w.strand = ({ x with pc := x.pc + 8, phase := phRunning } : Strand).completed
      (counterOf o.ce o.cn) 1 o.gs.toNat (checkDesc c gx o.dn.toNat d e) 0 0 ∧
    t.ops = s.ops.filter (·.id ≠ s.nextOp) ∧ StrandsBut w.drover w.strand s t ∧ PassesTurn w s t ∧
    Keeps [.strands, .regs, .drovers, .ops, .xl] s t)

/-- R246, R267, R268: `FRANGE` and `SETTLE` join the queue of the home half's range engine: of a whole number of lines
within one page of one stack, and, for `SETTLE`, in an accumulator region. -/
def Obligations.RangeCommandsIssue : Prop := ∀ (w : Issue) (o : MemOps) (s : State) (c : OpCode) (i : Instr)
    (pa : Nat) (leaf : Word) (size : Nat), (c, i) ∈ [(.frange, .kFrange w o), (.settle, .kSettle w o)] →
  let x := s.strand w.drover w.strand
  let va := x.rg o.gp.toNat
  let len := x.rg o.gv.toNat
  let page := 65536 * sizePages size
  s.executes i → va.toNat % 128 = 0 → len.toNat % 128 = 0 → len ≠ 0 →
  s.lookup w.drover va (accOf c o.sub.toNat) = .hit pa leaf size → isStack pa = true →
  va.toNat % page + len.toNat ≤ page →
  (s.flag (Fd.dramStackStatusStripeOn (pa / 2 ^ 36)) = true → inStripe (pa + len.toNat - 1) = false) →
  (s.flag Fd.seamStatusIsolated = true → pa / 2 ^ 38 = halfOf w.drover) →
  (c = .settle → leafAcc leaf ≠ 0) → (s.rangeQ (pa / 2 ^ 38)).length < 64 →
  ∃ t q, exec i s = .next t ∧ t.op? s.nextOp = some q ∧ q.code = c ∧ q.phase = .queued ∧ q.va = va ∧ q.pa = pa ∧
    q.ga = o.ga.toNat ∧ q.cn = counterOf o.ce o.cn ∧
    t.rangeQ (pa / 2 ^ 38) = s.rangeQ (pa / 2 ^ 38) ++
      [{ cmd := if c = .settle then 7 else o.sub.toNat, line := pa / 128, count := len.toNat / 128, op := some s.nextOp,
         begun := false, touched := 0, fails := 0 }] ∧
    t.strand w.drover w.strand = { x with pc := x.pc + 8, phase := phRunning } ∧
    StrandsBut w.drover w.strand s t ∧ PassesTurn w s t ∧ Keeps [.strands, .regs, .drovers, .ops, .nextOp, .xl, .ranges] s t

/-- R124: an `AT` pair is held for its Bell, at least two and at most 1,048,576 Bells ahead of a count that is locked;
otherwise its operation completes at once, not issued. The pair is 16 bytes. That the lead is a signed distance is the
model's reading (notes/assumptions/138.md). -/
def Obligations.AtPairs : Prop := ∀ (w : Issue) (o : SyncOps) (second : PairOp) (s : State),
  let x := s.strand w.drover w.strand
  let bell := x.rg o.ga.toNat + sext o.imm
  let lead := (bell - s.bellCount).toInt
  let pair := pairOfWord (pairWord second)
  let y : Strand := { x with pc := x.pc + 16, phase := phRunning }
  let refused (st : Nat) := Completes (.kAt w o second) s fun t =>
    t.strand w.drover w.strand = y.completed (pairCn pair) 1 (pairGs pair) st 0 0 ∧
    t.ops = s.ops.filter (·.id ≠ s.nextOp) ∧ StrandsBut w.drover w.strand s t ∧ PassesTurn w s t ∧
    Keeps [.strands, .regs, .drovers, .ops, .xl] s t
  s.executes (.kAt w o second) →
  (s.bellState = bsUnlocked → refused stUnlocked) ∧
  (s.bellState ≠ bsUnlocked → lead < 2 → refused stBellNear) ∧
  (s.bellState ≠ bsUnlocked → 1048576 < lead → refused stBellFar) ∧
  (s.bellState ≠ bsUnlocked → 2 ≤ lead → lead ≤ 1048576 →
    ∃ t q, exec (.kAt w o second) s = .next t ∧ t.op? s.nextOp = some q ∧ q.phase = .held bell 0 ∧ q.pair = some pair ∧
      q.code = pairCode pair ∧ q.cn = pairCn pair ∧ q.gs = pairGs pair ∧ t.strand w.drover w.strand = y ∧
      StrandsBut w.drover w.strand s t ∧ PassesTurn w s t ∧ Keeps [.strands, .regs, .drovers, .ops, .nextOp] s t)

/-- R117, R118, R138 to R141, R254: an operation of a strand that waits for nothing comes to its end. One whose access is
done completes: its register result, or none if it failed, its counter and its status word. One that is ready on a
scratchpad address, with its bank free, makes its access and completes: a load's element or a descriptor's 64 bytes
are read; a store's bytes are written, and no other byte; an atomic leaves the old element in g[ga] and the new in memory. -/
def Obligations.OperationsComplete : Prop := ∀ (s : State) (n : Nat) (o : Op),
  let d := o.drover
  let k := o.strand
  let x := s.strand d k
  let w := o.width
  s.op? n = some o → o.detached = false → o.lost = false → o.poisoned = false → x.wait = none →
  (∀ q ∈ s.opsOf d k, q.phase ≠ .missed) →
  let ends (y : Strand) (ps : List Part) (P : State → Prop) := Completes (.operationComplete n) s fun t =>
    t.strand d k = y ∧ t.ops = s.ops.filter (·.id ≠ n) ∧ StrandsBut d k s t ∧
    Keeps ([.strands, .regs, .ops, .xl] ++ ps) s t ∧ P t
  let reads (t : State) (a : Nat) (bs : List Byte) := ∀ i, i < bs.length → t.readByte (a + i) = bs.getD i 0
  let only (t : State) (a m : Nat) := ∀ b, ¬(a ≤ b ∧ b < a + m) → t.readByte b = s.readByte b
  (o.phase = .served → isXferOp o.code = false → o.code ≠ .signal →
    (o.status = stOk → ends (((if o.code = .dld then x.wdd o.dn o.data else x.wg o.ga o.result)).completed o.cn 1 o.gs stOk 0 0)
      [] fun _ => True) ∧
    (o.status ≠ stOk → ends ((x.wg o.ga 0).completed o.cn 1 o.gs o.status o.reason 0) [] fun _ => True)) ∧
  (o.phase = .served → o.code = .signal → ends (x.completed o.cn 1 o.gs o.status o.reason 0) [] fun _ => True) ∧
  (o.phase = .served → isXferOp o.code = true → o.curOk = false → (o.status = stOk → hasCount o.code = true → o.counted = true) →
    o.flying = false →
    ends (x.completed o.cn (if dChunksig o.desc then o.n - o.committed else 1) o.gs o.status o.reason
      (if o.status = stLate then o.lateness else o.committed)) [.drovers] fun _ => True) ∧
  (o.phase = .ready → isScratch o.pa = true → isScratch (o.pa + w - 1) = true → o.leafAcc = 0 →
    s.servedSpan (halfOf d) o.pa w o.use = .ok → s.anyBad o.pa w = false →
    (o.code = .ld → ends ((x.wg o.ga (ldExtend o.sub (ofBytes (s.readBytes o.pa w)))).completed o.cn 1 o.gs stOk 0 0)
      [] fun _ => True) ∧
    (o.code = .dld → ends ((x.wdd o.dn (BitVec.ofNat 512 (ofBytes (s.readBytes o.pa 64)))).completed o.cn 1 o.gs stOk 0 0)
      [] fun _ => True) ∧
    (o.code = .st ∨ o.code = .dst → ends ((x.wg o.ga 0).completed o.cn 1 o.gs stOk 0 0) [.fold, .foldPoison]
      fun t => reads t o.pa o.stored ∧ only t o.pa w) ∧
    ((∀ g, g < 64 → s.flag (Fd.musterCfgEn g) = true → s.groupLine g + 8 ≤ o.pa ∨ o.pa + w ≤ s.groupLine g) →
      ∀ a, (o.code, a) ∈ [(OpCode.aadd, AtomKind.add), (.amin, .min), (.amax, .max), (.axch, .xchg), (.acas, .cas)] →
      let m := ofBytes (s.readBytes o.pa w)
      ends ((x.wg o.ga (BitVec.ofNat 64 m)).completed o.cn 1 o.gs stOk 0 0) [.fold, .foldPoison] fun t =>
        reads t o.pa (toBytes w (atomValue a (fmtOf o.sub) false m (lowBytes w o.val) (lowBytes w o.cmp))) ∧ only t o.pa w))

/-- R392, R393, R376: `PUT`, `GET` and `RACC` issue. The descriptor must keep the rules, and its cursor be 0 or its area
translate to local memory. A bulk one leaves 0 in g[gy]; a scheduled one leaves its deadline there if its stream admits
it, and completes with `REFUSED` if not. -/
def Obligations.RemoteTransfersIssue : Prop := ∀ (w : Issue) (o : XferOps) (s : State) (c : OpCode) (i : Instr),
  (i, c) ∈ [(.kPut w o, OpCode.put), (.kGet w o, .get), (.kRacc w o, .racc)] →
  let x := s.strand w.drover w.strand
  let d := x.rdd o.dn.toNat
  let gx := x.rg o.gx.toNat
  let u := ((s.passTurn w.drover w.strand).inc (Fd.dbgIssued (penOf w.drover) (w.drover.val % 8)) 1).advance w.drover w.strand 8
  let y (v : Nat) : Strand := ({ x with pc := x.pc + 8, phase := phRunning } : Strand).wg o.gy.toNat (BitVec.ofNat 64 v)
  let adm := u.admission (gxStream gx) (u.tenancy (paddockOf w.drover)) (opFlits c d) (2 * targetLines c d) (c = .get)
    (u.liveOf (gxStream gx))
  let runs (v from_ : Nat) (stream : Option Nat) := ∃ t q, exec i s = .next t ∧ t.op? s.nextOp = some q ∧ q.code = c ∧
    q.phase = .running ∧ q.desc = d ∧ q.n = remoteChunks c d ∧ q.aux = gx ∧ q.stream = stream ∧
    q.deadline = BitVec.ofNat 64 v ∧ q.start = BitVec.ofNat 64 from_ ∧ t.strand w.drover w.strand = y v ∧ StrandsBut w.drover w.strand s t ∧
    PassesTurn w s t ∧ Keeps [.strands, .regs, .drovers, .ops, .nextOp, .xl, .fab] s t
  let cursor := dCursor d = 0 ∨ ∃ pa leaf size, s.lookup w.drover (BitVec.ofNat 64 (dCursor d)) .write = .hit pa leaf size ∧
    isLocalMem pa = true ∧ isSiteWin pa = false ∧ isRegSpace pa = false
  s.executes i →
  (s.checkRemote c gx o.dn.toNat d = stOk → cursor → dClass d ≠ 2 → runs 0 0 none) ∧
  (s.checkRemote c gx o.dn.toNat d = stOk → cursor → dClass d = 2 →
    (∀ dl from_, adm.1 = .admitted dl from_ → runs dl from_ (some (gxStream gx))) ∧
    (∀ r, adm.1 = .refused r → Completes i s fun t =>
      t.strand w.drover w.strand = (y 0).completed (counterOf o.ce o.cn) (if dChunksig d then remoteChunks c d else 1)
        o.gs.toNat stRefused r 0 ∧ t.ops = s.ops.filter (·.id ≠ s.nextOp) ∧ StrandsBut w.drover w.strand s t)) ∧
  (s.checkRemote c gx o.dn.toNat d ≠ stOk → Completes i s fun t =>
    t.strand w.drover w.strand = (y 0).completed (counterOf o.ce o.cn) 1 o.gs.toNat
      (s.checkRemote c gx o.dn.toNat d) 0 0 ∧ t.ops = s.ops.filter (·.id ≠ s.nextOp) ∧ StrandsBut w.drover w.strand s t)

/-- R395, R120: `RATOM` and `SIGNAL` issue. A legal one on another module is on its way in a packet with the next number
and an expiry; one whose target breaks the layout completes at once, as does a `SIGNAL` at a strand of this module. -/
def Obligations.RemoteAtomicsAndSignals : Prop := ∀ (w : Issue) (o : MemOps) (s : State),
  let x := s.strand w.drover w.strand
  let y : Strand := { x with pc := x.pc + 8, phase := phRunning }
  let expiry := s.bellCount + BitVec.ofNat 64 (65536 * s.rd Fd.rmtLimitBulk)
  let va := x.rg o.gp.toNat
  let sent (i : Instr) (dev : Nat) (P : Op → Prop) := ∃ t q, exec i s = .next t ∧ t.op? s.nextOp = some q ∧
    q.phase = .remote ∧ q.chunks = [{ num := 0, sent := true, expiry := some expiry, packet := some (dev, s.fab.packet) }] ∧
    P q ∧ t.fab.packet = (s.fab.packet + 1) % 2 ^ 32 ∧ t.strand w.drover w.strand = y ∧ StrandsBut w.drover w.strand s t
  (∀ (i : Instr) (code : BitVec 16), (i, code) ∈ [(.kRatomAdd w o, (0 : BitVec 16)), (.kRatomMin w o, 1), (.kRatomMax w o, 2),
      (.kRatomExchange w o, 3), (.kRatomCas w o, 4)] →
    s.executes i →
    (va.toNat % (fmtOf o.sub.toNat).size = 0 → va.toNat < 2 ^ 62 → sent i (remoteDev va.toNat) fun q =>
      q.code = .ratom ∧ q.va = va ∧ q.val = x.rg o.gv.toNat ∧ q.cmp = x.rg o.gk.toNat ∧ q.sub = o.sub.toNat ∧
      q.ga = o.ga.toNat ∧ q.cn = counterOf o.ce o.cn) ∧
    (va.toNat % (fmtOf o.sub.toNat).size ≠ 0 → Completes i s fun t => t.strand w.drover w.strand =
      (y.wg o.ga.toNat 0).completed (counterOf o.ce o.cn) 1 0 stMisaligned 0 0 ∧ t.fab = s.fab)) ∧
  (s.executes (.kSignal w o) →
    (targetWordOk va = true → bits va 61 48 ≠ s.device → sent (.kSignal w o) (bits va 61 48) fun q =>
      q.code = .signal ∧ q.va = va ∧ q.val = x.rg o.gv.toNat ∧ q.cn = counterOf o.ce o.cn) ∧
    (targetWordOk va = false → Completes (.kSignal w o) s fun t => t.strand w.drover w.strand =
      y.completed (counterOf o.ce o.cn) 1 0 stBadTarget 0 0 ∧ t.fab = s.fab) ∧
    (targetWordOk va = true → bits va 61 48 = s.device → s.flag Fd.seamStatusIsolated = false →
      s.physical? (bits va 47 40) = none → ∃ t q, exec (.kSignal w o) s = .next t ∧ t.op? s.nextOp = some q ∧
        q.phase = .served ∧ q.status = stAbsent ∧ t.strand w.drover w.strand = y ∧ StrandsBut w.drover w.strand s t) ∧
    (∀ d, targetWordOk va = true → bits va 61 48 = s.device → s.flag Fd.seamStatusIsolated = false →
      s.physical? (bits va 47 40) = some d → d < 128 → s.drvState d = 0 → s.droverInReset d = false →
      8 * d + bits va 39 37 ≠ 8 * w.drover.val + w.strand.val → (s.strand d (bits va 39 37)).wait = none →
      (let z := s.strand d (bits va 39 37)
      z.phase = phRunning ∨ z.phase = phStalled ∨ z.phase = phEnding →
      ∃ t q, exec (.kSignal w o) s = .next t ∧ t.op? s.nextOp = some q ∧ q.phase = .served ∧ q.status = stOk ∧
        t.strand d (bits va 39 37) = z.raise (bits va 35 32) ((x.rg o.gv.toNat).setWidth 32) ∧
        t.strand w.drover w.strand = y)))

/-- R133, R141, R167, R168, R198, R325: what becomes of a transfer's chunks. A chunk of a local transfer that can be carried
out makes its writes and commits: the cursor advances past every committed chunk, its output is counted, with `CHUNKSIG` the
counter rises, and after the last chunk the completion is due. A transfer with a faulted chunk parks once its chunks are
done. A waiting `TOPK` takes the selection store. -/
def Obligations.ChunksCommitAndPark : Prop := ∀ (s : State) (n k : Nat) (o : Op), s.op? n = some o →
  (∀ p : Plan, o.mayIssue k = true → isRemoteOp o.code = false → (s.strand o.drover o.strand).phase ≠ phSaving →
    let x := s.drv o.drover
    let v := if dRnd o.desc = 0 then s else s.setDrv o.drover { x with rnd := Config.rndNext x.rnd }
    let o1 := { o with begun := true, chunks := o.chunks.filter (·.num ≠ k) }
    let o' := { o1 with pa := if hasCount o.code then p.count else o.pa }
    let u := ((v.planReads o' p).applyPuts o' p.puts.reverse).2
    v.plan o1 k = .ok p → p.sites = [] → v.siteWrites p.puts.reverse = [] →
    (u.strand o.drover o.strand).wait = none →
    let r := slide 64 o.mark (Nats.ins o.done k)
    ∃ t q, exec (.chunkCommit n k) s = .next t ∧ t.op? n = some q ∧ q.mark = r.1 ∧ q.done = r.2 ∧
      q.outCount = o.outCount + p.outs ∧ q.chunks = o'.chunks ∧ (r.1 ≠ o.n → q.phase = o.phase) ∧
      (r.1 = o.n → q.phase = .served) ∧ t.fold = u.fold ∧ t.mem = u.mem ∧ t.lines = u.lines ∧
      t.foldPoison = u.foldPoison ∧ t.dramPoison = u.dramPoison ∧ t.strand o.drover o.strand =
        (match dChunksig o.desc && !o.detached, o.cn with
        | true, some c => (u.strand o.drover o.strand).raise c 1
        | _, _ => u.strand o.drover o.strand) ∧ StrandsBut o.drover o.strand u t) ∧
  (∀ c : Chunk, o.phase = .parking → o.flying = false → o.faulted = some c → c.ticket = none →
    o.curOk = false → o.redo = false → ∃ t q, exec (.transferPark n) s = .next t ∧ t.op? n = some q ∧ q.phase = .parked ∧
      q.parks = o.parks + 1 ∧ q.chunks = [] ∧ q.faultVa = c.va ∧ q.faultPos = c.pos ∧ q.mark = o.mark ∧ q.done = o.done ∧
      Keeps [.ops, .xl, .drovers] s t) ∧
  (∀ d : Fin 128, o.drover = d.val → o.phase = .selecting → (s.drv d).selHold = none →
    ∃ t q, exec (.selectionStoreGrant d n) s = .next t ∧ t.op? n = some q ∧ q = { o with phase := .running } ∧
      (t.drv d).selHold = some n ∧ Keeps [.ops, .drovers] s t)

/-- R86, R124: an `AT` pair issues at the boundary where the count reaches its Bell, its operands read then; a
detached operation that has ended adds what it owes to its counter in the context area and takes one from the detached
count there, by adds at the bank, which is free to serve them. -/
def Obligations.HeldAndDetachedOperations : Prop := ∀ (s : State) (n : Nat) (o : Op), s.op? n = some o →
  (∀ (at_ : Word) (g : BitVec 5) (c : OpCode) (pg : BitVec 5) (m : MemOps), o.phase = .held at_ g →
    o.pair = some (.mem c pg m) → c ≠ .ratom → c ≠ .signal → at_.toNat ≤ s.bellCount.toNat →
    exec (.atIssue n) s = .next ((s.beginMem { o with phase := .ready, pair := none } m).wake o.drover o.strand)) ∧
  (∀ (at_ : Word) (g : BitVec 5) (c : OpCode) (pg : BitVec 5) (m : XferOps), o.phase = .held at_ g →
    o.pair = some (.xfer c pg m) → c ≠ .dld → c ≠ .dst → isRemoteOp c = false → at_.toNat ≤ s.bellCount.toNat →
    exec (.atIssue n) s = .next ((s.beginXfer { o with phase := .ready, pair := none } m.gx.toNat m).wake o.drover o.strand)) ∧
  (∀ (at_ : Word) (g : BitVec 5) (p : PairOp), o.phase = .held at_ g → o.pair = some p →
    s.bellCount.toNat < at_.toNat → exec (.atIssue n) s = .next s) ∧
  (o.detached = true → o.lost = false → o.phase = .served → o.flying = false →
    s.servedSpan (halfOf o.drover) (o.ctxAt + 0x540) 0x78 .update = .ok →
    let u := (match o.cn with
      | some c => (s.update .add (.uint 32) false (o.ctxAt + 0x540 + 4 * c) o.owed 0 false false).2.2
      | none => s)
    exec (.detachedComplete n) s = .next (((u.update .add (.uint 64) false (o.ctxAt + 0x5B0) (2 ^ 64 - 1) 0 false
      false).2.2.dropOp n).pruneTickets))

/-- R350, R351 (Table 11.7, Table 11.8): the lanes of a port in service. A lane that loses its signal or exceeds its
error limits is due for removal five boundaries on, at both ends; a lane over the lower limit reads `MARGINAL`; a lane
due for removal leaves service at its boundary, and a lane that retrained returns. -/
def Obligations.PortLanes : Prop := ∀ (s : State) (p : Fin 16) (l : Fin 8), s.portUp p = true →
  let x := s.port p
  let due (cause : Nat) (t : State) := (t.port p).removal = x.removal ++ [(l.val, cause, s.bellCount + 5)]
  ((s.lanesIn p).contains l.val = true → x.removal.any (·.1 = l.val) = false →
    Completes (.laneLossOfSignal p l) s (fun t => due 3 t ∧ Keeps [.fab] s t) ∧
    (∀ c u, 65536 < c ∨ 16 ≤ u → Completes (.laneJudge p l c u) s fun t =>
      due 2 t ∧ t.rdBit (Fd.optPortMarginal p) l = false ∧ Keeps [.fab, .regs, .log, .out, .irqs] s t) ∧
    (∀ b, Completes (.laneNotice p l 1 b) s fun t => Keeps [.fab, .free] s t ∧
      ∃ cause, (t.port p).removal = x.removal ++ [(l.val, cause, b)])) ∧
  ((s.lanesIn p).contains l.val = true → ∀ c u, c ≤ 65536 → u < 16 → Completes (.laneJudge p l c u) s fun t =>
    t.rdBit (Fd.optPortMarginal p) l = decide (2048 < c) ∧ (t.port p).removal = x.removal ∧
    Keeps [.fab, .regs, .log, .out, .irqs] s t) ∧
  ((s.lanesIn p).contains l.val = false → ∀ b, Completes (.laneNotice p l 2 b) s fun t =>
    (t.port p).retrain = Nats.ins x.retrain l.val ∧ Keeps [.fab] s t) ∧
  (∀ cause b, x.removal.find? (fun e => e.1 = l.val) = some (l.val, cause, b) →
    (s.bellCount.toNat < b.toNat → s.bellState ≠ bsAcquiring → exec (.laneRemoval p l) s = .next s) ∧
    (b.toNat ≤ s.bellCount.toNat ∨ s.bellState = bsAcquiring →
    Completes (.laneRemoval p l) s fun t => t.rdBit (Fd.optPortLanesIn p) l = false ∧
      Keeps [.fab, .regs, .log, .out, .irqs] s t)) ∧
  (x.retrain.contains l.val = true → ∀ ok, Completes (.laneRetrainDone p l ok) s fun t =>
    (t.port p).retrain = Nats.del x.retrain l.val ∧ (ok = true → t.rdBit (Fd.optPortLanesIn p) l = true) ∧
    (ok = false → t.rd (Fd.optPortLanesIn p) = s.rd (Fd.optPortLanesIn p)) ∧ Keeps [.fab, .regs, .irqs] s t)

/-- R117, R120, R139, R141, R398, R399, R402: the answer of a remote operation. `RATOM` writes the old value and
completes, `SIGNAL` completes with the outcome at the target; an acknowledged chunk commits, as does one whose data was
applied though its notify failed; any other status fails the transfer, which keeps the first status that failed it and
whose chunks in flight drain; a `GET`'s data is written locally (said for its last chunk, of no MX wire format); no reply
by E plus `RETURN` is `TIMEOUT`, and is counted. -/
def Obligations.RemoteRepliesComplete : Prop := ∀ (s : State) (n : Nat) (o : Op), s.op? n = some o →
  let x := s.strand o.drover o.strand
  let ends (c : Instr) (y : Strand) := Completes c s fun t => t.strand o.drover o.strand = y ∧
    t.ops = s.ops.filter (·.id ≠ n) ∧ StrandsBut o.drover o.strand s t ∧ Keeps [.strands, .regs, .ops, .xl, .fab] s t
  let fails (c : Instr) (k st : Nat) := Completes c s fun t => Keeps [.regs, .ops, .xl, .fab, .drovers] s t ∧
    t.op? n = some { o with
      phase := .served, status := if o.phase = .served ∧ o.status ≠ stOk then o.status else st, ticket := none, curTick := none
      chunks := (o.chunks.filter (·.num ≠ k)).filter o.inFlight }
  (o.detached = false → o.lost = false → x.wait = none → o.phase = .remote →
    (o.code = .ratom → o.poisoned = false → ∀ st old,
      (st.toNat = stOk → ends (.ratomReply n st old) ((x.wg o.ga old).completed o.cn 1 o.gs stOk o.reason 0)) ∧
      (st.toNat ≠ stOk → ends (.ratomReply n st old) ((x.wg o.ga 0).completed o.cn 1 o.gs st.toNat o.reason 0))) ∧
    (o.code = .signal → o.poisoned = false → ∀ st,
      ends (.signalReply n st) (x.completed o.cn 1 o.gs st.toNat o.reason 0)) ∧
    (isXferOp o.code = false → ∀ c e, o.chunks.find? (fun c => c.num = 0 && c.sent) = some c → c.expiry = some e →
      e.toNat + s.rd Fd.rmtLimitReturn ≤ s.bellCount.toNat → ends (.issuerReplyTimeout n 0)
        ((x.wg o.ga 0).completed o.cn 1 o.gs stTimeout o.reason 0))) ∧
  (∀ k c, o.chunks.find? (fun c => c.num = k && c.sent) = some c → ∀ e, c.expiry = some e →
    (isXferOp o.code = true → e.toNat + s.rd Fd.rmtLimitReturn ≤ s.bellCount.toNat → c.packet = none →
      fails (.issuerReplyTimeout n k) k stTimeout ∧
      Completes (.issuerReplyTimeout n k) s fun t => t.rd Fd.rmtTimeouts = (s.rd Fd.rmtTimeouts + 1) % 2 ^ 64) ∧
    (o.code = .get → ∀ st ds p, st.toNat ≠ stOk → st.toNat ≠ stPoison →
      fails (.getReply n k st ds p) k st.toNat) ∧
    (o.code = .get → (dSf o.desc).isMx = false → o.n = k + 1 → ∀ ds p, o.stream = none →
      let o' : Op := { o with
        chunks := o.chunks.filter (·.num ≠ k)
        got := Nats.ins o.got (secKey k 0)
        lateness := 0
        buf := Memory.write o.buf (siteKey k 0) ((ds ++ zeros (wireLen .get o.desc k)).take (wireLen .get o.desc k))
        bufBad := (((List.range 128).filter p.getLsbD).map fun i => secKey k (32 * i)).foldl Nats.ins o.bufBad }
      exec (.getReply n k 0 ds p) s = .next (((s.took o k stOk).setOp o').landChunk o' k)) ∧
    (o.code = .put ∨ o.code = .racc → ∀ st d,
      let noted := gxNotify o.aux = true ∧ (st.toNat = stTargetIdle ∨ st.toNat = stAbsent ∨ st.toNat = stReset)
      (st.toNat = stOk ∨ st.toNat = stPoison ∨ noted → o.phase ≠ .served → x.wait = none →
        let r := slide 64 o.mark (Nats.ins o.done k)
        Completes (.remoteAck n k st d) s fun t => ∃ q, t.op? n = some q ∧ q.mark = r.1 ∧ q.done = r.2 ∧
          q.chunks = o.chunks.filter (·.num ≠ k) ∧ (r.1 ≠ o.n → q.phase = o.phase) ∧ (r.1 = o.n → q.phase = .served) ∧
          t.strand o.drover o.strand = (match dChunksig o.desc && !o.detached, o.cn with
            | true, some c => x.raise c 1
            | _, _ => x) ∧ StrandsBut o.drover o.strand s t) ∧
      (st.toNat ≠ stOk → st.toNat ≠ stPoison → ¬noted → fails (.remoteAck n k st d) k st.toNat)))

/-- R29, R335, R380, R381, R394 to R402: a request from another module. Before `READY` it is answered `RESET`, in P2
`ASLEEP`, at its expiry Bell `TIMEOUT`, without a context of its tenancy `NOT_PERMITTED`. Else its addresses are looked up
in the half's inbound buffer; a fault of translation, its region or its banks is its status; and with every byte
translated, permitted and served it is applied whole: written, read, accumulated or updated at its home banks, notified,
and answered; it waits on a ticket for a translation that misses and for a bank or range, and one still waiting at its
expiry Bell E is discarded, answered `TIMEOUT`, and held no longer. -/
def Obligations.InboundRequests : Prop := (∀ (s : State) (r : RemReq) (c : Instr) (kind : Nat),
  (c, kind) ∈ [(.inboundPut r, roPut), (.inboundGet r, roGet), (.inboundRacc r, roRacc), (.inboundRatom r, roRatom),
    (.inboundSignal r, roSignal)] →
  s.fab.inbound.any (·.same r.source.toNat r.packet.toNat) = false → s.dark = false →
  let s1 := s.takeArrived r.source.toNat r.packet.toNat
  let q : InReq := { kind, req := r, paddock := 0, ticket := none, expiry := s.fullBell r.expiry }
  let answers (st : Nat) := exec c s = .next (s1.answerIn q st 0 [] [])
  (s.flag Fd.modStatusReady = false → answers stReset) ∧
  (s.flag Fd.modStatusReady = true → s.crook.zeroing = false →
    (s.rd Fd.pwrStatusState = 2 → answers stAsleep) ∧
    (s.rd Fd.pwrStatusState ≠ 2 → reqOk kind r = false → answers stNotPermitted) ∧
    (s.rd Fd.pwrStatusState ≠ 2 → reqOk kind r = true → q.expiry.toNat ≤ s.bellCount.toNat → answers stTimeout) ∧
    (s.rd Fd.pwrStatusState ≠ 2 → reqOk kind r = true → s.bellCount.toNat < q.expiry.toNat →
      (kind = roSignal → targetWordOk r.a = false → answers stBadTarget) ∧
      (kind = roSignal → targetWordOk r.a = true → s.cutFrom (portHalf r.port) (bits r.a 47 40) = false →
        exec c s = .next ((s1.signalWord r.a (r.b.setWidth 32)).2.answerIn q (s1.signalWord r.a (r.b.setWidth 32)).1 0 [] [])) ∧
      (kind = roSignal → targetWordOk r.a = true → s.cutFrom (portHalf r.port) (bits r.a 47 40) = true → answers stPoison) ∧
      (kind ≠ roSignal → s.ctxOf r.ten.toNat = none → answers stNotPermitted) ∧
      (kind ≠ roSignal → ∀ k, s.ctxOf r.ten.toNat = some k →
        let q' : InReq := { q with paddock := k }
        let h := portHalf r.port
        let n := s1.inBytes h q'
        let gs := granulesOf r.addr.toNat n
        (∀ st, s1.inSpan h q' (inAcc kind) gs = .fails st → exec c s = .next (s1.answerIn q' st 0 [] [])) ∧
        (∀ va cause, s1.inSpan h q' (inAcc kind) gs = .miss va cause →
          let tk := s1.askTicket { source := 0x10 + h, paddock := k, kind := 4, ten := r.ten.toNat, extra := r.source.toNat
                                   sched := (s1.streamOf r).isSome } va cause (inAcc kind).code;
          exec c s = .next (tk.2.holdIn { q' with ticket := tk.1 })) ∧
        (∀ ps, s1.inSpan h q' (inAcc kind) gs = .all ps →
          let u := gs.foldl (fun t va => t.setInbound h (markXl (t.inboundXl h) k (va / 65536))) s1
          (u.inRefusal q' ps ≠ stOk → exec c s = .next (u.answerIn q' (u.inRefusal q' ps) 0 [] [])) ∧
          (u.inRefusal q' ps = stOk → (∀ st, u.inServed h ps r.addr.toNat n kind = .fails st →
            exec c s = .next (u.answerIn q' st 0 [] []))) ∧
          (u.inRefusal q' ps = stOk → u.inServed h ps r.addr.toNat n kind = .waits →
            exec c s = .next (u.holdIn { q' with ticket := none })) ∧
          (u.inRefusal q' ps = stOk → u.inServed h ps r.addr.toNat n kind = .ok → (∀ p ∈ ps, isSiteWin p.2.1 = false) →
            (kind = roPut → (∀ x ∈ s.siteReqs, x.inb ≠ some (r.source.toNat, r.packet.toNat)) →
              let w := u.inWrite r ps
              (w.2.siteReqs = s.siteReqs → exec c s = .next
                (w.2.appliedIn q' (if w.1 = true ∨ r.poison ≠ 0 then stPoison else stOk)))) ∧
            (kind = roGet → exec c s = .next ((u.inRead q' ps).2.getDone (u.inRead q' ps).1)) ∧
            (kind = roRatom →
              let f := fmtOf r.fmt.toNat
              let w := u.update (ratomKind r.ratom.toNat) f false (paIn ps r.addr.toNat) (lowBytes f.size r.a)
                (lowBytes f.size r.b) false false
                (u.inClass r)
              exec c s = .next (w.2.2.answerIn q' (if w.2.1 then stPoison else stOk)
                (if w.2.1 then 0 else BitVec.ofNat 64 w.1) [] [])) ∧
            (kind = roRacc →
              let acc := (ps.headD (0, 0, 0)).2.2
              let w := (elemsOf r).zipIdx.foldl (fun (t : Bool × State) e =>
                let a := raccAt acc r.addr.toNat e.2
                let v := t.2.accumulate (paIn ps a.1) acc a.2 false (wideOf acc e.1.1) e.1.2 (u.inClass r)
                (t.1 || v.1 || e.1.2, v.2)) (false, u)
              exec c s = .next (w.2.appliedIn q' (if w.1 then stPoison else stOk))))))))) ∧
  (∀ (s : State) (src : BitVec 14) (pk : BitVec 32) (q : InReq),
    s.fab.inbound.find? (·.same src.toNat pk.toNat) = some q → q.atSite = false → q.expiry.toNat ≤ s.bellCount.toNat →
    exec (.requestExpiry src pk) s = .next (s.answerIn q stTimeout 0 [] []) ∧
    Completes (.requestExpiry src pk) s fun t => ∀ p ∈ t.fab.inbound, p.same src.toNat pk.toNat = false)

/-- R358 (Table 11.16): `OPT_CMD`. A `GO` while `BUSY` is refused with `RESULT` `BUSY`; a command that cannot be reads
`REFUSED` with its result; else the command runs: a lane is due for removal or retrains at both ends, a port leaves
service at the 8th boundary or trains, a source is disabled at the 8th boundary or lit. -/
def Obligations.OpticalCommands : Prop := ∀ (s : State) (p : Fin 16) (l : Fin 8) (m : Fin 4),
  s.reaches Fd.optCmdGo.addr = true →
  let x := s.port p
  let left := (s.lanesIn p).filter fun k => k ≠ l.val ∧ !x.removal.any (·.1 = k)
  let inLane := s.portUp p = true ∧ (s.lanesIn p).contains l.val = true
  let canTrain := 1 < s.ringSizeOf (dimOf p) ∧ s.lit (laserOf p) = true ∧ s.rdBit Fd.optStileForceThrough (dimOf p) = false
  let refused (c : Instr) (code : Nat) := Completes c s fun t =>
    t.rd Fd.optCmdState = 3 ∧ t.rd Fd.optCmdResult = code ∧ RegsBut [Fd.optCmdGo.addr] s t ∧ Keeps [.regs, .irqs] s t
  let runs (c : Instr) (P : State → Prop) := Completes c s fun t =>
    t.rd Fd.optCmdState = 1 ∧ t.rd Fd.optCmdResult = 0 ∧ P t
  (s.rd Fd.optCmdState = 1 → ∀ c ∈ [Instr.optRemoveLane p l, .optRetrainLane p l, .optPortDisable p, .optPortEnable p,
    .optLaserDisable m, .optLaserEnable m], Completes c s fun t =>
      t.rd Fd.optCmdState = 1 ∧ t.rd Fd.optCmdResult = 1 ∧ RegsBut [Fd.optCmdGo.addr] s t ∧ Keeps [.regs] s t) ∧
  (s.rd Fd.optCmdState ≠ 1 →
    (¬inLane → refused (.optRemoveLane p l) 4) ∧
    (inLane → left.length < 2 → refused (.optRemoveLane p l) 3) ∧
    (inLane → 2 ≤ left.length → x.removal.any (·.1 = l.val) = false → runs (.optRemoveLane p l) fun t =>
      (t.port p).removal = x.removal ++ [(l.val, 4, s.bellCount + 5)] ∧ Keeps [.regs, .fab] s t) ∧
    (s.portUp p = false → refused (.optRetrainLane p l) 4) ∧
    (s.portUp p = true → (s.lanesIn p).contains l.val = false → runs (.optRetrainLane p l) fun t =>
      (t.port p).retrain = Nats.ins x.retrain l.val ∧ Keeps [.regs, .fab] s t) ∧
    (s.portUp p = true → (s.lanesIn p).contains l.val = true → Completes (.optRetrainLane p l) s fun t =>
      t.rd Fd.optCmdState = 2 ∧ t.rd Fd.optCmdResult = 0 ∧ Keeps [.regs, .irqs] s t) ∧
    (runs (.optPortDisable p) fun t => (t.port p).disable = some 8 ∧ Keeps [.regs, .fab] s t) ∧
    (¬canTrain → refused (.optPortEnable p) 4) ∧
    (canTrain → runs (.optPortEnable p) fun t => t.rd (Fd.optPortState p) = psTraining ∧ (t.port p).disable = none ∧
      Keeps [.regs, .fab, .irqs] s t) ∧
    (runs (.optLaserDisable m) fun t => Tab.get (fun _ => 0) t.fab.lasers m = 8 ∧ Keeps [.regs, .fab] s t) ∧
    (s.rd (Fd.optLaserState m) = lsAbsent → refused (.optLaserEnable m) 4) ∧
    (s.rd (Fd.optLaserState m) ≠ lsAbsent → Completes (.optLaserEnable m) s fun t =>
      t.rd (Fd.optLaserState m) = lsOn ∧ Tab.get (fun _ => 0) t.fab.lasers m = 0))

/-- R345 (Table 11.4): a source in use is classified by its outputs once per Round, and `OPT_LASER_m` takes the reading;
an unplugged source reads `ABSENT`, and one plugged in is held `DISABLED`. -/
def Obligations.LaserSources : Prop := ∀ (s : State) (m : Fin 4),
  (∀ r : LaserReading, s.rd (Fd.optLaserState m) ≠ lsAbsent → s.rd (Fd.optLaserState m) ≠ lsDisabled →
    let drop (w : Nat) : Nat := r.drops.getD w 0
    let bad (w : Nat) : Bool := 30 ≤ drop w || r.belowMin.getLsbD w
    Completes (.laserPoll m r) s fun t =>
      t.rd (Fd.optLaserState m) = (if r.faulty then lsFault
        else if (List.range 8).any bad then lsFailed
        else if (List.range 8).any (fun w => 10 < drop w) then lsLow else lsOn) ∧
      t.rd (Fd.optLaserTemp m) = r.temp.toNat ∧ t.rd (Fd.optLaserMinPower m) = r.minPower.toNat ∧
      (∀ w, w < 8 → t.rdBit (Fd.optLaserOutOk m) w = decide (drop w ≤ 10)) ∧
      (∀ w, w < 8 → t.rdBit (Fd.optLaserOutLow m) w = (decide (10 < drop w) || bad w))) ∧
  (Completes (.laserPresenceChange m false) s fun t =>
    t.rd (Fd.optLaserState m) = lsAbsent ∧ t.rd (Fd.optLaserOutOk m) = 0 ∧ t.rd (Fd.optLaserOutLow m) = 0) ∧
  (s.rd (Fd.optLaserState m) = lsAbsent → Completes (.laserPresenceChange m true) s fun t =>
    t.rd (Fd.optLaserState m) = lsDisabled ∧ t.fab = s.fab)

/-- R348, R349, R355, R371 (Table 11.6, Table 11.10): a port trains and goes into service with every lane that passed, or
reads `MISWIRED` where the far port is not its partner, or `DOWN`; a stalled port trains again; one whose neighbour went
dark acquires the module beyond, or reads `BROKEN`; a fault notice is recorded, and a release notice holds new traffic. -/
def Obligations.PortAcquisition : Prop := ∀ (s : State) (p : Fin 16) (r : PortTraining),
  let d := dimOf p
  let lanes := popCount 8 r.lanes.toNat
  let acquired (t : State) := t.rd (Fd.optPortFarDevice p) = r.farDevice.toNat ∧
    t.rd (Fd.optPortFarPort p) = r.farPort.toNat ∧ t.rd (Fd.optPortRxMin p) = r.rxMin.toNat ∧
    (r.farPort.toNat ≠ partnerOf p → t.rd (Fd.optPortState p) = psMiswired ∧ t.rd (Fd.optPortLanesIn p) = 0) ∧
    (r.farPort.toNat = partnerOf p →
      t.rd (Fd.optPortState p) = (if (setBitsOf 8 r.lanes.toNat).length = 8 then psInService else psDegraded) ∧
      t.rd (Fd.optPortLanesIn p) = r.lanes.toNat ∧
      t.rd (Fd.bellPortDelayRoundTrip p) = r.roundTrip.toNat ∧
      t.flag (Fd.bellPortDelayValid p) = decide (r.roundTrip.toNat ≤ 256000))
  let leaves (c : Instr) (st : Nat) := Completes c s fun t =>
    t.rd (Fd.optPortState p) = st ∧ t.rd (Fd.optPortLanesIn p) = 0 ∧ t.rd (Fd.optPortMarginal p) = 0
  (s.rd (Fd.optPortState p) = psTraining ∨ s.rd (Fd.optPortState p) = psDown → 1 < s.ringSizeOf d →
    s.lit (laserOf p) = true → s.rdBit Fd.optStileForceThrough d = false → (s.port p).dark = false →
    (s.rdBit Fd.optStileThrough d = false ∨ s.rdBit Fd.optStileMoving d = true) →
    (r.acquired = true → 2 ≤ lanes → Completes (.portTrainingDone p r) s acquired) ∧
    (r.acquired = false ∨ lanes < 2 → leaves (.portTrainingDone p r) psDown)) ∧
  (s.portUp p = true → 4800 ≤ (s.port p).retry.length → leaves (.portBufferStall p) psTraining) ∧
  (s.portUp p = true → leaves (.neighbourLossOfSignal p) psTraining ∧
    Completes (.neighbourLossOfSignal p) s fun t => (t.port p).dark = true ∧ (t.port p).retry = (s.port p).retry ∧
      (t.port p).sched = (s.port p).sched ∧ (t.port p).bulk = (s.port p).bulk) ∧
  ((s.port p).dark = true ∨ s.rd (Fd.optPortState p) = psBroken → r.acquired = true → 2 ≤ lanes →
    Completes (.neighbourReacquire p r) s acquired) ∧
  ((s.port p).dark = true → leaves (.portBroken p) psBroken) ∧
  (∀ (dim fp : BitVec 8) (last : BitVec 14) (k : BitVec 8), s.portUp p = true →
    (∀ e ∈ (s.port p).heard, e.2.toNat + 2 < s.bellCount.toNat) →
    exec (.faultNotice p dim fp last k) s = .next ((s.setPort p { s.port p with
      heard := [({ kind := 6, routed := false, dest := 0, src := 0, body := ctlBody (toBytes 1 dim.toNat ++
        toBytes 1 fp.toNat ++ toBytes 2 last.toNat ++ toBytes 1 k.toNat) }, s.bellCount)] }).record euTransit 0x0507
      (uwPort p) (dim.toNat + 256 * fp.toNat) last.toNat)) ∧
  (∀ (dim : Fin 4) (b : Word), s.portUp p = true → Completes (.releaseNotice p dim b) s fun t =>
    (t.port p).hold = some b ∧ Keeps [.fab] s t)

/-- R366 to R371: what a slot carries. Position 0 carries a control flit of at most seven messages. At another position a
scheduled flit goes in the slot reserved for its flow, under the port's next number, and is held until it is acknowledged;
with no control message waiting, a flit asked for again goes under its own number and is counted, as bulk where there is no
Bell time; then a scheduled flit that passes on by the route table, then a bulk flit whose channel has credit; with nothing
to send the slot is idle. -/
def Obligations.FlitSlots : Prop := ∀ (s : State) (p : Fin 16) (l : Fin 8) (pos : Fin 16),
  let x := s.port p
  s.portUp p = true → (s.lanesIn p).contains l.val = true → s.dark = false →
  (pos = 0 → Completes (.flitSlot p l pos) s fun t => (∃ ms : List Ctl, ms.length ≤ 7 ∧
    t.out = s.out ++ [.control p l 0 ms]) ∧ Keeps [.fab, .out] s t) ∧
  (pos ≠ 0 →
    (∀ fl f, s.slotFlow p l pos = some fl → x.sched.find? (fun f => f.flit.flow.toNat = fl && f.start.toNat ≤ s.bellCount.toNat) = some f →
      x.retry.length < 4800 → x.hold = none → Completes (.flitSlot p l pos) s fun t =>
        let g : FlitOut := { f with flit := { f.flit with seq := BitVec.ofNat 16 x.seq } }
        t.out = s.out ++ [.flit p l pos g.flit] ∧ (t.port p).seq = (x.seq + 1) % 65536 ∧
        (t.port p).retry = x.retry ++ [(g, s.bellCount)] ∧ (t.port p).sched = x.sched.erase f ∧ Keeps [.fab, .out] s t) ∧
    (s.slotFlow p l pos = none → x.ctl = [] →
      (∀ q qs e, x.resend = q :: qs → x.retry.find? (fun e => e.1.flit.seq.toNat = q) = some e →
        Completes (.flitSlot p l pos) s fun t =>
          t.out = s.out ++ [.flit p l pos (if s.bellCounts = false ∧ e.1.flit.cls = 1 then e.1.asBulk else e.1).flit] ∧
          t.rd Fd.fabResent = (s.rd Fd.fabResent + 1) % 2 ^ 64 ∧ (t.port p).seq = x.seq ∧
          (t.port p).resend = x.resend.filter (· ≠ q) ∧ Keeps [.fab, .out, .regs] s t) ∧
      (∀ f fs, x.resend = [] → x.orphans = f :: fs → x.retry.length < 4800 → x.hold = none →
        exec (.flitSlot p l pos) s = .next (((s.setPort p { x with orphans := fs }).inc Fd.fabOrphans 1).sendFlit p l pos f)) ∧
      (∀ f, x.resend = [] → x.orphans = [] → x.retry.length < 4800 → x.hold = none →
        x.bulk.find? (fun f => Tab.get (fun _ => 0) x.used f.chan < 128) = some f →
        exec (.flitSlot p l pos) s = .next ((s.setPort p { x with
          bulk := x.bulk.erase f
          used := Tab.put (fun _ => 0) x.used f.chan (Tab.get (fun _ => 0) x.used f.chan + 1) }).sendFlit p l pos f)) ∧
      (x.resend = [] → x.orphans = [] → x.bulk = [] → Completes (.flitSlot p l pos) s fun t =>
        t.out = s.out ++ [.flit p l pos idleFlit] ∧ Keeps [.out] s t)))

/-- R361, R362, R369, R370, R372, R385: a data flit that fails its check is discarded and counted; one whose number has come
before is dropped; a new one for this module joins its packet, and another passes on. An acknowledgement releases the flits
below it and has the missing ones sent again; so is one not acknowledged within RT + 4 Bells; credits return. -/
def Obligations.FlitsArrive : Prop := ∀ (s : State) (p : Fin 16), s.portUp p = true →
  let x := s.port p
  (∀ (l : Fin 8) (f : Flit), (s.lanesIn p).contains l.val = true → s.dark = false →
    (Completes (.dataFlit p l f false) s fun t =>
      t.rd (Fd.optPortErrUe p) = min (s.rd (Fd.optPortErrUe p) + 1) 65535 ∧ Keeps [.regs] s t) ∧
    ((f.kind = 1 ∨ f.kind = 2) → x.seen f.seq.toNat = true → exec (.dataFlit p l f true) s = .next s) ∧
    ((f.kind = 1 ∨ f.kind = 2) → x.seen f.seq.toNat = false →
      let c := FlitOut.chan { flit := f, reply := s.isReply f }
      let y := x.arrive f.seq.toNat
      let u := s.setPort p (if f.cls = 1 then y else { y with
        back := Tab.put (fun _ => 0) y.back c (Tab.get (fun _ => 0) y.back c + 1) })
      (f.dest.toNat = s.device → exec (.dataFlit p l f true) s = .next (u.assemble f)) ∧
      (f.dest.toNat ≠ s.device → exec (.dataFlit p l f true) s = .next ((u.passOn p f).noteReply f)))) ∧
  (∀ (b : BitVec 16) (ms : List (BitVec 16)), Completes (.acknowledge p b ms) s fun t =>
    (∀ e, e ∈ (t.port p).retry ↔ e ∈ x.retry ∧ 32768 ≤ (b - e.1.flit.seq - 1).toNat) ∧
    (∀ m ∈ ms, (∃ e ∈ (t.port p).retry, e.1.flit.seq = m) → m.toNat ∈ (t.port p).resend) ∧ Keeps [.fab] s t) ∧
  (∀ (q : BitVec 16) e, x.retry.find? (fun e => e.1.flit.seq = q) = some e →
    e.2.toNat + s.roundTripBells p + 4 ≤ s.bellCount.toNat → x.resend.contains q.toNat = false →
    Completes (.flitResendTimeout p q) s fun t => (t.port p).resend = x.resend ++ [q.toNat] ∧ Keeps [.fab] s t) ∧
  (∀ c0 c1 c2 c3 : BitVec 16, (∀ e ∈ x.heard, e.2.toNat + 2 < s.bellCount.toNat) →
    Completes (.credit p c0 c1 c2 c3) s fun t => Keeps [.fab] s t ∧ ∀ k, Tab.get (fun _ => 0) (t.port p).used k =
      Tab.get (fun _ => 0) x.used k - (if k = 0 then c0 else if k = 1 then c1 else if k = 2 then c2
        else if k = 3 then c3 else 0).toNat)

/-- R62, R364, R365, R379, R409: a routed message heard for the first time takes effect at its destination, a window held, a
stack's thermal state known, a Muster message applied; at any other module it is passed on. -/
def Obligations.RoutedMessages : Prop := ∀ (s : State) (p : Fin 16) (dest : BitVec 14), s.portUp p = true →
  s.dark = false → (∀ e ∈ (s.port p).heard, e.2.toNat + 2 < s.bellCount.toNat) →
  let heard (m : Ctl) := s.setPort p { s.port p with heard := [(m, s.bellCount)] }
  let takes (c : Instr) (m : Ctl) (here : State → State) :=
    (dest.toNat = s.device → exec c s = .next (here (heard m))) ∧
    (dest.toNat ≠ s.device → exec c s = .next ((heard m).routeCtl m))
  (∀ w : Window, takes (.windowAnnouncement p dest w)
    { kind := 4, routed := true, dest := dest.toNat, src := w.device.toNat, body := windowBody w } fun u => u.holdWindow w) ∧
  (∀ (src : BitVec 14) (k : Fin 8) (st : BitVec 2) (b : Word), takes (.thermalNotice p dest src k st b)
    { kind := 7, routed := true, dest := dest.toNat, src := src.toNat
      body := ctlBody (toBytes 1 k ++ toBytes 1 st.toNat ++ toBytes 8 b.toNat) }
    fun u => u.setFab { u.fab with thermal := Tab.put (fun _ => 0) u.fab.thermal (8 * src.toNat + k) st.toNat }) ∧
  (∀ m : MusterMsg, takes (.musterMessage p dest m)
    { kind := 9, routed := true, dest := dest.toNat, src := m.source.toNat
      body := musterBody m.group.toNat (if m.release then 2 else 1) m.ten.toNat m.fromGroup.toNat m.status.toNat
        m.generation.toNat m.bell m.deadline.toNat m.lateness.toNat }
    fun u => State.musterOut musterFuel (u.musterApply m).1 (u.musterApply m).2)

/-- R26, R29, R30, R368, R388, R578: the mesh and the Seam. A packet that comes to a router is checked and waits there: a
single-bit error is corrected and recorded; a double one of a payload word has its operation complete with `POISON`, of a
header word never complete. A router serves control, scheduled, latency-critical and bulk packets in that order, each to its
Pen or along its row and then its column (at most 6 hops). A Bridged Seam's errors are sent again and show in `ERR_SEEN`. A
faulty router flips the mesh table and its Pen's Drovers are fenced. A Seam bundle's failed wires are counted; Bridged with
more than 64 it leaves service, the last one isolating the halves. -/
def Obligations.MeshAndSeam : Prop := ∀ s : State, s.dark = false →
  (∀ (k : Fin 16) (q : MeshPacket) (n : Nat) (o : Op), q.op = some n → s.op? n = some o →
    let waits (t : State) := t.setRouter k (t.router k ++ [q])
    exec (.meshPacket k ⟨.enters q, .clean, 0⟩) s = .next (waits s) ∧
    exec (.meshPacket k ⟨.enters q, .singleBit, 0⟩) s = .next (waits (s.record euTransit 0x0401 (uwMesh k) q.pen 0)) ∧
    (Completes (.meshPacket k ⟨.enters q, .doublePayload, 0⟩) s fun t => t.op? n = some { o with poisoned := true } ∧
      t.router k = s.router k ++ [q] ∧ Keeps [.ops, .regs, .log, .out, .irqs, .fab] s t) ∧
    (Completes (.meshPacket k ⟨.enters q, .doubleHeader, 0⟩) s fun t => t.op? n = some { o with phase := .dropped } ∧
      Keeps [.ops, .regs, .log, .out, .irqs] s t)) ∧
  (∀ (k y : Fin 16) (c : TransitCheck) (q : MeshPacket) (l : List MeshPacket), c ≠ .clean → crossesSeam y k = true →
    s.link y k = q :: l → s.flag Fd.seamStatusMode = true → Completes (.meshPacket k ⟨.link y, c, 0⟩) s fun t =>
      t.rdBit Fd.seamStatusErrSeen (penRow k) = true ∧ t.router k = s.router k ++ [q] ∧ t.link y k = l ∧
      Keeps [.regs, .fab] s t) ∧
  (∀ (k y : Fin 16) (c : TransitCheck) (q : MeshPacket), s.link y k = [] → nextServed (s.router k) = some q →
    let u := s.setRouter k ((s.router k).erase q)
    q ∈ s.router k ∧ (∀ r ∈ s.router k, q.cls.ctorIdx ≤ r.cls.ctorIdx) ∧
    (q.pen = k → exec (.meshPacket k ⟨.link y, c, 1⟩) s = .next (u.emit (.mesh q))) ∧
    (∀ j, q.pen ≠ k → s.meshNext k q.pen = some j →
      exec (.meshPacket k ⟨.link y, c, 1⟩) s = .next (u.setLink k j (u.link k j ++ [q]))) ∧
    (q.pen ≠ k → s.meshNext k q.pen = none → exec (.meshPacket k ⟨.link y, c, 1⟩) s = .next (u.poisonOp q.op))) ∧
  (s.fab.avoid = [] → (∀ r, r < 4 → s.rdBit Fd.seamStatusInService r = true) → ∀ k d : Fin 16,
    s.meshNext k d = if penCol k < penCol d then some (meshAt (penRow k) (penCol k + 1))
      else if penCol d < penCol k then some (meshAt (penRow k) (penCol k - 1))
      else if penRow k < penRow d then some (meshAt (penRow k + 1) (penCol k))
      else if penRow d < penRow k then some (meshAt (penRow k - 1) (penCol k)) else none) ∧
  (∀ k : Fin 16, s.fab.faulty.contains k.val = false →
    let u := (s.setFab { s.fab with faulty := Nats.ins s.fab.faulty k, meshFlip := true })
    let fences (t : State) := eachUpTo 8 (fun s i => s.fenceDrover (8 * k + i) 7) t
    (∀ b, exec (.routerFault k b) s = .next (fences (u.record euTransit 0x0404 (uwMesh k) (if b then 2 else 1)
      ((s.bellCount.toNat + 1) % 2 ^ 32)))) ∧
    exec (.stuckPacket k) s = .next (fences (u.record euTransit 0x0404 (uwMesh k) 3 ((s.bellCount.toNat + 1) % 2 ^ 32)))) ∧
  (∀ (r : Fin 4) (w : BitVec 8), s.rdBit Fd.seamStatusInService r = true →
    let failed := max (s.rd (seamFailed r)) w.toNat
    let lost := s.flag Fd.seamStatusMode = true ∧ 64 < failed
    Completes (.seamBundleLost r w) s fun t => t.rd (seamFailed r) = failed ∧
      (s.rd (seamFailed r) < w.toNat → t.rdBit Fd.seamStatusErrSeen r = true) ∧
      (lost → t.rdBit Fd.seamStatusInService r = false ∧
        (t.rd Fd.seamStatusInService = 0 → t.flag Fd.seamStatusIsolated = true) ∧
        (t.rd Fd.seamStatusInService ≠ 0 → t.flag Fd.seamStatusIsolated = s.flag Fd.seamStatusIsolated)) ∧
      (¬lost → t.rd Fd.seamStatusInService = s.rd Fd.seamStatusInService ∧
        t.flag Fd.seamStatusIsolated = s.flag Fd.seamStatusIsolated) ∧
      Keeps [.regs, .log, .out, .irqs] s t)

/-- R84 to R87, R170 (Table 3.7): pre-emption. Each named strand that runs or is stalled begins saving, but one without a
context area sets `NO_CTX`; once its local work has drained and its transfers have yielded, its context is saved, it is
`IDLE` and its Drover shows the save done. -/
def Obligations.DroversPreempt : Prop := ∀ s : State,
  (∀ (p : Fin 16) (k : Fin 8) (m : BitVec 8), s.reaches (Fd.drvCtlPreempt p k).addr = true →
    let d := 8 * p.val + k.val
    Completes (.preempt p k m) s fun t => (∀ e i, e ≠ d → i < 8 → t.strand e i = s.strand e i) ∧ Keeps [.strands, .regs] s t ∧ ∀ i, i < 8 →
      let x := s.strand d i
      let runs := m.getLsbD i = true ∧ (x.phase = phRunning ∨ x.phase = phStalled)
      (runs ∧ x.ctx ≠ 0 → t.strand d i = { x with phase := phSaving, wait := none }) ∧
      (runs ∧ x.ctx = 0 → t.strand d i = x ∧ t.rdBit (Fd.drvStatusNoCtx p k) i = true) ∧
      (¬runs → t.strand d i = x ∧ t.rdBit (Fd.drvStatusNoCtx p k) i = s.rdBit (Fd.drvStatusNoCtx p k) i)) ∧
  (∀ (d : Fin 128) (k : Fin 8), (s.strand d k).phase = phSaving → (∀ o ∈ s.opsOf d k, o.drains = false ∧ o.yields = false) →
    s.servedSpan (halfOf d) (s.strand d k).ctx 2048 .write = .ok → Completes (.contextSave d k) s fun t =>
      t.strand d k = {} ∧ t.rdBit (Fd.drvStatusSaved (penOf d) (d.val % 8)) k = true ∧ (11 + penOf d) ∈ t.irqs ∧
      StrandsBut d k s t ∧ t.mem = (s.saveCtx d k 1 true 0).2.mem ∧ t.fold = (s.saveCtx d k 1 true 0).2.fold ∧
      t.ops = (s.saveCtx d k 1 true 0).2.ops)

/-- R89 to R92, R96 (Table 3.13): a Drover in service or in reset is fenced, by an error, or by its watchdog while a
strand is ready and none ready outranks it: `DRV_STATUS` shows it Absent with the cause, its strands read `FENCED`, and
its logical number is marked Absent. The context unit then saves each fenced strand that has an area. -/
def Obligations.DroversFence : Prop := ∀ (s : State) (d : Fin 128),
  let p := penOf d
  let k := d.val % 8
  let fences (c : Instr) (cause : Nat) := Completes c s fun t =>
    t.rd (Fd.drvStatusState p k) = 1 ∧ t.rd (Fd.drvStatusCause p k) = cause ∧
    (∀ i, i < 8 → t.strand d i = { s.strand d i with phase := phFenced, wait := none }) ∧
    (∀ e, e ≠ d.val → ∀ i, i < 8 → t.strand e i = s.strand e i) ∧
    (s.logicalOf d < 128 → t.rd (Fd.tallyEntryState (s.logicalOf d)) = 1) ∧ t.mem = s.mem ∧ t.fold = s.fold
  (s.drvState d = 0 ∨ s.drvState d = 4 → ∀ part, fences (.droverFence d part) (match part with
    | .registerFile => 1
    | .instructionStore => 2
    | .scoreboard => 3
    | .tagIntegrity => 4)) ∧
  (s.drvState d = 0 → (∃ i, i < 8 ∧ s.ready d i = true ∧ ∀ j, j < 8 → s.ready d j = true →
    (s.strand d j).prio ≤ (s.strand d i).prio) → fences (.watchdogExpiry d) 5) ∧
  (∀ (i : Fin 8) (ok : Bool), (s.drv d).unsaved.contains i.val = true → s.opsOf d i = [] →
    s.servedSpan (halfOf d) (s.strand d i).ctx 2048 .write = .ok → Completes (.fencedContextSave d i ok) s fun t =>
      (t.drv d).unsaved = Nats.del (s.drv d).unsaved i ∧
      (t.drv d).recov = (if ok then Nats.ins (s.drv d).recov i else (s.drv d).recov) ∧
      t.rdBit (Fd.drvStatusSaved p k) i = true ∧
      t.mem = (s.saveCtx d i 2 ok (Tab.get (fun _ => 0) (s.drv d).lostTags i)).2.mem)

/-- R94 to R98, R103 (Table 3.12): the Tally's commands. A rebind chooses a reserve for an Absent number, or is refused by
the result that fits; at the second boundary the number is bound to the reserve in every copy, or, where that was
fenced meanwhile, to one searched for again; a fence by command fences the
Drover a number is bound to. After a fencing every copy changes at the boundary. -/
def Obligations.TallyBindings : Prop := ∀ s : State,
  let refused (c : Instr) (res : Nat) := Completes c s fun t =>
    t.rd Fd.tallyCmdState = 3 ∧ t.rd Fd.tallyCmdResult = res ∧ Keeps [.regs, .irqs] s t
  (s.tally.due = true → Completes .tallyCopyUpdate s fun t => Keeps [.tally] s t ∧ t.tally.due = false ∧
    ∀ n, n < 128 → t.physical? n =
      (if s.rd (Fd.tallyEntryState n) = 0 then some (s.rd (Fd.tallyEntryPhysical n)) else none)) ∧
  (s.tally.due = false → exec .tallyCopyUpdate s = .next s) ∧
  (s.down = none → s.rd Fd.tallyCmdState = 1 → ∀ (l : BitVec 8) po ex tg, ∀ c ∈ [Instr.rebind l po ex tg, .tallyFence l],
    Completes c s fun t => t.rd Fd.tallyCmdState = 1 ∧ t.rd Fd.tallyCmdResult = 5 ∧ Keeps [.regs] s t) ∧
  (s.down = none → s.rd Fd.tallyCmdState ≠ 1 → ∀ (l : BitVec 8) (po ex : Bool) (tg : BitVec 7),
    let n := l.toNat
    let bound := s.rd (Fd.tallyEntryState n)
    let last := s.rd (Fd.tallyEntryPhysical n)
    let found := s.findReserve last po
    (128 ≤ n ∨ bound ≠ 1 → refused (.rebind l po ex tg) 1) ∧
    (n < 128 → bound = 1 →
      (ex = true → s.isReserve tg.toNat = false → refused (.rebind l po ex tg) 3) ∧
      (ex = true → s.isReserve tg.toNat = true → halfOf tg.toNat ≠ halfOf last → refused (.rebind l po ex tg) 4) ∧
      (ex = false → found = none → refused (.rebind l po ex tg) 2) ∧
      (∀ r, (ex = true ∧ s.isReserve tg.toNat = true ∧ halfOf tg.toNat = halfOf last ∧ r = tg.toNat) ∨
          (ex = false ∧ found = some r) → Completes (.rebind l po ex tg) s fun t =>
        t.rd Fd.tallyCmdState = 1 ∧ t.rd Fd.tallyCmdResult = 0 ∧ t.tally.rebind = some ⟨n, r, 2, ex, po⟩ ∧
        Keeps [.regs, .tally] s t)) ∧
    (128 ≤ n ∨ bound ≠ 0 → refused (.tallyFence l) 7) ∧
    (n < 128 → bound = 0 → s.drvState last = 0 → Completes (.tallyFence l) s fun t =>
      t.rd Fd.tallyCmdState = 2 ∧ t.rd Fd.tallyCmdResult = 0 ∧ t.rd (Fd.drvStatusState (penOf last) (last % 8)) = 1 ∧
      t.rd (Fd.drvStatusCause (penOf last) (last % 8)) = 6)) ∧
  (∀ n r ex po, s.tally.rebind = some ⟨n, r, 0, ex, po⟩ → n < 128 → r < 128 → s.isReserve r = true →
    Completes .rebindTakeEffect s fun t => t.rd (Fd.tallyEntryState n) = 0 ∧ t.rd (Fd.tallyEntryPhysical n) = r ∧
      t.isReserve r = false ∧ t.drvState r = 0 ∧ t.rd Fd.tallyCmdState = 2 ∧ t.rd Fd.tallyCmdResult = 0 ∧
      t.tally.rebind = none ∧ t.tally.due = false ∧ t.physical? n = some r) ∧
  (∀ v, s.tally.rebind = some v → v.left = 0 → s.isReserve v.reserve = false →
    let u : State := { s with tally := { s.tally with rebind := none } };
    let again := s.findReserve (s.rd (Fd.tallyEntryPhysical v.logical)) v.paddockOnly
    exec .rebindTakeEffect s = .next (if v.explicit then u.tallyEnd 3 3 else match again with
      | some q => u.bindReserve v.logical q
      | none => u.tallyEnd 3 2)) ∧
  (∀ v, s.tally.rebind = some v → v.left ≠ 0 → exec .rebindTakeEffect s = .next s) ∧
  (s.tally.rebind = none → exec .rebindTakeEffect s = .next s)

/-- R44, R45, R48, R52 to R54, R57 to R61 (Table 2.2): `BELL_BOUNDARY`. The input is measured; where the Bell logic is
powered the count and the lock follow the markers of the Bell that ends, and then, in the order of R61, commits, windows,
`AT` pairs and `WAITBELL`, and power changes that are due take effect. The count rises by 1 in `LOCKED`, `HOLDOVER` and
`BELLWETHER`; a follower takes its count from its first source; without a source after two misses `LOCKED` becomes
`HOLDOVER`. Time between boundaries is the model's reading (notes/assumptions/29.md). -/
def Obligations.BellBoundary : Prop := ∀ (s : State) (vin pin : BitVec 16),
  let m := ((s.wr Fd.pwrStatusVin vin.toNat).wr Fd.pwrStatusPin pin.toNat).setLog { s.log with time := s.log.time + 128 }
  let u := m.countAtBell.commitsAtBell.windowsAtBell.issuesAtBell.powerAtBell
  (s.down.isSome = true → exec (.bellBoundary vin pin) s = .next s) ∧
  (s.down = none → s.dark = true → exec (.bellBoundary vin pin) s = .next m) ∧
  (s.down = none → s.dark = false → exec (.bellBoundary vin pin) s =
    .next (if u.down.isSome || u.dark then u else u.thermalDue.messagesAtBell)) ∧
  ∀ u : State,
    let c := u.countMarkers
    let t := u.tickLock
    let src := u.rd Fd.bellStatusSource
    let goes (st : Nat) (n : Word) := t.bellState = st ∧ t.bellCount = n
    let follows (p : Nat) := t.bellState = bsLocked ∧ t.rd Fd.bellStatusSource = p ∧
      t.rd Fd.bellStatusBellwether = (c.lastMarker p).bellwether.toNat ∧
      t.rd Fd.bellStatusHops = min 31 ((c.lastMarker p).hops.toNat + 1)
    (u.bellState = bsBellwether → goes bsBellwether (u.bellCount + 1)) ∧
    (u.bellState = bsLocked → Tab.get (fun _ => 0) c.bell.missed src < 2 → goes bsLocked (u.bellCount + 1) ∧
      t.rd Fd.bellStatusSource = src) ∧
    (u.bellState = bsLocked → 2 ≤ Tab.get (fun _ => 0) c.bell.missed src →
      (∀ p, c.bestSource 2 = some p → follows p ∧ t.bellCount = u.bellCount + 1) ∧
      (c.bestSource 2 = none → goes bsHoldover (u.bellCount + 1) ∧ t.bell.held = 0)) ∧
    (u.bellState = bsHoldover →
      (∀ p, c.bestSource 2 = some p → follows p ∧ t.bellCount = u.bellCount + 1) ∧
      (c.bestSource 2 = none → goes bsHoldover (u.bellCount + 1) ∧ t.bell.held = min 65536 (u.bell.held + 1))) ∧
    (u.bellState = bsUnlocked →
      (∀ p, c.bestSource 3 = some p → follows p ∧ t.bellCount = (c.lastMarker p).count ∧ t.bell.stepped = 65536) ∧
      (c.bestSource 3 = none → goes bsUnlocked (u.bellCount + 1))) ∧
    (u.bellState = bsAcquiring → u.rd Fd.bellCfgRole = roleBellwether →
      (u.bell.lockStep = true → u.portsTrain = false → goes bsBellwether 0 ∧ t.rd Fd.bellStatusHops = 0) ∧
      (u.bell.lockStep = false ∨ u.portsTrain = true → goes bsAcquiring u.bellCount)) ∧
    (u.bellState = bsAcquiring → u.rd Fd.bellCfgRole ≠ roleBellwether →
      (∀ p, c.bestSource 3 = some p → follows p ∧ t.bellCount = (c.lastMarker p).count) ∧
      (c.bestSource 3 = none → goes bsAcquiring u.bellCount))

/-- R46 to R48, R53, R58, R59 (Table 2.2): markers and the ends of the lock's states. A marker that fails its check is an
uncorrectable flit; one of another Bellwether is counted while `LOCKED` and not used; any other is the port's last. A
Round in holdover, or an acquisition that times out, ends in `UNLOCKED`: armed commits end and scheduled flits go on as
bulk. A standby takes over as the Bellwether. -/
def Obligations.BellLockEnds : Prop := ∀ s : State,
  let unlocks (c : Instr) := Completes c s fun t => t = s.enterUnlocked ∧ t.bellState = bsUnlocked ∧
    t.rd Fd.bellStatusSchedOk = 0 ∧ t.bell.held = 0 ∧ (∀ g ∈ gates, t.rd (Fd.gateState (g.1.base + 0x1000 * g.2)) ≠ 1) ∧
    (∀ p, p < 16 → (t.port p).sched = [] ∧ (t.port p).orphans = []) ∧ t.mem = s.mem ∧ t.fold = s.fold
  (∀ (p : Fin 16) (m : Marker), s.portUp p = true → s.dark = false →
    let foreign := s.bellState = bsLocked ∧ m.bellwether.toNat ≠ s.rd Fd.bellStatusBellwether
    (m.valid = false → Completes (.bellMarker p m) s fun t => RegsBut [(Fd.optPortErrUe p).addr] s t ∧
      t.rd (Fd.optPortErrUe p) = min 65535 (s.rd (Fd.optPortErrUe p) + 1) ∧ t.bell.fresh = s.bell.fresh) ∧
    (m.valid = true → foreign → Completes (.bellMarker p m) s fun t => RegsBut [Fd.bellStatusForeign.addr] s t ∧
      t.rd Fd.bellStatusForeign = min 255 (s.rd Fd.bellStatusForeign + 1) ∧ t.bell.fresh = s.bell.fresh) ∧
    (m.valid = true → ¬foreign → (m.holdover = true ∨ s.bellState = bsBellwether) → Completes (.bellMarker p m) s fun t =>
      t.regs = s.regs ∧ t.bell.fresh = s.bell.fresh ∧ t.bell.seen = Nats.ins s.bell.seen p) ∧
    (m.valid = true → ¬foreign → m.holdover = false → s.bellState ≠ bsBellwether → Completes (.bellMarker p m) s fun t =>
      t.bell.fresh = Nats.ins s.bell.fresh p ∧ t.lastMarker p = m ∧ RegsBut [Fd.bellStatusOffset.addr] s t ∧
      t.rd Fd.bellStatusOffset =
        (if s.bellState = bsLocked ∧ s.rd Fd.bellStatusSource = p then m.offset.toNat else s.rd Fd.bellStatusOffset))) ∧
  (s.bellState = bsHoldover → 65536 ≤ s.bell.held → unlocks .holdoverExpiry) ∧
  (s.bellState = bsHoldover → s.bell.held < 65536 → exec .holdoverExpiry s = .next s) ∧
  (s.bellState = bsAcquiring → s.bell.lockStep = true → s.rd Fd.bellCfgRole ≠ roleBellwether → unlocks .acquireTimeout) ∧
  (s.bellState = bsHoldover → s.rd Fd.bellCfgRole = roleStandby → s.rd Fd.bellCfgTakeover ≤ s.bell.held →
    Completes .standbyTakeover s fun t => t.bellState = bsBellwether ∧ t.rd Fd.bellStatusSchedOk = 1 ∧
      t.rd Fd.bellStatusHops = 0 ∧ t.rd Fd.bellStatusBellwether = s.device ∧ t.bellCount = s.bellCount) ∧
  (s.bellState = bsLocked → 65536 ≤ s.bell.stable → Completes .schedOkQualify s fun t => t.rd Fd.bellStatusSchedOk = 1 ∧
    t.bellState = bsLocked ∧ RegsBut [Fd.bellStatusSchedOk.addr] s t ∧ Keeps [.regs] s t) ∧
  (∀ p : Fin 16, Completes (.penClockDown p) s fun t => Tab.get (fun _ => 20) t.penClock p = s.penRate p ∧ Keeps [.penClock] s t)

/-- R15 to R21 (Table 0.5): the gate. A `COMMIT` meets the checks in R21's order; the first that fails gives `REASON`, and
`STATE` reads `REFUSED` unless a commit stays armed. One that passes arms, or applies every staged field at once; an armed
one applies at its Bell. `ABORT`, also with `COMMIT`, copies the active values into staging and cancels an armed commit.
-/
def Obligations.GatesCommit : Prop := ∀ (s : State) (b : Blk) (i : Nat) (who : Master) (block val : BitVec 64),
  gateAt block.toNat = some (b, i) →
  let base := b.base + 0x1000 * i
  let armed := s.rd (Fd.gateState base) = 1
  let wrote := s.writeGateCtl base val
  let c := if who = .crook then { wrote with crook := { s.crook with staging := Nats.del s.crook.staging base } } else wrote
  let at_ := bit val 61 = true
  let target := s.rd (Fd.gateBell base)
  let now := s.bellCount.toNat
  let counts := s.bellState = bsLocked ∨ s.bellState = bsHoldover ∨ s.bellState = bsBellwether
  let refused (reason : Nat) := Completes (.commit who block val) s fun t =>
    t.rd (Fd.gateReason base) = reason ∧ t.rd (Fd.gateState base) = (if armed then 1 else 3) ∧
    t.rd (Fd.gateCount base) = s.rd (Fd.gateCount base) ∧ RegsBut [base + 0x10] s t ∧ Keeps [.regs, .irqs, .crook] s t
  let direct := b.signed = true ∧ who ≠ .crook
  (s.gateShut who base = true → exec (.commit who block val) s = .next s ∧ exec (.abort who block val) s = .next s) ∧
  (s.gateShut who base = false →
    (bit val 62 = true → exec (.commit who block val) s = exec (.abort who block val) s) ∧
    (bit val 62 = false →
      (direct → refused 8) ∧
      (¬direct → armed → refused 7) ∧
      (¬direct → ¬armed →
        (at_ → ¬counts → refused 4) ∧
        (at_ → counts → target < now + 2 → refused 2) ∧
        (at_ → counts → now + 1048576 < target → refused 3) ∧
        ((at_ → counts ∧ now + 2 ≤ target ∧ target ≤ now + 1048576) →
          (c.gateBad b.kind i = true → refused 1) ∧
          (c.gateBad b.kind i = false → at_ → Completes (.commit who block val) s fun t =>
            t.rd (Fd.gateState base) = 1 ∧ t.staged = s.staged ∧ RegsBut [base + 0x10] s t) ∧
          (c.gateBad b.kind i = false → ¬at_ → Completes (.commit who block val) s fun t =>
            t = c.applyGate b.kind i base ∧ t.rd (Fd.gateState base) = 2)))) ∧
    Completes (.abort who block val) s fun t => RegsBut [base + 0x10] s t ∧
      (∀ a, t.stg a = if inGate base a then (s.stg a &&& ~~~stMask a) ||| (c.reg a &&& stMask a) else s.stg a) ∧
      t.rd (Fd.gateState base) = (if armed then 3 else s.rd (Fd.gateState base)) ∧
      t.rd (Fd.gateReason base) = (if armed then 6 else s.rd (Fd.gateReason base))) ∧
  (armed → target ≤ now → Completes (.gateApplyAtBell block) s fun t =>
    t = s.applyGate b.kind i base ∧ t.rd (Fd.gateState base) = 2) ∧
  (¬armed ∨ now < target → exec (.gateApplyAtBell block) s = .next s) ∧
  ∀ y : State, (∀ a, (y.applyStaged base).reg a =
      if inGate base a then (y.reg a &&& ~~~stMask a) ||| (y.stg a &&& stMask a) else y.reg a) ∧
    (y.applyGate b.kind i base).rd (Fd.gateCount base) =
      (((y.applyStaged base).committed y b.kind i).rd (Fd.gateCount base) + 1) % 2 ^ 32

/-- R10 to R14, R19, R591, R598: `REGISTER_WRITE` to a register of fields. A write that does not fit, reaches no block or
meets a block that is down has its status and no effect; else each field takes it by its access code, ST fields in their
staging copy alone, unless a commit is armed, which sets `BLOCKED`. -/
def Obligations.RegistersTakeWrites : Prop := ∀ (s : State) (who : Master) (a : BitVec 64) (width : Nat) (v : BitVec 64),
  s.down = none →
  let n := a.toNat
  let out (st : Nat) (t : State) := t.out = s.out ++ [.access who n st 0]
  let fits := width = 64 ∧ n % 8 = 0
  let only (st : Nat) := Completes (.registerWrite who a width v) s fun t => out st t ∧ Keeps [.out] s t
  (¬fits → only stRegWidth) ∧
  (fits → findBlk n = none → only stUnmapped) ∧
  ∀ b i, findBlk n = some (b, i) → fits →
    (s.asleepAt n = true → only stAsleep) ∧
    (s.asleepAt n = false →
      let off := (n - b.base) % 0x1000
      let gate := viewGate b i
      let shut := s.rd (Fd.gateState gate) = 1 ∨ (s.crook.staging.contains gate = true ∧ who ≠ .crook)
      ((b.kind = 0x0005 ∨ b.kind = 0x0041) → only stOk) ∧
      (b.kind ≠ 0x0005 → b.kind ≠ 0x0041 → (b.gate = true → off ≠ 0x10 ∧ off ≠ 0x18) → b.base ≠ doorbellBlk.base →
        s.writeCmd who b i off v = none → ∀ r, regSpec n = some r →
        let w := ((s.reg n &&& ~~~r.rw) ||| (v &&& r.rw)) &&& ~~~(v &&& r.w1c)
        let w := if v &&& r.w1cCount = 0 then w else w &&& ~~~r.w1cCount
        Completes (.registerWrite who a width v) s fun t => out stOk t ∧ Keeps [.out, .regs, .staged, .crook] s t ∧
          (r.st = 0 → t.reg n = w ∧ RegsBut [n] s t ∧ t.staged = s.staged) ∧
          (r.st ≠ 0 → n ≠ gate + 0x10 →
            t.reg n = w ∧ RegsBut [n, gate + 0x10] s t ∧ (∀ e, e ≠ n → t.stg e = s.stg e) ∧
            (shut → t.stg n = s.stg n ∧ t.rd (Fd.gateBlocked gate) = 1) ∧
            (¬shut → t.stg n = (s.stg n &&& ~~~r.st) ||| (v &&& r.st) ∧ RegsBut [n] s t))))

/-- R79 to R82, R596 (Tables 3.5, 3.6, 20.8): a write of register 7 of a doorbell window submits the start record with the
latched words, clears the latches and shows the outcome, the first of R81's that applies. A refused record changes nothing
else; an accepted one without `RESTORE` starts its strand from cleared registers. -/
def Obligations.DoorbellWindowStarts : Prop := ∀ (s : State) (n : Fin 128) (k : Fin 8) (v : BitVec 64),
  s.reaches (Fd.doorbell n k 7).addr = true →
  let r := StartRec.ofWords fun i => if i = 7 then v else s.reg (Fd.doorbell n k i).addr
  let shows (o : Nat) (t : State) := t.rd (Fd.doorbellOutcome n k) = o ∧ t.rd (Fd.doorbellCookie n k) = bits v 63 48 ∧
    t.rd (Fd.doorbellValid n k) = 1 ∧ (∀ i, i < 7 → t.reg (Fd.doorbell n k i).addr = 0) ∧
    RegsBut ((List.range 8).map fun i => (Fd.doorbell n k i).addr) s t
  let refused (o : Nat) := Completes (.doorbellWindowSubmit n k v) s fun t => shows o t ∧ Keeps [.regs, .free] s t
  (s.flag Fd.modStatusReady = false → refused srReset) ∧
  (s.flag Fd.modStatusReady = true → s.rd Fd.pwrStatusState < 2 →
    (s.physical? n = none → refused srAbsent) ∧
    ∀ d, s.physical? n = some d →
      (s.droverInReset d = true → refused srReset) ∧
      (s.droverInReset d = false → s.drvState d = 1 → refused srAbsent) ∧
      (s.droverInReset d = false → s.drvState d ≠ 1 →
        ((s.strand d k).phase ≠ phIdle → refused srBusy) ∧
        ((s.strand d k).phase = phIdle →
          (r.bad = true → refused srBadRecord) ∧
          (r.bad = false → r.restore = true → s.ctxOutcome d r.ctx.toNat ≠ srOk → refused (s.ctxOutcome d r.ctx.toNat)) ∧
          (r.bad = false → r.restore = false → Completes (.doorbellWindowSubmit n k v) s fun t => shows srOk t ∧
            t.strand d k = ((((Strand.wg { phase := phRunning, pc := r.entry.setWidth 48, prio := r.prio, start := r }
              1 r.arg0).wg 2 r.arg1).wg 3 r.arg2).wg 4 r.arg3) ∧
            StrandsBut d k s t ∧ (t.drv d).store = [] ∧ Keeps [.regs, .free, .strands, .drovers, .penGated] s t))))

/-- R215 to R219, R224, R227, R229, R239, R250, R251 (Table 7.2): a request at its home bank. What the bank cannot serve is
answered or waits; a hit is served; a miss attaches to its line's entry, takes one of the 32 entries, or waits. A read is
answered with its bytes, a write of the scratchpad is done and answered, an operation accesses memory. -/
def Obligations.BankRequestsAreServed : Prop := ∀ (s : State) (r : BankReq),
  let a := (s.askSpan r).1
  let n := (s.askSpan r).2.1
  let use := (s.askSpan r).2.2
  let touched := sectorsOf (a % 128) n
  let whole := wholeSectors (a % 128) n
  let b := bankOf a
  let p := bankPen b
  let l := a / 128
  let u := s.ungate p
  let operation := ∃ id, r.ask = .operation id
  let live := ∀ id, r.ask = .operation id → ∃ o, s.op? id = some o ∧ o.phase = .ready ∧ isXferOp o.code = false
  let ends (t : State) := exec (.bankRequest r) s = .next t
  let waits (counted : Nat) := ((s.bank b).queue.length < 64 → Completes (.bankRequest r) s fun t =>
      t.bank b = { s.bank b with queue := (s.bank b).queue ++ [r] } ∧ (∀ c, c ≠ b → t.bank c = s.bank c) ∧
      t.rd (Fd.foldSetwait p) = (s.rd (Fd.foldSetwait p) + counted) % 2 ^ 64 ∧ Keeps [.regs, .banks, .penGated] s t) ∧
    (64 ≤ (s.bank b).queue.length → ends u)
  let reply (st : Nat) (bs : List Byte) (t : State) := t.out = s.out ++ [.bankReply [r.who.toNat] r.addr.toNat st bs]
  let status := if s.anyBad a n then stPoison else stOk
  let entry := (s.bank b).misses.find? fun (m : Miss) => Machine.setOf (128 * m.line) = Machine.setOf a
  let hit := s.hits l touched whole use = true
  let passes (m : Miss) := hit ∧ (m.line ≠ l ∨ use = .read)
  let attaches (m : Miss) := m.line = l ∧ m.attached.length < 16
  (¬live ∨ isLocalMem a = false → ends s) ∧
  (live → isLocalMem a = true →
    (∀ st, s.atBank (bankHalf b) a = .fails st → (operation → ends (u.serve r)) ∧
      (¬operation → Completes (.bankRequest r) s fun t => reply st [] t ∧ Keeps [.out, .penGated] s t)) ∧
    (s.atBank (bankHalf b) a = .waits → waits 0) ∧
    (s.atBank (bankHalf b) a = .ok →
      (r.ecc = [] → isStack a = false ∨ (entry = none ∧ (hit ∨ s.needsEntry l touched whole use = false)) ∨
        (∃ m, entry = some m ∧ passes m) → ends (u.serve r)) ∧
      (isStack a = true → ∀ m, entry = some m → ¬passes m →
        (attaches m → Completes (.bankRequest r) s fun t =>
          (t.bank b).misses = updateWhere (fun q => q.line = l) (fun q => { q with attached := q.attached ++ [r] })
            (s.bank b).misses ∧
          t.rd (Fd.foldMerged p) = (s.rd (Fd.foldMerged p) + b2n (use = .read)) % 2 ^ 64 ∧
          t.rd (Fd.foldHits p) = (s.rd (Fd.foldHits p) + b2n (use = .read)) % 2 ^ 64 ∧
          Keeps [.regs, .banks, .penGated] s t) ∧
        (¬attaches m → waits 1)) ∧
      (isStack a = true → entry = none → ¬hit → s.needsEntry l touched whole use = true →
        (32 ≤ (s.bank b).misses.length → waits 1) ∧
        ((s.bank b).misses.length < 32 → Completes (.bankRequest r) s fun t => ∃ m : Miss,
          (t.bank b).misses = (s.bank b).misses ++ [m] ∧ m.line = l ∧ m.attached = [r] ∧ m.stream = r.stream ∧ m.cls = r.cls ∧
          m.sectors = (if r.graze then s.wants l touched whole use else ((s.line l).map fun y => ~~~y.valid).getD 0xF) ∧
          (∀ y, s.line l = some y → m.way = some y.way) ∧
          t.rd (Fd.foldMisses p) = (s.rd (Fd.foldMisses p) + 1) % 2 ^ 64)))) ∧
  (r.ask = .read n → isScratch a = true → reply status (s.readBytes a n) (u.serve r) ∧ Keeps [.out, .penGated] s (u.serve r)) ∧
  (∀ x, r.ask = .read n → isStack a = true → 0 < n → a % 128 + n ≤ 128 → s.line l = some x → x.ways = [] →
    touched &&& ~~~x.valid = 0 → let t := u.serve r;
      reply status (s.readBytes a n) t ∧ t.line l = some { x with age := if r.stream then x.age else 0 } ∧
      t.rd (Fd.foldHits p) = (s.rd (Fd.foldHits p) + 1) % 2 ^ 64 ∧ Keeps [.out, .regs, .lines, .banks, .penGated] s t) ∧
  (∀ d, r.ask = .write d → isScratch a = true → (d.length = 0 ∨ isScratch (a + d.length - 1) = true) → let t := u.serve r;
    reply stOk [] t ∧
    (∀ c, t.readByte c = if a ≤ c ∧ c < a + d.length then d.getD (c - a) 0 else s.readByte c) ∧
    Keeps [.out, .fold, .foldPoison, .penGated] s t) ∧
  (∀ id o, r.ask = .operation id → s.op? id = some o → o.phase = .ready → u.serve r = (u.perform o).getD u)

/-- R217 to R219, R222, R249, R250 (Table 7.2): a fill whose data has come is written to its way, the attached requests are
answered, the entry frees and what waits at the bank is looked up again. A scrub pass, every 16 Rounds, corrects single-bit
errors, poisons words with double-bit ones, and at 16 corrections announces a window 4 Rounds ahead. -/
def Obligations.FoldFillsAndScrubs : Prop := ∀ (s : State) (b : Fin 512),
  let early := (s.bank b).passAt.any fun t => decide (s.bellCount.toNat < t.toNat + 16 * 65536)
  (∀ l, (s.bank b).misses.find? (fun m => m.line = l) = none → exec (.foldFill b l) s = .next s) ∧
  (∀ l m, (s.bank b).misses.find? (fun m => m.line = l) = some m →
    (m.back = false ∨ s.scrubbing b = true → exec (.foldFill b l) s = .next s) ∧
    (m.back = true → s.scrubbing b = false →
      let u := s.endMiss b m
      exec (.foldFill b l) s = .next (u.lookAgain b) ∧
      u.lookAgain b = (u.bank b).queue.foldl (fun t r => t.lookAt r true) (u.setBank b { u.bank b with queue := [] }) ∧
      ∀ r n way, m.attached = [r] → r.ask = .read n → m.way = some way → s.line l = none → s.rangeQ (bankHalf b) = [] →
        isStack r.addr.toNat = true → r.addr.toNat / 128 = l → bankOf (128 * l) = b.val → 0 < n →
        r.addr.toNat % 128 + n ≤ 128 → sectorsOf (r.addr.toNat % 128) n &&& ~~~m.sectors = 0 →
        (∃ st, u.out = s.out ++
          [.bankReply [r.who.toNat] r.addr.toNat st ((List.range n).map fun i => s.dramByte (r.addr.toNat + i))]) ∧
        u.line l = some { way, valid := m.sectors, dirty := false, pinned := false, age := if r.stream && m.stream then 3 else 0 } ∧
        (u.bank b).misses = (s.bank b).misses.filter (fun q => q.line ≠ l) ∧ u.mem = s.mem)) ∧
  (∀ l, Completes (.mergeBufferExpiry b l) s fun t =>
    t.bank b = { s.bank b with merge := (s.bank b).merge.filter (· ≠ l) } ∧ Keeps [.banks] s t) ∧
  (∀ errors, early = true ∨ s.scrubbing b = true → exec (.foldScrubPass b errors) s = .next s) ∧
  (early = false → s.scrubbing b = false →
    (∀ e st w, s.arrayPlace e.addr.toNat = some (b.val, st, w) → Completes (.foldScrubPass b [e]) s fun t =>
      (t.bank b).fixed = (if e.double then 0 else 1) ∧ (t.bank b).passAt = some s.bellCount ∧
      t.rd (Fd.foldEccCe (bankPen b)) = (s.rd (Fd.foldEccCe (bankPen b)) + b2n (!e.double)) % 2 ^ 64 ∧
      t.rd (Fd.foldEccUe (bankPen b)) = (s.rd (Fd.foldEccUe (bankPen b)) + b2n e.double) % 2 ^ 64 ∧
      (e.double = true → e.addr.toNat / 8 ∈ t.foldPoison) ∧ t.mem = s.mem ∧ t.fold = s.fold) ∧
    ∀ errors : List FoldError, 16 ≤ (errors.filter fun e =>
        (s.arrayPlace e.addr.toNat).any (fun q => decide (q.1 = b.val)) && !e.double).length → (s.bank b).window = none →
      Completes (.foldScrubPass b errors) s fun t => (t.bank b).window = some (s.bellCount + 262144, false)) ∧
  ((s.bank b).window = none → exec (.foldScrubWindow b) s = .next s) ∧
  (∀ start on, (s.bank b).window = some (start, on) →
    (start.toNat ≤ s.bellCount.toNat → Completes (.foldScrubWindow b) s fun t =>
      (t.bank b).window = some (start, true) ∧ Keeps [.banks] s t) ∧
    (s.bellCount.toNat < start.toNat → exec (.foldScrubWindow b) s = .next s))

/-- R229, R230, R234, R237, R238: a converting slot becomes addressable, zero, once its way holds no line and no miss has
reserved it, and what waited at the Pen's banks is looked up; disabling the cache ends with no line in the Pen's banks and 16
scratchpad slots; a way powers down clean and empty, or, of the scratchpad, loses its contents, and returns invalid or
zeroed. -/
def Obligations.WaysConvert : Prop := ∀ (s : State) (p w : Fin 16),
  let q := s.penWays p
  let active := s.rd (Fd.foldWaystatScratchActive p)
  let gone (f : Line → Bool) (t : State) :=
    ∀ l x, t.line l = some x → bankPen (bankOf (128 * l)) = p.val → f x = false
  let zero (j : Nat) (t : State) := ∀ a, 0x10000000000 + 2 ^ 26 * p.val + 2 ^ 22 * j ≤ a →
    a < 0x10000000000 + 2 ^ 26 * p.val + 2 ^ 22 * (j + 1) → Memory.read t.fold a = 0
  let ends (c : Instr) (f : State → Prop) := Completes c s fun t => ∃ u, t = u.lookPen p ∧ f u ∧
    ((∀ i, i < 32 → (s.bank (32 * p.val + i)).queue = []) → f t)
  (q.slots = [] → exec (.slotConversionDone p) s = .next s) ∧
  (∀ j rest, q.slots = j :: rest → s.wayReserved p (· = 15 - j) = true → exec (.slotConversionDone p) s = .next s) ∧
  (∀ j rest, q.slots = j :: rest → s.wayReserved p (· = 15 - j) = false → ends (.slotConversionDone p) fun t =>
    (t.penWays p).slots = rest ∧ gone (fun x => x.takes (15 - j)) t ∧ zero j t ∧
    t.rd (Fd.foldWaystatScratchActive p) = (active + 1) % 32 ∧
    t.rd (Fd.foldWaystatPhase p) = (if rest = [] then 0 else s.rd (Fd.foldWaystatPhase p))) ∧
  (q.disable = false ∨ s.wayReserved p (fun _ => true) = true → exec (.cacheDisableDone p) s = .next s) ∧
  (q.disable = true → s.wayReserved p (fun _ => true) = false → ends (.cacheDisableDone p) fun t =>
    (t.penWays p).disable = false ∧ gone (fun _ => true) t ∧ (∀ j, active ≤ j → j < 16 → zero j t) ∧
    t.rd (Fd.foldWaystatScratchActive p) = 16 ∧ t.rd (Fd.foldWaystatCacheOffActive p) = 1 ∧
    t.rd (Fd.foldWaystatPhase p) = 0) ∧
  (q.downs.contains w.val = false ∨ s.wayReserved p (· = w.val) = true → exec (.wayPowerDown p w) s = .next s) ∧
  (q.downs.contains w.val = true → s.wayReserved p (· = w.val) = false → Completes (.wayPowerDown p w) s fun t =>
    (t.penWays p).downs = Nats.del q.downs w ∧ t.rdBit (Fd.foldWaystatOffActive p) w = true ∧
    (16 - active ≤ w.val → zero (15 - w.val) t) ∧ (w.val < 16 - active → gone (fun x => x.takes w) t)) ∧
  (q.ups.contains w.val = false → exec (.wayPowerUp p w) s = .next s) ∧
  (q.ups.contains w.val = true → Completes (.wayPowerUp p w) s fun t =>
    (t.penWays p).ups = Nats.del q.ups w ∧ t.rdBit (Fd.foldWaystatOffActive p) w = false ∧ zero (15 - w.val) t ∧
    t.lines = s.lines ∧ t.mem = s.mem)

/-- R241 to R247 (Tables 7.7, 7.8): the range block. A `GO` takes the first `RESULT` that applies, or queues its command; the
engine walks the lines of the request at its queue's head and ends it when none is left; and what a command does to a line
the Fold does not hold, and to a plain one it holds. -/
def Obligations.RangeCommandsRun : Prop := ∀ (s : State) (h : Fin 2),
  let base := 128 * s.rd (Fd.frangeBaseBase h)
  let len := s.rd (Fd.frangeLen h)
  let busy := s.flag (Fd.frangeStatusBusy h) = true ∨ 64 ≤ (s.rangeQ h).length
  let bad := len = 0 ∨ len % 128 ≠ 0 ∨ isStack base = false ∨ base / 2 ^ 36 ≠ (base + len - 1) / 2 ^ 36 ∨
    (s.flag (Fd.dramStackStatusStripeOn (base / 2 ^ 36)) = true ∧ inStripe (base + len - 1) = true)
  (∀ c ∈ [(Instr.frClean h, 1), (.frInvalidate h, 2), (.frCleanInv h, 3), (.frZero h, 4), (.frPin h, 5), (.frUnpin h, 6)],
    let result (n : Nat) := Completes c.1 s fun t => t.rd (Fd.frangeStatusResult h) = n ∧
      t.rd (Fd.frangeStatusBusy h) = s.rd (Fd.frangeStatusBusy h) ∧ Keeps [.regs] s t
    (s.reaches (Fd.frangeCmdGo h).addr = false → exec c.1 s = .next s) ∧
    (s.reaches (Fd.frangeCmdGo h).addr = true →
      (busy → result 1) ∧ (¬busy → bad → result 3) ∧ (¬busy → ¬bad → base / 2 ^ 38 ≠ h.val → result 4) ∧
      (¬busy → ¬bad → base / 2 ^ 38 = h.val → Completes c.1 s fun t =>
        t.rd (Fd.frangeStatusBusy h) = 1 ∧ t.rd (Fd.frangeStatusResult h) = 0 ∧ Keeps [.regs, .ranges] s t ∧
        t.rangeQ h = s.rangeQ h ++ [{ cmd := c.2, line := base / 128, count := len / 128, op := none, begun := false,
                                      touched := 0, fails := 0 }]))) ∧
  (s.rangeQ h = [] → exec (.rangeEngineStart h) s = .next s ∧ exec (.rangeComplete h) s = .next s) ∧
  (∀ r rest, s.rangeQ h = r :: rest →
    let reset := (r.op.isSome || r.site.isSome) && s.resetPaddocks.contains (bankPaddock (bankOf (128 * r.line)))
    let goes (c : Instr) (q : RangeReq × State) := Completes c s fun t => t.rangeQ h = q.1 :: (q.2.rangeQ h).drop 1 ∧
      t.lines = q.2.lines ∧ t.mem = q.2.mem ∧ t.fold = q.2.fold
    (r.begun = true → exec (.rangeEngineStart h) s = .next s) ∧
    (r.begun = false → reset = true → exec (.rangeEngineStart h) s = .next (s.rangeDone h r stReset)) ∧
    (r.begun = false → reset = false → goes (.rangeEngineStart h) (s.walk { r with begun := true } (s.rangeLines r))) ∧
    (r.begun = false → exec (.rangeComplete h) s = .next s) ∧
    (r.begun = true →
      let v := s.walk r r.left
      (v.1.left ≠ [] ∨ v.2.rangeSettled v.1 = false → goes (.rangeComplete h) v) ∧
      (v.1.left = [] → v.2.rangeSettled v.1 = true → exec (.rangeComplete h) s = .next (v.2.rangeDone h v.1 stOk)) ∧
      (r.left = [] → s.rangeSettled r = true → r.op = none → r.site = none →
        (∀ o ∈ s.ops, o.phase = .ready → o.code ≠ .frange ∧ o.code ≠ .settle) →
        Completes (.rangeComplete h) s fun t => t.rangeQ h = rest ∧ t.rd (Fd.frangeStatusBusy h) = 0 ∧
          t.rd (Fd.frangeStatusResult h) = 0 ∧ t.rd (Fd.frangeLines h) = r.lines % 2 ^ 64 ∧
          t.rd (Fd.frangeStatusPinnedTouched h) = min r.touched (2 ^ 20 - 1) ∧
          t.rd (Fd.frangeStatusPinFail h) = min r.fails (2 ^ 20 - 1) ∧ (8 + h.val) ∈ t.irqs))) ∧
  ∀ (y : State) (l : Nat),
    (y.line l = none →
      (∀ cmd, cmd ≠ 4 → cmd ≠ 5 → y.rangeLine cmd l = (0, 0, y)) ∧
      (isStack (128 * l) = true → (y.place (128 * l)).isSome = true → (y.rangeLine 4 l).2.2.line l = none ∧
        ∀ i, i < 128 → (y.rangeLine 4 l).2.2.readByte (128 * l + i) = 0) ∧
      (y.pinWays l = [] → y.rangeLine 5 l = (0, 1, y))) ∧
    ∀ x, y.line l = some x → x.ways = [] →
      let t (cmd : Nat) := (y.rangeLine cmd l).2.2
      let discarded := if x.pinned then some { way := x.way, valid := 0, dirty := false, pinned := true, age := x.age, early := x.early }
        else none
      (∀ cmd, 1 ≤ cmd → cmd ≤ 4 → (y.rangeLine cmd l).1 = b2n x.pinned ∧ (y.rangeLine cmd l).2.1 = 0) ∧
      (t 1).line l = some { x with dirty := false } ∧ (x.dirty = false → (t 1).mem = y.mem) ∧
      (t 2).line l = discarded ∧ (t 2).mem = y.mem ∧
      (t 3).line l = discarded ∧ (x.dirty = false → (t 3).mem = y.mem) ∧
      (t 4).line l = some { x with valid := 0xF, dirty := true } ∧ (t 4).mem = y.mem ∧
      (isStack (128 * l) = true → ∀ i, i < 128 → (t 4).readByte (128 * l + i) = 0) ∧
      (x.dirty = true → isStack (128 * l) = true → (y.place (128 * l)).isSome = true → ∀ i, i < 128 →
        (t 3).readByte (128 * l + i) = y.readByte (128 * l + i)) ∧
      (x.pinned = true → y.rangeLine 5 l = (1, 0, y)) ∧
      (t 6).line l = some { x with pinned := false, age := 3 } ∧ (t 6).fold = y.fold

/-- R280 to R283, R285, R288 to R292, R295, R297 to R303, R305 to R307, R311: a DRAM request enters its channel's queue with
its class; a full queue leaves it with the Fold; writes drain from 48, or with no read waiting, down to 16; a read of a line
whose write is queued is answered at once. A return is that of the read whose turn it is. Scrub reads each line in turn: one
wrong symbol is corrected and counted, two poison the sector. Windows are announced 4 Rounds ahead, open at their start or
are skipped. A forced retrain begins after its trigger and ends with the channel in service or retired. -/
def Obligations.DramChannelsServe : Prop := ∀ (s : State) (k : Fin 8) (c : Fin 64),
  let x := s.chan k c
  let held := s.chanHeld k c = true
  let retired := bit (s.reg (Fd.dramRetired k).addr) c = true
  let st := s.rd (Fd.dramStackStatusState k)
  let fresh := x.bell ≠ s.bellCount ∧ s.rd (Fd.dramStackStatusThermal k) = 0
  (∀ r : DramReq, r.stack = k → s.servedBy k r.line.toNat = some c.val →
    let q := { r with cls := if r.write && r.cls = .critical then .bulk else r.cls }
    let ws := x.writes ++ [q]
    let drains := s.chanHeld k c = false ∧ 16 < ws.length ∧ (48 ≤ ws.length ∨ x.reads = [] ∨ x.drain = true)
    (r.write = true → x.writes.length < 64 → ¬drains → Completes (.dramRequest r) s fun t =>
      t.chan k c = { x with writes := ws } ∧ Keeps [.chans] s t) ∧
    (r.write = true → x.writes.length < 64 → drains → Completes (.dramRequest r) s fun t => Keeps [.chans] s t ∧
      (t.chan k c).reads = x.reads ∧ ∃ j, (t.chan k c).writes = ws.drop j ∧ 16 ≤ ws.length - j ∧
        ((∃ o ∈ x.reads, o.req.cls ≠ .bulk) → j ≤ 8) ∧
        (fresh → j = if ∃ o ∈ x.reads, o.req.cls ≠ .bulk then min 8 (ws.length - 16) else ws.length - 16)) ∧
    (r.write = true → 64 ≤ x.writes.length → exec (.dramRequest r) s = .next s) ∧
    (r.write = false → (∀ w ∈ x.writes, w.line ≠ r.line) → x.reads.length < 64 → Completes (.dramRequest r) s fun t =>
      t.chan k c = { x with reads := x.reads ++ [readOf (s.splits k) q] } ∧ Keeps [.chans] s t) ∧
    (r.write = false → (∀ w ∈ x.writes, w.line ≠ r.line) → 64 ≤ x.reads.length → exec (.dramRequest r) s = .next s) ∧
    (r.write = false → (∃ w ∈ x.writes, w.line = r.line) → ∀ i, r.sector = some i → Completes (.dramRequest r) s fun t =>
      let a := lineAddr k r.line.toNat + 32 * i.val
      t.out = s.out ++ [.dramData a (s.dramSector a) (b2n (s.dramBad a))] ∧ Keeps [.out] s t)) ∧
  (∀ r : DramReq, r.stack = k → s.servedBy k r.line.toNat = none → r.write = true → exec (.dramRequest r) s = .next s) ∧
  (∀ line : BitVec 29, s.servedBy k line.toNat = some c.val → ∀ (half : Fin 2) e,
    let y := s.chanNow k c
    let rank (o : DramRead) := s.rankOf k y half o
    let found := y.reads.findIdx? fun r => r.req.line = line && r.left.getLsbD half
    (held ∨ found = none → exec (.dramDataReturn k line ⟨half, e⟩) s = .next s) ∧
    ∀ i r, found = some i → y.reads[i]? = some r → ¬held →
      let turn := ∃ n, rank r = some n ∧ (∀ o ∈ y.reads, ∀ m, rank o = some m → n ≤ m) ∧
        ∀ o ∈ y.reads.take i, rank o = some n → y.rowHit half (s.seatOf k r.req) = true ∧ o.passed < 4
      (¬turn → exec (.dramDataReturn k line ⟨half, e⟩) s = .next s) ∧
      (turn → r.left &&& ~~~(BitVec.ofNat 2 (2 ^ half.val)) = 0 → e.wrong = [] → ∀ j, r.req.sector = some j →
        r.req.stack = k → Completes (.dramDataReturn k line ⟨half, e⟩) s fun t =>
          let a := lineAddr k r.req.line.toNat + 32 * j.val
          t.out = s.out ++ [.dramData a (s.dramSector a) (b2n (s.dramBad a))] ∧ Keeps [.out, .banks, .chans] s t ∧
          ∃ more, (t.chan k c).reads =
            ((y.reads.take i).map fun o => if rank o = rank r then { o with passed := o.passed + 1 } else o) ++
              y.reads.drop (i + 1) ++ more)) ∧
  (let y0 := s.chanNow k c
    let y := if y0.patrolAt = none ∨ (y0.patrol = 2 ^ 23 ∧ ∃ t : Word, y0.patrolAt = some t ∧ t.toNat + 2 ^ 28 ≤ s.bellCount.toNat)
      then { y0 with patrol := 0, patrolAt := some s.bellCount } else y0
    let line := 64 * y.patrol + Nat.xor (chanOf (64 * y.patrol)) c
    let sector (i : Fin 4) := lineAddr k line / 32 + i.val
    let rests := held ∨ retired ∨ y.patrol = 2 ^ 23 ∨ s.bulkSlot k y = false
    (∀ e, rests → exec (.dramPatrolScrub k c e) s = .next s) ∧
    (¬rests →
      (Completes (.dramPatrolScrub k c ⟨[]⟩) s fun t => (t.chan k c).patrol = y.patrol + 1 ∧
        (t.chan k c).patrolAt = y.patrolAt ∧ (t.chan k c).reads = x.reads ∧ Keeps [.chans] s t) ∧
      (∀ (i : Fin 4) (w : Fin 36), w.val ≠ Tab.get (fun _ => 36) (s.stack k).erased (2 * c.val + i.val / 2) →
        s.isPoisoned (lineAddr k line + 32 * i.val) = false →
        (Completes (.dramPatrolScrub k c ⟨[(i, w)]⟩) s fun t =>
          let key := 64 * (i.val / 2) + w.val
          let n := Tab.get (fun _ => 0) x.wires key + 1
          t.rd (Fd.dramEccCe k) = (s.rd (Fd.dramEccCe k) + 1) % 2 ^ 64 ∧
          (t.chan k c).trigger = (if 256 ≤ n ∧ x.trigger = none ∧ x.training = false ∧ ¬retired then some 1 else x.trigger) ∧
          Tab.get (fun _ => 0) (t.chan k c).wires key = n ∧ t.mem = s.mem ∧ t.dramPoison = s.dramPoison ∧ t.dramUe = s.dramUe) ∧
        ∀ v : Fin 36, v ≠ w → v.val ≠ Tab.get (fun _ => 36) (s.stack k).erased (2 * c.val + i.val / 2) →
          Completes (.dramPatrolScrub k c ⟨[(i, w), (i, v)]⟩) s fun t =>
            t.rd (Fd.dramEccUe k) = (s.rd (Fd.dramEccUe k) + 1) % 2 ^ 64 ∧ t.dramUe = Nats.ins s.dramUe (sector i) ∧
            (t.chan k c).ue = x.ue + 1 ∧ t.mem = s.mem))) ∧
  (∀ p : Fin 128, p.val / 2 = c.val →
    let period := if s.rd (Fd.dramStackStatusRefresh2x k) = 1 then 1 else 2
    let early := ∃ b, (s.stack k).refreshAt.find? (·.1 = p.val) = some b ∧ s.bellCount.toNat < b.2.toNat + period
    (s.sleeps k c = true ∨ early → exec (.dramRefresh k p) s = .next s) ∧
    (s.sleeps k c = false → ¬early → Completes (.dramRefresh k p) s fun t =>
      (∀ q, Tab.get (fun _ => 0) (t.stack k).refresh q = if q = p.val then (Tab.get (fun _ => 0) (s.stack k).refresh q + 1) % 65536
        else Tab.get (fun _ => 0) (s.stack k).refresh q) ∧ Keeps [.drams, .chans] s t)) ∧
  (∀ start : Word,
    let first := max s.bellCount.toNat (((s.stack k).lastWin.map (·.toNat)).getD 0) + 262144
    let no := x.window.isSome = true ∨ retired ∨ s.dark = true
    let near := start.toNat < s.bellCount.toNat + 262144
    (no ∨ (¬near ∧ start.toNat < first % 2 ^ 64) → exec (.recentreAnnounce k c start) s = .next s) ∧
    (¬no → near → exec (.recentreAnnounce k c start) s = .next (s.emit (.windowRefused (s.windowOf k c start) 2))) ∧
    (¬no → ¬near → first % 2 ^ 64 ≤ start.toNat → Completes (.recentreAnnounce k c start) s fun t =>
      t.chan k c = { x with window := some start, owed := false } ∧ (t.stack k).lastWin = some start)) ∧
  (∀ narrow,
    let next := s.nextWindow k fun w => decide (s.dark = true ∨ w ≤ s.bellCount.toNat)
    let skipped := s.dark = true ∨ st = dsZeroising ∨ st = dsUntrained ∨ x.training = true
    (next = none → s.dark = true ∨ s.openChan k = none → exec (.recentreWindow k narrow) s = .next s) ∧
    (s.dark = false → s.openChan k = some c.val → Completes (.recentreWindow k narrow) s fun t =>
      t.chan k c = { x with narrow := x.narrow || narrow } ∧ Keeps [.chans] s t) ∧
    (next = some c.val → s.dark = true ∨ s.openChan k = none →
      (¬skipped → Completes (.recentreWindow k narrow) s fun t =>
        t.chan k c = { x with isOpen := true, narrow, rows := [], lastWin := x.window, lastTemp := s.rd (Fd.thermZoneTemp k) } ∧
        t.rd (Fd.dramStackStatusWindowOpen k) = 1 ∧ Keeps [.regs, .chans] s t) ∧
      (skipped → Completes (.recentreWindow k narrow) s fun t =>
        t.rd (Fd.dramWindowsSkipped k) = (s.rd (Fd.dramWindowsSkipped k) + 1) % 2 ^ 64 ∧
        (s.dark = true ∨ retired → t.chan k c = { x with window := none, owed := true }) ∧
        (s.dark = false → ¬retired → ∃ w, t.chan k c = { x with window := some w, owed := false } ∧
          w.toNat = (max s.bellCount.toNat (((s.stack k).lastWin.map (·.toNat)).getD 0) + 262144) % 2 ^ 64)))) ∧
  (st ≠ dsUntrained → Completes (.dramCaParity k c) s fun t =>
    t.chan k c = (if x.trigger = none ∧ x.training = false ∧ ¬retired then { x with trigger := some 3 } else x) ∧
    Keeps [.chans] s t) ∧
  (∀ trig code, (trig, code) ∈ [(RetrainTrigger.correctedSymbols, 1), (.uncorrectable, 2), (.caParity, 3), (.narrowEye, 4),
      (.command, 5)] →
    (x.trigger = some code → x.training = false → st = dsInService →
      Completes (.forcedRetrain k c trig) s fun t =>
        let again := x.lastRun.any fun b => decide (s.bellCount.toNat < b.toNat + 65536)
        t.chan k c = { x with
          trigger := none, training := true, cause := code, rows := [], lastRun := some s.bellCount, retire := x.retire || again } ∧
        t.rd (Fd.dramStackStatusForced k) = min (s.rd (Fd.dramStackStatusForced k) + 1) 255 ∧
        t.rd (Fd.dramStackStatusRetraining k) = 1 ∧ Keeps [.regs, .chans] s t) ∧
    (x.trigger ≠ some code → exec (.forcedRetrain k c trig) s = .next s)) ∧
  (∀ r : ChannelTraining, (x.training = false → exec (.retrainComplete k c r) s = .next s) ∧
    (x.training = true →
      let u := ((s.setChan k c { x with training := false, retire := false, cmd := false }).spareWires k (2 * c.val) r.even).spareWires
        k (2 * c.val + 1) r.odd
      let fails := x.retire = true ∨ wiresFail r.even = true ∨ wiresFail r.odd = true ∨
        ∃ f ∈ r.found, chanOf f.1.toNat = c.val ∧ u.foundUe k c f = true
      Completes (.retrainComplete k c r) s fun t => (t.chan k c).training = false ∧
        (fails → bit (t.reg (Fd.dramRetired k).addr) c = true) ∧
        (¬fails → t.reg (Fd.dramRetired k).addr = s.reg (Fd.dramRetired k).addr) ∧
        (x.cmd = true → t.rd (Fd.dramChanCmdState k) = 2 ∧ t.rd (Fd.dramChanCmdResult k) = 0))) ∧
  (s.reaches (Fd.dramChanCmdGo k).addr = true →
    let busy := s.rd (Fd.dramChanCmdState k) = 1
    let ends (cmd : Instr) (st res : Nat) := Completes cmd s fun t =>
      t.rd (Fd.dramChanCmdState k) = st ∧ t.rd (Fd.dramChanCmdResult k) = res
    (∀ cmd ∈ [Instr.chanRetrain k c, .chanRetire k c],
      (busy → ends cmd 1 1) ∧
      (¬busy → st ≠ dsInService → ends cmd 3 3) ∧
      (¬busy → st = dsInService → retired → ends cmd 3 4)) ∧
    (¬busy → st = dsInService → ¬retired →
      ends (.chanRetrain k c) 1 0 ∧
      (x.training = true → ends (.chanRetire k c) 1 0) ∧
      (x.training = false → ends (.chanRetire k c) 2 0 ∧ Completes (.chanRetire k c) s fun t =>
        bit (t.reg (Fd.dramRetired k).addr) c = true))) ∧
  (¬retired → ∀ trig, s.flag (Fd.dramStackStatusStripeOn k) = true → s.flag (Fd.dramStackStatusStripeUsed k) = false →
    let t := s.retireChan k c trig
    t.rd (Fd.dramStackStatusStripeUsed k) = 1 ∧ t.rd (Fd.dramStackStatusStripeChan k) = c.val ∧
    ∀ l y, s.line l = some y → y.ways = [] → l / 2 ^ 29 = k.val → chanOf (l % 2 ^ 29) = c.val → t.line l = some { y with dirty := true }) ∧
  (¬retired → ∀ trig, s.flag (Fd.dramStackStatusStripeOn k) = false ∨ s.flag (Fd.dramStackStatusStripeUsed k) = true →
    let t := s.retireChan k c trig
    t.rd (Fd.dramStackStatusDegraded k) = 1 ∧ (t.stack k).lost = Nats.ins (s.stack k).lost c ∧ t.lines = s.lines)

/-- R322, R324 to R326, R329, R333, R338: what walker firmware commands. A write of `TAIL` lets waiting records enter the
ring. A reply is refused with the first check it fails, and an accepted one reads `DONE`: FILL installs its leaf, DEFER parks
the transfers on the ticket, RESUME and FAIL end the ticket. A shootdown removes every entry it covers and reads `DONE` when
nothing uses one. A migration moves its pieces in order, and a piece that fails stops it. -/
def Obligations.WalkerCommands : Prop := ∀ (s : State),
  let up := s.down = none
  let outcome (c : Instr) (st res : Nat) (P : State → Prop) := Completes c s fun t =>
    t.rd Fd.xlatReplyState = st ∧ t.rd Fd.xlatReplyResult = res ∧ P t
  let page := s.rd Fd.xlatFillVaPage
  let size := s.rd Fd.xlatFillVaSize
  let leaf := s.reg Fd.xlatFillLeaf.addr
  let raced (k : Nat) := ∃ x, s.xl.shoot = some x ∧ x.covers k page (sizePages size) = true
  let entry (k : Nat) (used : Bool) : XlEntry := { paddock := k, page, size, leaf, used }
  (s.down.isSome = true → ∀ tail id st pen, ∀ c ∈ [Instr.walkerRingResume tail, .xlFill id, .xlDefer id, .xlResume id,
    .xlFail id st, .xlShadowFill pen, .xlShadowClear pen], exec c s = .next s) ∧
  (up → ∀ tail : BitVec 16,
    (s.xl.stalled = [] → Completes (.walkerRingResume tail) s fun t => t.rd Fd.xlatRingPtrTail = tail.toNat ∧
      Keeps [.regs] s t) ∧
    (∀ r, s.xl.stalled = [r] → s.rd Fd.xlatRingPtrSize ≤ 8 → (s.rd Fd.xlatRingPtrHead + 1) % s.ringSize ≠ tail.toNat % s.ringSize →
      Completes (.walkerRingResume tail) s fun t => t.xl.stalled = [] ∧ 5 ∈ t.irqs ∧
        t.rd Fd.xlatRingPtrHead = (s.rd Fd.xlatRingPtrHead + 1) % s.ringSize)) ∧
  (up → ∀ (id : BitVec 32) (st : Byte),
    let allowed := st.toNat ∈ [stFault, stTenancy, stNotPermitted, stUnmapped]
    let calm := (∀ q ∈ s.fab.inbound, q.ticket ≠ some id.toNat) ∧
      ∀ o ∈ s.ops, o.phase ≠ .untagged ∧
        (o.phase = .missed → o.ticket.isSome = true ∨ o.curTick.isSome = true)
    (¬allowed → outcome (.xlFail id st) 3 6 fun t => Keeps [.regs] s t) ∧
    (s.ticket? id.toNat = none → (allowed → outcome (.xlFail id st) 3 1 fun t => Keeps [.regs] s t) ∧
      ∀ c ∈ [Instr.xlFill id, .xlDefer id, .xlResume id], outcome c 3 1 fun t => Keeps [.regs] s t) ∧
    (∀ k, s.ticket? id.toNat = some k →
      outcome (.xlDefer id) 2 0 (fun _ => True) ∧ outcome (.xlResume id) 2 0 (fun _ => True) ∧
      (allowed → outcome (.xlFail id st) 2 0 (fun _ => True)) ∧
      (s.leafBad = true → outcome (.xlFill id) 3 2 fun t => Keeps [.regs] s t) ∧
      (s.leafBad = false → leafTen leaf ≠ s.tenancy k.paddock → outcome (.xlFill id) 3 3 fun t => Keeps [.regs] s t) ∧
      (s.leafBad = false → leafTen leaf = s.tenancy k.paddock → raced k.paddock →
        outcome (.xlFill id) 3 4 fun t => Keeps [.regs] s t) ∧
      (s.leafBad = false → leafTen leaf = s.tenancy k.paddock → ¬raced k.paddock → outcome (.xlFill id) 2 0 (fun _ => True)) ∧
      (calm → (∀ o ∈ s.ops, o.onTicket id.toNat = false) →
        outcome (.xlResume id) 2 0 (fun t => t.ticket? id.toNat = none ∧ t.ops = s.ops) ∧
        (s.leafBad = false → leafTen leaf = s.tenancy k.paddock → ¬raced k.paddock → outcome (.xlFill id) 2 0 fun t =>
          let src := id.toNat / 2 ^ 24
          (src < 16 → t.l2 src = insertL2 (entry k.paddock true) (s.l2 src)) ∧
          (16 ≤ src → t.inboundXl (src - 16) = insertInbound (entry k.paddock true) (s.inboundXl (src - 16))) ∧
          t.ticket? id.toNat = none ∧ t.ops = s.ops)) ∧
      (calm → ∀ n o, s.op? n = some o → o.detached = false → o.phase = .running ∨ o.phase = .parking →
        (∃ c ∈ o.chunks, c.ticket = some id.toNat) → outcome (.xlDefer id) 2 0 fun t =>
          t.op? n = some { o with phase := .parking, ticket := some id.toNat, chunks := (updateWhere
            (fun (c : Chunk) => c.ticket = some id.toNat) (fun c => { c with fault := true }) o.chunks) }) ∧
      (calm → allowed → ∀ o, s.ops = [o] → o.phase = .missed → o.ticket = some id.toNat → o.curTick = none → o.lost = false →
        o.detached = false → (s.strand o.drover o.strand).wait = none → outcome (.xlFail id st) 2 0 fun t =>
          t.strand o.drover o.strand = ((s.strand o.drover o.strand).wg o.ga 0).completed o.cn 1 o.gs st.toNat o.reason 0 ∧
          t.ops = [] ∧ StrandsBut o.drover o.strand s t))) ∧
  (up → ∀ pen : Fin 16,
    let k := pen.val / 4
    (s.leafBad = true → outcome (.xlShadowFill pen) 3 2 fun t => Keeps [.regs] s t) ∧
    (s.leafBad = false → leafTen leaf ≠ s.tenancy k → outcome (.xlShadowFill pen) 3 3 fun t => Keeps [.regs] s t) ∧
    (s.leafBad = false → leafTen leaf = s.tenancy k → raced k → outcome (.xlShadowFill pen) 3 4 fun t => Keeps [.regs] s t) ∧
    (s.leafBad = false → leafTen leaf = s.tenancy k → ¬raced k → outcome (.xlShadowFill pen) 2 0 fun t =>
      t.shadowXl pen = insertL2 (entry k false) (s.shadowXl pen) ∧ (∀ p, p ≠ pen.val → t.shadowXl p = s.shadowXl p) ∧
      Keeps [.regs, .xl] s t) ∧
    Completes (.xlShadowClear pen) s fun t => t.shadowXl pen = [] ∧ (∀ p, p ≠ pen.val → t.shadowXl p = s.shadowXl p) ∧
      Keeps [.regs, .xl] s t) ∧
  (up → ∀ (mask : BitVec 4) (pages : BitVec 32),
    let busy := s.rd Fd.xlatShootCmdState = 1
    let far := 2 ^ 32 < s.rd Fd.xlatShootVaPage + pages.toNat
    let ends (st res : Nat) (P : State → Prop) := Completes (.shootdown mask pages) s fun t =>
      t.rd Fd.xlatShootCmdState = st ∧ t.rd Fd.xlatShootCmdResult = res ∧ P t
    (busy → ends 1 1 fun t => Keeps [.regs] s t) ∧
    (¬busy → far → ends 3 2 fun t => Keeps [.regs] s t) ∧
    (¬busy → ¬far → s.ops = [] → ends 1 0 fun t => ∃ x, t.xl.shoot = some x ∧ x.mask = mask.toNat ∧
      x.page = s.rd Fd.xlatShootVaPage ∧ x.pages = pages.toNat ∧
      ∀ e : XlEntry, x.covers e.paddock e.page (sizePages e.size) = true →
        (∀ d, e ∉ t.l1 d) ∧ (∀ p, e ∉ t.l2 p ∧ e ∉ t.shadowXl p) ∧ ∀ h, e ∉ t.inboundXl h)) ∧
  (∀ x, (∀ e : XlEntry, x.covers e.paddock e.page (sizePages e.size) = false → let t := s.shootEntries x
      (∀ d, e ∈ s.l1 d → e ∈ t.l1 d) ∧ (∀ p, (e ∈ s.l2 p → e ∈ t.l2 p) ∧ (e ∈ s.shadowXl p → e ∈ t.shadowXl p)) ∧
      ∀ h, e ∈ s.inboundXl h → e ∈ t.inboundXl h) ∧
    (s.xl.shoot = some x → let u := s.shootYields x; let y := u.xl.shoot.getD x
      let waits := (∃ o ∈ u.ops, y.blocks o = true) ∨
        ∃ q ∈ u.fab.inbound, q.atSite = true ∧ y.inb.contains (q.req.source.toNat, q.req.packet.toNat) = true
      (waits → exec .shootdownDone s = .next u) ∧
      (¬waits → Completes .shootdownDone s fun t => t.xl.shoot = none ∧ t.rd Fd.xlatShootCmdState = 2 ∧ 6 ∈ t.irqs ∧
        t.ops = u.ops))) ∧
  (s.xl.shoot = none → exec .shootdownDone s = .next s) ∧
  (up → ∀ size : BitVec 2,
    let busy := s.rd Fd.xlatMigCmdState = 1
    let ends (c : Instr) (st res : Nat) (P : State → Prop) := Completes c s fun t =>
      t.rd Fd.xlatMigCmdState = st ∧ t.rd Fd.xlatMigCmdResult = res ∧ P t
    let bytes := 65536 * sizePages size.toNat
    let badAddr := (s.reg Fd.xlatMigSrc.addr).toNat % bytes ≠ 0 ∨ 2 ^ 62 ≤ (s.reg Fd.xlatMigSrc.addr).toNat ∨
      s.migLocal 0 % bytes ≠ 0 ∨ isSiteWin (s.migLocal 0) = true ∨ s.frameOk (s.migLocal 0) bytes = false
    let page := size.toNat = 1 ∨ size.toNat = 2
    (∀ c ∈ [Instr.migFetch size, .migEvict size], (busy → ends c 1 1 fun t => Keeps [.regs] s t) ∧
      (¬busy → ¬page → ends c 3 3 fun t => Keeps [.regs] s t) ∧
      (¬busy → page → badAddr → ends c 3 4 fun t => Keeps [.regs] s t)) ∧
    (¬busy → page → ¬badAddr →
      ends (.migFetch size) 1 0 (fun t => t.xl.migOp = some (1, size.toNat) ∧ t.xl.migNext = 0 ∧
        t.out = s.out ++ [.migration false (s.migHome 0).1 (s.migHome 0).2 [] []] ∧ Keeps [.out, .regs, .xl] s t) ∧
      Completes (.migEvict size) s fun t => t.xl.migOp = some (2, size.toNat) ∧ t.xl.migNext = 0 ∧
        s.out ++ [.migration true (s.migHome 0).1 (s.migHome 0).2
          (s.readBytes (s.migLocal 0) 4096) (s.badSectors (s.migLocal 0))] <+: t.out)) ∧
  (s.xl.migOp = none → (∀ st d p, exec (.migrationPiece st d p) s = .next s) ∧ exec .migrationDone s = .next s) ∧
  (∀ op size, s.xl.migOp = some (op, size) →
    let n := s.xl.migNext
    let l := s.migLocal n
    (migPieces size ≤ n → ∀ st d p, exec (.migrationPiece st d p) s = .next s) ∧
    (n < migPieces size → exec .migrationDone s = .next s) ∧
    (migPieces size ≤ n → Completes .migrationDone s fun t => t.xl.migOp = none ∧ t.rd Fd.xlatMigCmdState = 2 ∧ 7 ∈ t.irqs ∧
      Keeps [.regs, .xl, .irqs] s t) ∧
    (n < migPieces size → ∀ (st : BitVec 16) (d : List Byte) (p : BitVec 128),
      let fails (r : Nat) := Completes (.migrationPiece st d p) s fun t => t.xl.migOp = none ∧ t.rd Fd.xlatMigCmdState = 4 ∧
        t.rd Fd.xlatMigCmdRemoteStatus = r ∧ 7 ∈ t.irqs ∧ Keeps [.regs, .xl, .irqs] s t
      let ok := st.toNat = stOk ∨ st.toNat = stPoison
      let lands := Completes (.migrationPiece st d p) s fun t => t.xl.migOp = some (op, size) ∧ t.xl.migNext = n + 1
      (¬ok → fails st.toNat) ∧
      (ok → op = 2 → lands) ∧
      (ok → op ≠ 2 → (s.servedSpan (bankHalf (bankOf l)) l 4096 .write = .waits → exec (.migrationPiece st d p) s = .next s) ∧
        (∀ r, s.servedSpan (bankHalf (bankOf l)) l 4096 .write = .fails r → r < 2 ^ 16 → fails r) ∧
        (s.servedSpan (bankHalf (bankOf l)) l 4096 .write = .ok → lands ∧
          (op = 1 → isScratch l = true → isScratch (l + 4095) = true → d.length = 4096 → Completes (.migrationPiece st d p) s fun t =>
            ∀ a, l ≤ a → a < l + 4096 → t.readByte a = d.getD (a - l) 0)))))

/-- R414, R420, R424 to R430, R462 (Table 14.6, Table 14.9): a site's command arrives on a down bundle in service of a
running site. One not enabled by the handshake completes with `NOT_PERMITTED`; one the Hurdle refuses completes at once
with its status, is counted, and has no effect; the others are served, wait at their bank, or join a range queue. A reply
leaves against a credit. The site's replies end the requests of the base die, and no reply within one Round ends one with
`TIMEOUT`. -/
def Obligations.SiteRequestsAndReplies : Prop := ∀ (s : State) (c : SiteCmd),
  let k := c.site.val
  let j := c.bundle.val
  let tag := c.tag.toNat
  let arrives := s.rd (Fd.siteStatusState k) = ssRunning ∧ s.downIn k j = true
  let took (vc : Nat) := s.tookSlp k j vc c.packets
  let fails (t : State) (code st : Nat) := t.siteFails code k j tag (c.len.toNat + 1) st
  (∀ e ∈ [(Instr.siteRead c, scRead, 0, 0), (.siteWrite c, scWrite, 0, 0), (.siteAtomic c, scAtomic, 0, 1),
      (.siteAccum c, scAccum, 0, 2), (.siteSettle c, scSettle, 0, 2), (.siteRange c, scRange, 0, 3), (.siteDoorbell c, 7, 4, 4),
      (.siteMailbox c, 8, 4, 5)],
    (¬arrives → exec e.1 s = .next s) ∧
    (arrives → s.siteHas k e.2.2.2 = false → exec e.1 s = .next (fails (took e.2.2.1) e.2.1 stNotPermitted))) ∧
  (∀ e ∈ [(Instr.siteRead c, scRead, 0), (.siteWrite c, scWrite, 0), (.siteAtomic c, scAtomic, 1), (.siteAccum c, scAccum, 2),
      (.siteSettle c, scSettle, 2), (.siteRange c, scRange, 3)], arrives → s.siteHas k e.2.2 = true →
    let code := e.2.1
    (s.window k c.addr.toNat (cmdSpan code c) = none → exec e.1 s = .next ((took 0).siteRefuses c code stNotPermitted)) ∧
    ∀ w, s.window k c.addr.toNat (cmdSpan code c) = some w →
      let acc := s.rd (Fd.hurdleWinAcc k w)
      let st := s.hurdle k w code c
      (st ≠ stOk → exec e.1 s = .next ((took 0).siteRefuses c code st)) ∧
      (st = stOk → cmdForm code acc c ≠ stOk → exec e.1 s = .next (fails (took 0) code (cmdForm code acc c))) ∧
      (st = stOk → cmdForm code acc c = stOk → exec e.1 s = .next ((took 0).siteServe { code, cmd := c, acc, mute := false }))) ∧
  (∀ w, let acc := s.rd (Fd.hurdleWinAcc k w)
    (s.hurdle k w scRead c = if s.flag (Fd.hurdleWinR k w) then stOk else stNotPermitted) ∧
    (s.hurdle k w scRange c = if s.flag (Fd.hurdleWinRange k w) then stOk else stNotPermitted) ∧
    (∀ code f, (code, f) ∈ [(scWrite, Fd.hurdleWinW k w), (scAtomic, Fd.hurdleWinAtom k w)] →
      (s.flag f = false → s.hurdle k w code c = stNotPermitted) ∧
      (s.flag f = true → s.hurdle k w code c = if acc = 0 then stOk else stAccRegion)) ∧
    (∀ code ∈ [scAccum, scSettle], s.flag (Fd.hurdleWinAccum k w) = false ∨ acc = 0 → s.hurdle k w code c = stAccRegion) ∧
    (s.flag (Fd.hurdleWinAccum k w) = true → acc ≠ 0 → s.hurdle k w scSettle c = stOk ∧
      s.hurdle k w scAccum c = if (bit c.aux 0 = true ↔ acc = 0xB) then stOk else stAccRegion)) ∧
  (∀ st, s.siteFails scRead k j tag (c.len.toNat + 1) st = s.siteReply k j tag st 0 (zeros (cmdBytes c)) 0 0x41 ∧
    s.siteFails scAtomic k j tag (c.len.toNat + 1) st = s.siteReply k j tag st 0 (zeros 32) 0 0x41 ∧
    ∀ code, code ≠ scRead → code ≠ scAtomic → fails s code st = s.siteDone k j tag st 0) ∧
  (∀ code st, let t := s.siteRefuses c code st
    t.rd (Fd.siteRefused k) = (s.rd (Fd.siteRefused k) + 1) % 2 ^ 64 ∧ Keeps [.out, .regs, .sites] s t) ∧
  (∀ st aux, let t := s.siteDone k j tag st aux
    (s.rd (Fd.siteStatusState k) ≠ ssRunning ∨ s.resetPaddocks.contains k = true → t = s) ∧
    (s.rd (Fd.siteStatusState k) = ssRunning → s.resetPaddocks.contains k = false → s.upIn k j = true →
      let u := (s.site k).up j
      u.wait = [] → u.held.length < 256 → 0 < Tab.get (fun _ => 0) u.credit 1 →
      t.out = s.out ++ .slp k j ⟨u.seq, 1, some ⟨0x42, tag, st, 0, 0, 0, aux, 0, []⟩, []⟩ ::
        (if (u.run + 1) % 4096 = 0 then [.checkPattern k j] else []) ∧
      ((t.site k).up j).seq = (u.seq + 1) % 1024 ∧ ((t.site k).up j).held.length = u.held.length + 1 ∧
      Tab.get (fun _ => 0) ((t.site k).up j).credit 1 = Tab.get (fun _ => 0) u.credit 1 - 1 ∧ Keeps [.out, .sites] s t)) ∧
  (∀ code acc, let a := c.addr.toNat
    let h : SiteHeld := { code, cmd := c, acc, mute := false }
    let waits := (s.siteServe h).siteHeld = s.siteHeld ++ [h] ∧ Keeps [.siteHeld] s (s.siteServe h)
    (code = scSettle ∨ code = scRange → s.flag Fd.seamStatusIsolated = true → a / 2 ^ 38 ≠ k / 2 →
      s.siteServe h = s.siteDone k j tag stPoison 0) ∧
    (code = scSettle ∨ code = scRange → s.flag Fd.seamStatusIsolated = false ∨ a / 2 ^ 38 = k / 2 →
      (64 ≤ (s.rangeQ (a / 2 ^ 38)).length → waits) ∧
      ((s.rangeQ (a / 2 ^ 38)).length < 64 → (s.siteServe h).rangeQ (a / 2 ^ 38) = s.rangeQ (a / 2 ^ 38) ++
        [⟨if code = scSettle then 7 else bits c.aux 34 32, a / 128, bits c.aux 31 0 / 128, none, false, 0, 0, some (k, j, tag), [], 0⟩] ∧
        Keeps [.ranges] s (s.siteServe h))) ∧
    (code ≠ scSettle → code ≠ scRange →
      let served := if code = scAccum then
          s.servedSpan (k / 2) (a / 128 * 128) ((a + cmdSpan code c acc + 127) / 128 * 128 - a / 128 * 128) Use.update
        else s.servedSpan (k / 2) a (cmdSpan code c acc)
          (if code = scRead then .read else if code = scWrite then .write else .update);
      (served = .waits → waits) ∧
      (∀ st, served = .fails st → s.siteServe h = fails s code st) ∧
      (served = .ok → code = scRead → s.siteHas k 8 = true → s.siteServe h = (s.touch a (cmdBytes c) c.stream false
        (if c.cls = 1 then .critical else .bulk)).siteReply k j tag
        (if s.badMask a (cmdBytes c) = 0 then stOk else stPoison) 0 (s.readBytes a (cmdBytes c)) (s.badMask a (cmdBytes c)) 0x41) ∧
      (served = .ok → code = scWrite → isScratch a = true → isScratch (a + cmdBytes c - 1) = true →
        c.poison = 0 → ∀ b, (s.siteServe h).readByte b =
          if a ≤ b ∧ b < a + cmdBytes c then (cmdData c).getD (b - a) 0 else s.readByte b) ∧
      (served = .ok → code = scAtomic → let f := fmtOf (bits c.aux 7 3)
        let r := s.update (ratomKind (bits c.aux 2 0)) f false a (ofBytes ((cmdData c).take f.size))
          (ofBytes (((cmdData c).drop 8).take f.size)) (s.siteHas k 8 && c.poison.getLsbD 0) false
          (if c.cls = 1 then .critical else .bulk)
        s.siteServe h = r.2.2.siteReply k j tag (if r.2.1 then stPoison else stOk) 0
          (toBytes 8 (if r.2.1 then 0 else r.1) ++ zeros 24) 0 0x41) ∧
      (served = .ok → code = scAccum → let r := s.siteAccumulate c acc (s.siteHas k 8)
        s.siteServe h = r.2.siteDone k j tag (if r.1 then stPoison else stOk) 0))) ∧
  (arrives → s.siteHas k 4 = true →
    let n := bits c.aux 7 0
    let x := bits c.aux 10 8
    let r := StartRec.ofWords fun i => BitVec.ofNat 64 (ofBytes (((cmdData c).drop (8 * i)).take 8))
    (s.doorbellOk k n x = false → exec (.siteDoorbell c) s = .next ((took 4).siteRefuses c 7 stNotPermitted)) ∧
    (s.doorbellOk k n x = true → s.cutFrom (k / 2) n = true →
      exec (.siteDoorbell c) s = .next ((took 4).siteDone k j tag stPoison 0)) ∧
    (s.doorbellOk k n x = true → s.cutFrom (k / 2) n = false → exec (.siteDoorbell c) s =
      .next (((took 4).startRecord n x r).2.siteDone k j tag stOk (BitVec.ofNat 64 ((took 4).startRecord n x r).1)))) ∧
  (arrives → s.siteHas k 5 = true →
    let m := bits c.aux 5 0
    let n := bits c.aux 9 6 + 1
    (32 ≤ m ∨ s.rdBit (Fd.hurdleMbox k) m = false → exec (.siteMailbox c) s = .next ((took 4).siteRefuses c 8 stNotPermitted)) ∧
    (m < 32 → s.rdBit (Fd.hurdleMbox k) m = true → n < 8 →
      exec (.siteMailbox c) s = .next ((took 4).siteDone k j tag stNotPermitted 0)) ∧
    (m < 32 → s.rdBit (Fd.hurdleMbox k) m = true → 8 ≤ n → Completes (.siteMailbox c) s fun t => t.rd (mfState m) = msFull ∧
      t.rd (mfLen m) = n ∧ (t.mbox m).poster = some (k, j, tag) ∧ (64 + m) ∈ t.irqs)) ∧
  (∀ (packets : Nat) (st : Byte) (data : List Byte) (poison : Byte),
    let read := Instr.swData c.site c.bundle packets c.tag st data poison
    let done := Instr.swDone c.site c.bundle packets c.tag st
    let t := s.tookSlp k j 3 packets
    (¬arrives → exec read s = .next s ∧ exec done s = .next s) ∧
    (arrives → s.siteReq? k tag = none → exec read s = .next (t.siteRecord k 0x0607 1 tag) ∧
      exec done s = .next (t.siteRecord k 0x0607 1 tag)) ∧
    (arrives → ∀ q, s.siteReq? k tag = some q →
      (q.write = true → exec read s = .next (t.siteRecord k 0x0607 1 tag)) ∧
      (q.write = false → exec done s = .next (t.siteRecord k 0x0607 1 tag)) ∧
      (∀ o, q.mbox = none → q.inb = none → s.op? q.op = some o → isXferOp o.code = false → o.phase = .remote →
        let ends (cmd : Instr) (st : Nat) (v : Word) := Completes cmd s fun t => t.siteReq? k tag = none ∧
          t.op? q.op = some { o with phase := .served, status := st, result := v, data := 0 }
        (q.write = true → ends done (if st = 0 then stOk else stSite) 0) ∧
        (q.write = false → st ≠ 0 → ends read stSite 0) ∧
        (q.write = false → st = 0 → poison = 0 → o.code = .ld →
          ends read stOk (ldExtend o.sub (ofBytes (((data ++ zeros 256).drop (o.pa - q.addr)).take o.width))))))) ∧
  (s.siteReq? k tag = none → exec (.siteReplyTimeout c.site c.tag) s = .next s) ∧
  (∀ q, s.siteReq? k tag = some q →
    (s.bellCount.toNat < q.sent.toNat + 65536 → exec (.siteReplyTimeout c.site c.tag) s = .next s) ∧
    (q.sent.toNat + 65536 ≤ s.bellCount.toNat → ∀ o, q.mbox = none → q.inb = none → s.op? q.op = some o →
      isXferOp o.code = false → o.phase = .remote → Completes (.siteReplyTimeout c.site c.tag) s fun t =>
        t.op? q.op = some { o with phase := .served, status := stTimeout, result := 0, data := 0 } ∧ t.siteReq? k tag = none))

/-- R415 to R417, R421, R422, R431 to R442, R510, R511 (Table 14.7, Table 14.11, Table 14.14, Table 14.15): what a site's
links carry besides commands. An acknowledgement removes held packets and returns credits, a `NAK` or no acknowledgement
has them sent again; faults of received packets are counted, and 16 mismatches of a wire or 256 CRC failures in a Round make
a repair due. `SITE_CMD` answers a command it refuses. A repair reopens a bundle at a width or takes it out. A handshake
enables an intersection of capabilities or fails. Frames, alerts, power samples, rail faults and levels are shown in the
site's registers. A link that is down carries nothing. -/
def Obligations.SiteLinksAndSideband : Prop := ∀ (s : State) (k : Fin 4) (j : Fin 32),
  let u := (s.site k).up j
  let d := (s.site k).down j
  let upLive := s.linksUp k = true ∧ s.rdBit (Fd.siteBundlesIn k) (32 + j.val) = true
  let downLive := s.linksUp k = true ∧ s.downIn k j = true
  (∀ l w f t c, (¬downLive → ∀ i ∈ [Instr.checkPattern k j w, .sitePacket k j f, .linkControlTimer k j], exec i s = .next s) ∧
    (¬upLive → ∀ i ∈ [Instr.linkControl k j l, .slpRetryTimeout k j], exec i s = .next s) ∧
    (s.linksUp k = false → ∀ i ∈ [Instr.sidebandRepeat k, .temperatureFrame k t, .faultFrame k c], exec i s = .next s) ∧
    (s.sideband? k false = none → ∀ r v m p, ∀ i ∈ [Instr.temperatureFrame k t, .faultFrame k c, .capabilityFrame k r v m p],
      exec i s = .next s)) ∧
  (∀ l : LinkCtl, l.up = true → upLive → l.closed = false → u.wait = [] → Completes (.linkControl k j l) s fun t =>
    let v := (t.site k).up j
    let ack := l.ackSeq.toNat
    ((∀ p ∈ u.held, p.seq ≠ ack) → v.held = if u.seq = ack then [] else u.held) ∧
    (∀ a p b, u.held = a ++ p :: b → (∀ q ∈ a, q.seq ≠ ack) → p.seq = ack → v.held = p :: b) ∧
    (∀ n, Tab.get (fun _ => 0) v.credit n = Tab.get (fun _ => 0) u.credit n + (l.credits.getD n 0).toNat) ∧
    t.out = s.out ++ (if l.nak then v.held.map (.slp k j) else []) ∧
    t.rd (Fd.siteReplays k) = (s.rd (Fd.siteReplays k) + if l.nak then v.held.length else 0) % 2 ^ 64 ∧
    RegsBut [(Fd.siteReplays k).addr] s t ∧ Keeps [.out, .regs, .sites] s t) ∧
  (∀ l : LinkCtl, l.up = true → upLive → l.closed = true → Completes (.linkControl k j l) s fun t =>
    ((t.site k).up j).due = true ∧ Keeps [.out, .sites] s t) ∧
  (upLive → u.due = false → Completes (.slpRetryTimeout k j) s fun t => t.out = s.out ++ u.held.map (.slp k j) ∧
    t.rd (Fd.siteReplays k) = (s.rd (Fd.siteReplays k) + u.held.length) % 2 ^ 64 ∧
    RegsBut [(Fd.siteReplays k).addr] s t ∧ Keeps [.out, .regs] s t) ∧
  (downLive → ∀ i, s.replyBundle k j = some i →
    let sent (next : Nat) (nak : Bool) := Out.linkCtl k i next nak false (s.rdBit (Fd.siteBundlesHalf k) j)
      ((List.range 8).map fun v => Tab.get (fun _ => 0) d.owed v)
    (Completes (.linkControlTimer k j) s fun t => t.out = s.out ++ [sent d.next false] ∧ ((t.site k).down j).owed = [] ∧
      Keeps [.out, .sites] s t) ∧
    (∀ f, Completes (.sitePacket k j f) s fun t =>
      let crc := d.crc + if f = .crc then 1 else 0
      t.out = s.out ++ [sent d.next true] ∧ t.rd (Fd.siteCrcErr k) = (s.rd (Fd.siteCrcErr k) + 1) % 2 ^ 64 ∧
      ((t.site k).down j).crc = crc ∧ (((t.site k).down j).due = true ↔ d.due = true ∨ 256 ≤ crc) ∧
      RegsBut [(Fd.siteCrcErr k).addr] s t ∧ Keeps [.out, .regs, .sites] s t)) ∧
  (downLive → ∀ ws, Completes (.checkPattern k j ws) s fun t =>
    let e := (t.site k).down j
    (∀ w : Fin 264, Tab.get (fun _ => 0) e.wires w = Tab.get (fun _ => 0) d.wires w + ws.count w) ∧
    (d.due = true → e.due = true) ∧ (∀ w : Fin 264, 16 ≤ Tab.get (fun _ => 0) e.wires w → e.due = true) ∧
    ((∀ p ∈ e.wires, p.2 < 16) → e.due = d.due) ∧ Keeps [.sites] s t) ∧
  (∀ (up : Bool), let b := bundleBit up j
    let go (i : Instr) := s.reaches (Fd.siteCmdGo k).addr = true → s.rd (Fd.siteCmdState k) ≠ 1 →
      (s.rdBit (Fd.siteBundlesIn k) b = false → Completes i s fun t => t.rd (Fd.siteCmdState k) = 3 ∧ t.rd (Fd.siteCmdResult k) = 3 ∧
        Keeps [.regs] s t) ∧
      (s.rdBit (Fd.siteBundlesIn k) b = true → s.bundlesLeft k up = 1 → Completes i s fun t => t.rd (Fd.siteCmdState k) = 3 ∧
        t.rd (Fd.siteCmdResult k) = 4 ∧ Keeps [.regs] s t)
    (∀ i ∈ [Instr.siteRepair k up j, .siteClose k up j], (s.reaches (Fd.siteCmdGo k).addr = false → exec i s = .next s) ∧
      (s.reaches (Fd.siteCmdGo k).addr = true → s.rd (Fd.siteCmdState k) = 1 → Completes i s fun t =>
        t.rd (Fd.siteCmdResult k) = 1 ∧ RegsBut [(Fd.siteCmdResult k).addr] s t ∧ Keeps [.regs] s t) ∧ go i) ∧
    (s.reaches (Fd.siteCmdGo k).addr = true → s.rd (Fd.siteCmdState k) ≠ 1 → s.rdBit (Fd.siteBundlesIn k) b = true →
      s.bundlesLeft k up ≠ 1 →
      (Completes (.siteRepair k up j) s fun t => t.rd (Fd.siteCmdState k) = 1 ∧ t.rd (Fd.siteCmdResult k) = 0 ∧
        t.rd (Fd.siteCmdOp k) = 1 ∧ t.rd (Fd.siteCmdUp k) = b2n up ∧ t.rd (Fd.siteCmdBundle k) = j ∧
        (if up then ((t.site k).up j).due else ((t.site k).down j).due) = true ∧ Keeps [.regs, .sites] s t) ∧
      ((s.wrBit (Fd.siteBundlesIn k) b false).bundlesLeft k up ≠ 0 → Completes (.siteClose k up j) s fun t =>
        t.rd (Fd.siteCmdState k) = 2 ∧ t.rd (Fd.siteCmdResult k) = 0 ∧ t.rdBit (Fd.siteBundlesIn k) b = false))) ∧
  (∀ (up : Bool) t, let b := bundleBit up j
    let due := if up then u.due else d.due
    let w := if trainedWidth t = 128 ∧ s.siteHas k 7 = false then 0 else trainedWidth t
    (due = false ∨ s.rdBit (Fd.siteBundlesIn k) b = false → exec (.bundleRepair k up j t) s = .next s) ∧
    (due = true → s.rdBit (Fd.siteBundlesIn k) b = true →
      (w = 0 → (s.wrBit (Fd.siteBundlesIn k) b false).bundlesLeft k up ≠ 0 →
        Completes (.bundleRepair k up j t) s fun v => v.rdBit (Fd.siteBundlesIn k) b = false) ∧
      (w ≠ 0 → Completes (.bundleRepair k up j t) s fun v => v.rdBit (Fd.siteBundlesIn k) b = true ∧
        (v.rdBit (Fd.siteBundlesHalf k) b = true ↔ w = 128) ∧
        (if up then ((v.site k).up j).due = false ∧ ((v.site k).up j).seq = 0
          else (v.site k).down j = { owed := [(0, 64), (3, 64), (4, 64)] }) ∧
        (s.rd (Fd.siteCmdState k) = 1 → s.rd (Fd.siteCmdUp k) = b2n up → s.rd (Fd.siteCmdBundle k) = j →
          v.rd (Fd.siteCmdState k) = 2 ∧ v.rd (Fd.siteCmdResult k) = 0)))) ∧
  (∀ rev level caps pmax, let i := Instr.capabilityFrame k rev level caps pmax
    let adv := caps.toNat
    let off := (adv ||| baseAdv) - (adv &&& baseAdv)
    let shown (t : State) := t.rd (Fd.siteStatusSlpLevel k) = level.toNat ∧ t.rd (Fd.siteStatusSiteRev k) = rev.toNat ∧
      t.rd (Fd.siteStatusPmax k) = min 500 pmax.toNat ∧ t.rd (Fd.siteCapsSiteAdv k) = adv ∧ t.rd (Fd.siteCapsBaseAdv k) = baseAdv ∧
      (t.site k).awaits = false
    let frame (b on ok : Nat) := Out.sideband k b (toBytes 1 2 ++ (toBytes 2 on ++ toBytes 1 ok) ++ zeros 10)
    let fails (why : Nat) := Completes i s fun t => shown t ∧ t.rd (Fd.siteStatusHsFail k) = why ∧
      t.rd (Fd.siteStatusState k) = ssHsFailed ∧ (∀ b, s.sideband? k true = some b → t.out.getLast? = some (frame b 0 0))
    ((s.site k).awaits = false → exec i s = .next s ∧ exec (.handshakeTimeout k) s = .next s) ∧
    ((s.site k).awaits = true → s.sideband? k false ≠ none → (caps.getLsbD 0 = false → fails 2) ∧
      (caps.getLsbD 0 = true → level.toNat ≠ 1 ∧ level.toNat ≠ 2 → fails 3) ∧
      (caps.getLsbD 0 = true → level.toNat = 1 ∨ level.toNat = 2 → ∃ t, shown t ∧ t.rd (Fd.siteCapsEnabled k) = adv &&& baseAdv ∧
        t.rd (Fd.siteCapsOff k) = off ∧ t.rd (Fd.siteStatusHsFail k) = 0 ∧ t.rd (Fd.siteStatusState k) = ssHeld ∧
        (t.site k).shaken = true ∧ (∀ b, s.sideband? k true = some b → frame b (adv &&& baseAdv) 1 ∈ t.out) ∧
        exec i s = .next (((List.range 64).filter fun b => !(adv &&& baseAdv).testBit 7 && t.rdBit (Fd.siteBundlesHalf k) b).foldl
          (fun v b => v.bundleOut k (decide (32 ≤ b)) (b % 32)) t))) ∧
    ((s.site k).awaits = true → Completes (.handshakeTimeout k) s fun t =>
      t.rd (Fd.siteStatusHsFail k) = 1 ∧ t.rd (Fd.siteStatusState k) = ssHsFailed ∧
        (t.site k).awaits = false)) ∧
  (s.linksUp k = true → (Completes (.sidebandRepeat k) s fun t =>
      t.out = s.out ++ (match s.sideband? k true with
        | some b => (s.site k).frames.map fun f => .sideband k b f.2
        | none => []) ∧ Keeps [.out] s t) ∧
    (∀ c, s.sideband? k false ≠ none → Completes (.faultFrame k c) s fun t => (t.site k).code = c.toNat ∧ Keeps [.sites] s t) ∧
    ∀ v, (s.siteHas k 9 = false → exec (.temperatureFrame k v) s = .next s) ∧
      (s.siteHas k 9 = true → s.sideband? k false ≠ none → Completes (.temperatureFrame k v) s fun t =>
        (t.site k).temp = v ∧ (t.site k).heard = s.bellCount ∧ (t.site k).stale = false ∧
        t.rd (Fd.siteStatusTemp k) = (v.toInt.fdiv 4 % 256).toNat ∧ RegsBut [(Fd.siteStatusTemp k).addr] s t ∧
        Keeps [.regs, .sites] s t)) ∧
  (let stale := s.rd (Fd.siteStatusState k) = ssRunning ∧ s.siteHas k 9 = true ∧ (s.site k).stale = false ∧
      (s.site k).heard.toNat + 65536 ≤ s.bellCount.toNat;
    (¬stale → exec (.siteTempStale k) s = .next s) ∧
    (stale → ∃ t, (t.site k).stale = true ∧ Keeps [.sites] s t ∧ exec (.siteTempStale k) s = .next (t.siteRecord k 0x0607 3 0))) ∧
  ((s.site k).pg = false → ∀ w r mv, ∀ i ∈ [Instr.siteAlert k, .sitePowerSample k w, .siteRailFault k r mv,
    .siteLevelUpdate k], exec i s = .next s) ∧
  ((s.site k).pg = true → (Completes (.siteAlert k) s fun t => t.rd (Fd.siteStatusAlert k) = 1 ∧ 27 + k.val ∈ t.irqs ∧
      Keeps [.out, .regs, .irqs, .log] s t) ∧
    (∀ w : BitVec 16, Completes (.sitePowerSample k w) s fun t =>
      let p := min w.toNat (s.siteCeiling k)
      t.rd (Fd.sitePwrPower k) = p ∧ t.rd (Fd.sitePwrPeak k) = max (s.rd (Fd.sitePwrPeak k)) p ∧
      t.rd (Fd.sitePwrClamped k) = (if s.siteCeiling k < w.toNat then 1 else s.rd (Fd.sitePwrClamped k)) ∧ Keeps [.regs] s t) ∧
    (∀ (r : BitVec 2) (mv : BitVec 16), (9 * s.railMv k r.toNat ≤ 10 * mv.toNat → exec (.siteRailFault k r mv) s = .next s) ∧
      (10 * mv.toNat < 9 * s.railMv k r.toNat → Completes (.siteRailFault k r mv) s fun t => t.rd (Fd.sitePwrHeld k) = 1 ∧
        (t.site k).pg = false ∧ (t.site k).rst = false)) ∧
    (s.rd (Fd.sitePwrLevel k) = s.siteLevel k → exec (.siteLevelUpdate k) s = .next s) ∧
    (s.rd (Fd.sitePwrLevel k) ≠ s.siteLevel k → Completes (.siteLevelUpdate k) s fun t =>
      let limit := s.rd (Fd.siteStatusPmax k) * plimPercent (s.siteLevel k) / 100
      t.rd (Fd.sitePwrLevel k) = s.siteLevel k ∧ t.rd (Fd.siteStatusPlevel k) = s.siteLevel k ∧ t.rd (Fd.sitePwrLimit k) = limit ∧
      (t.site k).grace = (if limit < s.rd (Fd.sitePwrLimit k) then some (s.rd (Fd.sitePwrLimit k), s.bellCount + 781) else none) ∧
      t.out = s.out ++ [.sitePlim k (s.siteLevel k)] ∧ Keeps [.out, .regs, .sites] s t))

/-- R408 to R410, R459 to R465 (Table 13.6, Table 13.12, Tables 15.4 to 15.6): Muster releases and mailboxes. A group acts
on its release once the count has reached Bell R: the release word is written in its line, the release is counted, and the
group is ready for the next; a forced one ends `MUSTER_CMD`. `FORCE_RELEASE` takes a group that is enabled and sets its
release to the next Bell. A `GO` at a mailbox that Table 15.4 does not permit changes nothing, one whose `LEN` is outside
8 to 16 reads `BAD_LEN`; another fills a mailbox of the cores, or begins its way to a site, where it waits behind a post
under way. An `ACK` empties a full mailbox. -/
def Obligations.MusterAndMailboxes : Prop := ∀ (s : State) (n m : Fin 64) (core : Fin 8) (len : BitVec 5),
  let g := s.group n
  let line := s.groupLine n
  ((g.release = none ∨ (∃ r, g.release = some r ∧ s.bellCount.toNat < r.toNat)) → exec (.musterRelease n) s = .next s) ∧
  (∀ r, g.release = some r → r.toNat ≤ s.bellCount.toNat →
    let late := s.bellCount.toNat - r.toNat
    let x := g.note (if g.force then stTimeout else if late = 0 then stOk else stLate) (if g.force then 0 else late)
    let word := x.status * 2 ^ 48 + min x.hi 0xFFFF * 2 ^ 32 + s.rd (Fd.musterStatGen n)
    s.rd (Fd.musterLineLocal n) = 0 → s.rd (Fd.musterLineDown n) = 0 → isScratch (line + 8) = true → isScratch (line + 15) = true →
    Completes (.musterRelease n) s fun t =>
      (t.group n).release = none ∧ (t.group n).status = 0 ∧ (t.group n).force = false ∧
      t.rd Fd.musterReleases = (s.rd Fd.musterReleases + 1) % 2 ^ 64 ∧
      (∀ a, t.readByte a = if line + 8 ≤ a ∧ a < line + 16 then (toBytes 8 word).getD (a - (line + 8)) 0 else s.readByte a) ∧
      (g.force = true → t.rd Fd.musterCmdState = 2 ∧ 42 ∈ t.irqs) ∧ Keeps [.regs, .fab, .fold, .foldPoison, .irqs] s t) ∧
  (s.reaches Fd.musterCmdGo.addr = false → exec (.musterForceRelease n) s = .next s) ∧
  (s.reaches Fd.musterCmdGo.addr = true → s.rd Fd.musterCmdState = 1 → Completes (.musterForceRelease n) s fun t =>
    t.rd Fd.musterCmdResult = 1 ∧ RegsBut [Fd.musterCmdGo.addr] s t ∧ Keeps [.regs] s t) ∧
  (s.reaches Fd.musterCmdGo.addr = true → s.rd Fd.musterCmdState ≠ 1 → Completes (.musterForceRelease n) s fun t =>
    t.rd Fd.musterCmdOp = 1 ∧ t.rd Fd.musterCmdGroup = n ∧
    (s.flag (Fd.musterCfgEn n) = false → t.rd Fd.musterCmdState = 3 ∧ t.rd Fd.musterCmdResult = 3 ∧ 42 ∈ t.irqs ∧ t.group n = g) ∧
    (s.flag (Fd.musterCfgEn n) = true → t.rd Fd.musterCmdState = 1 ∧ t.rd Fd.musterCmdResult = 0 ∧
      (t.group n).release = some (s.bellCount + 1) ∧ (t.group n).force = true) ∧
    RegsBut [Fd.musterCmdGo.addr] s t ∧ Keeps [.regs, .fab, .irqs] s t) ∧
  (let full := s.down = none ∧ s.rd (mfState m) = msFull;
    (¬full → exec (.mboxAck m) s = .next s) ∧
    (full → Completes (.mboxAck m) s fun t => t.rd (mfState m) = msEmpty ∧ t.rd (mfResult m) = mrOk ∧ (t.mbox m).poster = none ∧
      Keeps [.out, .regs, .sites, .mboxes] s t)) ∧
  (∀ crook, let i := Instr.mboxGo m core crook len
    let words := s.mboxRegs m len.toNat
    let from_ := if crook then senderCrook else senderCore core
    let may := if crook then 48 ≤ m.val ∧ m.val < 52 ∨ 60 ≤ m.val else 32 ≤ m.val ∧ m.val < 48
    (¬may ∨ s.down ≠ none → exec i s = .next s) ∧
    (may → s.down = none → len.toNat < 8 ∨ 16 < len.toNat → Completes i s fun t => t.rd (mfResult m) = mrBadLen ∧
      RegsBut [(mfResult m).addr] s t ∧ Keeps [.regs] s t) ∧
    (may → s.down = none → 8 ≤ len.toNat → len.toNat ≤ 16 →
      (mboxSite m = none → Completes i s fun t => t.rd (mfState m) = msFull ∧ t.rd (mfLen m) = len.toNat ∧ 64 + m.val ∈ t.irqs ∧
        (t.mbox m).poster = none ∧ Keeps [.out, .regs, .irqs, .sites, .mboxes] s t) ∧
      (∀ k, mboxSite m = some k → exec i s = .next (s.mboxOut m k words from_) ∧
        ((s.mbox m).sending ≠ none → Completes i s fun t => (t.mbox m).waiting = some ⟨words, from_⟩ ∧ t.rd (mfCollision m) = 1 ∧
          (t.mbox m).sending = (s.mbox m).sending ∧ t.rd (mfPosts m) = (s.rd (mfPosts m) + 1) % 2 ^ 32 ∧
          Keeps [.regs, .mboxes] s t) ∧
        ((s.mbox m).sending = none → s.rd (Fd.siteStatusState k) = ssUnpopulated ∨ s.rd (Fd.siteStatusState k) = ssHsFailed →
          Completes i s fun t => t.rd (mfResult m) = mrNoSite ∧ t.rd (mfPosts m) = (s.rd (mfPosts m) + 1) % 2 ^ 32 ∧
          Keeps [.regs] s t) ∧
        ((s.mbox m).sending = none → s.rd (Fd.siteStatusState k) = ssHeld → Completes i s fun t =>
          (mboxSystem m = true → t.rd (mfState m) = msHeld ∧ (t.mbox m).sending = some ⟨words, from_⟩) ∧
          (mboxSystem m = false → t.rd (mfResult m) = mrAborted) ∧ Keeps [.regs, .mboxes] s t) ∧
        ((s.mbox m).sending = none → s.rd (Fd.siteStatusState k) = ssRunning → s.resetPaddocks.contains k = false →
          s.siteHas k 5 = true → Completes i s fun t => t.rd (mfState m) = msSending ∧
          (t.mbox m).sending = some ⟨words, from_⟩ ∧ Keeps [.out, .regs, .siteReqs, .sites, .mboxes] s t))))

/-- R505 to R507, R516 to R521, R523, R524, R527, R529, R606, R607 (Tables 17.2, 17.4, 17.5, 17.10, 17.11): heat and
power. A zone rises to the state that two samples reach, at once to Trip, and falls by one after eight low samples;
without a valid sensor it goes Red; the new state is shown, counted and recorded at a boundary. In P1 an idle Pen's clock
is gated. Losing the input, an overvoltage, a shutdown or P4 leave only what MRAM and flash hold. `PWR_CMD` is refused by
the first check it fails, or asks for a transition, which ends in its state. -/
def Obligations.HeatAndPower : Prop := ∀ (s : State) (z : Fin 14),
  let x := s.zone z
  let old := s.rd (Fd.thermZoneState z)
  (s.monitored z = false → ∀ rs bad, exec (.zoneSample z rs bad) s = .next s) ∧
  (∀ (t : BitVec 16) bad, s.monitored z = true → readingOk t = true → z.val < 8 ∨ 12 ≤ z.val →
    Completes (.zoneSample z [t] bad) s fun v =>
      let now := x.next.getD old
      let up := if s.zoneOf z t.toInt = 3 then 3 else match x.prev with
        | some p => min (s.zoneOf z t.toInt) (s.zoneOf z p.toInt)
        | none => 0
      let lows := if 0 < now ∧ t.toInt ≤ s.zoneLimit z now - 12 then x.lows + 1 else 0
      v.rd (Fd.thermZoneTemp z) = t.toNat ∧ v.rd (Fd.thermZonePretrip z) = (if 412 ≤ t.toInt then 1 else 0) ∧
      v.rd (Fd.thermZoneSensorFail z) = (if bad = none then 0 else 1) ∧ (v.zone z).prev = some t ∧
      v.rd (Fd.thermZoneState z) = old ∧
      (v.zone z).next = (if now < up then some up else if 8 ≤ lows then some (now - 1) else x.next) ∧
      (v.zone z).lows = (if now < up ∨ 8 ≤ lows then 0 else lows) ∧ Keeps [.out, .regs, .log, .irqs, .zones] s v) ∧
  (∀ rs, s.monitored z = true → z.val < 8 ∨ 12 ≤ z.val → (∀ r ∈ rs, readingOk r = false) → rs ≠ [] →
    Completes (.zoneSample z rs none) s fun v => v.rd (Fd.thermZoneSensorFail z) = 1 ∧
      (x.next.getD old ≠ 2 → (v.zone z).next = some 2)) ∧
  (x.next = none → exec (.zoneStateChange z) s = .next s) ∧
  (x.next = some old → Completes (.zoneStateChange z) s fun v => v.zone z = { x with next := none } ∧ Keeps [.zones] s v) ∧
  (∀ new, x.next = some new → new ≠ old → new < 3 → old < 3 → z.val < 12 → Completes (.zoneStateChange z) s fun v =>
    (v.zone z).next = none ∧ v.rd (Fd.thermZoneState z) = new ∧
    v.rd (Fd.thermZoneChanges z) = min (s.rd (Fd.thermZoneChanges z) + 1) (2 ^ 16 - 1) ∧ 43 ∈ v.irqs ∧
    (z.val < 8 → v.rd (Fd.dramStackStatusThermal z) = new ∧ v.rd (Fd.dramStackStatusRefresh2x z) = if 1 ≤ new then 1 else 0)) ∧
  (∀ pen : Fin 16,
    let idle := (∀ i, i < 64 → (s.strand (8 * pen + i / 8) (i % 8)).phase = phIdle ∨ (s.strand (8 * pen + i / 8) (i % 8)).phase = phFenced) ∧
      (∀ i, i < 32 → (s.bank (32 * pen + i)).misses = [] ∧ (s.bank (32 * pen + i)).queue = []) ∧
      ∀ o ∈ s.ops, penOf o.drover = pen → o.detached = true;
    (s.pwr ≠ psP1 ∨ ¬idle → exec (.penClockGate pen) s = .next s) ∧
    (s.pwr = psP1 → idle → Completes (.penClockGate pen) s fun v => pen.val ∈ v.penGated ∧ Keeps [.penGated] s v)) ∧
  (∀ (vin temp : BitVec 16) sensor,
    let lost (i : Instr) (why : Down) (count seen : Bool) := Completes i s fun v =>
      v.down = some why ∧ v.rd Fd.pwrStatusState = psP4 ∧ v.mram.pfSeen = seen ∧
      v.mram.pfCount = (if count then satAdd 16 s.mram.pfCount 1 else s.mram.pfCount) ∧ v.mram.lifecycle = s.mram.lifecycle ∧
      v.flash = s.flash ∧ v.mem = [] ∧ v.fold = [] ∧ v.ops = [] ∧ v.strands = [] ∧
      ∀ a, a ∉ [Fd.pwrStatusState.addr, Fd.logEnd.addr, Fd.logFirst.addr, Fd.logStatusFull.addr] → v.reg a = regReset a
    (s.down ≠ none → ∀ i ∈ [Instr.powerFail vin, .inputOvervoltage vin, .thermalShutdown z sensor temp], exec i s = .next s) ∧
    (s.down = none → lost (.powerFail vin) .powerFail true true ∧ lost (.inputOvervoltage vin) .overvoltage true true ∧
      lost (.thermalShutdown z sensor temp) (.off false) false true) ∧
    (∀ at_ l ls, s.move = some (psP4, at_) → at_.toNat ≤ s.bellCount.toNat ∨ psP3 ≤ s.pwr →
      lost (.powerTransition ⟨l, ls⟩) (.off false) false false)) ∧
  ((∀ r, s.down ≠ some (.off r)) → exec .inputRemoval s = .next s) ∧
  (∀ r, s.down = some (.off r) → Completes .inputRemoval s fun v => v.down = some (.off true) ∧ Keeps [.down] s v) ∧
  (s.down = none ∨ s.down = some (.off false) → exec .auxPowerGood s = .next s) ∧
  (s.down ≠ none → s.down ≠ some (.off false) → Completes .auxPowerGood s fun v => v.down = none ∧ v.rd Fd.pwrStatusState = psP0 ∧
    v.log.cycles = min (s.log.cycles + 1) (2 ^ 24 - 1) ∧ RegsBut [Fd.pwrStatusState.addr] s v ∧ Keeps [.regs, .log, .down] s v) ∧
  (∀ (b : Bool), ∀ e ∈ [(Instr.pwrCmdP0 b, psP0), (.pwrCmdP1 b, psP1), (.pwrCmdP2 b, psP2), (.pwrCmdP3 b, psP3), (.pwrCmdP4 b, psP4)],
    let dest := e.2
    let target := s.reg Fd.pwrBell.addr
    let why := s.pwrRefusal dest b
    let sleeps := (dest = psP2 ∨ dest = psP3) ∧ s.pwr ≤ psP2
    let state := dest = s.pwr ∨ (s.flag Fd.modStatusReady = false ∧ dest ≠ psP4)
    let busy := sleeps ∧ s.busyForSleep = true
    let streams := sleeps ∧ s.inboundStreams = true
    (state → why = 2) ∧ (¬state → busy → why = 3) ∧ (¬state → ¬busy → streams → why = 4) ∧
    (¬state → ¬busy → ¬streams → b = true → target.toNat < s.bellCount.toNat + 2 → why = 5) ∧
    (¬state → ¬busy → ¬streams → b = true → s.bellCount.toNat + 1048576 < target.toNat → why = 6) ∧
    (¬state → ¬busy → ¬streams → b = false ∨ s.bellCount.toNat + 2 ≤ target.toNat ∧ target.toNat ≤ s.bellCount.toNat + 1048576 →
      why = 0) ∧
    (s.down ≠ none → exec e.1 s = .next s) ∧
    (s.down = none → s.flag Fd.pwrStatusMoving = true → Completes e.1 s fun v => v.rd Fd.pwrCmdResult = 1 ∧
      RegsBut [Fd.pwrCmdResult.addr] s v ∧ Keeps [.regs] s v) ∧
    (s.down = none → s.flag Fd.pwrStatusMoving = false → Completes e.1 s fun v => v.rd Fd.pwrCmdTo = dest ∧
      v.rd Fd.pwrCmdResult = why ∧ v.rd Fd.pwrCmdState = (if why = 0 then 1 else 3) ∧
      (why = 0 → v.move = some (dest, if b then target else 0) ∧ v.rd Fd.pwrStatusTarget = dest ∧ v.rd Fd.pwrStatusMoving = 1) ∧
      (why ≠ 0 → v.move = s.move ∧ v.rd Fd.pwrStatusTarget = s.rd Fd.pwrStatusTarget) ∧
      RegsBut [Fd.pwrCmdGo.addr, Fd.pwrStatusState.addr] s v ∧ Keeps [.out, .regs, .fab, .move, .log, .irqs] s v)) ∧
  (∀ l ls, let i := Instr.powerTransition ⟨l, ls⟩
    (s.move = none → exec i s = .next s) ∧
    (∀ dest at_, s.move = some (dest, at_) →
      (s.bellCount.toNat < at_.toNat → s.pwr < psP3 → exec i s = .next s) ∧
      (at_.toNat ≤ s.bellCount.toNat ∨ psP3 ≤ s.pwr → dest ≠ psP4 → let u := if s.dark then s.leaveP3 ls else s
        (u.waking = true → u.portsTrain = true → exec i s = .next u) ∧
        (u.waking = false ∨ u.portsTrain = false → Completes i s fun v =>
          v.rd Fd.pwrStatusState = dest % 16 ∧ v.rd Fd.pwrStatusTarget = 0 ∧ v.rd Fd.pwrStatusMoving = 0 ∧ v.move = none ∧
          v.waking = false ∧ v.rd Fd.pwrCmdState = 2 ∧ v.rd Fd.secStatusRaised = 0 ∧ 43 ∈ v.irqs))))

/-- R444, R466, R530, R534, R535, R539 to R544, R546 to R555 (Tables 18.1 to 18.6, 18.8, 18.9, 18.12, 18.14): starts and
resets. A stage's command runs only while the start waits at that stage. The first failing step fails the start with its
code, kept in MRAM and shown; at the third attempt, or without hold-up, the module is in Fallow mode; a failed start is tried
again. A stage that passes leaves the next; S2 leaves memory zero, S4 raises `READY`. `RESET_CMD` is refused by the first
check of Table 18.14 it fails; an accepted reset is under way until its release, a module reset or one of a Drover not in
service completes at once. After a Paddock reset a site's core is released once its handshake has passed. -/
def Obligations.StartsAndResets : Prop := ∀ (s : State) (r0 : S0Result) (r1 : S1Result) (r2 : S2Result) (r3 : S3Result) (r4 : S4Result),
  let fails (i : Instr) (stage step code : Nat) := Completes i s fun t =>
    t.rd Fd.startFailStage = stage ∧ t.rd Fd.startFailStep = step ∧ t.rd Fd.startFailCode = code ∧
    t.mram.fail = (stage, step, code) ∧ t.mram.attempts = s.mram.attempts ∧
    (s.mram.attempts < 3 → t.crook.failed = true) ∧
    (3 ≤ s.mram.attempts → t.rd Fd.modStatusFallow = 1 ∧ t.rd Fd.modStatusReady = 0 ∧ t.rd Fd.pwrStatusState = psP3)
  let leads (i : Instr) (stage : Nat) (p : State → Prop) := Completes i s fun t =>
    t.rd Fd.modStatusStage = stage ∧ t.rd Fd.modStatusStep = 1 ∧ p t
  let locking := s.rd Fd.modStatusStep = 4
  let mj := energyOf r0.capUf.toNat
  let keys := (s.wr Fd.pwrStatusPfSeen (b2n (s.mram.pfSeen && s.crook.kind = 1))).s0Keys r0
  (∀ e ∈ [(Instr.stageS0 r0, 0), (.stageS1 r1, 1), (.stageS2 r2, 2), (.stageS3 r3, 3), (.stageS4 r4, 3)],
    s.atStage e.2 = false → exec e.1 s = .next s) ∧
  (locking → exec (.stageS3 r3) s = .next s) ∧
  (¬locking ∨ s.bellState = bsAcquiring → exec (.stageS4 r4) s = .next s) ∧
  (s.atStage 0 = true →
    (mj < 150 → s.crook.fromFour = true → Completes (.stageS0 r0) s fun t => t.rd Fd.modStatusFallow = 1 ∧
      t.rd Fd.startFailStage = 0 ∧ t.rd Fd.startFailStep = 4 ∧ t.rd Fd.startFailCode = 8 ∧ t.mram.attempts = s.mram.attempts) ∧
    (150 ≤ mj → s.crook.fromFour = true → s.mram.attempts < 3 → leads (.stageS0 r0) 1 fun t =>
      t.mram.attempts = s.mram.attempts + 1 ∧ t.crook.fromFour = false ∧ t.rd Fd.modStatusAttempts = s.mram.attempts) ∧
    (150 ≤ mj → 3 ≤ s.mram.attempts → s.crook.fromFour = true → Completes (.stageS0 r0) s fun t =>
      t.rd Fd.modStatusFallow = 1 ∧ t.mram.attempts = s.mram.attempts) ∧
    ((r0.pufOk = false ∧ s.crook.puf = false) ∨ r0.helperOk = false → keys.1 = some (2, 1)) ∧
    (∀ step code, 150 ≤ mj → s.mram.attempts < 2 → s.crook.fromFour = false → keys.1 = some (step, code) →
      Completes (.stageS0 r0) s fun t => t.mram.attempts = s.mram.attempts + 1 ∧ t.mram.fail = (0, step, code) ∧
        t.crook.failed = true ∧ t.rd Fd.startFailStep = step ∧ t.rd Fd.startFailCode = code) ∧
    (s.crook.fromFour = false → keys.1 = none → 150 ≤ mj → s.mram.attempts < 3 →
      exec (.stageS0 r0) s = .next (((keys.2.showStored.countAttempt r0 none).2.enrol mj).s0Images r0))) ∧
  (∀ u v w : State, s.loadImage imCrook = (true, u) → u.loadImage imWalker = (true, v) → v.loadImage imMgmt = (true, w) →
    (s.s0Images r0).rd Fd.modStatusStage = 1 ∧ (s.s0Images r0).rd Fd.modStatusStep = 1 ∧ (s.s0Images r0).crook.serving = true) ∧
  (s.atStage 1 = true →
    let rows := if s.flag Fd.startCfgSeamForceBridged = true ∨ r1.flatOk = false then seamRows r1 else [0, 1, 2, 3];
    (r1.pllOk = false → fails (.stageS1 r1) 1 1 0x11) ∧
    (r1.pllOk = true → r1.linksOk = false → fails (.stageS1 r1) 1 2 0x12) ∧
    (r1.pllOk = true → r1.linksOk = true → rows = [] → fails (.stageS1 r1) 1 3 0x13) ∧
    (r1.pllOk = true → r1.linksOk = true → rows ≠ [] → leads (.stageS1 r1) 2 fun _ => True)) ∧
  (s.atStage 2 = true →
    let spares := ∀ b ∈ s.sparedBanks r2, (s.sparedRows r2 b).length ≤ 32
    let keeps := ∀ k, k < 8 → (s.retiredAt r2 k).length ≤ 8;
    (¬spares → fails (.stageS2 r2) 2 1 0x21) ∧ (spares → r2.noTrain ≠ [] → fails (.stageS2 r2) 2 2 0x22) ∧
    (∀ k, spares → r2.noTrain = [] → k < 8 → 8 < (s.retiredAt r2 k).length → (∀ j, j < k → (s.retiredAt r2 j).length ≤ 8) →
      fails (.stageS2 r2) 2 (((r2.failed.filter (·.1.val = k)).map (·.2.2.toNat)).foldl max 2) 0x23) ∧
    (∀ step, spares → r2.noTrain = [] → keeps → r2.trip = some step → fails (.stageS2 r2) 2 step.toNat 0x24) ∧
    (spares → r2.noTrain = [] → keeps → r2.trip = none → leads (.stageS2 r2) 3 fun t =>
      t.lines = [] ∧ t.fold = [] ∧ t.dramPoison = [] ∧ t.foldPoison = [] ∧ ∀ e ∈ t.mem, isMgmtMem e.1 = true)) ∧
  (s.atStage 3 = true → ¬locking → (r3.opticsOk = false → fails (.stageS3 r3) 3 2 0x31) ∧
    (r3.opticsOk = true → Completes (.stageS3 r3) s fun t => t.rd Fd.modStatusStage = 3 ∧ t.rd Fd.modStatusStep = 4 ∧
      t.bell.lockStep = true)) ∧
  (s.atStage 3 = true → locking → s.bellState ≠ bsAcquiring →
    let good := (List.range 128).filter fun d => r4.passed.getLsbD d && !s.record?.badDrovers.contains d;
    (good = [] → fails (.stageS4 r4) 4 2 0x41) ∧
    (good ≠ [] → Completes (.stageS4 r4) s fun t => t.rd Fd.modStatusReady = 1 ∧ t.rd Fd.modStatusStage = 0xF ∧
      t.rd Fd.modStatusStartMs = r4.millis.toNat ∧ (150 ≤ r4.mj → t.mram.attempts = 0) ∧
      (r4.mj < 150 → t.mram.attempts = s.mram.attempts))) ∧
  (s.down ≠ none ∨ s.crook.failed = false → exec .startRetry s = .next s) ∧
  (s.down = none → s.crook.failed = true → Completes .startRetry s fun t => t.reg Fd.modStatusReady.addr = 0 ∧
    t.rd Fd.pwrStatusState = psP0 ∧ t.rd Fd.pwrStatusMoving = 0 ∧ t.loaded = none ∧ t.irqs = [] ∧ t.resetting = none ∧
    t.crook.failed = false ∧ t.crook.fromFour = false ∧ t.mram = s.mram ∧ t.flash = s.flash) ∧
  (∀ (target : BitVec 7) (force : Bool), ∀ e ∈ [(Instr.droverReset target, 1, target.toNat, false, false),
      (.penReset target, 2, target.toNat, false, false),
      (.paddockReset target force, 3, target.toNat, false, force), (.paddockResetZeroise target force, 3, target.toNat, true, force),
      (.moduleReset, 4, 0, false, false)],
    let level := e.2.1
    let n := e.2.2.1
    let why := s.resetRefusal level n e.2.2.2.2
    let range := (level = 1 ∧ 128 ≤ n) ∨ (level = 2 ∧ 16 ≤ n) ∨ (level = 3 ∧ 4 ≤ n)
    let up := s.flag Fd.modStatusReady = true ∧ s.fallow = false
    (level = 4 → why = 0) ∧ (level ≠ 4 → range → why = 2) ∧ (level ≠ 4 → ¬range → ¬up → why = 3) ∧
    (level ≠ 4 → ¬range → up → psP2 ≤ s.pwr → why = 4) ∧
    (level = 1 → ¬range → up → s.pwr < psP2 → why = if s.drvState n = 1 then 6 else 0) ∧
    (level = 2 → ¬range → up → s.pwr < psP2 → why = 0) ∧
    (level = 3 → ¬range → up → s.pwr < psP2 → why = if force = false ∧ s.streamsName n = true then 5 else 0) ∧
    (s.down ≠ none → exec e.1 s = .next s) ∧
    (s.down = none → s.resetting ≠ none → level ≠ 4 → Completes e.1 s fun t => t.rd Fd.resetCmdResult = 1 ∧
      RegsBut [Fd.resetCmdResult.addr] s t ∧ Keeps [.regs] s t) ∧
    (s.down = none → s.resetting = none ∨ level = 4 → why ≠ 0 → Completes e.1 s fun t => t.rd Fd.resetCmdState = 3 ∧
      t.rd Fd.resetCmdResult = why ∧ t.rd Fd.resetCmdLevel = level ∧ 44 ∈ t.irqs ∧ Keeps [.out, .regs, .log, .irqs] s t) ∧
    (s.down = none → s.resetting = none → why = 0 → level = 1 → s.drvState n ≠ 0 → Completes e.1 s fun t =>
      t.rd Fd.resetCmdState = 2 ∧ t.rd Fd.resetCmdResult = 0 ∧ Keeps [.out, .regs, .log, .irqs] s t) ∧
    (s.down = none → s.resetting = none → why = 0 → level ≠ 4 → level ≠ 1 ∨ s.drvState n = 0 → Completes e.1 s fun t =>
      t.resetting = some (level, n, e.2.2.2.1, e.2.2.2.2)) ∧
    (s.down = none → level = 4 → Completes e.1 s fun t => t.resetting = none ∧ t.move = none ∧ t.crook.fromFour = true ∧
      t.rd Fd.resetCmdState = 2 ∧ t.rd Fd.resetCmdResult = 0 ∧ t.reg Fd.modStatusReady.addr = 0 ∧ t.rd Fd.pwrStatusState = psP0 ∧
      t.mram = s.mram)) ∧
  (s.resetting = none → exec .resetRelease s = .next s) ∧
  (∀ level n zero force, s.resetting = some (level, n, zero, force) →
    let waits := s.crook.zeroing = true ∨ (zero = true ∧ level = 3 ∧ (s.openChan (2 * n) ≠ none ∨ s.openChan (2 * n + 1) ≠ none));
    (waits → exec .resetRelease s = .next s) ∧
    (¬waits → Completes .resetRelease s fun t => t.resetting = none ∧ t.rd Fd.resetCmdState = 2 ∧ t.rd Fd.resetCmdResult = 0)) ∧
  (∀ k : Fin 4, let x := s.site k
    let waits := x.release = false ∨ s.resetPaddocks.contains k = true ∨ s.rd (Fd.sitePwrHeld k) = 1 ∨ x.shaken = false;
    (waits → exec (.siteRelease k) s = .next s) ∧
    (¬waits → Completes (.siteRelease k) s fun t => t.rd (Fd.siteStatusState k) = ssRunning ∧ (t.site k).rst = true ∧
      (t.site k).release = false))

/-- R446, R450, R560, R561, R563 to R567, R570, R573, R577: the recorder and the management restart. A record that closes,
1 ms after its first event, is written to MRAM once every record before it is closed; the last place of a full log takes
its own record. A bucket that is not full gains a token when its rate's share of a second has passed, spent at once on a
`SUPPRESSED` record if events waited for it. `ERR_ACK` of the number in service ends that service and the next of the
queue enters; any other sets `ACK_MISS`. `LOG_FW_0` without `GO` sets its fields; with `GO` it makes a record, reads
`BAD_CODE`, or reads suppressed. A failed runtime check and an uncorrectable error in management memory restart the
management complex: sessions and subscriptions end, and firmware serves again if an image verifies. -/
def Obligations.RecorderAndRestart : Prop := ∀ (s : State) (seq : BitVec 32) (c16 : BitVec 16) (u : Fin 4) (w : BitVec 64)
    (core : Fin 12) (addr : BitVec 32),
  let room := s.log.buffer.length < 4096
  let young (r : Rec) := s.log.time < r.opened + 1000000
  ((∀ r ∈ s.log.buffer, r.isOpen = true ∧ (r.seq ≠ seq.toNat ∨ young r)) → s.log.dropped = 0 → exec (.recordClose seq) s = .next s) ∧
  (∀ r l, s.log.buffer = r :: l → r.seq = seq.toNat → r.isOpen = true → ¬young r → (∀ x ∈ l, x.isOpen = true ∧ x.seq ≠ seq.toNat) →
    s.flag Fd.logStatusFull = false → s.log.dropped = 0 →
    (s.log.written < 65534 → Completes (.recordClose seq) s fun v => v.log.buffer = l ∧
      v.log.log = s.log.log ++ [{ r with isOpen := false }] ∧ v.log.written = s.log.written + 1 ∧ Keeps [.log] s v) ∧
    (s.log.written = 65534 → Completes (.recordClose seq) s fun v => v.log.buffer = l ∧ v.log.written = 65536 ∧
      v.rd Fd.logStatusFull = 1 ∧ ∃ f, v.log.log = s.log.log ++ [{ r with isOpen := false }, f] ∧ f.code = 5 ∧ f.sev = 2 ∧
        f.isOpen = false)) ∧
  (∀ p r, s.log.buffer = [p, r] → p.isOpen = true → p.seq ≠ seq.toNat → r.seq = seq.toNat → r.isOpen = true → ¬young r →
    s.log.dropped = 0 → Completes (.recordClose seq) s fun v => v.log.buffer = [p, { r with isOpen := false }] ∧ v.log.log = s.log.log ∧
      Keeps [.log] s v) ∧
  (let k := bucketKey c16.toNat
   let b := s.log.bucket k
   let due := noBucket k = false ∧ b.tokens < max b.burst 1 ∧ 1000000000 ≤ (s.log.time - b.since) * b.rate
   (¬due → exec (.bucketRefill c16) s = .next s) ∧
   (due → b.waiting = 0 → Completes (.bucketRefill c16) s fun v =>
     v.log.bucket k = { b with tokens := b.tokens + 1, since := b.since + 1000000000 / b.rate } ∧
     (∀ j, j ≠ k → v.log.bucket j = s.log.bucket j) ∧ v.log.buffer = s.log.buffer ∧ Keeps [.log] s v) ∧
   (due → b.waiting ≠ 0 → room → Completes (.bucketRefill c16) s fun v =>
     v.log.bucket k = { b with waiting := 0, since := b.since + 1000000000 / b.rate } ∧
     ∃ r, v.log.buffer = s.log.buffer ++ [r] ∧ r.seq = s.rd Fd.logEnd ∧ r.code = 2 ∧ r.src = b.src ∧ r.sev = b.sev ∧ r.p0 = k ∧
       r.p1 = b.waiting ∧ r.p2 = b.first)) ∧
  (s.down ≠ none → exec (.errAck u seq) s = .next s ∧ exec (.logFwWrite w) s = .next s) ∧
  (s.down = none → (∀ r, s.service u = some r → r.seq ≠ seq.toNat) → Completes (.errAck u seq) s fun v =>
    v.rd (Fd.errStatusAckMiss u) = 1 ∧
    v.reg (Fd.errStatusAckMiss u).addr = setBits (s.reg (Fd.errStatusAckMiss u).addr) 47 47 1 ∧
    RegsBut [(Fd.errStatusAckMiss u).addr] s v ∧ Keeps [.regs] s v) ∧
  (∀ r, s.down = none → s.service u = some r → r.seq = seq.toNat →
    let k := Tab.get (fun _ => 0) s.log.lostRun u
    (s.queue u = [] → k = 0 → Completes (.errAck u seq) s fun v => v.service u = none ∧ v.rd (Fd.errStatusInService u) = 0 ∧
      v.rd (Fd.errStatusSvcSev u) = 0 ∧ v.log.buffer = s.log.buffer ∧ RegsBut [(Fd.errStatusAckMiss u).addr] s v ∧
      Keeps [.regs, .log] s v) ∧
    (∀ n t, s.queue u = n :: t → n.sev ≤ 5 → k = 0 → Completes (.errAck u seq) s fun v => v.service u = some n ∧ v.queue u = t ∧
      v.rd (Fd.errStatusInService u) = 1 ∧ v.rd (Fd.errStatusSvcSev u) = n.sev ∧ u.val + 1 ∈ v.irqs ∧
      (∀ i, i < 4 → v.rd (Fd.errSvc u i) = ofBytes ((n.bytes.drop (8 * i)).take 8)) ∧ v.log.buffer = s.log.buffer) ∧
    (k ≠ 0 → (s.queue u).length ≤ 16 → room → Completes (.errAck u seq) s fun v =>
      Tab.get (fun _ => 0) v.log.lostRun u = 0 ∧ ∃ x, v.log.buffer = s.log.buffer ++ [x] ∧ x.code = 3 ∧ x.unit = u.val ∧ x.p0 = u.val ∧
        x.p1 = k ∧ x.sev = Tab.get (fun _ => 0) s.log.lostSev u)) ∧
  (s.down = none →
    let code := bits w 47 32
    let sev := bits w 51 48
    let p0 := bits w 31 0
    let b := s.log.bucket 0x8000
    let merges := ∃ r ∈ s.log.buffer, r.isOpen = true ∧ young r ∧ r.unit = euAux ∧ r.code = code ∧ r.p0 = p0
    (bit w 63 = false → Completes (.logFwWrite w) s fun v => v.rd Fd.logFw0Code = code ∧ v.rd Fd.logFw0Sev = sev ∧
      v.rd Fd.logFw0P0 = p0 ∧ v.rd Fd.logFw0Result = s.rd Fd.logFw0Result ∧ RegsBut [Fd.logFw0P0.addr] s v ∧ Keeps [.regs] s v) ∧
    (bit w 63 = true → code < 0x8000 ∨ 5 < sev → Completes (.logFwWrite w) s fun v => v.rd Fd.logFw0Result = 1 ∧
      RegsBut [Fd.logFw0P0.addr] s v ∧ Keeps [.regs] s v) ∧
    (bit w 63 = true → 0x8000 ≤ code → sev ≤ 5 → s.log.stopped = false → ¬merges →
      (b.rate = 0 ∨ b.tokens ≠ 0 → room → Completes (.logFwWrite w) s fun v => v.rd Fd.logFw0Result = 0 ∧
        (v.log.bucket 0x8000).tokens = (if b.rate = 0 then b.tokens else b.tokens - 1) ∧
        ∃ r, v.log.buffer = s.log.buffer ++ [r] ∧ r.seq = s.rd Fd.logEnd ∧ r.code = code ∧ r.src = 5 ∧ r.unit = euAux ∧ r.sev = sev ∧
          r.firmware = true ∧ r.isOpen = true ∧ r.p0 = p0 ∧ r.p1 = s.rd Fd.logFw1P1 ∧ r.p2 = s.rd Fd.logFw1P2 ∧ r.p3 = 1) ∧
      (b.rate ≠ 0 → b.tokens = 0 → b.suppressed < 2 ^ 32 - 1 → Completes (.logFwWrite w) s fun v => v.rd Fd.logFw0Result = 2 ∧
        (v.log.bucket 0x8000).suppressed = b.suppressed + 1 ∧ v.log.buffer = s.log.buffer)) ∧
    (∀ r l, bit w 63 = true → 0x8000 ≤ code → sev ≤ 5 → s.log.stopped = false → s.log.buffer = r :: l → r.isOpen = true → young r →
      r.unit = euAux → r.code = code → r.p0 = p0 → (∀ x ∈ l, x.matches s.log.time euAux code p0 = false) → Completes (.logFwWrite w) s fun v =>
        v.rd Fd.logFw0Result = 0 ∧ v.log.buffer = { r with p3 := satAdd 32 r.p3 1, coalesced := true } :: l)) ∧
  (∀ i ∈ [Instr.runtimeCheckFailed, .mgmtMemUe core addr],
    (s.managed = false → exec i s = .next s) ∧
    (s.managed = true → Completes i s fun v => v.crook.sessions = [] ∧ v.crook.subs = [] ∧ v.crook.nonces = s.crook.nonces ∧
      v.crook.tokenEnd = s.crook.tokenEnd ∧
      ((∀ slot, s.imageFault (s.image imMgmt slot) = 0) → v.crook.serving = true) ∧
      ((∀ slot, s.imageFault (s.image imMgmt slot) ≠ 0) → v.crook.serving = s.fallow)))

/-- R454 to R457, R461, R462, R477, R482, R485, R575 (Tables 15.1 to 15.4, 16.7): session commands. While a transition
zeroises they read `BUSY`, and in Fallow mode those that R457 does not list read `FALLOW`; without its session
`NO_SESSION`; without a valid session tag `BAD_AUTH`. A `REQ_ID` of the stored answers is answered again and not
performed; any other that does not rise is discarded. One that rises is performed as its command says and answered, and
its answer is stored. A session ends 300 s after its last valid request, a nonce 60 s after its issue. -/
def Obligations.SessionCommands : Prop := ∀ (s : State) (h : DfpHdr) (addrs : List (BitVec 64)) (pairs : List (BitVec 64 × BitVec 64))
    (start : BitVec 32) (count : Nat) (m : Fin 64) (regs : List (BitVec 64)) (kind : ImageKind) (img : Image) (n256 : BitVec 256)
    (old : BitVec 32) (dead : BitVec 128),
  let id := h.session.toNat
  let req := h.reqId.toNat
  let now := s.log.time
  let c := s.crook
  let resp (cmd st bell : Nat) (body : List Nat) : DfpResp := ⟨h.port, cmd, req, id, st, bell, body⟩
  let answers (i : Instr) (cmd st : Nat) := Completes i s fun v =>
    v.out = s.out ++ [.dfp (resp cmd st s.bellCount.toNat [])] ∧ Keeps [.out] s v
  (∀ e ∈ [(Instr.dfpSessionClose h, 0x11, true), (.dfpGetNonce h, 0x12, true), (.dfpRegRead h addrs, 0x20, false),
      (.dfpRegWrite h pairs, 0x21, false), (.dfpLogRead h start count, 0x30, true), (.dfpEventSubscribe h, 0x31, false),
      (.dfpMboxPost h m regs, 0x40, false), (.dfpImageWrite h kind img, 0x58, false), (.dfpAttest h n256, 0x60, true)],
    let i := e.1
    let cmd := e.2.1
    let no := s.fallow = true ∧ e.2.2 = false
    (s.managed = false → exec i s = .next s) ∧
    (s.managed = true → c.zeroing = true → answers i cmd 8) ∧
    (s.managed = true → c.zeroing = false → no → answers i cmd 7) ∧
    (s.managed = true → c.zeroing = false → ¬no → (∀ x ∈ c.sessions, x.id ≠ id) → answers i cmd 4) ∧
    (∀ x, s.managed = true → c.zeroing = false → ¬no → c.sessions.find? (fun y => y.id = id) = some x →
      (h.auth ≠ 1 ∨ h.authOk = false → answers i cmd 2) ∧
      (h.auth = 1 → h.authOk = true →
        (∀ r, x.answered.find? (fun y => y.reqId = req) = some r → Completes i s fun v => v.out = s.out ++ [.dfp r] ∧
          v.session? h = some { x with last := now } ∧ Keeps [.out, .crook] s v) ∧
        ((∀ r ∈ x.answered, r.reqId ≠ req) → req ≤ x.high → exec i s = .next s)))) ∧
  (∀ x, s.managed = true → c.zeroing = false → s.fallow = false → c.sessions.find? (fun y => y.id = id) = some x →
    h.auth = 1 → h.authOk = true → (∀ r ∈ x.answered, r.reqId ≠ req) → x.high < req →
    let done (i : Instr) (cmd st : Nat) (body : List Nat) (t : State) :=
      let r := resp cmd st t.bellCount.toNat body
      Completes i s fun v => v.out = t.out ++ [.dfp r] ∧
        (let y : Session := { x with high := req, answered := (r :: x.answered).take 64, last := now }
         v.crook = { t.crook with sessions := updateWhere (fun z => z.id = id) (fun _ => y) t.crook.sessions }) ∧
        Keeps [.out, .crook] t v
    done (.dfpSessionClose h) 0x11 0 []
      { s with crook := { c with sessions := c.sessions.filter (fun y => y.id ≠ id), subs := c.subs.filter (fun y => y.2 ≠ id) } } ∧
    (∃ n : BitVec 128, done (.dfpGetNonce h) 0x12 0 [n.toNat]
      { s with free := s.free + 2, crook := { c with nonces := c.nonces ++ [(n, now)] } }) ∧
    (128 < addrs.length → done (.dfpRegRead h addrs) 0x20 1 [] s) ∧
    (∀ a, addrs = [a] → done (.dfpRegRead h addrs) 0x20 (if (s.readReg a.toNat 64).1 = stNotPermitted then 5 else 0)
      [(s.readReg a.toNat 64).1, (s.readReg a.toNat 64).2.toNat] { s with free := s.free + 1 }) ∧
    (128 < pairs.length → done (.dfpRegWrite h pairs) 0x21 1 [] s) ∧
    (∀ a w, pairs = [(a, w)] →
      let st := if signedCommit a.toNat w then stNotPermitted else (s.writeReg .dfp a.toNat 64 w).1
      done (.dfpRegWrite h pairs) 0x21 (if st = stNotPermitted then 5 else 0) [st] (s.writeReg .dfp a.toNat 64 w).2) ∧
    (count = 0 → done (.dfpLogRead h start count) 0x30 0 [s.rd Fd.logEnd, s.rd Fd.logEnd] s) ∧
    (count = 1 → start.toNat < s.rd Fd.logFirst ∨ s.rd Fd.logEnd ≤ start.toNat →
      done (.dfpLogRead h start count) 0x30 0 (s.rd Fd.logEnd :: List.replicate 32 0 ++ [s.rd Fd.logEnd]) s) ∧
    (∀ r, count = 1 → s.rd Fd.logFirst ≤ start.toNat → start.toNat < s.rd Fd.logEnd →
      s.log.log.find? (fun y => y.seq = start.toNat) = some r ∨
        (∀ y ∈ s.log.log, y.seq ≠ start.toNat) ∧ s.log.buffer.find? (fun y => y.seq = start.toNat) = some r →
      done (.dfpLogRead h start count) 0x30 0 (s.rd Fd.logEnd :: r.bytes.map (·.toNat) ++ [s.rd Fd.logEnd]) s) ∧
    ((h.port.val, id) ∈ c.subs → done (.dfpEventSubscribe h) 0x31 0 [] s) ∧
    ((h.port.val, id) ∉ c.subs → 4 ≤ c.subs.length → done (.dfpEventSubscribe h) 0x31 8 [] s) ∧
    ((h.port.val, id) ∉ c.subs → c.subs.length < 4 →
      done (.dfpEventSubscribe h) 0x31 0 [] { s with crook := { c with subs := c.subs ++ [(h.port.val, id)] } }) ∧
    (m.val < 52 → done (.dfpMboxPost h m regs) 0x40 5 [] s) ∧
    (52 ≤ m.val → regs.length < 8 ∨ 16 < regs.length →
      done (.dfpMboxPost h m regs) 0x40 9 [mrBadLen] (s.wr (mfResult m) mrBadLen)) ∧
    (52 ≤ m.val → m.val < 60 → 8 ≤ regs.length → regs.length ≤ 16 →
      done (.dfpMboxPost h m regs) 0x40 0 [] (s.postIn m regs (senderDfp id) none)) ∧
    (60 ≤ m.val → 8 ≤ regs.length → regs.length ≤ 16 →
      done (.dfpMboxPost h m regs) 0x40 0 [] ((s.setMboxRegs m regs).mboxOut m (m - 60) regs (senderDfp id))) ∧
    (let k := imageCode kind
     let into := 2 * k + (1 - s.activeSlot k)
     ∃ f : Flash, done (.dfpImageWrite h kind img) 0x58 0 [] { s with flash := f } ∧
       f.recA = s.flash.recA ∧ f.recB = s.flash.recB ∧ f.active = s.flash.active ∧
       Tab.get Config.factoryImage f.images into = img ∧
       ∀ j, j ≠ into → Tab.get Config.factoryImage f.images j = Tab.get Config.factoryImage s.flash.images j) ∧
    (∃ sig, done (.dfpAttest h n256) 0x60 0 (s.attestation n256.toNat ++ [sig]) { s with free := s.free + 1 }) ∧
    (s.attestation n256.toNat).take 5 = [1, s.mram.lifecycle, s.rd Fd.secStatusLevel, s.rd Fd.pwrStatusState, s.device] ∧
    (s.attestation n256.toNat)[10]? = some s.mram.epoch ∧ (s.attestation n256.toNat)[12]? = some n256.toNat) ∧
  (let expired := ∃ x ∈ c.sessions, x.id = old.toNat ∧ x.last + 300000000000 ≤ now
   (¬expired → exec (.sessionTimeout old) s = .next s) ∧
   (expired → Completes (.sessionTimeout old) s fun v =>
     v.crook.sessions = c.sessions.filter (fun y => y.id ≠ old.toNat) ∧
     v.crook.subs = c.subs.filter (fun y => y.2 ≠ old.toNat) ∧ v.crook.nonces = c.nonces ∧ Keeps [.crook] s v)) ∧
  (Completes (.nonceExpiry dead) s fun v =>
    (∀ e, e ∈ v.crook.nonces ↔ e ∈ c.nonces ∧ ¬(e.1 = dead ∧ e.2 + 60000000000 ≤ now)) ∧ v.crook.sessions = c.sessions ∧
    Keeps [.crook] s v)

/-- R451 to R453, R455, R457, R470, R472, R473, R482, R485, R611 (Tables 15.1 to 15.3): the open commands and the ports below
DFP. `IDENTIFY` and `STATUS` are always answered; `SESSION_OPEN` opens a session with a key that verifies and whose role
allows it, up to 8. An echo request is answered, and a solicitation of the port's own address; a prefix forms an
address, which is solicited. Datagrams that break the layout, are too long or go elsewhere are counted; an unknown command is
answered `BAD_REQUEST`. A link that comes up solicits routers; one that fails is noted at most once a minute. -/
def Obligations.OpenCommandsAndPorts : Prop := ∀ (s : State) (h : DfpHdr) (slot : Fin 16) (sigOk : Bool) (chain : Option KeyRole)
    (port : Fin 2) (ident : BitVec 32) (data : List (BitVec 8)) (n : NdMsg) (d : BadDatagram) (up : Bool),
  let c := s.crook
  let p := port.val
  let resp (cmd st : Nat) (body : List Nat) : Out := .dfp ⟨h.port, cmd, h.reqId.toNat, h.session.toNat, st, s.bellCount.toNat, body⟩
  let sends (i : Instr) (o : Out) := Completes i s fun v => v.out = s.out ++ [o] ∧ Keeps [.out] s v
  (s.managed = false → ∀ i ∈ [Instr.dfpIdentify h, .dfpStatus h, .dfpSessionOpen h slot sigOk chain, .icmpv6Echo port ident data,
    .neighborDiscovery port n, .datagramDiscard port d, .autoNegotiation port up], exec i s = .next s) ∧
  (s.managed = true →
    sends (.dfpIdentify h) (resp 1 0 [goodOf s.record?.order, gibOf s.record?.order, letterOf s.record?.population, s.device,
      Config.dieRev.code, s.mram.lifecycle, if c.puf = true then Config.deviceKey else 0]) ∧
    sends (.dfpStatus h) (resp 2 0 [s.rd Fd.modStatusReady, s.rd Fd.modStatusStage, s.rd Fd.modStatusFallow, s.rd Fd.startFailStage,
      s.rd Fd.startFailStep, s.rd Fd.startFailCode, s.rd Fd.pwrStatusState]) ∧
    (let open_ := Instr.dfpSessionOpen h slot sigOk chain
     let may := sigOk = true ∧ c.s0Fail ≠ 2 ∧
       (c.s0Fail = 3 → chain = some .niruaMfg ∨ chain = some .niruaService) ∧
       (c.s0Fail ≠ 3 → s.keyRole slot = some .operator ∨ s.keyRole slot = some .niruaMfg ∨ s.keyRole slot = some .niruaService)
     (c.zeroing = true → sends open_ (resp 0x10 8 [])) ∧
     (c.zeroing = false → ¬may → sends open_ (resp 0x10 2 [])) ∧
     (c.zeroing = false → may → 8 ≤ c.sessions.length → sends open_ (resp 0x10 8 [])) ∧
     (c.zeroing = false → may → c.sessions.length < 8 → ∃ key, Completes open_ s fun v =>
       v.out = s.out ++ [resp 0x10 0 [c.nextSess, key]] ∧
       v.crook = { c with sessions := c.sessions ++ [⟨c.nextSess, 0, [], s.log.time⟩], nextSess := (c.nextSess + 1) % 2 ^ 32 } ∧
       v.free = s.free + 1 ∧ Keeps [.out, .crook, .free] s v)) ∧
    sends (.icmpv6Echo port ident data) (.icmp p icEchoReply 0 ident.toNat data) ∧
    (∀ target, n = .solicitation target →
      (target ∈ s.portAddrs p → sends (.neighborDiscovery port n) (.icmp p icNeighborAdvertisement target 0 [])) ∧
      (target ∉ s.portAddrs p → exec (.neighborDiscovery port n) s = .next s)) ∧
    (∀ pref, n = .routerAdvertisement pref →
      ((p, pref) ∈ s.ports.prefixes → exec (.neighborDiscovery port n) s = .next s) ∧
      ((p, pref) ∉ s.ports.prefixes → ∃ a : BitVec 128, a.toNat = 2 ^ 64 * pref.toNat + s.ifaceId p % 2 ^ 64 ∧
        Completes (.neighborDiscovery port n) s fun v => v.out = s.out ++ [.icmp p icNeighborSolicitation a 0 []] ∧
          v.ports = { s.ports with prefixes := s.ports.prefixes ++ [(p, pref)] } ∧ a ∈ v.portAddrs p ∧
          Keeps [.out, .ports] s v)) ∧
    (d = .otherPort ∨ d = .badLayout ∨ d = .tooLong → Completes (.datagramDiscard port d) s fun v =>
      let count (t : State) (q : Nat) := Tab.get (fun _ => 0) t.ports.discards q
      count v p = count s p + 1 ∧ (∀ q, q ≠ p → count v q = count s q) ∧
      v.ports.prefixes = s.ports.prefixes ∧ v.ports.up = s.ports.up ∧ v.ports.anFail = s.ports.anFail ∧ Keeps [.ports] s v) ∧
    (∀ (cmd : BitVec 16) (reqId : BitVec 32), cmd ≠ 1 → cmd ≠ 2 → d = .unknownCmd cmd reqId →
      sends (.datagramDiscard port d)
        (.dfp ⟨p, cmd.toNat, reqId.toNat, 0, if c.zeroing = true then 8 else 1, s.bellCount.toNat, []⟩)) ∧
    (up = true → p ∈ s.ports.up → exec (.autoNegotiation port up) s = .next s) ∧
    (up = true → p ∉ s.ports.up → Completes (.autoNegotiation port up) s fun v =>
      v.out = s.out ++ [.icmp p icRouterSolicitation 0 0 []] ∧ (∀ q, q ∈ v.ports.up ↔ q = p ∨ q ∈ s.ports.up) ∧
      v.ports.prefixes = s.ports.prefixes ∧ v.ports.discards = s.ports.discards ∧ Keeps [.out, .ports] s v) ∧
    (up = false → Completes (.autoNegotiation port up) s fun v =>
      (∀ q, q ∈ v.ports.up ↔ q ≠ p ∧ q ∈ s.ports.up) ∧ (∀ e, e ∈ v.ports.prefixes ↔ e.1 ≠ p ∧ e ∈ s.ports.prefixes) ∧
      v.ports.discards = s.ports.discards ∧
      ((∃ e ∈ s.ports.anFail, e.1 = p ∧ s.log.time < e.2 + 60000000000) → v.ports.anFail = s.ports.anFail) ∧
      ((∀ e ∈ s.ports.anFail, e.1 = p → e.2 + 60000000000 ≤ s.log.time) → (p, s.log.time) ∈ v.ports.anFail) ∧
      Keeps [.ports] s v))

/-- R450, R454, R457, R473, R477, R478, R480, R484, R485, R515, R545, R585, R588, R590 (Tables 15.3, 16.3, 16.6, 16.8):
signed commands. Each is checked for zeroising, then its key and role, then its nonce, which is used up; a refusal shows
in `SEC_REFUSAL`. A non-volatile commit needs 150 mJ. A counter never falls; the copy of the Module Record in use is not
written; an image is activated when it verifies. A lifecycle transition of Table 16.6 from the present state raises the
key epoch, ends sessions, nonces and the debug level, and holds every Paddock until zeroising completes. -/
def Obligations.SignedCommands : Prop := ∀ (s : State) (h : DfpHdr) (base : BitVec 64) (pairs : List (BitVec 64 × BitVec 64))
    (mode : Bool) (target : BitVec 64) (adv : Bool) (sec : RecordSection) (mj : Nat) (present next_ : BitVec 8) (k4 : Fin 4)
    (kind : ImageKind) (hash : BitVec 384),
  let c := s.crook
  let lc := s.mram.lifecycle
  let resp (cmd st bell : Nat) (body : List Nat) : Out := .dfp ⟨h.port, cmd, h.reqId.toNat, h.session.toNat, st, bell, body⟩
  let done (i : Instr) (cmd st : Nat) (body : List Nat) (t : State) := Completes i s fun v =>
    v.out = t.out ++ [resp cmd st t.bellCount.toNat body] ∧ (st = 0 → Keeps [.out] t v) ∧
    (st ≠ 0 → v.rd Fd.secRefusalCmd = cmd ∧ v.rd Fd.secRefusalStatus = st ∧ RegsBut [Fd.secRefusalCmd.addr] t v ∧
      Keeps [.out, .regs] t v)
  let own : List KeyRole := [.owner]
  let both : List KeyRole := [.owner, .niruaService]
  let lcRoles := lifecycleRoles present.toNat next_.toNat
  let signers : List KeyRole := if lcRoles = [] then [.owner, .niruaMfg, .niruaService] else lcRoles
  let verified (roles : List KeyRole) (chain : Bool) := h.auth = 2 ∧ h.authOk = true ∧ c.s0Fail ≠ 2 ∧
    (c.s0Fail = 3 → chain = true ∧ (h.chainRole = some .niruaMfg ∨ h.chainRole = some .niruaService)) ∧
    (c.s0Fail ≠ 3 → ∃ r, s.keyRole h.slot = some r ∧ (r ∈ roles ∨ lc = lcReturned ∧ KeyRole.owner ∈ roles ∧ r = .niruaService))
  let fresh := (∃ e ∈ c.nonces, e.1 = h.nonce ∧ s.log.time < e.2 + 60000000000) ∧ h.device.toNat = s.device
  let config := Instr.dfpConfigCommit h base pairs mode target
  let record := Instr.dfpRecordWrite h adv sec mj
  let clear_ := Instr.dfpCounterClear h mj
  let leave := Instr.dfpFallowExit h mj
  let cycle := Instr.dfpLifecycle h present next_ mj
  let image := Instr.dfpImageCommit h kind adv hash mj
  let u : State := { s with crook := { c with nonces := c.nonces.filter (fun e => e.1 ≠ h.nonce) } }
  (∀ e ∈ [(config, 0x50, own, false), (record, 0x51, sectionRoles sec.code, true), (clear_, 0x52, both, true),
      (leave, 0x53, both, true), (cycle, 0x54, signers, false), (.dfpRestartManagement h, 0x56, both, false),
      (.dfpRestartPaddock h k4, 0x56, both, false), (.dfpRestartModule h, 0x56, both, false), (image, 0x59, own, false)],
    (s.managed = false → exec e.1 s = .next s) ∧
    (s.managed = true → c.zeroing = true → Completes e.1 s fun v => v.out = s.out ++ [resp e.2.1 8 s.bellCount.toNat []] ∧
      Keeps [.out] s v) ∧
    (s.managed = true → c.zeroing = false → ¬verified e.2.2.1 e.2.2.2 → done e.1 e.2.1 2 [] s) ∧
    (s.managed = true → c.zeroing = false → verified e.2.2.1 e.2.2.2 → ¬fresh → done e.1 e.2.1 3 [] s)) ∧
  (∀ (x : State) (n : Nat),
    let y := (x.mayCommit mj n).2
    (150 ≤ mj → (x.mayCommit mj n).1 = true ∧ y.rd Fd.holdupStatusOk = 1 ∧ RegsBut [Fd.holdupStatusOk.addr] x y ∧ Keeps [.regs] x y) ∧
    (mj < 150 → (x.mayCommit mj n).1 = false ∧ y.rd Fd.holdupStatusOk = 0 ∧
      y.rd Fd.holdupStatusRefused = min (x.rd Fd.holdupStatusRefused + 1) (2 ^ 16 - 1) ∧ Keeps [.out, .regs, .log, .irqs] x y)) ∧
  (s.managed = true → c.zeroing = false → fresh →
    (verified own false →
      (gateAt base.toNat = none → done config 0x50 1 [] u) ∧
      (∀ b i, gateAt base.toNat = some (b, i) →
        let names := base.toNat = b.base + 0x1000 * i ∧ pairs.length ≤ 64 ∧
          ∀ p ∈ pairs, p.1.toNat < 0x1000 ∧ stMask (base.toNat + p.1.toNat) ≠ 0
        let armed := s.rd (Fd.gateState base.toNat) = 1
        let w := pairs.foldl (fun t p => t.writeStaged .crook base.toNat (base.toNat + p.1.toNat) p.2) u
        (¬names → done config 0x50 1 [] u) ∧
        (names → s.reaches base.toNat = false → done config 0x50 9 [stAsleep] u) ∧
        (names → s.reaches base.toNat = true → ∃ t,
          exec (.commit .crook base (BitVec.ofNat 64 (2 ^ 63 + 2 ^ 61 * b2n mode)))
            (if armed then w else w.setReg (Fd.gateBell base.toNat).addr target) = .next t ∧
          done config 0x50 (if armed ∨ t.rd (Fd.gateState base.toNat) = 3 then 9 else 0)
            [t.rd (Fd.gateState base.toNat), t.rd (Fd.gateReason base.toNat)] t))) ∧
    (verified (sectionRoles sec.code) true →
      let old := s.flash.inUse
      let new := sectionInto sec old
      let known := sec.code ≠ 0 ∧ sec.code.toNat ≤ 3
      let signed_ := sec.code = 3 ∨ sec.sigOk = true
      let place := sec.code = 3 → lc = lcBlank ∨ lc = lcReturned
      let keeps := (goodOf new.order = goodOf old.order ∨ lc = lcBlank) ∧
        (adv = true → s.counter 0 / 256 ≤ new.niruaVersion.toNat ∧ s.counter 0 % 256 ≤ new.ownerVersion.toNat)
      (¬known → done record 0x51 1 [] u) ∧ (known → ¬signed_ → done record 0x51 2 [] u) ∧
      (known → signed_ → ¬place → done record 0x51 5 [] u) ∧
      (known → signed_ → place → ¬keeps → done record 0x51 9 [] u) ∧
      (known → signed_ → place → keeps → mj < 150 → done record 0x51 6 [] (u.mayCommit mj 1).2) ∧
      (known → signed_ → place → keeps → 150 ≤ mj → ∃ t, done record 0x51 0 [] t ∧ t.flash.images = s.flash.images ∧
        t.flash.active = s.flash.active ∧
        (if s.flash.usesA = true then t.flash.recA = s.flash.recA ∧ t.flash.recB = some { new with seq := old.seq + 1 }
         else t.flash.recB = s.flash.recB ∧ t.flash.recA = some { new with seq := old.seq + 1 }) ∧
        (adv = true → t.counter 0 = 256 * new.niruaVersion.toNat + new.ownerVersion.toNat ∧
          ∀ n, n ≠ 0 → t.counter n = s.counter n) ∧
        (adv = false → t.mram = s.mram))) ∧
    (verified both true →
      (s.fallowLow = true → done clear_ 0x52 6 [] u) ∧
      (s.fallowLow = false → mj < 150 → done clear_ 0x52 6 [] (u.mayCommit mj 2).2) ∧
      (s.fallowLow = false → 150 ≤ mj → ∃ t, done clear_ 0x52 0 [] t ∧ t.mram = { s.mram with attempts := 0 } ∧
        t.rd Fd.modStatusFallow = s.rd Fd.modStatusFallow ∧ Keeps [.regs, .mram] u t) ∧
      (s.fallow = false → done leave 0x53 9 [] u) ∧
      (s.fallow = true → s.fallowLow = true → done leave 0x53 6 [] u) ∧
      (s.fallow = true → s.fallowLow = false → mj < 150 → done leave 0x53 6 [] (u.mayCommit mj 2).2) ∧
      (s.fallow = true → s.fallowLow = false → 150 ≤ mj → ∃ t, done leave 0x53 0 [] t ∧
        t.mram = { s.mram with attempts := 0 } ∧ t.reg Fd.modStatusReady.addr = 0 ∧ t.rd Fd.pwrStatusState = psP0 ∧
        t.crook.kind = 4 ∧ t.crook.sessions = [] ∧ t.crook.serving = false)) ∧
    (verified both false →
      (∃ t, done (.dfpRestartManagement h) 0x56 0 [] t ∧ t.crook.sessions = [] ∧ t.crook.subs = [] ∧ t.mram = s.mram ∧
        t.flash = s.flash ∧ ((∀ n, s.imageFault (s.image imMgmt n) = 0) → t.crook.serving = true)) ∧
      (∀ e ∈ [(Instr.dfpRestartPaddock h k4, Instr.paddockReset (BitVec.ofNat 7 k4) false), (.dfpRestartModule h, .moduleReset)],
        ∃ t, exec e.2 u = .next t ∧
          let r := t.rd Fd.resetCmdResult
          done e.1 0x56 (if r = 0 then 0 else if r = 1 then 8 else 9) (if r < 2 then [] else [r]) t)) ∧
    (verified signers false →
      let may := lcRoles ≠ [] ∧ present.toNat = lc ∧
        (lc = lcBlank → s.record?.certified = true ∧ ∃ n, n < 16 ∧ s.keyRole n = some .owner)
      (¬may → done cycle 0x54 5 [] u) ∧ (may → mj < 150 → done cycle 0x54 6 [] (u.mayCommit mj 3).2) ∧
      (may → 150 ≤ mj → ∃ t, done cycle 0x54 0 [] t ∧ t.mram.lifecycle = next_.toNat ∧ t.mram.zeroPending = true ∧
        t.mram.epoch = s.mram.epoch + 1 ∧ t.mram.counters = s.mram.counters ∧ t.crook.sessions = [] ∧ t.crook.nonces = [] ∧
        t.crook.tokenEnd = none ∧ t.crook.raise = none ∧ t.crook.zeroing = true ∧ t.crook.lcFrom = some lc ∧ t.rd Fd.secStatusLevel = 0 ∧
        (∀ k, k < 4 → k ∈ t.resetPaddocks) ∧ ∀ e ∈ t.mem, isMgmtMem e.1 = false)) ∧
    (verified own false →
      let k := imageCode kind
      let a := s.activeSlot k
      let staged := s.image k (1 - a)
      let bad (n : Nat) := done image 0x59 9 [(Config.checkCode n).toNat] u
      (staged.header = hash → adv = true → bad 4) ∧
      (staged.header = hash → adv = false → s.imageFault staged ≠ 0 → bad (s.imageFault staged)) ∧
      (staged.header = hash → adv = false → s.imageFault staged = 0 →
        (mj < 150 → done image 0x59 6 [] (u.mayCommit mj 4).2) ∧
        (150 ≤ mj → ∃ t, done image 0x59 0 [] t ∧ t.activeSlot k = 1 - a ∧ (∀ j, j ≠ k → t.activeSlot j = s.activeSlot j) ∧
          t.flash.images = s.flash.images ∧ t.mram = s.mram)) ∧
      (staged.header ≠ hash → (∀ e ∈ c.running, e.1 = k → e.2.header ≠ hash) → bad 5) ∧
      (∀ r, staged.header ≠ hash → (c.running.find? (fun e => e.1 = k)).map (·.2) = some r → r.header = hash →
        let n := r.counterSlot.toNat
        (adv = false → done image 0x59 0 [] u) ∧
        (adv = true → r.svn.toNat < s.counter n → done image 0x59 9 [] u) ∧
        (adv = true → s.counter n ≤ r.svn.toNat →
          (mj < 150 → done image 0x59 6 [] (u.mayCommit mj 2).2) ∧
          (150 ≤ mj → ∃ t, done image 0x59 0 [] t ∧ t.counter n = r.svn.toNat ∧ (∀ j, j ≠ n → t.counter j = s.counter j) ∧
            t.flash = s.flash))))) ∧
  (s.down ≠ none ∨ c.zeroing = false → exec .zeroiseComplete s = .next s) ∧
  (s.down = none → c.zeroing = true → Completes .zeroiseComplete s fun v => v.mram = { s.mram with zeroPending := false } ∧
    v.crook.zeroing = false ∧ v.crook.lcFrom = none ∧ ∀ k, k < 4 → k ∉ v.resetPaddocks)

/-- R10, R485, R488, R490 to R496, R498, R499, R612 (Tables 16.9 to 16.13, 16.17 to 16.19): the test port, debug tokens
and the trace buffer. An instruction that the level does not grant, or any but `IDCODE` and `BYPASS` while a transition
zeroises, selects the bypass register. A token is refused by the first check it fails and the level stays; accepted, it
sets level and scope for its lifetime. `DBG_ACCESS` needs an aligned address in scope, powered and not under reset, and
Full for all but the debug blocks. A record that is collected takes the next number; a full buffer overwrites its oldest
or drops it. -/
def Obligations.DebugAndTrace : Prop := ∀ (s : State) (t : DebugTok) (lv : BitVec 2) (a d : BitVec 64) (h : DfpHdr)
    (found : Option (List (BitVec 4))) (r : TraceRec) (unitOk : Bool),
  let c := s.crook
  let lc := s.mram.lifecycle
  let level := s.rd Fd.secStatusLevel
  let tapped (code : Nat) : State := { s with crook := { c with tap := code } }
  let calm := c.zeroing = false
  let sent (i : Instr) (code : Nat) (body : List Nat) := Completes i s fun v =>
    v.out = s.out ++ [.tdo code body] ∧ v.crook = { c with tap := code } ∧ Keeps [.out, .crook] s v
  let did (i : Instr) (st : Nat) (x : Word) := Completes i s fun v => v.crook = { c with tap := 0x13, access := (st, x) } ∧
    v.out = s.out ++ [.access .debug a.toNat st x] ∧ Keeps [.out, .crook] s v
  (∀ e ∈ [(Instr.tapIdcode, 0x02, True), (.tapBypass, 0xFF, True), (.tapExtest, 0x00, level = 2 ∧ calm),
      (.tapSamplePreload, 0x01, level = 2 ∧ calm), (.tapDbgNonce, 0x10, lc ≠ lcBlank ∧ calm), (.tapDbgToken t, 0x11, lc ≠ lcBlank ∧ calm),
      (.tapDbgLevel lv, 0x12, lc = lcBlank ∧ lv ≠ 3 ∧ calm), (.tapAccessRead a, 0x13, 1 ≤ level ∧ calm),
      (.tapAccessWrite a d, 0x13, 1 ≤ level ∧ calm), (.badOp true a d, 0x13, 1 ≤ level ∧ calm), (.tapTrace, 0x14, 1 ≤ level ∧ calm),
      (.tapDtm, 0x15, level = 2 ∧ s.rdBit Fd.secStatusScope 5 = true ∧ calm)],
    (s.down ≠ none → exec e.1 s = .next s) ∧
    (s.down = none → ¬e.2.2 → Completes e.1 s fun v => v.crook = { c with tap := 0xFF } ∧ v.trace = s.trace ∧
      Keeps [.out, .regs, .log, .irqs, .crook] s v) ∧
    (s.down = none → e.2.2 → ∃ v, exec e.1 s = .next v ∧ v.crook.tap = e.2.1)) ∧
  (s.down = none →
    sent .tapIdcode 0x02 [Config.dieRev.idcode] ∧ Config.dieRev.idcode ∈ [0x11B009CB, 0x21B009CB, 0x31B009CB] ∧
    sent .tapBypass 0xFF [0] ∧
    (calm → level = 2 → ∀ e ∈ [(Instr.tapExtest, 0x00), (.tapSamplePreload, 0x01)], ∃ n, Completes e.1 s fun v =>
      v.out = s.out ++ [.tdo e.2 [n]] ∧ v.free = s.free + 1 ∧ v.crook = { c with tap := e.2 } ∧ Keeps [.out, .free, .crook] s v) ∧
    (calm → lc ≠ lcBlank → ∃ n : BitVec 128, Completes .tapDbgNonce s fun v => v.out = s.out ++ [.tdo 0x10 [n.toNat]] ∧
      v.crook.nonces = c.nonces ++ [(n, s.log.time)] ∧ Keeps [.out, .free, .crook] s v) ∧
    (calm → lc = lcBlank → lv ≠ 3 → Completes (.tapDbgLevel lv) s fun v => v.rd Fd.secStatusLevel = lv.toNat ∧
      v.rd Fd.secStatusScope = (if lv = 0 then 0 else 0x3F) ∧ v.rd Fd.secStatusTokenKey = 0 ∧ v.crook.tokenEnd = none ∧
      Keeps [.out, .regs, .log, .irqs, .crook] s v) ∧
    (calm → level = 2 → s.rdBit Fd.secStatusScope 5 = true → sent .tapDtm 0x15 []) ∧
    (calm → 1 ≤ level → did (.badOp true a d) stNotPermitted 0 ∧
      (s.rdBit Fd.secStatusScope 4 = false → Completes .tapTrace s fun v => v.crook.access = (stNotPermitted, 0)) ∧
      (s.rdBit Fd.secStatusScope 4 = true → s.dark = true → Completes .tapTrace s fun v => v.crook.access = (stAsleep, 0)) ∧
      (s.rdBit Fd.secStatusScope 4 = true → s.dark = false →
        sent .tapTrace 0x14 ((s.trace.flatMap (·.2)).map (·.toNat)))) ∧
    Completes .testLogicReset s fun v => v.crook = { c with tap := 2, access := (0, 0) } ∧ Keeps [.crook] s v) ∧
  (s.down ≠ none → exec .testLogicReset s = .next s) ∧
  (∀ e ∈ [(Instr.tapDbgToken t, s.down = none ∧ calm ∧ lc ≠ lcBlank, True),
      (.dfpDebugToken h t, s.managed = true ∧ calm, h.auth = 2 ∧ h.authOk = true ∧ h.slot = t.slot)], e.2.1 →
    let formed := t.level.toNat ≤ 2 ∧ t.scope.toNat < 64 ∧ 1 ≤ t.lifetime.toNat ∧ t.lifetime.toNat ≤ 86400
    let signed_ := e.2.2 ∧ t.sigOk = true ∧ c.s0Fail = 0 ∧
      (s.keyRole t.slot = some .niruaService ∨ lc ≠ lcReturned ∧ s.keyRole t.slot = some .debug)
    let fresh := (∃ n ∈ c.nonces, n.1 = t.nonce ∧ s.log.time < n.2 + 60000000000) ∧ t.device.toNat = s.device
    let fits := t.deviceKeyOk = true ∧ t.lifecycle.toNat = lc ∧ lc ≠ lcBlank ∧ (t.level.toNat < 2 ∨ lc = lcInspect)
    let refused (st : Nat) := Completes e.1 s fun v => v.rd Fd.secStatusLevel = level ∧
      v.rd Fd.secStatusScope = s.rd Fd.secStatusScope ∧ v.rd Fd.secStatusTokenKey = s.rd Fd.secStatusTokenKey ∧
      v.crook.tokenEnd = c.tokenEnd ∧ (∀ n, n ∈ v.crook.nonces ↔ n ∈ c.nonces ∧ (st = 5 → n.1 ≠ t.nonce)) ∧
      (e.1 = .tapDbgToken t → v.crook.portTok = st ∧ v.out[s.out.length]? = some (.tdo 0x11 [c.portTok])) ∧
      (e.1 = .dfpDebugToken h t → v.rd Fd.secRefusalCmd = 0x55 ∧ v.rd Fd.secRefusalStatus = st ∧
        v.out.getLast? = some (.dfp ⟨h.port, 0x55, h.reqId.toNat, h.session.toNat, st, s.bellCount.toNat, []⟩))
    (¬formed → refused 1) ∧ (formed → ¬signed_ → refused 2) ∧ (formed → signed_ → ¬fresh → refused 3) ∧
    (formed → signed_ → fresh → ¬fits → refused 5) ∧
    (formed → signed_ → fresh → fits → Completes e.1 s fun v => v.rd Fd.secStatusLevel = t.level.toNat ∧
      v.rd Fd.secStatusScope = (if t.level = 0 then 0 else t.scope.toNat) ∧
      v.rd Fd.secStatusTokenKey = (if t.level = 0 then 0 else t.slot.val) ∧
      v.crook.tokenEnd = (if t.level = 0 then none else some (s.log.time + 1000000000 * t.lifetime.toNat)) ∧
      (∀ n, n ∈ v.crook.nonces ↔ n ∈ c.nonces ∧ n.1 ≠ t.nonce) ∧
      (e.1 = .tapDbgToken t → v.crook.portTok = 0) ∧
      (e.1 = .dfpDebugToken h t → v.rd Fd.secRefusalStatus = s.rd Fd.secRefusalStatus ∧
        v.out.getLast? = some (.dfp ⟨h.port, 0x55, h.reqId.toNat, h.session.toNat, 0, s.bellCount.toNat, []⟩)))) ∧
  (s.managed = false → exec (.dfpDebugToken h t) s = .next s) ∧
  (s.managed = true → c.zeroing = true → Completes (.dfpDebugToken h t) s fun v =>
    v.out = s.out ++ [.dfp ⟨h.port, 0x55, h.reqId.toNat, h.session.toNat, 8, s.bellCount.toNat, []⟩] ∧ Keeps [.out] s v) ∧
  ((∀ e, c.tokenEnd = some e → s.log.time < e) → exec .tokenExpiry s = .next s) ∧
  (∀ e, c.tokenEnd = some e → e ≤ s.log.time → Completes .tokenExpiry s fun v => v.rd Fd.secStatusLevel = 0 ∧
    v.rd Fd.secStatusScope = 0 ∧ v.rd Fd.secStatusTokenKey = 0 ∧ v.crook = { c with tokenEnd := none } ∧
    Keeps [.out, .regs, .log, .irqs, .crook] s v) ∧
  (s.down = none → calm → 1 ≤ level →
    let open_ := a.toNat % 8 = 0 ∧ level = 2 ∧ isSiteWin a.toNat = false
    let covered := ∀ k ∈ s.scopesOf a.toNat, s.rdBit Fd.secStatusScope k = true
    let held := ∃ k, s.paddockAt a.toNat = some k ∧ k ∈ s.resetPaddocks
    ∀ e ∈ [(Instr.tapAccessRead a, DbgReq.read a.toNat), (.tapAccessWrite a d, .write a.toNat d)],
      (c.raise ≠ none → Completes e.1 s fun v => v = tapped 0x13) ∧
      (c.raise = none →
        (a.toNat % 8 ≠ 0 → did e.1 stRegWidth 0) ∧
        (a.toNat % 8 = 0 → level = 1 → findBlk a.toNat = none ∨ e.1 = .tapAccessWrite a d → did e.1 stNotPermitted 0) ∧
        (a.toNat % 8 = 0 → level = 2 → isSiteWin a.toNat = true → did e.1 stUnmapped 0) ∧
        (open_ → ¬covered → did e.1 stNotPermitted 0) ∧ (open_ → covered → held → did e.1 stReset 0) ∧
        (open_ → covered → ¬held → s.dbgAsleep a.toNat = true →
          (lc = lcInspect → Completes e.1 s fun v => v.crook = { c with tap := 0x13, raise := some e.2 } ∧ Keeps [.crook] s v) ∧
          (lc ≠ lcInspect → did e.1 stAsleep 0)) ∧
        (open_ → covered → isMgmtMem a.toNat = true →
          (e.1 = .tapAccessRead a → did e.1 stOk (BitVec.ofNat 64 (ofBytes (s.mgmtRead a.toNat 8))))) ∧
        (open_ → covered → ¬held → s.dbgAsleep a.toNat = false → isRegSpace a.toNat = false →
          let st := s.dbgMem a.toNat (decide (e.1 = .tapAccessWrite a d))
          (st ≠ stOk → did e.1 st 0) ∧
          (st = stOk → e.1 = .tapAccessWrite a d → Completes e.1 s fun v => v.crook.access = (stOk, 0) ∧
            v.mem = ((tapped 0x13).writeBytes a.toNat (toBytes 8 d.toNat) false false).mem ∧
            v.fold = ((tapped 0x13).writeBytes a.toNat (toBytes 8 d.toNat) false false).fold)) ∧
        (open_ → covered → ¬held → s.dbgAsleep a.toNat = false → isRegSpace a.toNat = true →
          (e.1 = .tapAccessRead a → Completes e.1 s fun v => v.crook.access = (tapped 0x13).readReg a.toNat 64) ∧
          (e.1 = .tapAccessWrite a d → Completes e.1 s fun v =>
            v.crook.access = (((tapped 0x13).writeReg .debug a.toNat 64 d).1, 0) ∧
            v.regs = ((tapped 0x13).writeReg .debug a.toNat 64 d).2.regs)))) ∧
  (c.raise = none → exec (.debugRaise found) s = .next s) ∧
  (∀ q, c.raise = some q → psP2 ≤ s.pwr → found = none ∨ s.fallow = true → Completes (.debugRaise found) s fun v =>
    v.crook = { c with raise := none, access := (stAsleep, 0) } ∧ Keeps [.out, .crook] s v) ∧
  (∀ b ls, c.raise = some (.read b) → psP2 ≤ s.pwr → found = some ls → s.fallow = false →
    let w := if s.dark = true then s.leaveP3 ls else s
    (w.waking = true → w.portsTrain = true → exec (.debugRaise found) s = .next w) ∧
    (w.waking = false ∨ w.portsTrain = false → Completes (.debugRaise found) s fun v =>
      v.crook.raise = none ∧ v.rd Fd.pwrStatusState = psP1 ∧ v.rd Fd.secStatusRaised = 1)) ∧
  exec (.badOp false a d) s = exec (.registerWrite .mgmt a 64 (d ||| 0x8000000000000000)) s ∧
  (s.down ≠ none ∨ s.dark = true → exec (.traceCtlWrite a) s = .next s ∧ exec (.traceRecord r unitOk) s = .next s ∧
    exec .traceSample s = .next s) ∧
  (s.down = none → s.dark = false →
    let n := s.rd Fd.traceStatusNext
    (bit a 63 = true → s.flag Fd.traceCtlEn = false → Completes (.traceCtlWrite a) s fun v => v.trace = [] ∧
      v.crook = { c with sampled := s.bellCount.toNat / 65536 } ∧
      v.reg Fd.traceStatusNext.addr = 0 ∧ v.reg Fd.traceCtlEn.addr = a &&& 0xC0FFFFFF000001FE ∧
      RegsBut [Fd.traceStatusNext.addr, Fd.traceCtlEn.addr] s v ∧ Keeps [.regs, .trace, .crook] s v) ∧
    (bit a 63 = false ∨ s.flag Fd.traceCtlEn = true → Completes (.traceCtlWrite a) s fun v =>
      v.reg Fd.traceCtlEn.addr = a &&& 0xC0FFFFFF000001FE ∧ RegsBut [Fd.traceCtlEn.addr] s v ∧ Keeps [.regs] s v) ∧
    (let k := r.kind.toNat
     let collected := unitOk = true ∧ s.flag Fd.traceCtlEn = true ∧ 1 ≤ k ∧ k ≤ 8 ∧ s.rdBit Fd.traceCtlKinds (k - 1) = true ∧
       (s.pwr < psP2 ∨ k = 5 ∨ 7 ≤ k) ∧ (r.pen = none → 7 ≤ k) ∧
       ∀ p, r.pen = some p → s.rdBit Fd.traceCtlPens p = true ∧ s.rdBit Fd.secStatusScope (p / 4) = true
     let added (kept : List (Nat × List Byte)) := ∃ ph, ph < 256 ∧ Completes (.traceRecord r unitOk) s fun v =>
       v.trace = kept ++ [(n, toBytes 8 s.bellCount.toNat ++ [r.kind] ++ toBytes 1 ph ++ [r.logical] ++ toBytes 1 r.strand.toNat ++
         toBytes 4 r.unit.toNat ++ toBytes 6 r.pc.toNat ++ [r.opcode, 0] ++ toBytes 2 r.status.toNat ++ toBytes 6 r.detail.toNat)] ∧
       v.rd Fd.traceStatusNext = (n + 1) % 2 ^ 32 ∧ v.rd Fd.traceStatusDropped = s.rd Fd.traceStatusDropped ∧
       RegsBut [Fd.traceStatusNext.addr] s v ∧ Keeps [.regs, .trace, .free] s v
     (¬collected → exec (.traceRecord r unitOk) s = .next s) ∧
     (collected → s.trace.length < 2048 → added s.trace) ∧
     (collected → 2048 ≤ s.trace.length → s.flag Fd.traceCtlWrap = true → added (s.trace.drop 1)) ∧
     (collected → 2048 ≤ s.trace.length → s.flag Fd.traceCtlWrap = false → Completes (.traceRecord r unitOk) s fun v =>
       v.rd Fd.traceStatusDropped = min (s.rd Fd.traceStatusDropped + 1) (2 ^ 32 - 1) ∧ v.rd Fd.traceStatusNext = n ∧
       RegsBut [Fd.traceStatusDropped.addr] s v ∧ Keeps [.regs] s v)) ∧
    (let round := s.bellCount.toNat / 65536
     let due := s.flag Fd.traceCtlEn = true ∧ s.rd Fd.traceCtlSample ≠ 0 ∧ c.sampled + s.rd Fd.traceCtlSample ≤ round
     (¬due → exec .traceSample s = .next s) ∧
     (due → s.rd Fd.traceCtlPens = 0 → Completes .traceSample s fun v => v.crook = { c with sampled := round } ∧ Keeps [.crook] s v) ∧
     (∀ p, due → p < 16 → s.rd Fd.traceCtlPens = 2 ^ p → s.rdBit Fd.secStatusScope (p / 4) = true →
       s.trace.length + 7 ≤ 2048 → n + 7 < 2 ^ 32 →
       (s.rd Fd.traceCtlKinds = 16 → Completes .traceSample s fun v =>
         v.trace.map (·.1) = s.trace.map (·.1) ++ (List.range 7).map (n + ·) ∧ v.crook = { c with sampled := round }) ∧
       (s.rd Fd.traceCtlKinds = 32 → s.pwr < psP2 → Completes .traceSample s fun v =>
         v.trace.map (·.1) = s.trace.map (·.1) ++ (List.range 4).map (n + ·)) ∧
       (s.rd Fd.traceCtlKinds = 32 → s.pwr = psP2 → Completes .traceSample s fun v => v.trace = s.trace))))

/-- Tables 4.1 to 4.3, R106, R124: every instruction's words give it back, each word spells one instruction, and which
words are illegal. -/
def Obligations.InstructionWords : Prop :=
  (∀ (i : KInstr) (pn : Bool) (pg : BitVec 5), i.formed = true →
    keisDecode (i.word pn pg) = some i ∧ predOf (i.word pn pg) = (pn, pg) ∧
    ∀ ext, keisIllegal (i.word pn pg) ext = ((pn && decide (pg = 0)) || i.bad (pairOfWord ext))) ∧
  (∀ (word : Word) (i : KInstr), keisDecode word = some i →
    i.formed = true ∧ i.word (predOf word).1 (predOf word).2 = word) ∧
  (∀ word ext, keisDecode word = none → keisIllegal word ext = true) ∧
  (∀ p : PairOp, pairBad p = false → pairOfWord (pairWord p) = p)

/-- R69, R71, R74, R106, R109, R115: when an instruction issues, and what becomes of one that is illegal or whose
predicate is false; which strand is ready, and whose turn it is. -/
def Obligations.InstructionsIssue : Prop :=
  (∀ (c : Instr) (w : Issue) (i : KInstr) (ext : Word) (s : State), issueOf c = some (w, i, ext) →
    let word := i.word w.pn w.pg
    let x := s.strand w.drover w.strand
    (¬s.offers w i ext → exec c s = .next s) ∧
    (s.offers w i ext → keisIllegal word ext = true → Faults c w s stIllegal) ∧
    (s.offers w i ext → keisIllegal word ext = false → x.pred w.pn w.pg = false →
      ∃ t, exec c s = .next t ∧
        t.strand w.drover w.strand = { x with pc := x.pc + BitVec.ofNat 48 i.len, phase := phRunning } ∧
        StrandsBut w.drover w.strand s t ∧ PassesTurn w s t ∧ Keeps [.strands, .drovers] s t)) ∧
  (∀ (w : Issue) (word : Word) (s : State),
    let at_ := ∃ ext, s.fetched w.drover w.strand = some (word, ext) ∧ keisIllegal word ext = true ∧
      s.ready w.drover w.strand = true ∧ s.myTurn w.drover w.strand = true
    (at_ → Faults (.illegalInstruction w word) w s stIllegal) ∧ (¬at_ → exec (.illegalInstruction w word) s = .next s)) ∧
  (∀ (s : State) (d k : Nat) (i : KInstr) (pn : Bool) (pg : BitVec 5) (ext : Word), i.formed = true →
    s.fetched d k = some (i.word pn pg, ext) → keisIllegal (i.word pn pg) ext = false → (s.strand d k).canIssue = true →
    let u := s.uses d k i (pairOfWord ext)
    (s.busyG d k pg.toNat = true ∨ (s.strand d k).pred pn pg = true ∧
      ((∃ n ∈ u.g, s.busyG d k n = true) ∨ (∃ n ∈ u.d, s.busyD d k n = true) ∨
        (u.tag = true ∧ s.tagFree d k = false) ∨ u.slot = true) →
      s.ready d k = false ∧ s.strandState d k = phStalled)) ∧
  (∀ (s : State) (d k u : Nat), u < 8 → s.ready d k = true → s.myTurn d k = true → s.ready d u = true →
    (s.strand d u).prio ≤ (s.strand d k).prio ∧
    ((s.strand d u).prio = (s.strand d k).prio →
      (k + 8 - (s.drv d).turn % 8) % 8 ≤ (u + 8 - (s.drv d).turn % 8) % 8))

/-- What reset leaves. Every register, and every staged copy, reads its value at reset (R592 to R620, where a table gives
a `Reset` column; notes/assumptions/8.md for one that no table gives): the recorder's next sequence number is 1 (Table
19.5), `RATE_CFG` shows 16 of 64 (Table 19.7), a Tally entry reads `STATE` 2 (Table 3.11), the module is not `READY`. No
command waits, nothing has been sent, no operation is in progress, and no interrupt is pending. -/
def Obligations.ResetLeaves : Prop :=
  (∀ a, State.reset.reg a = regReset a ∧ State.reset.stg a = regReset a) ∧
  (∀ e ∈ [(0x30000001020, 0x1), (0x30000001028, 0x1), (0x30000001050, 0x1040000000000000), (0x30000009400, 0x8000000000000000),
      (0x30000000010, 0), (0x30000007010, 0)], State.reset.reg e.1 = BitVec.ofNat 64 e.2) ∧
  State.reset.pending = [] ∧ State.reset.out = [] ∧ State.reset.ops = [] ∧ State.reset.irqs = [] ∧
  (∀ d k, (State.reset.strand d k).phase = 0 ∧ ∀ r, (State.reset.strand d k).rg r = 0)

/-- The state at reset is in canonical form (the model's own form, notes/assumptions/8.md). -/
def Obligations.ResetWf : Prop := State.reset.wf = true

/-- One step takes the command at the front of the queue and answers what the command does to the state with the rest of
the queue. With no command waiting the block idles (the model's choice, notes/assumptions/2.md). -/
def Obligations.StepRunsFront : Prop :=
  (∀ (s : State) (c : Instr), step (s.front c) = exec c s) ∧
  (∀ (s : State), s.pending = [] → step s = .next s) ∧
  core.step = step ∧ core.reset = State.reset

/-- The canonical form of memories, register files and sets is kept by every step, from whatever state: equal contents stay
equal data. -/
def Obligations.StepKeepsWf : Prop := ∀ (s t : State), s.wf = true → step s = .next t → t.wf = true

/-- Every command completes, in every state, with a next state. It leaves the queue as it was; what it sends follows what
was sent; the module's operating time, the numbers given to operations, and the free values already used never go back. -/
def Obligations.EveryCommandAnswers : Prop := ∀ (c : Instr) (s : State), ∃ t, exec c s = .next t ∧
  t.pending = s.pending ∧ s.out <+: t.out ∧ s.log.time ≤ t.log.time ∧ s.nextOp ≤ t.nextOp ∧ s.free ≤ t.free

/-- R471, R483, R485: whatever the command, the key epoch never goes back, and the lifecycle state changes only together
with a rise of the key epoch. -/
def Obligations.LifecycleChangesOnlyWithEpoch : Prop := ∀ (c : Instr) (s t : State), exec c s = .next t →
  s.mram.epoch ≤ t.mram.epoch ∧ (t.mram.lifecycle ≠ s.mram.lifecycle → s.mram.epoch < t.mram.epoch)

/-- The frame of every command: each part of the state that is not named in its footprint is as it was, whatever the
state. -/
def Obligations.CommandsKeepTheirFootprint : Prop := ∀ (c : Instr) (s t : State), exec c s = .next t →
  ∀ p, p ∉ footprint c → p.same s t
end

