-- ==== Sys2Proof/Laws/Table.lean ====
section
/-! SUPPORT. Laws/Table.lean: a table read after a write, and that writes keep the canonical form. -/
namespace Sys2Proof.Machine

variable {α : Type}

theorem Tab.get_ins (d : Nat → α) (t : List (Nat × α)) (k k' : Nat) (v : α) :
    Tab.get d (Tab.ins t k v) k' = if k' = k then v else Tab.get d t k' := by
  induction t with
  | nil => simp [Tab.ins, Tab.get, eq_comm]
  | cons e t ih =>
    obtain ⟨j, w⟩ := e
    simp only [Tab.ins]
    by_cases h : k' = k
    · subst h
      split
      · simp [Tab.get]
      · split
        · simp [Tab.get]
        · rename_i hj _
          simp [Tab.get, hj, ih]
    · have h' : ¬ k = k' := fun e => h e.symm
      split
      · rename_i hj
        subst hj
        simp [Tab.get, h']
      · split
        · simp [Tab.get, h']
        · simp [Tab.get, h, ih]

theorem Tab.get_del (d : Nat → α) (t : List (Nat × α)) (k k' : Nat) :
    Tab.get d (Tab.del t k) k' = if k' = k then d k' else Tab.get d t k' := by
  induction t with
  | nil => simp [Tab.del, Tab.get]
  | cons e t ih =>
    obtain ⟨j, w⟩ := e
    simp only [Tab.del] at ih ⊢
    by_cases hj : j = k
    · subst hj
      have : ¬ j = k' ∨ j = k' := by omega
      simp only [List.filter_cons, ne_eq, not_true, decide_false, Bool.false_eq_true, if_false, ih]
      by_cases h : k' = j
      · simp [h]
      · have h' : ¬ j = k' := fun e => h e.symm
        simp [h, Tab.get, h']
    · simp only [List.filter_cons, ne_eq, hj, not_false_eq_true, decide_true, if_true, Tab.get, ih]
      by_cases h : k' = k
      · subst h
        simp [hj]
      · simp [h]

theorem Tab.get_put [DecidableEq α] (d : Nat → α) (t : List (Nat × α)) (k k' : Nat) (v : α) :
    Tab.get d (Tab.put d t k v) k' = if k' = k then v else Tab.get d t k' := by
  unfold Tab.put
  split
  · rename_i hv
    rw [Tab.get_del]
    by_cases h : k' = k
    · subst h; simp [hv]
    · simp [h]
  · exact Tab.get_ins ..

theorem Tab.get_put_same [DecidableEq α] (d : Nat → α) (t : List (Nat × α)) (k : Nat) (v : α) :
    Tab.get d (Tab.put d t k v) k = v := by simp [Tab.get_put]

theorem Tab.get_put_ne [DecidableEq α] (d : Nat → α) (t : List (Nat × α)) (k k' : Nat) (v : α) (h : k' ≠ k) :
    Tab.get d (Tab.put d t k v) k' = Tab.get d t k' := by simp [Tab.get_put, h]

theorem Tab.all_above_mono {t : List (Nat × α)} {j k : Nat} (hj : j ≤ k)
    (h : t.all (fun e => decide (k < e.1)) = true) : t.all (fun e => decide (j < e.1)) = true :=
  List.all_eq_true.mpr fun e he => by
    have := List.all_eq_true.mp h e he
    simp only [decide_eq_true_eq] at this ⊢
    omega

theorem Tab.all_ins {t : List (Nat × α)} {j k : Nat} {v : α} (hj : j < k)
    (h : t.all (fun e => decide (j < e.1)) = true) : (Tab.ins t k v).all (fun e => decide (j < e.1)) = true := by
  induction t with
  | nil => simpa [Tab.ins] using hj
  | cons e t ih =>
    obtain ⟨i, w⟩ := e
    simp only [List.all_cons, Bool.and_eq_true, decide_eq_true_eq] at h
    simp only [Tab.ins]
    split
    · simp only [List.all_cons, Bool.and_eq_true, decide_eq_true_eq]
      exact ⟨hj, h.2⟩
    · split
      · simp only [List.all_cons, Bool.and_eq_true, decide_eq_true_eq]
        exact ⟨hj, h⟩
      · simp only [List.all_cons, Bool.and_eq_true, decide_eq_true_eq]
        exact ⟨h.1, ih h.2⟩

variable [DecidableEq α]

theorem Tab.wf_filter (d : Nat → α) (p : Nat × α → Bool) (t : List (Nat × α)) (h : Tab.wf d t = true) :
    Tab.wf d (t.filter p) = true := by
  induction t with
  | nil => rfl
  | cons e t ih =>
    obtain ⟨j, w⟩ := e
    simp only [Tab.wf, Bool.and_eq_true] at h
    simp only [List.filter_cons]
    split
    · simp only [Tab.wf, Bool.and_eq_true]
      refine ⟨⟨h.1.1, ?_⟩, ih h.2⟩
      exact List.all_eq_true.mpr fun e he => List.all_eq_true.mp h.1.2 e (List.mem_filter.mp he).1
    · exact ih h.2

theorem Tab.wf_del (d : Nat → α) (t : List (Nat × α)) (k : Nat) (h : Tab.wf d t = true) :
    Tab.wf d (Tab.del t k) = true := Tab.wf_filter d _ t h

theorem Tab.wf_keep (d : Nat → α) (p : Nat → Bool) (t : List (Nat × α)) (h : Tab.wf d t = true) :
    Tab.wf d (Tab.keep p t) = true := Tab.wf_filter d _ t h

theorem Tab.wf_ins (d : Nat → α) (t : List (Nat × α)) (k : Nat) (v : α) (h : Tab.wf d t = true) (hv : v ≠ d k) :
    Tab.wf d (Tab.ins t k v) = true := by
  induction t with
  | nil => simp [Tab.ins, Tab.wf, hv]
  | cons e t ih =>
    obtain ⟨j, w⟩ := e
    simp only [Tab.wf, Bool.and_eq_true] at h
    simp only [Tab.ins]
    split
    · rename_i hj
      subst hj
      simp only [Tab.wf, Bool.and_eq_true]
      exact ⟨⟨by simpa using hv, h.1.2⟩, h.2⟩
    · split
      · rename_i hk
        simp only [Tab.wf, Bool.and_eq_true, List.all_cons]
        exact ⟨⟨by simpa using hv, by simpa using hk, Tab.all_above_mono (by omega) h.1.2⟩, h⟩
      · simp only [Tab.wf, Bool.and_eq_true]
        exact ⟨⟨h.1.1, Tab.all_ins (by omega) h.1.2⟩, ih h.2⟩

theorem Tab.wf_put (d : Nat → α) (t : List (Nat × α)) (k : Nat) (v : α) (h : Tab.wf d t = true) :
    Tab.wf d (Tab.put d t k v) = true := by
  unfold Tab.put
  split
  · exact Tab.wf_del d t k h
  · rename_i hv; exact Tab.wf_ins d t k v h hv

end Sys2Proof.Machine
end

