-- ==== Sys2Proof/Laws/Onward.lean ====
section
/-! SUPPORT. Laws/Onward.lean: what every command keeps. `Onward m s t` says that t may follow s: the queue is the same,
what was put out stays, counts and the operating time never fall, the lifecycle changes only with the key epoch (or, where
m has bit 64, by a start that takes the older sealed copy), the canonical forms of the state are kept, and no part outside the set m changes. -/
namespace Sys2Proof.Machine

/-! ### Canonical forms -/

theorem Tab.all_mapv {α : Type} [DecidableEq α] (d : Nat → α) (f : Nat → α → α) (j : Nat) (t : List (Nat × α))
    (h : t.all (fun e => decide (j < e.1)) = true) : (Tab.mapv d f t).all (fun e => decide (j < e.1)) = true := by
  induction t with
  | nil => rfl
  | cons e t ih =>
    obtain ⟨k, v⟩ := e
    simp only [List.all_cons, Bool.and_eq_true] at h
    simp only [Tab.mapv]
    split
    · exact ih h.2
    · simp only [List.all_cons, Bool.and_eq_true]
      exact ⟨h.1, ih h.2⟩

theorem Tab.wf_mapv {α : Type} [DecidableEq α] (d : Nat → α) (f : Nat → α → α) (t : List (Nat × α))
    (h : Tab.wf d t = true) : Tab.wf d (Tab.mapv d f t) = true := by
  induction t with
  | nil => rfl
  | cons e t ih =>
    obtain ⟨k, v⟩ := e
    simp only [Tab.wf, Bool.and_eq_true] at h
    simp only [Tab.mapv]
    split
    · exact ih h.2
    · rename_i hne
      simp only [Tab.wf, Bool.and_eq_true, decide_eq_true_eq]
      exact ⟨⟨hne, Tab.all_mapv d f k t h.1.2⟩, ih h.2⟩

theorem Memory.wf_write (bs : List Byte) : ∀ (m : List Host.Cell) (a : Nat), Memory.wf m = true →
    Memory.wf (Memory.write m a bs) = true := by
  induction bs with
  | nil => intro m a h; exact h
  | cons b t ih => intro m a h; exact ih _ _ (Tab.wf_put blank m a b h)

theorem Memory.wf_keep (p : Nat → Bool) (m : List Host.Cell) (h : Memory.wf m = true) :
    Memory.wf (Tab.keep p m) = true := Tab.wf_keep blank p m h

theorem Nats.all_ins {t : List Nat} {j k : Nat} (hj : j < k) (h : t.all (fun i => decide (j < i)) = true) :
    (Nats.ins t k).all (fun i => decide (j < i)) = true := by
  induction t with
  | nil => simpa [Nats.ins] using hj
  | cons i t ih =>
    simp only [List.all_cons, Bool.and_eq_true, decide_eq_true_eq] at h
    simp only [Nats.ins]
    split
    · simp only [List.all_cons, Bool.and_eq_true, decide_eq_true_eq]
      exact h
    · split
      · simp only [List.all_cons, Bool.and_eq_true, decide_eq_true_eq]
        exact ⟨hj, h⟩
      · simp only [List.all_cons, Bool.and_eq_true, decide_eq_true_eq]
        exact ⟨h.1, ih h.2⟩

theorem Nats.wf_ins (t : List Nat) (k : Nat) (h : Nats.wf t = true) : Nats.wf (Nats.ins t k) = true := by
  induction t with
  | nil => rfl
  | cons i t ih =>
    simp only [Nats.wf, Bool.and_eq_true] at h
    simp only [Nats.ins]
    split
    · simp only [Nats.wf, Bool.and_eq_true]
      exact h
    · split
      · rename_i hlt
        simp only [Nats.wf, Bool.and_eq_true, List.all_cons, decide_eq_true_eq]
        refine ⟨⟨hlt, ?_⟩, h⟩
        refine List.all_eq_true.mpr fun x hx => ?_
        have := List.all_eq_true.mp h.1 x hx
        simp only [decide_eq_true_eq] at this ⊢
        omega
      · rename_i hne hnl
        simp only [Nats.wf, Bool.and_eq_true]
        exact ⟨Nats.all_ins (by omega) h.1, ih h.2⟩

theorem Nats.wf_filter (p : Nat → Bool) (t : List Nat) (h : Nats.wf t = true) : Nats.wf (t.filter p) = true := by
  induction t with
  | nil => rfl
  | cons i t ih =>
    simp only [Nats.wf, Bool.and_eq_true] at h
    simp only [List.filter]
    split
    · simp only [Nats.wf, Bool.and_eq_true]
      refine ⟨List.all_eq_true.mpr fun x hx => ?_, ih h.2⟩
      exact List.all_eq_true.mp h.1 x (List.mem_filter.mp hx).1
    · exact ih h.2

theorem Nats.wf_del (t : List Nat) (k : Nat) (h : Nats.wf t = true) : Nats.wf (Nats.del t k) = true :=
  Nats.wf_filter _ t h

theorem Nats.wf_set (t : List Nat) (k : Nat) (b : Bool) (h : Nats.wf t = true) : Nats.wf (Nats.set t k b) = true := by
  unfold Nats.set
  split
  · exact Nats.wf_ins t k h
  · exact Nats.wf_del t k h

/-- The canonical forms of a state, part by part. -/
structure Wf (s : State) : Prop where
  mem : Memory.wf s.mem = true
  fold : Memory.wf s.fold = true
  regs : Tab.wf regReset s.regs = true
  staged : Tab.wf regReset s.staged = true
  lines : Tab.wf (fun _ => none) s.lines = true
  banks : Tab.wf (fun _ => {}) s.banks = true
  ways : Tab.wf (fun _ => {}) s.ways = true
  ranges : Tab.wf (fun _ => []) s.ranges = true
  strands : Tab.wf (fun _ => {}) s.strands = true
  drovers : Tab.wf (fun _ => {}) s.drovers = true
  chans : Tab.wf (fun _ => {}) s.chans = true
  drams : Tab.wf (fun _ => {}) s.drams = true
  penClock : Tab.wf (fun _ => 20) s.penClock = true
  sites : Tab.wf (fun _ => {}) s.sites = true
  mboxes : Tab.wf (fun _ => {}) s.mboxes = true
  zones : Tab.wf (fun _ => {}) s.zones = true
  dramPoison : Nats.wf s.dramPoison = true
  foldPoison : Nats.wf s.foldPoison = true
  dramUe : Nats.wf s.dramUe = true
  irqs : Nats.wf s.irqs = true
  closed : Nats.wf s.closed = true
  resetPaddocks : Nats.wf s.resetPaddocks = true
  zeroPads : Nats.wf s.zeroPads = true
  penGated : Nats.wf s.penGated = true

theorem wf_iff (s : State) : s.wf = true ↔ Wf s := by
  constructor
  · intro h
    simp only [State.wf, Bool.and_eq_true] at h
    obtain ⟨⟨⟨⟨⟨⟨⟨⟨⟨⟨⟨⟨⟨⟨⟨⟨⟨⟨⟨⟨⟨⟨⟨h1, h2⟩, h3⟩, h4⟩, h5⟩, h6⟩, h7⟩, h8⟩, h9⟩, h10⟩, h11⟩, h12⟩, h13⟩, h14⟩, h15⟩, h16⟩, h17⟩, h18⟩,
      h19⟩, h20⟩, h21⟩, h22⟩, h23⟩, h24⟩ := h
    exact ⟨h1, h2, h3, h4, h5, h6, h7, h8, h9, h10, h11, h12, h13, h14, h15, h16, h17, h18, h19, h20, h21, h22, h23, h24⟩
  · intro h
    simp only [State.wf, Bool.and_eq_true]
    exact ⟨⟨⟨⟨⟨⟨⟨⟨⟨⟨⟨⟨⟨⟨⟨⟨⟨⟨⟨⟨⟨⟨⟨h.1, h.2⟩, h.3⟩, h.4⟩, h.5⟩, h.6⟩, h.7⟩, h.8⟩, h.9⟩, h.10⟩, h.11⟩, h.12⟩, h.13⟩, h.14⟩, h.15⟩, h.16⟩,
      h.17⟩, h.18⟩, h.19⟩, h.20⟩, h.21⟩, h.22⟩, h.23⟩, h.24⟩

/-! ### Sets of parts, as the bits of a number -/

/-- The set m holds the set f. -/
def Covers (f m : Nat) : Prop := f &&& m = f

theorem Covers.refl (m : Nat) : Covers m m := Nat.and_self m

theorem Covers.of {f g m : Nat} (h : Covers f m) (k : g &&& f = g) : Covers g m := by
  unfold Covers at *
  rw [← k, Nat.and_assoc, h]

theorem Covers.bit {f m i : Nat} (h : Covers f m) (k : f.testBit i = true) : m.testBit i = true := by
  have := congrArg (fun n => n.testBit i) h
  simp only [Nat.testBit_and, k, Bool.true_and] at this
  exact this

/-- Every part outside the set is the same. -/
def Within (m : Nat) (s t : State) : Prop := ∀ p : Part, m.testBit p.ctorIdx = false → p.same s t

theorem Within.up {f m : Nat} {s t : State} (h : Covers f m) (k : Within f s t) : Within m s t := fun p e => by
  refine k p ?_
  have := congrArg (fun n => n.testBit p.ctorIdx) h
  simp only [Nat.testBit_and, e, Bool.and_false] at this
  exact this.symm

theorem Within.refl (m : Nat) (s : State) : Within m s s := fun p _ => by cases p <;> rfl

theorem Part.same_trans {p : Part} {s t u : State} (h : p.same s t) (k : p.same t u) : p.same s u := by
  cases p <;> exact Eq.trans k h

theorem Within.trans {m : Nat} {s t u : State} (h : Within m s t) (k : Within m t u) : Within m s u :=
  fun p e => Part.same_trans (h p e) (k p e)

/-! ### The relation -/

/-- State t may follow state s, and differs in parts of the set m alone. -/
structure Onward (m : Nat) (s t : State) : Prop where
  queue : t.pending = s.pending
  out   : s.out <+: t.out
  free  : s.free ≤ t.free
  ids   : s.nextOp ≤ t.nextOp
  time  : s.log.time ≤ t.log.time
  epoch : s.mram.epoch ≤ t.mram.epoch
  life  : m.testBit 64 = true ∨ t.mram.lifecycle = s.mram.lifecycle ∨ s.mram.epoch < t.mram.epoch
  wf    : Wf s → Wf t
  within : Within m s t

theorem Onward.refl {m : Nat} (s : State) : Onward m s s :=
  ⟨rfl, List.prefix_refl _, Nat.le_refl _, Nat.le_refl _, Nat.le_refl _, Nat.le_refl _, .inr (.inl rfl), id, Within.refl m s⟩

theorem Onward.trans {m : Nat} {s t u : State} (h : Onward m s t) (k : Onward m t u) : Onward m s u where
  queue := k.queue.trans h.queue
  out := h.out.trans k.out
  free := Nat.le_trans h.free k.free
  ids := Nat.le_trans h.ids k.ids
  time := Nat.le_trans h.time k.time
  epoch := Nat.le_trans h.epoch k.epoch
  life := by
    rcases k.life with e | e | e
    · exact .inl e
    · rcases h.life with f | f | f
      · exact .inl f
      · exact .inr (.inl (e.trans f))
      · exact .inr (.inr (Nat.lt_of_lt_of_le f k.epoch))
    · exact .inr (.inr (Nat.lt_of_le_of_lt h.epoch e))
  wf := fun w => k.wf (h.wf w)
  within := h.within.trans k.within

/-- The same of an outcome, of a pair with a state, and of a state that may be none. -/
def Onward.O (m : Nat) (s : State) : Host.Outcome State Fault Refusal → Prop
  | .next t => Onward m s t
  | _ => True
def Onward.P {α : Type} (m : Nat) (s : State) (r : α × State) : Prop := Onward m s r.2
def Onward.L {α : Type} (m : Nat) (s : State) (r : State × α) : Prop := Onward m s r.1
def Onward.T {α β : Type} (m : Nat) (s : State) (r : α × β × State) : Prop := Onward m s r.2.2
def Onward.M (m : Nat) (s : State) : Option State → Prop
  | some t => Onward m s t
  | none => True
def Onward.MP {α : Type} (m : Nat) (s : State) : Option (α × State) → Prop
  | some r => Onward m s r.2
  | none => True

/-- An update of fields that the relation does not name, and of tables and sets in their canonical forms. -/
theorem Onward.frame {m g : Nat} {b t : State} (hm : Covers g m) (q : t.pending = b.pending) (o : t.out = b.out)
    (f : t.free = b.free) (i : t.nextOp = b.nextOp) (ti : t.log.time = b.log.time) (r : t.mram = b.mram) (w : Wf b → Wf t)
    (k : Within g b t) : Onward m b t :=
  ⟨q, o ▸ List.prefix_refl _, Nat.le_of_eq f.symm, Nat.le_of_eq i.symm, Nat.le_of_eq ti.symm,
    Nat.le_of_eq (by rw [r]), .inr (.inl (by rw [r])), w, k.up hm⟩

theorem ite_ind {α : Type} {P : α → Prop} {c : Prop} [Decidable c] {a b : α} (h : P a) (k : P b) :
    P (if c then a else b) := by
  split
  · exact h
  · exact k

theorem Onward.next {m : Nat} {s t : State} (h : Onward m s t) : Onward.O m s (.next t) := h
theorem Onward.pair {m : Nat} {α : Type} {s t : State} {a : α} (h : Onward m s t) : Onward.P m s (a, t) := h
theorem Onward.pairL {m : Nat} {α : Type} {s t : State} {a : α} (h : Onward m s t) : Onward.L m s (t, a) := h
theorem Onward.triple {m : Nat} {α β : Type} {s t : State} {a : α} {b : β} (h : Onward m s t) : Onward.T m s (a, b, t) := h
theorem Onward.tripleP {m : Nat} {α β : Type} {s : State} {a : α} {r : β × State} (h : Onward.P m s r) : Onward.T m s (a, r) := h
theorem Onward.just {m : Nat} {s t : State} (h : Onward m s t) : Onward.M m s (some t) := h
theorem Onward.justP {m : Nat} {α : Type} {s : State} {r : α × State} (h : Onward.P m s r) : Onward.MP m s (some r) := h
theorem Onward.snd {m : Nat} {α : Type} {s : State} {r : α × State} (h : Onward.P m s r) : Onward m s r.2 := h
theorem Onward.fst {m : Nat} {α : Type} {s : State} {r : State × α} (h : Onward.L m s r) : Onward m s r.1 := h
theorem Onward.sndT {m : Nat} {α β : Type} {s : State} {r : α × β × State} (h : Onward.T m s r) : Onward.P m s r.2 := h

theorem Onward.getD {m : Nat} {s t : State} {o : Option State} (h : Onward.M m s o) (k : Onward m s t) : Onward m s (o.getD t) := by
  cases o with
  | none => exact k
  | some u => exact h
theorem Onward.eqS {m : Nat} {s r t : State} (e : r = t) (h : Onward m s r) : Onward m s t := e ▸ h
theorem Onward.eqP {m : Nat} {α : Type} {s t : State} {r : α × State} {a : α} (e : r = (a, t)) (h : Onward.P m s r) : Onward m s t := by
  subst e; exact h
theorem Onward.eqL {m : Nat} {α : Type} {s t : State} {r : State × α} {a : α} (e : r = (t, a)) (h : Onward.L m s r) : Onward m s t := by
  subst e; exact h
theorem Onward.eqT {m : Nat} {α β : Type} {s t : State} {r : α × β × State} {a : α} {b : β} (e : r = (a, b, t)) (h : Onward.T m s r) :
    Onward m s t := by
  subst e; exact h
theorem Onward.eqM {m : Nat} {s t : State} {r : Option State} (e : r = some t) (h : Onward.M m s r) : Onward m s t := by
  subst e; exact h
theorem Onward.eqMP {m : Nat} {α : Type} {s t : State} {r : Option (α × State)} {a : α} (e : r = some (a, t)) (h : Onward.MP m s r) :
    Onward m s t := by
  subst e; exact h
theorem Onward.eqMP' {m : Nat} {α : Type} {s : State} {r : Option (α × State)} {a : α × State} (e : r = some a) (h : Onward.MP m s r) :
    Onward.P m s a := by
  subst e; exact h
theorem Onward.eqO {m : Nat} {s t : State} {r : Host.Outcome State Fault Refusal} (e : r = .next t) (h : Onward.O m s r) :
    Onward m s t := by
  subst e; exact h

theorem foldl_ind {α β : Type} {P : β → Prop} {f : β → α → β} (hs : ∀ b a, P b → P (f b a)) :
    ∀ (l : List α) (b : β), P b → P (l.foldl f b)
  | [], _, h => h
  | a :: l, b, h => foldl_ind hs l (f b a) (hs b a h)

theorem eachUpTo_ind {σ : Type} {P : σ → Prop} {f : σ → Nat → σ} (n : Nat) (b : σ) (h : P b)
    (hs : ∀ b a, P b → P (f b a)) : P (eachUpTo n f b) := foldl_ind hs _ _ h

end Sys2Proof.Machine
end

