-- ==== Sys2Proof/Laws/OnOps.lean ====
section
/-! SUPPORT. Laws/OnOps.lean: what the named operations, the recorder and memory keep. -/
set_option maxRecDepth 4000
namespace Sys2Proof.Machine

theorem State.setReg_on {m : Nat} (hm : Covers 0x8 m) {s0 : State} (s : State) (a2) (a3) (h : Onward m s0 s) :
    Onward m s0 (State.setReg s a2 a3) := by
  unfold State.setReg
  exact Onward.trans h (Onward.frame hm rfl rfl rfl rfl rfl rfl (fun w => ⟨w.1, w.2, Tab.wf_put _ _ _ _ w.3, w.4, w.5, w.6, w.7, w.8, w.9, w.10, w.11, w.12, w.13, w.14, w.15, w.16, w.17, w.18, w.19, w.20, w.21, w.22, w.23, w.24⟩)
    (fun p e => by cases p <;> first | exact absurd e (by decide) | rfl))

theorem State.setStg_on {m : Nat} (hm : Covers 0x10 m) {s0 : State} (s : State) (a2) (a3) (h : Onward m s0 s) :
    Onward m s0 (State.setStg s a2 a3) := by
  unfold State.setStg
  exact Onward.trans h (Onward.frame hm rfl rfl rfl rfl rfl rfl (fun w => ⟨w.1, w.2, w.3, Tab.wf_put _ _ _ _ w.4, w.5, w.6, w.7, w.8, w.9, w.10, w.11, w.12, w.13, w.14, w.15, w.16, w.17, w.18, w.19, w.20, w.21, w.22, w.23, w.24⟩)
    (fun p e => by cases p <;> first | exact absurd e (by decide) | rfl))

theorem State.wr_on {m : Nat} (hm : Covers 0x8 m) {s0 : State} (s : State) (a2) (a3) (h : Onward m s0 s) :
    Onward m s0 (State.wr s a2 a3) := by
  unfold State.wr
  exact State.setReg_on (hm.of rfl) _ _ _ h

theorem State.wrSome_on {m : Nat} (hm : Covers 0x8 m) {s0 : State} (s : State) (a2) (a3) (h : Onward m s0 s) :
    Onward m s0 (State.wrSome s a2 a3) := by
  unfold State.wrSome
  split
  · exact State.wr_on (hm.of rfl) _ _ _ h
  · exact h

theorem State.wrS_on {m : Nat} (hm : Covers 0x10 m) {s0 : State} (s : State) (a2) (a3) (h : Onward m s0 s) :
    Onward m s0 (State.wrS s a2 a3) := by
  unfold State.wrS
  exact State.setStg_on (hm.of rfl) _ _ _ h

theorem State.sat_on {m : Nat} (hm : Covers 0x8 m) {s0 : State} (s : State) (a2) (a3) (h : Onward m s0 s) :
    Onward m s0 (State.sat s a2 a3) := by
  unfold State.sat
  exact State.wr_on (hm.of rfl) _ _ _ h

theorem State.inc_on {m : Nat} (hm : Covers 0x8 m) {s0 : State} (s : State) (a2) (a3) (h : Onward m s0 s) :
    Onward m s0 (State.inc s a2 a3) := by
  unfold State.inc
  exact State.wr_on (hm.of rfl) _ _ _ h

theorem State.wrBit_on {m : Nat} (hm : Covers 0x8 m) {s0 : State} (s : State) (a2) (a3) (a4) (h : Onward m s0 s) :
    Onward m s0 (State.wrBit s a2 a3 a4) := by
  unfold State.wrBit
  exact State.wr_on (hm.of rfl) _ _ _ h

theorem State.emit_on {m : Nat} (hm : Covers 0x2 m) {s0 : State} (s : State) (o) (h : Onward m s0 s) : Onward m s0 (s.emit o) :=
  h.trans ⟨rfl, List.prefix_append _ _, Nat.le_refl _, Nat.le_refl _, Nat.le_refl _, Nat.le_refl _, .inr (.inl rfl), fun w => ⟨w.1, w.2, w.3, w.4, w.5, w.6, w.7, w.8, w.9, w.10, w.11, w.12, w.13, w.14, w.15, w.16, w.17, w.18, w.19, w.20, w.21, w.22, w.23, w.24⟩,
    Within.up hm (fun p e => by cases p <;> first | exact absurd e (by decide) | rfl)⟩

theorem State.irq_on {m : Nat} (hm : Covers 0x1000000 m) {s0 : State} (s : State) (a2) (h : Onward m s0 s) :
    Onward m s0 (State.irq s a2) := by
  unfold State.irq
  exact Onward.trans h (Onward.frame hm rfl rfl rfl rfl rfl rfl (fun w => ⟨w.1, w.2, w.3, w.4, w.5, w.6, w.7, w.8, w.9, w.10, w.11, w.12, w.13, w.14, w.15, w.16, w.17, w.18, w.19, Nats.wf_ins _ _ w.20, w.21, w.22, w.23, w.24⟩)
    (fun p e => by cases p <;> first | exact absurd e (by decide) | rfl))

theorem State.taken_on {m : Nat} (hm : Covers 0x4 m) {s0 : State} (s : State) (h : Onward m s0 s) : Onward m s0 s.taken :=
  h.trans ⟨rfl, List.prefix_refl _, Nat.le_succ _, Nat.le_refl _, Nat.le_refl _, Nat.le_refl _, .inr (.inl rfl), fun w => ⟨w.1, w.2, w.3, w.4, w.5, w.6, w.7, w.8, w.9, w.10, w.11, w.12, w.13, w.14, w.15, w.16, w.17, w.18, w.19, w.20, w.21, w.22, w.23, w.24⟩,
    Within.up hm (fun p e => by cases p <;> first | exact absurd e (by decide) | rfl)⟩

theorem State.ungate_on {m : Nat} (hm : Covers 0x40000000 m) {s0 : State} (s : State) (a2) (h : Onward m s0 s) :
    Onward m s0 (State.ungate s a2) := by
  unfold State.ungate
  exact Onward.trans h (Onward.frame hm rfl rfl rfl rfl rfl rfl (fun w => ⟨w.1, w.2, w.3, w.4, w.5, w.6, w.7, w.8, w.9, w.10, w.11, w.12, w.13, w.14, w.15, w.16, w.17, w.18, w.19, w.20, w.21, w.22, w.23, Nats.wf_del _ _ w.24⟩)
    (fun p e => by cases p <;> first | exact absurd e (by decide) | rfl))

theorem State.setStrand_on {m : Nat} (hm : Covers 0x2000 m) {s0 : State} (s : State) (a2) (a3) (a4) (h : Onward m s0 s) :
    Onward m s0 (State.setStrand s a2 a3 a4) := by
  unfold State.setStrand
  exact Onward.trans h (Onward.frame hm rfl rfl rfl rfl rfl rfl (fun w => ⟨w.1, w.2, w.3, w.4, w.5, w.6, w.7, w.8, Tab.wf_put _ _ _ _ w.9, w.10, w.11, w.12, w.13, w.14, w.15, w.16, w.17, w.18, w.19, w.20, w.21, w.22, w.23, w.24⟩)
    (fun p e => by cases p <;> first | exact absurd e (by decide) | rfl))

theorem State.setDrv_on {m : Nat} (hm : Covers 0x4000 m) {s0 : State} (s : State) (a2) (a3) (h : Onward m s0 s) :
    Onward m s0 (State.setDrv s a2 a3) := by
  unfold State.setDrv
  exact Onward.trans h (Onward.frame hm rfl rfl rfl rfl rfl rfl (fun w => ⟨w.1, w.2, w.3, w.4, w.5, w.6, w.7, w.8, w.9, Tab.wf_put _ _ _ _ w.10, w.11, w.12, w.13, w.14, w.15, w.16, w.17, w.18, w.19, w.20, w.21, w.22, w.23, w.24⟩)
    (fun p e => by cases p <;> first | exact absurd e (by decide) | rfl))

theorem State.setOp_on {m : Nat} (hm : Covers 0x8000 m) {s0 : State} (s : State) (a2) (h : Onward m s0 s) :
    Onward m s0 (State.setOp s a2) := by
  unfold State.setOp
  exact Onward.trans h (Onward.frame hm rfl rfl rfl rfl rfl rfl (fun w => ⟨w.1, w.2, w.3, w.4, w.5, w.6, w.7, w.8, w.9, w.10, w.11, w.12, w.13, w.14, w.15, w.16, w.17, w.18, w.19, w.20, w.21, w.22, w.23, w.24⟩)
    (fun p e => by cases p <;> first | exact absurd e (by decide) | rfl))

theorem State.dropOp_on {m : Nat} (hm : Covers 0x8000 m) {s0 : State} (s : State) (a2) (h : Onward m s0 s) :
    Onward m s0 (State.dropOp s a2) := by
  unfold State.dropOp
  exact Onward.trans h (Onward.frame hm rfl rfl rfl rfl rfl rfl (fun w => ⟨w.1, w.2, w.3, w.4, w.5, w.6, w.7, w.8, w.9, w.10, w.11, w.12, w.13, w.14, w.15, w.16, w.17, w.18, w.19, w.20, w.21, w.22, w.23, w.24⟩)
    (fun p e => by cases p <;> first | exact absurd e (by decide) | rfl))

theorem State.addOp_on {m : Nat} (hm : Covers 0x18000 m) {s0 : State} (s : State) (o) (h : Onward m s0 s) : Onward m s0 (s.addOp o) :=
  h.trans ⟨rfl, List.prefix_refl _, Nat.le_refl _, Nat.le_succ _, Nat.le_refl _, Nat.le_refl _, .inr (.inl rfl), fun w => ⟨w.1, w.2, w.3, w.4, w.5, w.6, w.7, w.8, w.9, w.10, w.11, w.12, w.13, w.14, w.15, w.16, w.17, w.18, w.19, w.20, w.21, w.22, w.23, w.24⟩,
    Within.up hm (fun p e => by cases p <;> first | exact absurd e (by decide) | rfl)⟩

theorem State.setLog_on {m : Nat} (hm : Covers 0x400000 m) {s0 : State} (s : State) (l) (h : Onward m s0 s) (hle : s.log.time ≤ l.time) : Onward m s0 (s.setLog l) :=
  h.trans ⟨rfl, List.prefix_refl _, Nat.le_refl _, Nat.le_refl _, hle, Nat.le_refl _, .inr (.inl rfl), fun w => ⟨w.1, w.2, w.3, w.4, w.5, w.6, w.7, w.8, w.9, w.10, w.11, w.12, w.13, w.14, w.15, w.16, w.17, w.18, w.19, w.20, w.21, w.22, w.23, w.24⟩,
    Within.up hm (fun p e => by cases p <;> first | exact absurd e (by decide) | rfl)⟩

theorem State.setBuffer_on {m : Nat} (hm : Covers 0x400000 m) {s0 : State} (s : State) (a2) (h : Onward m s0 s) :
    Onward m s0 (State.setBuffer s a2) := by
  unfold State.setBuffer
  exact State.setLog_on (hm.of rfl) _ _ h (Nat.le_refl _)

theorem State.enterService_on {m : Nat} (hm : Covers 0x1400008 m) {s0 : State} (s : State) (a2) (a3) (h : Onward m s0 s) :
    Onward m s0 (State.enterService s a2 a3) := by
  unfold State.enterService
  extract_lets +onlyGivenNames x1 x2 x3
  have h4 : Onward m s0 x3 := by
    unfold x3
    exact Onward.trans h (Onward.frame hm rfl rfl rfl rfl rfl rfl (fun w => ⟨w.1, w.2, w.3, w.4, w.5, w.6, w.7, w.8, w.9, w.10, w.11, w.12, w.13, w.14, w.15, w.16, w.17, w.18, w.19, w.20, w.21, w.22, w.23, w.24⟩)
    (fun p e => by cases p <;> first | exact absurd e (by decide) | rfl))
  clear_value x3
  extract_lets +onlyGivenNames x5
  have h6 : Onward m s0 x5 := by
    unfold x5
    refine eachUpTo_ind (P := Onward _ _) _ _ ?_ ?_
    · exact h4
    · intro x7 x8 h9
      exact State.wr_on (hm.of rfl) _ _ _ h9
  clear_value x5
  exact State.irq_on (hm.of rfl) _ _ (State.wr_on (hm.of rfl) _ _ _ (State.wr_on (hm.of rfl) _ _ _ h6))

theorem State.enqueue_on {m : Nat} (hm : Covers 0x400008 m) {s0 : State} (s : State) (a2) (a3) (h : Onward m s0 s) :
    Onward m s0 (State.enqueue s a2 a3) := by
  unfold State.enqueue
  extract_lets +onlyGivenNames x1 x2
  refine ite_ind (P := Onward _ _) ?_ ?_
  · exact Onward.trans h (Onward.frame hm rfl rfl rfl rfl rfl rfl (fun w => ⟨w.1, w.2, w.3, w.4, w.5, w.6, w.7, w.8, w.9, w.10, w.11, w.12, w.13, w.14, w.15, w.16, w.17, w.18, w.19, w.20, w.21, w.22, w.23, w.24⟩)
    (fun p e => by cases p <;> first | exact absurd e (by decide) | rfl))
  · extract_lets +onlyGivenNames x3 x4
    have h5 : Onward m s0 x4 := by
      unfold x4
      exact Onward.trans h (Onward.frame hm rfl rfl rfl rfl rfl rfl (fun w => ⟨w.1, w.2, w.3, w.4, w.5, w.6, w.7, w.8, w.9, w.10, w.11, w.12, w.13, w.14, w.15, w.16, w.17, w.18, w.19, w.20, w.21, w.22, w.23, w.24⟩)
    (fun p e => by cases p <;> first | exact absurd e (by decide) | rfl))
    clear_value x4
    exact State.sat_on (hm.of rfl) _ _ _ h5

theorem State.notifyRec_on {m : Nat} (hm : Covers 0x140000a m) {s0 : State} (s : State) (a2) (a3) (h : Onward m s0 s) :
    Onward m s0 (State.notifyRec s a2 a3) := by
  unfold State.notifyRec
  extract_lets +onlyGivenNames x1
  have h2 : Onward m s0 x1 := by
    unfold x1
    refine foldl_ind (P := Onward _ _) ?_ _ _ ?_
    · intro x3 x4 h5
      exact State.emit_on (hm.of rfl) _ _ h5
    · exact h
  clear_value x1
  split
  · exact State.enterService_on (hm.of rfl) _ _ _ h2
  · refine ite_ind (P := Onward _ _) ?_ ?_
    · exact State.enterService_on (hm.of rfl) _ _ _ (State.enqueue_on (hm.of rfl) _ _ _ h2)
    · exact State.enqueue_on (hm.of rfl) _ _ _ h2

theorem State.createRec_on {m : Nat} (hm : Covers 0x140000a m) {s0 : State} (s : State) (a2) (a3) (a4) (a5) (a6) (a7) (a8) (h : Onward m s0 s) :
    Onward m s0 (State.createRec s a2 a3 a4 a5 a6 a7 a8) := by
  unfold State.createRec
  extract_lets +onlyGivenNames x1 x2
  refine ite_ind (P := Onward _ _) ?_ ?_
  · exact State.notifyRec_on (hm.of rfl) _ _ _ (State.inc_on (hm.of rfl) _ _ _ (State.setBuffer_on (hm.of rfl) _ _ h))
  · refine ite_ind (P := Onward _ _) ?_ ?_
    · exact State.notifyRec_on (hm.of rfl) _ _ _ (State.sat_on (hm.of rfl) _ _ _ (State.inc_on (hm.of rfl) _ _ _ (State.setBuffer_on (hm.of rfl) _ _ h)))
    · exact State.sat_on (hm.of rfl) _ _ _ (State.setLog_on (hm.of rfl) _ _ h (Nat.le_refl _))

theorem State.recordSev_on {m : Nat} (hm : Covers 0x140000a m) {s0 : State} (s : State) (a2) (a3) (a4) (a5) (a6) (a7) (a8) (h : Onward m s0 s) :
    Onward m s0 (State.recordSev s a2 a3 a4 a5 a6 a7 a8) := by
  unfold State.recordSev
  extract_lets +onlyGivenNames x1 x2
  refine ite_ind (P := Onward _ _) ?_ ?_
  · exact h
  · refine ite_ind (P := Onward _ _) ?_ ?_
    · exact State.setBuffer_on (hm.of rfl) _ _ h
    · refine ite_ind (P := Onward _ _) ?_ ?_
      · exact State.createRec_on (hm.of rfl) _ _ _ _ _ _ _ _ h
      · extract_lets +onlyGivenNames x3 x4
        refine ite_ind (P := Onward _ _) ?_ ?_
        · exact State.createRec_on (hm.of rfl) _ _ _ _ _ _ _ _ h
        · refine ite_ind (P := Onward _ _) ?_ ?_
          · extract_lets +onlyGivenNames x5
            exact State.setLog_on (hm.of rfl) _ _ h (Nat.le_refl _)
          · exact State.createRec_on (hm.of rfl) _ _ _ _ _ _ _ _ (State.setLog_on (hm.of rfl) _ _ h (Nat.le_refl _))

theorem State.record_on {m : Nat} (hm : Covers 0x140000a m) {s0 : State} (s : State) (a2) (a3) (a4) (a5) (a6) (h : Onward m s0 s) :
    Onward m s0 (State.record s a2 a3 a4 a5 a6) := by
  unfold State.record
  exact State.recordSev_on (hm.of rfl) _ _ _ _ _ _ _ _ h

theorem State.writeLog_on {m : Nat} (hm : Covers 0x140000a m) {s0 : State} (s : State) (a2) (h : Onward m s0 s) :
    Onward m s0 (State.writeLog s a2) := by
  unfold State.writeLog
  extract_lets +onlyGivenNames x1 x2
  have h3 : Onward m s0 x2 := by
    unfold x2
    exact Onward.trans h (Onward.frame hm rfl rfl rfl rfl rfl rfl (fun w => ⟨w.1, w.2, w.3, w.4, w.5, w.6, w.7, w.8, w.9, w.10, w.11, w.12, w.13, w.14, w.15, w.16, w.17, w.18, w.19, w.20, w.21, w.22, w.23, w.24⟩)
    (fun p e => by cases p <;> first | exact absurd e (by decide) | rfl))
  refine ite_ind (P := Onward _ _) ?_ ?_
  · extract_lets +onlyGivenNames x4 x5
    exact State.notifyRec_on (hm.of rfl) _ _ _ (State.wr_on (hm.of rfl) _ _ _ (State.inc_on (hm.of rfl) _ _ _ (Onward.trans h3 (Onward.frame hm rfl rfl rfl rfl rfl rfl (fun w => ⟨w.1, w.2, w.3, w.4, w.5, w.6, w.7, w.8, w.9, w.10, w.11, w.12, w.13, w.14, w.15, w.16, w.17, w.18, w.19, w.20, w.21, w.22, w.23, w.24⟩)
    (fun p e => by cases p <;> first | exact absurd e (by decide) | rfl)))))
  · exact h3

theorem State.flushRecs_on {m : Nat} (hm : Covers 0x140000a m) {s0 : State} (s : State) (h : Onward m s0 s) :
    Onward m s0 (State.flushRecs s) := by
  unfold State.flushRecs
  extract_lets +onlyGivenNames x1 x2
  have h3 : Onward m s0 x2 := by
    unfold x2
    refine eachUpTo_ind (P := Onward _ _) _ _ ?_ ?_
    · exact h
    · intro x4 x5 h6
      split
      · exact h6
      · refine ite_ind (P := Onward _ _) ?_ ?_
        · exact h6
        · exact State.writeLog_on (hm.of rfl) _ _ (Onward.trans h6 (Onward.frame hm rfl rfl rfl rfl rfl rfl (fun w => ⟨w.1, w.2, w.3, w.4, w.5, w.6, w.7, w.8, w.9, w.10, w.11, w.12, w.13, w.14, w.15, w.16, w.17, w.18, w.19, w.20, w.21, w.22, w.23, w.24⟩)
    (fun p e => by cases p <;> first | exact absurd e (by decide) | rfl)))
  clear_value x2
  refine ite_ind (P := Onward _ _) ?_ ?_
  · extract_lets +onlyGivenNames x13
    exact State.createRec_on (hm.of rfl) _ _ _ _ _ _ _ _ (Onward.trans h3 (Onward.frame hm rfl rfl rfl rfl rfl rfl (fun w => ⟨w.1, w.2, w.3, w.4, w.5, w.6, w.7, w.8, w.9, w.10, w.11, w.12, w.13, w.14, w.15, w.16, w.17, w.18, w.19, w.20, w.21, w.22, w.23, w.24⟩)
    (fun p e => by cases p <;> first | exact absurd e (by decide) | rfl)))
  · exact h3

theorem State.clearLog_on {m : Nat} (hm : Covers 0x140000a m) {s0 : State} (s : State) (h : Onward m s0 s) :
    Onward m s0 (State.clearLog s) := by
  unfold State.clearLog
  extract_lets +onlyGivenNames x1 x2
  have h3 : Onward m s0 x2 := by
    unfold x2
    exact State.wr_on (hm.of rfl) _ _ _ h
  clear_value x2
  extract_lets +onlyGivenNames x4
  have h5 : Onward m s0 x4 := by
    unfold x4
    exact State.wr_on (hm.of rfl) _ _ _ (State.wr_on (hm.of rfl) _ _ _ h3)
  clear_value x4
  extract_lets +onlyGivenNames x6 x7
  exact State.notifyRec_on (hm.of rfl) _ _ _ (State.inc_on (hm.of rfl) _ _ _ (Onward.trans h5 (Onward.frame hm rfl rfl rfl rfl rfl rfl (fun w => ⟨w.1, w.2, w.3, w.4, w.5, w.6, w.7, w.8, w.9, w.10, w.11, w.12, w.13, w.14, w.15, w.16, w.17, w.18, w.19, w.20, w.21, w.22, w.23, w.24⟩)
    (fun p e => by cases p <;> first | exact absurd e (by decide) | rfl))))

theorem State.closeAll_on {m : Nat} (hm : Covers 0x400000 m) {s0 : State} (s : State) (h : Onward m s0 s) :
    Onward m s0 (State.closeAll s) := by
  unfold State.closeAll
  exact State.setBuffer_on (hm.of rfl) _ _ h

theorem State.flushPf_on {m : Nat} (hm : Covers 0x140000a m) {s0 : State} (s : State) (h : Onward m s0 s) :
    Onward m s0 (State.flushPf s) := by
  unfold State.flushPf
  extract_lets +onlyGivenNames x1
  exact State.flushRecs_on (hm.of rfl) _ (State.setLog_on (hm.of rfl) _ _ h (Nat.le_refl _))

theorem State.setRateCfg_on {m : Nat} (hm : Covers 0x400000 m) {s0 : State} (s : State) (a2) (h : Onward m s0 s) :
    Onward m s0 (State.setRateCfg s a2) := by
  unfold State.setRateCfg
  extract_lets +onlyGivenNames x1
  refine ite_ind (P := Onward _ _) ?_ ?_
  · extract_lets +onlyGivenNames x2 x3
    exact State.setLog_on (hm.of rfl) _ _ h (Nat.le_refl _)
  · exact h

theorem execRecordClose_on {m : Nat} (hm : Covers 0x140000a m) {s0 : State} (a1) (s : State) (h : Onward m s0 s) :
    Onward.O m s0 (execRecordClose a1 s) := by
  unfold execRecordClose
  exact State.flushRecs_on (hm.of rfl) _ (State.setBuffer_on (hm.of rfl) _ _ h)

theorem execBucketRefill_on {m : Nat} (hm : Covers 0x140000a m) {s0 : State} (a1) (s : State) (h : Onward m s0 s) :
    Onward.O m s0 (execBucketRefill a1 s) := by
  unfold execBucketRefill
  extract_lets +onlyGivenNames x1 x2 x3 x4
  refine ite_ind (P := Onward.O _ _) ?_ ?_
  · exact h
  · refine ite_ind (P := Onward.O _ _) ?_ ?_
    · exact State.createRec_on (hm.of rfl) _ _ _ _ _ _ _ _ (State.setLog_on (hm.of rfl) _ _ h (Nat.le_refl _))
    · exact State.setLog_on (hm.of rfl) _ _ h (Nat.le_refl _)

theorem State.endService_on {m : Nat} (hm : Covers 0x140000a m) {s0 : State} (s : State) (a2) (h : Onward m s0 s) :
    Onward m s0 (State.endService s a2) := by
  unfold State.endService
  extract_lets +onlyGivenNames x1 x2
  have h3 : Onward m s0 x2 := by
    unfold x2
    split
    · exact State.wr_on (hm.of rfl) _ _ _ (State.wr_on (hm.of rfl) _ _ _ (State.setLog_on (hm.of rfl) _ _ h (Nat.le_refl _)))
    · exact State.enterService_on (hm.of rfl) _ _ _ (State.setLog_on (hm.of rfl) _ _ h (Nat.le_refl _))
  extract_lets +onlyGivenNames x10 x11
  refine ite_ind (P := Onward _ _) ?_ ?_
  · extract_lets +onlyGivenNames x12 x13
    exact State.createRec_on (hm.of rfl) _ _ _ _ _ _ _ _ (State.setLog_on (hm.of rfl) _ _ h3 (Nat.le_refl _))
  · exact h3

theorem execErrAck_on {m : Nat} (hm : Covers 0x140000a m) {s0 : State} (a1) (a2) (s : State) (h : Onward m s0 s) :
    Onward.O m s0 (execErrAck a1 a2 s) := by
  unfold execErrAck
  refine ite_ind (P := Onward.O _ _) ?_ ?_
  · exact h
  · split
    · refine ite_ind (P := Onward.O _ _) ?_ ?_
      · exact State.endService_on (hm.of rfl) _ _ h
      · exact State.wr_on (hm.of rfl) _ _ _ h
    · exact State.wr_on (hm.of rfl) _ _ _ h

theorem execLogFwWrite_on {m : Nat} (hm : Covers 0x140000a m) {s0 : State} (a1) (s : State) (h : Onward m s0 s) :
    Onward.O m s0 (execLogFwWrite a1 s) := by
  unfold execLogFwWrite
  extract_lets +onlyGivenNames x1 x2 x3 x4
  have h5 : Onward m s0 x4 := by
    unfold x4
    exact State.wr_on (hm.of rfl) _ _ _ (State.wr_on (hm.of rfl) _ _ _ (State.wr_on (hm.of rfl) _ _ _ h))
  clear_value x4
  refine ite_ind (P := Onward.O _ _) ?_ ?_
  · exact h
  · refine ite_ind (P := Onward.O _ _) ?_ ?_
    · exact h5
    · refine ite_ind (P := Onward.O _ _) ?_ ?_
      · exact State.wr_on (hm.of rfl) _ _ _ h
      · extract_lets +onlyGivenNames x6
        have h7 : Onward m s0 x6 := by
          unfold x6
          exact State.recordSev_on (hm.of rfl) _ _ _ _ _ _ _ _ h5
        clear_value x6
        exact State.wr_on (hm.of rfl) _ _ _ h7

theorem State.setStack_on {m : Nat} (hm : Covers 0x80000 m) {s0 : State} (s : State) (a2) (a3) (h : Onward m s0 s) :
    Onward m s0 (State.setStack s a2 a3) := by
  unfold State.setStack
  exact Onward.trans h (Onward.frame hm rfl rfl rfl rfl rfl rfl (fun w => ⟨w.1, w.2, w.3, w.4, w.5, w.6, w.7, w.8, w.9, w.10, w.11, Tab.wf_put _ _ _ _ w.12, w.13, w.14, w.15, w.16, w.17, w.18, w.19, w.20, w.21, w.22, w.23, w.24⟩)
    (fun p e => by cases p <;> first | exact absurd e (by decide) | rfl))

theorem State.setChan_on {m : Nat} (hm : Covers 0x40000 m) {s0 : State} (s : State) (a2) (a3) (a4) (h : Onward m s0 s) :
    Onward m s0 (State.setChan s a2 a3 a4) := by
  unfold State.setChan
  exact Onward.trans h (Onward.frame hm rfl rfl rfl rfl rfl rfl (fun w => ⟨w.1, w.2, w.3, w.4, w.5, w.6, w.7, w.8, w.9, w.10, Tab.wf_put _ _ _ _ w.11, w.12, w.13, w.14, w.15, w.16, w.17, w.18, w.19, w.20, w.21, w.22, w.23, w.24⟩)
    (fun p e => by cases p <;> first | exact absurd e (by decide) | rfl))

theorem State.dramWrite_on {m : Nat} (hm : Covers 0x880060 m) {s0 : State} (s : State) (a2) (a3) (a4) (h : Onward m s0 s) :
    Onward m s0 (State.dramWrite s a2 a3 a4) := by
  unfold State.dramWrite
  split
  · exact h
  · extract_lets +onlyGivenNames x6 x7
    have h8 : Onward m s0 x7 := by
      unfold x7
      exact Onward.trans h (Onward.frame hm rfl rfl rfl rfl rfl rfl (fun w => ⟨Memory.wf_write _ _ _ w.1, w.2, w.3, w.4, w.5, w.6, w.7, w.8, w.9, w.10, w.11, w.12, w.13, w.14, w.15, w.16, Nats.wf_set _ _ _ w.17, w.18, Nats.wf_del _ _ w.19, w.20, w.21, w.22, w.23, w.24⟩)
    (fun p e => by cases p <;> first | exact absurd e (by decide) | rfl))
    clear_value x7
    refine ite_ind (P := Onward _ _) ?_ ?_
    · exact State.setStack_on (hm.of rfl) _ _ _ h8
    · exact h8

theorem State.dramPatch_on {m : Nat} (hm : Covers 0x880060 m) {s0 : State} (s : State) (a2) (a3) (a4) (h : Onward m s0 s) :
    Onward m s0 (State.dramPatch s a2 a3 a4) := by
  unfold State.dramPatch
  extract_lets +onlyGivenNames x1
  refine ite_ind (P := Onward _ _) ?_ ?_
  · exact State.dramWrite_on (hm.of rfl) _ _ _ _ h
  · exact State.dramWrite_on (hm.of rfl) _ _ _ _ h

theorem State.settleRows_on {m : Nat} (hm : Covers 0x40000 m) {s0 : State} (s : State) (a2) (a3) (h : Onward m s0 s) :
    Onward m s0 (State.settleRows s a2 a3) := by
  unfold State.settleRows
  extract_lets +onlyGivenNames x1 x2 x3
  exact State.setChan_on (hm.of rfl) _ _ _ _ h

theorem State.drainWrites_on {m : Nat} (hm : Covers 0x40000 m) {s0 : State} (s : State) (a2) (a3) (h : Onward m s0 s) :
    Onward m s0 (State.drainWrites s a2 a3) := by
  unfold State.drainWrites
  extract_lets +onlyGivenNames x1 x2
  refine ite_ind (P := Onward _ _) ?_ ?_
  · exact h
  · extract_lets +onlyGivenNames x3 x4
    exact State.settleRows_on (hm.of rfl) _ _ _ (State.setChan_on (hm.of rfl) _ _ _ _ h)

theorem State.queueWrites_on {m : Nat} (hm : Covers 0x40000 m) {s0 : State} (s : State) (a2) (a3) (h : Onward m s0 s) :
    Onward m s0 (State.queueWrites s a2 a3) := by
  unfold State.queueWrites
  extract_lets +onlyGivenNames x1
  split
  · exact h
  · extract_lets +onlyGivenNames x7
    exact State.drainWrites_on (hm.of rfl) _ _ _ (State.setChan_on (hm.of rfl) _ _ _ _ h)

theorem State.mgmtWrite_on {m : Nat} (hm : Covers 0x20 m) {s0 : State} (s : State) (a2) (a3) (h : Onward m s0 s) :
    Onward m s0 (State.mgmtWrite s a2 a3) := by
  unfold State.mgmtWrite
  exact Onward.trans h (Onward.frame hm rfl rfl rfl rfl rfl rfl (fun w => ⟨Memory.wf_write _ _ _ w.1, w.2, w.3, w.4, w.5, w.6, w.7, w.8, w.9, w.10, w.11, w.12, w.13, w.14, w.15, w.16, w.17, w.18, w.19, w.20, w.21, w.22, w.23, w.24⟩)
    (fun p e => by cases p <;> first | exact absurd e (by decide) | rfl))

end Sys2Proof.Machine
end

