-- ==== Sys2Proof/Laws/OnFold.lean ====
section
/-! SUPPORT. Laws/OnFold.lean: what Fold, translation, atomics, the fabric sender, issue and Muster keep. -/
set_option maxRecDepth 4000
namespace Sys2Proof.Machine

theorem State.setBank_on {m : Nat} (hm : Covers 0x400 m) {s0 : State} (s : State) (a2) (a3) (h : Onward m s0 s) :
    Onward m s0 (State.setBank s a2 a3) := by
  unfold State.setBank
  exact Onward.trans h (Onward.frame hm rfl rfl rfl rfl rfl rfl (fun w => ⟨w.1, w.2, w.3, w.4, w.5, Tab.wf_put _ _ _ _ w.6, w.7, w.8, w.9, w.10, w.11, w.12, w.13, w.14, w.15, w.16, w.17, w.18, w.19, w.20, w.21, w.22, w.23, w.24⟩)
    (fun p e => by cases p <;> first | exact absurd e (by decide) | rfl))

theorem State.setPenWays_on {m : Nat} (hm : Covers 0x800 m) {s0 : State} (s : State) (a2) (a3) (h : Onward m s0 s) :
    Onward m s0 (State.setPenWays s a2 a3) := by
  unfold State.setPenWays
  exact Onward.trans h (Onward.frame hm rfl rfl rfl rfl rfl rfl (fun w => ⟨w.1, w.2, w.3, w.4, w.5, w.6, Tab.wf_put _ _ _ _ w.7, w.8, w.9, w.10, w.11, w.12, w.13, w.14, w.15, w.16, w.17, w.18, w.19, w.20, w.21, w.22, w.23, w.24⟩)
    (fun p e => by cases p <;> first | exact absurd e (by decide) | rfl))

theorem State.setLine_on {m : Nat} (hm : Covers 0x200 m) {s0 : State} (s : State) (a2) (a3) (h : Onward m s0 s) :
    Onward m s0 (State.setLine s a2 a3) := by
  unfold State.setLine
  exact Onward.trans h (Onward.frame hm rfl rfl rfl rfl rfl rfl (fun w => ⟨w.1, w.2, w.3, w.4, Tab.wf_put _ _ _ _ w.5, w.6, w.7, w.8, w.9, w.10, w.11, w.12, w.13, w.14, w.15, w.16, w.17, w.18, w.19, w.20, w.21, w.22, w.23, w.24⟩)
    (fun p e => by cases p <;> first | exact absurd e (by decide) | rfl))

theorem State.eraseLine_on {m : Nat} (hm : Covers 0x180 m) {s0 : State} (s : State) (a2) (h : Onward m s0 s) :
    Onward m s0 (State.eraseLine s a2) := by
  unfold State.eraseLine
  exact Onward.trans h (Onward.frame hm rfl rfl rfl rfl rfl rfl (fun w => ⟨w.1, by dsimp only; exact Memory.wf_keep _ _ w.2, w.3, w.4, w.5, w.6, w.7, w.8, w.9, w.10, w.11, w.12, w.13, w.14, w.15, w.16, w.17, Nats.wf_filter _ _ w.18, w.19, w.20, w.21, w.22, w.23, w.24⟩)
    (fun p e => by cases p <;> first | exact absurd e (by decide) | rfl))

theorem State.setBad_on {m : Nat} (hm : Covers 0x100 m) {s0 : State} (s : State) (a2) (a3) (h : Onward m s0 s) :
    Onward m s0 (State.setBad s a2 a3) := by
  unfold State.setBad
  exact Onward.trans h (Onward.frame hm rfl rfl rfl rfl rfl rfl (fun w => ⟨w.1, w.2, w.3, w.4, w.5, w.6, w.7, w.8, w.9, w.10, w.11, w.12, w.13, w.14, w.15, w.16, w.17, Nats.wf_set _ _ _ w.18, w.19, w.20, w.21, w.22, w.23, w.24⟩)
    (fun p e => by cases p <;> first | exact absurd e (by decide) | rfl))

theorem State.writeBack_on {m : Nat} (hm : Covers 0x1cc006a m) {s0 : State} (s : State) (a2) (a3) (h : Onward m s0 s) :
    Onward m s0 (State.writeBack s a2 a3) := by
  unfold State.writeBack
  extract_lets +onlyGivenNames x1 x2 x3 x4
  have h5 : Onward m s0 x4 := by
    unfold x4
    refine foldl_ind (P := Onward _ _) ?_ _ _ ?_
    · intro x6 x7 h8
      exact State.dramWrite_on (hm.of rfl) _ _ _ _ h8
    · exact h
  clear_value x4
  extract_lets +onlyGivenNames x9
  have h10 : Onward m s0 x9 := by
    unfold x9
    exact State.inc_on (hm.of rfl) _ _ _ (State.queueWrites_on (hm.of rfl) _ _ _ h5)
  clear_value x9
  refine ite_ind (P := Onward _ _) ?_ ?_
  · exact State.record_on (hm.of rfl) _ _ _ _ _ _ h10
  · exact h10

theorem State.discard_on {m : Nat} (hm : Covers 0x380 m) {s0 : State} (s : State) (a2) (a3) (h : Onward m s0 s) :
    Onward m s0 (State.discard s a2 a3) := by
  unfold State.discard
  exact State.setLine_on (hm.of rfl) _ _ _ (State.eraseLine_on (hm.of rfl) _ _ h)

theorem State.evict_on {m : Nat} (hm : Covers 0x1cc03ea m) {s0 : State} (s : State) (a2) (a3) (h : Onward m s0 s) :
    Onward m s0 (State.evict s a2 a3) := by
  unfold State.evict
  extract_lets +onlyGivenNames x1
  have h2 : Onward m s0 x1 := by
    unfold x1
    refine ite_ind (P := Onward _ _) ?_ ?_
    · exact State.writeBack_on (hm.of rfl) _ _ _ h
    · exact h
  clear_value x1
  exact State.setLine_on (hm.of rfl) _ _ _ (State.eraseLine_on (hm.of rfl) _ _ h2)

theorem State.chooseWay_on {m : Nat} (hm : Covers 0x200 m) {s0 : State} (s : State) (a2) (a3) (a4) (h : Onward m s0 s) :
    Onward.MP m s0 (State.chooseWay s a2 a3 a4) := by
  unfold State.chooseWay
  split
  · exact h
  · extract_lets +onlyGivenNames x6 x7
    split
    · exact trivial
    · extract_lets +onlyGivenNames x13
      have h14 : Onward m s0 x13 := by
        unfold x13
        refine foldl_ind (P := Onward _ _) ?_ _ _ ?_
        · intro x15 x16 h17
          exact State.setLine_on (hm.of rfl) _ _ _ h17
        · exact h
      clear_value x13
      exact h14

theorem State.makeRoom_on {m : Nat} (hm : Covers 0x1cc03ea m) {s0 : State} (s : State) (a2) (h : Onward m s0 s) :
    Onward.MP m s0 (State.makeRoom s a2) := by
  unfold State.makeRoom
  extract_lets +onlyGivenNames x1 x2
  split
  · exact trivial
  · rename_i v7 e8
    have h9 : Onward m s0 v7 := Onward.eqMP e8 (State.chooseWay_on (hm.of rfl) _ _ _ _ h)
    split
    · exact State.evict_on (hm.of rfl) _ _ _ h9
    · exact h9

theorem State.fillSectors_on {m : Nat} (hm : Covers 0x180 m) {s0 : State} (s : State) (a2) (a3) (h : Onward m s0 s) :
    Onward m s0 (State.fillSectors s a2 a3) := by
  unfold State.fillSectors
  refine foldl_ind (P := Onward _ _) ?_ _ _ ?_
  · intro x1 x2 h3
    extract_lets +onlyGivenNames x4 x5 x6
    have h7 : Onward m s0 x6 := by
      unfold x6
      exact Onward.trans h3 (Onward.frame hm rfl rfl rfl rfl rfl rfl (fun w => ⟨w.1, Memory.wf_write _ _ _ w.2, w.3, w.4, w.5, w.6, w.7, w.8, w.9, w.10, w.11, w.12, w.13, w.14, w.15, w.16, w.17, w.18, w.19, w.20, w.21, w.22, w.23, w.24⟩)
    (fun p e => by cases p <;> first | exact absurd e (by decide) | rfl))
    clear_value x6
    refine eachUpTo_ind (P := Onward _ _) _ _ ?_ ?_
    · exact h7
    · intro x8 x9 h10
      exact State.setBad_on (hm.of rfl) _ _ _ h10
  · exact h

theorem State.foldCount_on {m : Nat} (hm : Covers 0x8 m) {s0 : State} (s : State) (a2) (a3) (h : Onward m s0 s) :
    Onward m s0 (State.foldCount s a2 a3) := by
  unfold State.foldCount
  exact State.inc_on (hm.of rfl) _ _ _ h

theorem State.hitLine_on {m : Nat} (hm : Covers 0x608 m) {s0 : State} (s : State) (a2) (a3) (a4) (h : Onward m s0 s) :
    Onward m s0 (State.hitLine s a2 a3 a4) := by
  unfold State.hitLine
  extract_lets +onlyGivenNames x1 x2 x3
  have h4 : Onward m s0 x3 := by
    unfold x3
    exact State.foldCount_on (hm.of rfl) _ _ _ h
  clear_value x3
  extract_lets +onlyGivenNames x5 x6
  have h7 : Onward m s0 x6 := by
    unfold x6
    refine ite_ind (P := Onward _ _) ?_ ?_
    · exact State.foldCount_on (hm.of rfl) _ _ _ h4
    · exact State.setBank_on (hm.of rfl) _ _ _ h4
  clear_value x6
  refine ite_ind (P := Onward _ _) ?_ ?_
  · exact h7
  · exact State.setLine_on (hm.of rfl) _ _ _ h7

theorem State.hitBy_on {m : Nat} (hm : Covers 0x608 m) {s0 : State} (s : State) (a2) (a3) (a4) (a5) (h : Onward m s0 s) :
    Onward m s0 (State.hitBy s a2 a3 a4 a5) := by
  unfold State.hitBy
  refine ite_ind (P := Onward _ _) ?_ ?_
  · exact State.hitLine_on (hm.of rfl) _ _ _ _ h
  · exact State.foldCount_on (hm.of rfl) _ _ _ h

theorem State.ensure_on {m : Nat} (hm : Covers 0x1cc07ea m) {s0 : State} (s : State) (a2) (a3) (a4) (a5) (a6) (a7) (h : Onward m s0 s) :
    Onward m s0 (State.ensure s a2 a3 a4 a5 a6 a7) := by
  unfold State.ensure
  split
  · refine ite_ind (P := Onward _ _) ?_ ?_
    · exact State.foldCount_on (hm.of rfl) _ _ _ h
    · refine ite_ind (P := Onward _ _) ?_ ?_
      · exact State.hitBy_on (hm.of rfl) _ _ _ _ _ h
      · extract_lets +onlyGivenNames x4
        exact State.setLine_on (hm.of rfl) _ _ _ (State.fillSectors_on (hm.of rfl) _ _ _ (State.emit_on (hm.of rfl) _ _ (State.foldCount_on (hm.of rfl) _ _ _ h)))
  · extract_lets +onlyGivenNames x7 x8
    have h9 : Onward m s0 x8 := by
      unfold x8
      exact State.emit_on (hm.of rfl) _ _ (State.foldCount_on (hm.of rfl) _ _ _ h)
    clear_value x8
    split
    · exact h9
    · rename_i v14 e15
      have h16 : Onward m s0 v14 := Onward.eqMP e15 (State.makeRoom_on (hm.of rfl) _ _ h9)
      exact State.setLine_on (hm.of rfl) _ _ _ (State.fillSectors_on (hm.of rfl) _ _ _ h16)

theorem State.poisonSpan_on {m : Nat} (hm : Covers 0x100 m) {s0 : State} (s : State) (a2) (a3) (a4) (h : Onward m s0 s) :
    Onward m s0 (State.poisonSpan s a2 a3 a4) := by
  unfold State.poisonSpan
  refine foldl_ind (P := Onward _ _) ?_ _ _ ?_
  · intro x1 x2 h3
    refine ite_ind (P := Onward _ _) ?_ ?_
    · exact State.setBad_on (hm.of rfl) _ _ _ h3
    · refine ite_ind (P := Onward _ _) ?_ ?_
      · exact State.setBad_on (hm.of rfl) _ _ _ h3
      · exact h3
  · exact h

theorem State.writeUnheld_on {m : Nat} (hm : Covers 0x1cc006a m) {s0 : State} (s : State) (a2) (a3) (a4) (h : Onward m s0 s) :
    Onward m s0 (State.writeUnheld s a2 a3 a4) := by
  unfold State.writeUnheld
  extract_lets +onlyGivenNames x1 x2
  have h3 : Onward m s0 x2 := by
    unfold x2
    refine foldl_ind (P := Onward _ _) ?_ _ _ ?_
    · intro x4 x5 h6
      extract_lets +onlyGivenNames x7 x8
      exact State.dramPatch_on (hm.of rfl) _ _ _ _ h6
    · exact h
  clear_value x2
  extract_lets +onlyGivenNames x9
  have h10 : Onward m s0 x9 := by
    unfold x9
    exact State.inc_on (hm.of rfl) _ _ _ (State.queueWrites_on (hm.of rfl) _ _ _ h3)
  clear_value x9
  refine ite_ind (P := Onward _ _) ?_ ?_
  · exact State.record_on (hm.of rfl) _ _ _ _ _ _ h10
  · exact h10

theorem State.unmerge_on {m : Nat} (hm : Covers 0x400 m) {s0 : State} (s : State) (a2) (h : Onward m s0 s) :
    Onward m s0 (State.unmerge s a2) := by
  unfold State.unmerge
  extract_lets +onlyGivenNames x1
  exact State.setBank_on (hm.of rfl) _ _ _ h

theorem State.pokeLine_on {m : Nat} (hm : Covers 0x1cc07ea m) {s0 : State} (s : State) (a2) (a3) (a4) (a5) (h : Onward m s0 s) :
    Onward m s0 (State.pokeLine s a2 a3 a4 a5) := by
  unfold State.pokeLine
  extract_lets +onlyGivenNames x1
  split
  · extract_lets +onlyGivenNames x5
    have h6 : Onward m s0 x5 := by
      unfold x5
      exact State.unmerge_on (hm.of rfl) _ _ (State.poisonSpan_on (hm.of rfl) _ _ _ _ (Onward.trans h (Onward.frame hm rfl rfl rfl rfl rfl rfl (fun w => ⟨w.1, Memory.wf_write _ _ _ w.2, w.3, w.4, w.5, w.6, w.7, w.8, w.9, w.10, w.11, w.12, w.13, w.14, w.15, w.16, w.17, w.18, w.19, w.20, w.21, w.22, w.23, w.24⟩)
    (fun p e => by cases p <;> first | exact absurd e (by decide) | rfl))))
    clear_value x5
    extract_lets +onlyGivenNames x7
    refine ite_ind (P := Onward _ _) ?_ ?_
    · exact State.setLine_on (hm.of rfl) _ _ _ (State.writeBack_on (hm.of rfl) _ _ _ h6)
    · exact State.setLine_on (hm.of rfl) _ _ _ h6
  · exact State.writeUnheld_on (hm.of rfl) _ _ _ _ h

theorem State.writeLine_on {m : Nat} (hm : Covers 0x1cc07ea m) {s0 : State} (s : State) (a2) (a3) (a4) (a5) (a6) (h : Onward m s0 s) :
    Onward m s0 (State.writeLine s a2 a3 a4 a5 a6) := by
  unfold State.writeLine
  refine ite_ind (P := Onward _ _) ?_ ?_
  · exact h
  · extract_lets +onlyGivenNames x1 x2 x3
    split
    · refine ite_ind (P := Onward _ _) ?_ ?_
      · exact State.pokeLine_on (hm.of rfl) _ _ _ _ _ (State.foldCount_on (hm.of rfl) _ _ _ h)
      · exact State.pokeLine_on (hm.of rfl) _ _ _ _ _ (State.ensure_on (hm.of rfl) _ _ _ _ _ _ _ h)
    · refine ite_ind (P := Onward _ _) ?_ ?_
      · extract_lets +onlyGivenNames x9
        have h10 : Onward m s0 x9 := by
          unfold x9
          exact State.foldCount_on (hm.of rfl) _ _ _ h
        clear_value x9
        split
        · exact State.pokeLine_on (hm.of rfl) _ _ _ _ _ h10
        · rename_i v15 e16
          have h17 : Onward m s0 v15 := Onward.eqMP e16 (State.makeRoom_on (hm.of rfl) _ _ h10)
          exact State.pokeLine_on (hm.of rfl) _ _ _ _ _ (State.setLine_on (hm.of rfl) _ _ _ h17)
      · exact State.pokeLine_on (hm.of rfl) _ _ _ _ _ (State.ensure_on (hm.of rfl) _ _ _ _ _ _ _ h)

theorem State.askChan_on {m : Nat} (hm : Covers 0x40400 m) {s0 : State} (s : State) (a2) (a3) (h : Onward m s0 s) :
    Onward m s0 (State.askChan s a2 a3) := by
  unfold State.askChan
  extract_lets +onlyGivenNames x1
  have h2 : ∀ u3, Onward m s0 u3 → ∀ u4, ∀ u5, Onward m s0 (x1 u3 u4 u5) := by
    intro x6 h7 x8 x9
    unfold x1
    exact State.setBank_on (hm.of rfl) _ _ _ h7
  clear_value x1
  split
  · extract_lets +onlyGivenNames x16 x17
    refine ite_ind (P := Onward _ _) ?_ ?_
    · exact h
    · refine ite_ind (P := Onward _ _) ?_ ?_
      · refine h2 _ ?_ _ _
        exact h
      · refine ite_ind (P := Onward _ _) ?_ ?_
        · exact h
        · refine h2 _ ?_ _ _
          exact State.setChan_on (hm.of rfl) _ _ _ _ h
  · refine h2 _ ?_ _ _
    exact h
  · exact h

theorem State.writeBytes_on {m : Nat} (hm : Covers 0x1cc07ea m) {s0 : State} (s : State) (a2) (a3) (a4) (a5) (a6) (h : Onward m s0 s) :
    Onward m s0 (State.writeBytes s a2 a3 a4 a5 a6) := by
  unfold State.writeBytes
  refine ite_ind (P := Onward _ _) ?_ ?_
  · refine foldl_ind (P := Onward _ _) ?_ _ _ ?_
    · intro x1 x2 h3
      exact State.writeLine_on (hm.of rfl) _ _ _ _ _ _ h3
    · exact h
  · refine ite_ind (P := Onward _ _) ?_ ?_
    · exact State.poisonSpan_on (hm.of rfl) _ _ _ _ (Onward.trans h (Onward.frame hm rfl rfl rfl rfl rfl rfl (fun w => ⟨w.1, Memory.wf_write _ _ _ w.2, w.3, w.4, w.5, w.6, w.7, w.8, w.9, w.10, w.11, w.12, w.13, w.14, w.15, w.16, w.17, w.18, w.19, w.20, w.21, w.22, w.23, w.24⟩)
    (fun p e => by cases p <;> first | exact absurd e (by decide) | rfl)))
    · refine ite_ind (P := Onward _ _) ?_ ?_
      · exact State.mgmtWrite_on (hm.of rfl) _ _ _ h
      · exact h

theorem State.touch_on {m : Nat} (hm : Covers 0x1cc07ea m) {s0 : State} (s : State) (a2) (a3) (a4) (a5) (a6) (a7) (h : Onward m s0 s) :
    Onward m s0 (State.touch s a2 a3 a4 a5 a6 a7) := by
  unfold State.touch
  refine ite_ind (P := Onward _ _) ?_ ?_
  · refine foldl_ind (P := Onward _ _) ?_ _ _ ?_
    · intro x1 x2 h3
      exact State.ensure_on (hm.of rfl) _ _ _ _ _ _ _ h3
    · exact h
  · exact h

theorem State.setXl_on {m : Nat} (hm : Covers 0x20000 m) {s0 : State} (s : State) (a2) (h : Onward m s0 s) :
    Onward m s0 (State.setXl s a2) := by
  unfold State.setXl
  exact Onward.trans h (Onward.frame hm rfl rfl rfl rfl rfl rfl (fun w => ⟨w.1, w.2, w.3, w.4, w.5, w.6, w.7, w.8, w.9, w.10, w.11, w.12, w.13, w.14, w.15, w.16, w.17, w.18, w.19, w.20, w.21, w.22, w.23, w.24⟩)
    (fun p e => by cases p <;> first | exact absurd e (by decide) | rfl))

theorem State.setL1_on {m : Nat} (hm : Covers 0x20000 m) {s0 : State} (s : State) (a2) (a3) (h : Onward m s0 s) :
    Onward m s0 (State.setL1 s a2 a3) := by
  unfold State.setL1
  exact State.setXl_on (hm.of rfl) _ _ h

theorem State.setL2_on {m : Nat} (hm : Covers 0x20000 m) {s0 : State} (s : State) (a2) (a3) (h : Onward m s0 s) :
    Onward m s0 (State.setL2 s a2 a3) := by
  unfold State.setL2
  exact State.setXl_on (hm.of rfl) _ _ h

theorem State.setShadow_on {m : Nat} (hm : Covers 0x20000 m) {s0 : State} (s : State) (a2) (a3) (h : Onward m s0 s) :
    Onward m s0 (State.setShadow s a2 a3) := by
  unfold State.setShadow
  exact State.setXl_on (hm.of rfl) _ _ h

theorem State.setInbound_on {m : Nat} (hm : Covers 0x20000 m) {s0 : State} (s : State) (a2) (a3) (h : Onward m s0 s) :
    Onward m s0 (State.setInbound s a2 a3) := by
  unfold State.setInbound
  exact State.setXl_on (hm.of rfl) _ _ h

theorem State.looked_on {m : Nat} (hm : Covers 0x20008 m) {s0 : State} (s : State) (a2) (a3) (h : Onward m s0 s) :
    Onward m s0 (State.looked s a2 a3) := by
  unfold State.looked
  extract_lets +onlyGivenNames x1 x2
  refine ite_ind (P := Onward _ _) ?_ ?_
  · exact h
  · split
    · exact State.setL1_on (hm.of rfl) _ _ _ h
    · extract_lets +onlyGivenNames x8
      have h9 : Onward m s0 x8 := by
        unfold x8
        exact State.inc_on (hm.of rfl) _ _ _ h
      clear_value x8
      split
      · exact State.setL1_on (hm.of rfl) _ _ _ (State.setL2_on (hm.of rfl) _ _ _ h9)
      · exact State.inc_on (hm.of rfl) _ _ _ h9

theorem State.ringWrite_on {m : Nat} (hm : Covers 0x1000028 m) {s0 : State} (s : State) (a2) (h : Onward m s0 s) :
    Onward m s0 (State.ringWrite s a2) := by
  unfold State.ringWrite
  extract_lets +onlyGivenNames x1 x2 x3
  have h4 : Onward m s0 x3 := by
    unfold x3
    refine ite_ind (P := Onward _ _) ?_ ?_
    · exact State.mgmtWrite_on (hm.of rfl) _ _ _ h
    · exact h
  clear_value x3
  exact State.irq_on (hm.of rfl) _ _ (State.wr_on (hm.of rfl) _ _ _ h4)

theorem State.ringPut_on {m : Nat} (hm : Covers 0x142002a m) {s0 : State} (s : State) (a2) (h : Onward m s0 s) :
    Onward m s0 (State.ringPut s a2) := by
  unfold State.ringPut
  refine ite_ind (P := Onward _ _) ?_ ?_
  · extract_lets +onlyGivenNames x1 x2
    have h3 : Onward m s0 x2 := by
      unfold x2
      exact State.sat_on (hm.of rfl) _ _ _ (State.setXl_on (hm.of rfl) _ _ h)
    clear_value x2
    exact State.record_on (hm.of rfl) _ _ _ _ _ _ h3
  · exact State.ringWrite_on (hm.of rfl) _ _ h

theorem State.askTicket_on {m : Nat} (hm : Covers 0x142002a m) {s0 : State} (s : State) (a2) (a3) (a4) (a5) (h : Onward m s0 s) :
    Onward.P m s0 (State.askTicket s a2 a3 a4 a5) := by
  unfold State.askTicket
  extract_lets +onlyGivenNames x1
  split
  · exact h
  · refine ite_ind (P := Onward.P _ _) ?_ ?_
    · exact h
    · extract_lets +onlyGivenNames x7 x8 x9 x10 x11
      have h12 : Onward m s0 x11 := by
        unfold x11
        exact State.setXl_on (hm.of rfl) _ _ h
      clear_value x11
      exact State.ringPut_on (hm.of rfl) _ _ h12

theorem State.pruneTickets_on {m : Nat} (hm : Covers 0x20000 m) {s0 : State} (s : State) (h : Onward m s0 s) :
    Onward m s0 (State.pruneTickets s) := by
  unfold State.pruneTickets
  exact State.setXl_on (hm.of rfl) _ _ h

theorem State.atomAt_on {m : Nat} (hm : Covers 0x1cc07ea m) {s0 : State} (s : State) (a2) (a3) (a4) (a5) (a6) (a7) (a8) (a9) (a10) (h : Onward m s0 s) :
    Onward.T m s0 (State.atomAt s a2 a3 a4 a5 a6 a7 a8 a9 a10) := by
  unfold State.atomAt
  extract_lets +onlyGivenNames x1
  refine ite_ind (P := Onward.T _ _) ?_ ?_
  · exact h
  · extract_lets +onlyGivenNames x2 x3
    have h4 : Onward m s0 x3 := by
      unfold x3
      exact State.touch_on (hm.of rfl) _ _ _ _ _ _ _ h
    clear_value x3
    extract_lets +onlyGivenNames x5 x6 x7 x8
    have h9 : Onward m s0 x8 := by
      unfold x8
      refine ite_ind (P := Onward _ _) ?_ ?_
      · exact h4
      · refine ite_ind (P := Onward _ _) ?_ ?_
        · exact State.pokeLine_on (hm.of rfl) _ _ _ _ _ h4
        · exact State.writeBytes_on (hm.of rfl) _ _ _ _ _ _ h4
    clear_value x8
    exact h9

theorem State.takeWays_on {m : Nat} (hm : Covers 0x1cc03ea m) {s0 : State} (s : State) (a2) (a3) (a4) (h : Onward m s0 s) :
    Onward.MP m s0 (State.takeWays s a2 a3 a4) := by
  induction a4 generalizing s a3 with
  | zero => exact h
  | succ n ih =>
    unfold State.takeWays
    extract_lets b st
    split
    · exact trivial
    · rename_i t e
      have ht : Onward m s0 t := Onward.eqMP e (State.chooseWay_on (hm.of rfl) _ _ _ _ h)
      extract_lets u
      have hu : Onward m s0 u := by
        unfold u
        split
        · exact State.evict_on (hm.of rfl) _ _ _ ht
        · exact ht
      clear_value u
      split
      · exact trivial
      · rename_i e2
        exact Onward.eqMP e2 (ih _ _ hu)

theorem State.createAcc_on {m : Nat} (hm : Covers 0x1cc07ea m) {s0 : State} (s : State) (a2) (a3) (a4) (h : Onward m s0 s) :
    Onward.M m s0 (State.createAcc s a2 a3 a4) := by
  unfold State.createAcc
  extract_lets +onlyGivenNames x1 x2 x3
  refine ite_ind (P := Onward.M _ _) ?_ ?_
  · exact trivial
  · extract_lets +onlyGivenNames x4
    split
    · exact trivial
    · rename_i v9 e10
      have h11 : Onward m s0 v9 := Onward.eqMP e10 (State.takeWays_on (hm.of rfl) _ _ _ _ h)
      extract_lets +onlyGivenNames x12 x13
      have h14 : Onward m s0 x13 := by
        unfold x13
        refine ite_ind (P := Onward _ _) ?_ ?_
        · exact State.foldCount_on (hm.of rfl) _ _ _ h11
        · exact State.emit_on (hm.of rfl) _ _ (State.foldCount_on (hm.of rfl) _ _ _ h11)
      clear_value x13
      extract_lets +onlyGivenNames x15 x16 x17 x18
      have h19 : Onward m s0 x18 := by
        unfold x18
        exact State.setLine_on (hm.of rfl) _ _ _ (State.eraseLine_on (hm.of rfl) _ _ (State.unmerge_on (hm.of rfl) _ _ h14))
      clear_value x18
      refine Onward.just ?_
      refine foldl_ind (P := Onward _ _) ?_ _ _ ?_
      · intro x20 x21 h22
        exact State.setBad_on (hm.of rfl) _ _ _ h22
      · exact h19

theorem State.accDirect_on {m : Nat} (hm : Covers 0x1cc07ea m) {s0 : State} (s : State) (a2) (a3) (a4) (a5) (a6) (a7) (h : Onward m s0 s) :
    Onward m s0 (State.accDirect s a2 a3 a4 a5 a6 a7) := by
  unfold State.accDirect
  extract_lets +onlyGivenNames x1 x2
  have h3 : Onward m s0 x2 := by
    unfold x2
    exact State.touch_on (hm.of rfl) _ _ _ _ _ _ _ h
  clear_value x2
  extract_lets +onlyGivenNames x4 x5 x6 x7
  have h8 : Onward m s0 x7 := by
    unfold x7
    split
    · extract_lets +onlyGivenNames x15 x16 x17
      refine foldl_ind (P := Onward _ _) ?_ _ _ ?_
      · intro x18 x19 h20
        exact State.pokeLine_on (hm.of rfl) _ _ _ _ _ h20
      · exact h3
    · extract_lets +onlyGivenNames x23 x24 x25
      exact State.pokeLine_on (hm.of rfl) _ _ _ _ _ h3
  clear_value x7
  extract_lets +onlyGivenNames x26
  have h27 : Onward m s0 x26 := by
    unfold x26
    split
    · exact State.setLine_on (hm.of rfl) _ _ _ h8
    · exact h8
  clear_value x26
  extract_lets +onlyGivenNames x33
  exact State.record_on (hm.of rfl) _ _ _ _ _ _ h27

theorem State.setAccBad_on {m : Nat} (hm : Covers 0x100 m) {s0 : State} (s : State) (a2) (a3) (a4) (h : Onward m s0 s) :
    Onward m s0 (State.setAccBad s a2 a3 a4) := by
  unfold State.setAccBad
  refine foldl_ind (P := Onward _ _) ?_ _ _ ?_
  · intro x1 x2 h3
    exact State.setBad_on (hm.of rfl) _ _ _ h3
  · exact h

theorem State.accInto_on {m : Nat} (hm : Covers 0x1cc036a m) {s0 : State} (s : State) (a2) (a3) (a4) (a5) (a6) (a7) (a8) (a9) (h : Onward m s0 s) :
    Onward m s0 (State.accInto s a2 a3 a4 a5 a6 a7 a8 a9) := by
  unfold State.accInto
  extract_lets +onlyGivenNames x1 x2
  have h3 : Onward m s0 x2 := by
    unfold x2
    refine ite_ind (P := Onward _ _) ?_ ?_
    · exact State.setAccBad_on (hm.of rfl) _ _ _ _ h
    · exact h
  clear_value x2
  extract_lets +onlyGivenNames x4
  refine ite_ind (P := Onward _ _) ?_ ?_
  · exact State.setLine_on (hm.of rfl) _ _ _ (State.writeBack_on (hm.of rfl) _ _ _ h3)
  · exact State.setLine_on (hm.of rfl) _ _ _ h3

theorem State.accumulate_on {m : Nat} (hm : Covers 0x1cc07ea m) {s0 : State} (s : State) (a2) (a3) (a4) (a5) (a6) (a7) (a8) (h : Onward m s0 s) :
    Onward.P m s0 (State.accumulate s a2 a3 a4 a5 a6 a7 a8) := by
  unfold State.accumulate
  extract_lets +onlyGivenNames x1
  refine ite_ind (P := Onward.P _ _) ?_ ?_
  · exact h
  · extract_lets +onlyGivenNames x2
    have h3 : ∀ u4, Onward m s0 u4 → Onward m s0 (x2 u4) := by
      intro x5 h6
      unfold x2
      split
      · rename_i v8 e9
        have h10 : Onward m s0 v8 := Onward.eqM e9 (State.createAcc_on (hm.of rfl) _ _ _ _ h6)
        split
        · exact State.accInto_on (hm.of rfl) _ _ _ _ _ _ _ _ _ h10
        · exact h10
      · exact State.accDirect_on (hm.of rfl) _ _ _ _ _ _ _ h6
    clear_value x2
    split
    · refine ite_ind (P := Onward.P _ _) ?_ ?_
      · exact State.accInto_on (hm.of rfl) _ _ _ _ _ _ _ _ _ (State.foldCount_on (hm.of rfl) _ _ _ h)
      · refine Onward.pair ?_
        refine h3 _ ?_
        exact h
    · refine Onward.pair ?_
      refine h3 _ ?_
      exact h

theorem State.settleLine_on {m : Nat} (hm : Covers 0x380 m) {s0 : State} (s : State) (a2) (a3) (h : Onward m s0 s) :
    Onward m s0 (State.settleLine s a2 a3) := by
  unfold State.settleLine
  extract_lets +onlyGivenNames x1 x2 x3 x4
  have h5 : Onward m s0 x4 := by
    unfold x4
    exact State.setLine_on (hm.of rfl) _ _ _ (State.eraseLine_on (hm.of rfl) _ _ h)
  clear_value x4
  extract_lets +onlyGivenNames x6
  have h7 : Onward m s0 x6 := by
    unfold x6
    exact Onward.trans h5 (Onward.frame hm rfl rfl rfl rfl rfl rfl (fun w => ⟨w.1, Memory.wf_write _ _ _ w.2, w.3, w.4, w.5, w.6, w.7, w.8, w.9, w.10, w.11, w.12, w.13, w.14, w.15, w.16, w.17, w.18, w.19, w.20, w.21, w.22, w.23, w.24⟩)
    (fun p e => by cases p <;> first | exact absurd e (by decide) | rfl))
  clear_value x6
  refine foldl_ind (P := Onward _ _) ?_ _ _ ?_
  · intro x8 x9 h10
    exact State.setBad_on (hm.of rfl) _ _ _ h10
  · exact h7

theorem State.setFab_on {m : Nat} (hm : Covers 0x10000000 m) {s0 : State} (s : State) (a2) (h : Onward m s0 s) :
    Onward m s0 (State.setFab s a2) := by
  unfold State.setFab
  exact Onward.trans h (Onward.frame hm rfl rfl rfl rfl rfl rfl (fun w => ⟨w.1, w.2, w.3, w.4, w.5, w.6, w.7, w.8, w.9, w.10, w.11, w.12, w.13, w.14, w.15, w.16, w.17, w.18, w.19, w.20, w.21, w.22, w.23, w.24⟩)
    (fun p e => by cases p <;> first | exact absurd e (by decide) | rfl))

theorem State.setPort_on {m : Nat} (hm : Covers 0x10000000 m) {s0 : State} (s : State) (a2) (a3) (h : Onward m s0 s) :
    Onward m s0 (State.setPort s a2 a3) := by
  unfold State.setPort
  exact State.setFab_on (hm.of rfl) _ _ h

theorem State.ctlAt_on {m : Nat} (hm : Covers 0x10000000 m) {s0 : State} (s : State) (a2) (a3) (h : Onward m s0 s) :
    Onward m s0 (State.ctlAt s a2 a3) := by
  unfold State.ctlAt
  extract_lets +onlyGivenNames x1
  exact State.setPort_on (hm.of rfl) _ _ _ h

theorem State.tellNeighbour_on {m : Nat} (hm : Covers 0x10000000 m) {s0 : State} (s : State) (a2) (a3) (a4) (h : Onward m s0 s) :
    Onward m s0 (State.tellNeighbour s a2 a3 a4) := by
  unfold State.tellNeighbour
  exact State.ctlAt_on (hm.of rfl) _ _ _ h

theorem State.noRoute_on {m : Nat} (hm : Covers 0x140000a m) {s0 : State} (s : State) (a2 a3) (h : Onward m s0 s) :
    Onward m s0 (State.noRoute s a2 a3) := by
  unfold State.noRoute
  exact State.record_on (hm.of rfl) _ _ _ _ _ _ (State.inc_on (hm.of rfl) _ _ _ h)

theorem State.routeCtl_on {m : Nat} (hm : Covers 0x1140000a m) {s0 : State} (s : State) (a2) (h : Onward m s0 s) :
    Onward m s0 (State.routeCtl s a2) := by
  unfold State.routeCtl
  split
  · exact State.noRoute_on (hm.of rfl) _ _ _ h
  · extract_lets +onlyGivenNames x7
    exact State.ctlAt_on (hm.of rfl) _ _ _ h

theorem State.hear_on {m : Nat} (hm : Covers 0x10000000 m) {s0 : State} (s : State) (a2) (a3) (h : Onward m s0 s) :
    Onward.M m s0 (State.hear s a2 a3) := by
  unfold State.hear
  extract_lets +onlyGivenNames x1 x2
  refine ite_ind (P := Onward.M _ _) ?_ ?_
  · exact trivial
  · exact State.setPort_on (hm.of rfl) _ _ _ h

theorem State.setOutStream_on {m : Nat} (hm : Covers 0x10000000 m) {s0 : State} (s : State) (a2) (a3) (h : Onward m s0 s) :
    Onward m s0 (State.setOutStream s a2 a3) := by
  unfold State.setOutStream
  exact State.setFab_on (hm.of rfl) _ _ h

theorem State.admission_on {m : Nat} (hm : Covers 0x10000008 m) {s0 : State} (s : State) (a2) (a3) (a4) (a5) (a6) (a7) (h : Onward m s0 s) :
    Onward.P m s0 (State.admission s a2 a3 a4 a5 a6 a7) := by
  unfold State.admission
  extract_lets +onlyGivenNames x1 x2 x3 x4
  have h5 : ∀ u6, Onward.P m s0 (x4 u6) := by
    intro x7
    unfold x4
    exact State.inc_on (hm.of rfl) _ _ _ h
  clear_value x4
  extract_lets +onlyGivenNames x8
  refine ite_ind (P := Onward.P _ _) ?_ ?_
  · refine h5 _
  · refine ite_ind (P := Onward.P _ _) ?_ ?_
    · refine h5 _
    · refine ite_ind (P := Onward.P _ _) ?_ ?_
      · refine h5 _
      · refine ite_ind (P := Onward.P _ _) ?_ ?_
        · refine h5 _
        · refine ite_ind (P := Onward.P _ _) ?_ ?_
          · refine h5 _
          · refine ite_ind (P := Onward.P _ _) ?_ ?_
            · refine h5 _
            · extract_lets +onlyGivenNames x9 x10 x11 x12
              split
              · refine h5 _
              · extract_lets +onlyGivenNames x19 x20
                refine ite_ind (P := Onward.P _ _) ?_ ?_
                · refine h5 _
                · refine ite_ind (P := Onward.P _ _) ?_ ?_
                  · refine h5 _
                  · extract_lets +onlyGivenNames x21 x22
                    refine ite_ind (P := Onward.P _ _) ?_ ?_
                    · refine h5 _
                    · exact State.inc_on (hm.of rfl) _ _ _ (State.setOutStream_on (hm.of rfl) _ _ _ h)

theorem State.holdWindow_on {m : Nat} (hm : Covers 0x100000 m) {s0 : State} (s : State) (a2) (h : Onward m s0 s) :
    Onward m s0 (State.holdWindow s a2) := by
  unfold State.holdWindow
  extract_lets +onlyGivenNames x1
  refine ite_ind (P := Onward _ _) ?_ ?_
  · exact h
  · exact Onward.trans h (Onward.frame hm rfl rfl rfl rfl rfl rfl (fun w => ⟨w.1, w.2, w.3, w.4, w.5, w.6, w.7, w.8, w.9, w.10, w.11, w.12, w.13, w.14, w.15, w.16, w.17, w.18, w.19, w.20, w.21, w.22, w.23, w.24⟩)
    (fun p e => by cases p <;> first | exact absurd e (by decide) | rfl))

theorem State.announce_on {m : Nat} (hm : Covers 0x1150000a m) {s0 : State} (s : State) (a2) (h : Onward m s0 s) :
    Onward m s0 (State.announce s a2) := by
  unfold State.announce
  extract_lets +onlyGivenNames x1 x2
  refine foldl_ind (P := Onward _ _) ?_ _ _ ?_
  · intro x3 x4 h5
    exact State.routeCtl_on (hm.of rfl) _ _ h5
  · exact State.holdWindow_on (hm.of rfl) _ _ h

theorem State.thermalNotice_on {m : Nat} (hm : Covers 0x1140000a m) {s0 : State} (s : State) (a2) (a3) (h : Onward m s0 s) :
    Onward m s0 (State.thermalNotice s a2 a3) := by
  unfold State.thermalNotice
  extract_lets +onlyGivenNames x1 x2
  refine foldl_ind (P := Onward _ _) ?_ _ _ ?_
  · intro x3 x4 h5
    exact State.routeCtl_on (hm.of rfl) _ _ h5
  · exact h

theorem State.queueFlits_on {m : Nat} (hm : Covers 0x10000000 m) {s0 : State} (s : State) (a2) (a3) (a4) (a5) (a6) (a7) (h : Onward m s0 s) :
    Onward m s0 (State.queueFlits s a2 a3 a4 a5 a6 a7) := by
  unfold State.queueFlits
  extract_lets +onlyGivenNames x1 x2 x3 x4 x5
  exact State.setPort_on (hm.of rfl) _ _ _ h

theorem State.bulkPort_on {m : Nat} (hm : Covers 0x10000000 m) {s0 : State} (s : State) (a2) (a3) (h : Onward m s0 s) :
    Onward.P m s0 (State.bulkPort s a2 a3) := by
  unfold State.bulkPort
  extract_lets +onlyGivenNames x1 x2 x3
  exact State.setFab_on (hm.of rfl) _ _ h

theorem State.routeFlits_on {m : Nat} (hm : Covers 0x1140000a m) {s0 : State} (s : State) (a2) (a3) (a4) (a5) (h : Onward m s0 s) :
    Onward m s0 (State.routeFlits s a2 a3 a4 a5) := by
  unfold State.routeFlits
  split
  · refine foldl_ind (P := Onward _ _) ?_ _ _ ?_
    · intro x3 x4 h5
      exact State.noRoute_on (hm.of rfl) _ _ _ h5
    · exact h
  · split
    rename_i v12 e13
    have h14 : Onward m s0 v12 := Onward.eqP e13 (State.bulkPort_on (hm.of rfl) _ _ _ h)
    exact State.queueFlits_on (hm.of rfl) _ _ _ _ _ _ _ h14

theorem State.flowFlits_on {m : Nat} (hm : Covers 0x1140000a m) {s0 : State} (s : State) (a2) (a3) (a4) (a5) (h : Onward m s0 s) :
    Onward m s0 (State.flowFlits s a2 a3 a4 a5) := by
  unfold State.flowFlits
  split
  · exact State.routeFlits_on (hm.of rfl) _ _ _ _ _ h
  · extract_lets +onlyGivenNames x6 x7 x8
    have h9 : Onward m s0 x8 := by
      unfold x8
      exact State.queueFlits_on (hm.of rfl) _ _ _ _ _ _ _ h
    clear_value x8
    refine ite_ind (P := Onward _ _) ?_ ?_
    · exact h9
    · exact State.routeFlits_on (hm.of rfl) _ _ _ _ _ h9

theorem State.sendPacket_on {m : Nat} (hm : Covers 0x1140000a m) {s0 : State} (s : State) (a2) (a3) (a4) (a5) (a6) (a7) (a8) (a9) (h : Onward m s0 s) :
    Onward m s0 (State.sendPacket s a2 a3 a4 a5 a6 a7 a8 a9) := by
  unfold State.sendPacket
  split
  · exact State.routeFlits_on (hm.of rfl) _ _ _ _ _ h
  · extract_lets +onlyGivenNames x4
    split
    · exact State.routeFlits_on (hm.of rfl) _ _ _ _ _ h
    · exact State.queueFlits_on (hm.of rfl) _ _ _ _ _ _ _ h

theorem State.advance_on {m : Nat} (hm : Covers 0x2000 m) {s0 : State} (s : State) (a2) (a3) (a4) (h : Onward m s0 s) :
    Onward m s0 (State.advance s a2 a3 a4) := by
  unfold State.advance
  extract_lets +onlyGivenNames x1
  exact State.setStrand_on (hm.of rfl) _ _ _ _ h

theorem State.retire_on {m : Nat} (hm : Covers 0x2000 m) {s0 : State} (s : State) (a2) (a3) (a4) (a5) (h : Onward m s0 s) :
    Onward m s0 (State.retire s a2 a3 a4 a5) := by
  unfold State.retire
  exact State.advance_on (hm.of rfl) _ _ _ _ (State.setStrand_on (hm.of rfl) _ _ _ _ h)

theorem State.strandFault_on {m : Nat} (hm : Covers 0x140200a m) {s0 : State} (s : State) (a2) (a3) (a4) (a5) (h : Onward m s0 s) :
    Onward m s0 (State.strandFault s a2 a3 a4 a5) := by
  unfold State.strandFault
  extract_lets +onlyGivenNames x1 x2
  have h3 : Onward m s0 x2 := by
    unfold x2
    exact State.setStrand_on (hm.of rfl) _ _ _ _ h
  clear_value x2
  exact State.record_on (hm.of rfl) _ _ _ _ _ _ h3

theorem State.passTurn_on {m : Nat} (hm : Covers 0x4000 m) {s0 : State} (s : State) (a2) (a3) (h : Onward m s0 s) :
    Onward m s0 (State.passTurn s a2 a3) := by
  unfold State.passTurn
  exact State.setDrv_on (hm.of rfl) _ _ _ h

theorem State.issue_on {m : Nat} (hm : Covers 0x140600a m) {s0 : State} (s : State) (a2) (a3) (a4) (a5) (h : Onward m s0 s) (ha5 : ∀ y1, Onward m s0 y1 → Onward m s0 (a5 y1)) :
    Onward m s0 (State.issue s a2 a3 a4 a5) := by
  unfold State.issue
  extract_lets +onlyGivenNames x1 x2 x3 x4
  refine ite_ind (P := Onward _ _) ?_ ?_
  · exact h
  · extract_lets +onlyGivenNames x5
    have h6 : Onward m s0 x5 := by
      unfold x5
      exact State.passTurn_on (hm.of rfl) _ _ _ h
    clear_value x5
    refine ite_ind (P := Onward _ _) ?_ ?_
    · exact State.strandFault_on (hm.of rfl) _ _ _ _ _ h6
    · refine ite_ind (P := Onward _ _) ?_ ?_
      · exact State.advance_on (hm.of rfl) _ _ _ _ h6
      · refine ha5 _ ?_
        exact State.inc_on (hm.of rfl) _ _ _ h6

theorem State.branch_on {m : Nat} (hm : Covers 0x140200a m) {s0 : State} (s : State) (a2) (a3) (a4) (a5) (h : Onward m s0 s) :
    Onward m s0 (State.branch s a2 a3 a4 a5) := by
  unfold State.branch
  refine ite_ind (P := Onward _ _) ?_ ?_
  · exact State.setStrand_on (hm.of rfl) _ _ _ _ h
  · exact State.strandFault_on (hm.of rfl) _ _ _ _ _ h

theorem State.wake_on {m : Nat} (hm : Covers 0x2000 m) {s0 : State} (s : State) (a2) (a3) (h : Onward m s0 s) :
    Onward m s0 (State.wake s a2 a3) := by
  unfold State.wake
  extract_lets +onlyGivenNames x1
  split
  · exact h
  · refine ite_ind (P := Onward _ _) ?_ ?_
    · split
      · exact State.setStrand_on (hm.of rfl) _ _ _ _ h
      · extract_lets +onlyGivenNames x13
        exact State.advance_on (hm.of rfl) _ _ _ _ (State.setStrand_on (hm.of rfl) _ _ _ _ h)
      · exact State.advance_on (hm.of rfl) _ _ _ _ (State.setStrand_on (hm.of rfl) _ _ _ _ h)
    · exact h

theorem State.wakeAll_on {m : Nat} (hm : Covers 0x2000 m) {s0 : State} (s : State) (h : Onward m s0 s) :
    Onward m s0 (State.wakeAll s) := by
  unfold State.wakeAll
  refine foldl_ind (P := Onward _ _) ?_ _ _ ?_
  · intro x1 x2 h3
    exact State.wake_on (hm.of rfl) _ _ _ h3
  · exact h

theorem State.beginWait_on {m : Nat} (hm : Covers 0x2000 m) {s0 : State} (s : State) (a2) (a3) (a4) (h : Onward m s0 s) :
    Onward m s0 (State.beginWait s a2 a3 a4) := by
  unfold State.beginWait
  exact State.wake_on (hm.of rfl) _ _ _ (State.setStrand_on (hm.of rfl) _ _ _ _ h)

theorem State.finish_on {m : Nat} (hm : Covers 0x2a008 m) {s0 : State} (s : State) (a2) (a3) (a4) (a5) (h : Onward m s0 s) :
    Onward m s0 (State.finish s a2 a3 a4 a5) := by
  unfold State.finish
  extract_lets +onlyGivenNames x1
  refine ite_ind (P := Onward _ _) ?_ ?_
  · exact State.pruneTickets_on (hm.of rfl) _ (State.dropOp_on (hm.of rfl) _ _ h)
  · refine ite_ind (P := Onward _ _) ?_ ?_
    · exact State.setOp_on (hm.of rfl) _ _ h
    · extract_lets +onlyGivenNames x2 x3 x4 x5 x6
      have h7 : Onward m s0 x6 := by
        unfold x6
        exact State.dropOp_on (hm.of rfl) _ _ (State.setStrand_on (hm.of rfl) _ _ _ _ h)
      clear_value x6
      extract_lets +onlyGivenNames x8
      have h9 : Onward m s0 x8 := by
        unfold x8
        refine ite_ind (P := Onward _ _) ?_ ?_
        · exact State.inc_on (hm.of rfl) _ _ _ h7
        · exact h7
      clear_value x8
      extract_lets +onlyGivenNames x10
      have h11 : Onward m s0 x10 := by
        unfold x10
        exact State.inc_on (hm.of rfl) _ _ _ h9
      clear_value x10
      exact State.pruneTickets_on (hm.of rfl) _ (State.wake_on (hm.of rfl) _ _ _ h11)

theorem State.result_on {m : Nat} (hm : Covers 0x2000 m) {s0 : State} (s : State) (a2) (a3) (h : Onward m s0 s) :
    Onward m s0 (State.result s a2 a3) := by
  unfold State.result
  refine ite_ind (P := Onward _ _) ?_ ?_
  · exact h
  · exact State.setStrand_on (hm.of rfl) _ _ _ _ h

theorem State.failOp_on {m : Nat} (hm : Covers 0x2a008 m) {s0 : State} (s : State) (a2) (a3) (h : Onward m s0 s) :
    Onward m s0 (State.failOp s a2 a3) := by
  unfold State.failOp
  exact State.finish_on (hm.of rfl) _ _ _ _ _ (State.result_on (hm.of rfl) _ _ _ h)

theorem State.putOp_on {m : Nat} (hm : Covers 0x18000 m) {s0 : State} (s : State) (a2) (h : Onward m s0 s) :
    Onward m s0 (State.putOp s a2) := by
  unfold State.putOp
  refine ite_ind (P := Onward _ _) ?_ ?_
  · exact State.setOp_on (hm.of rfl) _ _ h
  · exact State.addOp_on (hm.of rfl) _ _ h

theorem State.signalHere_on {m : Nat} (hm : Covers 0x2000 m) {s0 : State} (s : State) (a2) (a3) (a4) (a5) (h : Onward m s0 s) :
    Onward.P m s0 (State.signalHere s a2 a3 a4 a5) := by
  unfold State.signalHere
  split
  · exact h
  · extract_lets +onlyGivenNames x6
    refine ite_ind (P := Onward.P _ _) ?_ ?_
    · exact h
    · refine ite_ind (P := Onward.P _ _) ?_ ?_
      · exact h
      · refine ite_ind (P := Onward.P _ _) ?_ ?_
        · exact h
        · refine ite_ind (P := Onward.P _ _) ?_ ?_
          · exact State.setStrand_on (hm.of rfl) _ _ _ _ h
          · refine ite_ind (P := Onward.P _ _) ?_ ?_
            · exact h
            · exact State.wake_on (hm.of rfl) _ _ _ (State.setStrand_on (hm.of rfl) _ _ _ _ h)

theorem State.signalWord_on {m : Nat} (hm : Covers 0x2000 m) {s0 : State} (s : State) (a2) (a3) (h : Onward m s0 s) :
    Onward.P m s0 (State.signalWord s a2 a3) := by
  unfold State.signalWord
  exact State.signalHere_on (hm.of rfl) _ _ _ _ _ h

theorem State.setGroup_on {m : Nat} (hm : Covers 0x10000000 m) {s0 : State} (s : State) (a2) (a3) (h : Onward m s0 s) :
    Onward m s0 (State.setGroup s a2 a3) := by
  unfold State.setGroup
  exact State.setFab_on (hm.of rfl) _ _ h

theorem State.musterSend_on {m : Nat} (hm : Covers 0x10000008 m) {s0 : State} (s : State) (a2) (a3) (a4) (a5) (a6) (h : Onward m s0 s) :
    Onward.L m s0 (State.musterSend s a2 a3 a4 a5 a6) := by
  unfold State.musterSend
  extract_lets +onlyGivenNames x1
  split
  rename_i v4 e5
  have h6 : Onward m s0 v4 := Onward.eqP e5 (State.admission_on (hm.of rfl) _ _ _ _ _ _ _ h)
  extract_lets +onlyGivenNames x7
  split
  extract_lets +onlyGivenNames x12
  have h13 : Onward m s0 x12 := by
    unfold x12
    exact State.setGroup_on (hm.of rfl) _ _ _ h6
  clear_value x12
  exact h13

theorem State.actRelease_on {m : Nat} (hm : Covers 0x11cc27ea m) {s0 : State} (s : State) (a2) (a3) (a4) (a5) (h : Onward m s0 s) :
    Onward.L m s0 (State.actRelease s a2 a3 a4 a5) := by
  unfold State.actRelease
  extract_lets +onlyGivenNames x1 x2 x3 x4
  have h5 : Onward m s0 x4 := by
    unfold x4
    exact State.writeBytes_on (hm.of rfl) _ _ _ _ _ _ (State.setGroup_on (hm.of rfl) _ _ _ h)
  clear_value x4
  extract_lets +onlyGivenNames x6
  have h7 : Onward m s0 x6 := by
    unfold x6
    refine eachUpTo_ind (P := Onward _ _) _ _ ?_ ?_
    · exact h5
    · intro x8 x9 h10
      extract_lets +onlyGivenNames x11
      refine ite_ind (P := Onward _ _) ?_ ?_
      · refine Onward.snd ?_
        exact State.signalWord_on (hm.of rfl) _ _ _ h10
      · exact h10
  clear_value x6
  extract_lets +onlyGivenNames x12
  have h13 : Onward m s0 x12 := by
    unfold x12
    exact State.inc_on (hm.of rfl) _ _ _ h7
  clear_value x12
  split
  rename_i v15 _ e17
  have h18 : Onward m s0 v15 := by
    refine Onward.eqL e17 ?_
    refine foldl_ind (P := Onward.L _ _) ?_ _ _ ?_
    · intro x19 x20 h21
      extract_lets +onlyGivenNames x22
      split
      rename_i v24 _ e26
      have h27 : Onward m s0 v24 := by
        refine Onward.eqL e26 ?_
        refine State.musterSend_on (hm.of rfl) _ _ _ _ _ _ ?_
        refine Onward.fst ?_
        exact h21
      exact h27
    · exact h13
  exact State.setGroup_on (hm.of rfl) _ _ _ h18

theorem State.takeRelease_on {m : Nat} (hm : Covers 0x11cc27ea m) {s0 : State} (s : State) (a2) (a3) (h : Onward m s0 s) :
    Onward.L m s0 (State.takeRelease s a2 a3) := by
  unfold State.takeRelease
  refine ite_ind (P := Onward.L _ _) ?_ ?_
  · extract_lets +onlyGivenNames x1
    exact State.actRelease_on (hm.of rfl) _ _ _ _ _ h
  · exact State.setGroup_on (hm.of rfl) _ _ _ h

theorem State.testGroup_on {m : Nat} (hm : Covers 0x11cc27ea m) {s0 : State} (s : State) (a2) (h : Onward m s0 s) :
    Onward.L m s0 (State.testGroup s a2) := by
  unfold State.testGroup
  extract_lets +onlyGivenNames x1 x2
  refine ite_ind (P := Onward.L _ _) ?_ ?_
  · exact h
  · extract_lets +onlyGivenNames x3
    have h4 : Onward m s0 x3 := by
      unfold x3
      exact State.inc_on (hm.of rfl) _ _ _ (State.wr_on (hm.of rfl) _ _ _ h)
    clear_value x3
    refine ite_ind (P := Onward.L _ _) ?_ ?_
    · exact State.takeRelease_on (hm.of rfl) _ _ _ h4
    · split
      rename_i v6 _ e8
      have h9 : Onward m s0 v6 := Onward.eqL e8 (State.musterSend_on (hm.of rfl) _ _ _ _ _ _ h4)
      exact State.setGroup_on (hm.of rfl) _ _ _ h9

theorem State.arrive_on {m : Nat} (hm : Covers 0x11cc27ea m) {s0 : State} (s : State) (a2) (h : Onward m s0 s) :
    Onward.L m s0 (State.arrive s a2) := by
  unfold State.arrive
  extract_lets +onlyGivenNames x1
  split
  · refine State.testGroup_on (hm.of rfl) _ _ ?_
    refine Onward.snd ?_
    refine Onward.sndT ?_
    exact State.atomAt_on (hm.of rfl) _ _ _ _ _ _ _ _ _ _ h
  · exact State.setGroup_on (hm.of rfl) _ _ _ h
  · exact h

theorem State.musterApply_on {m : Nat} (hm : Covers 0x11cc27ea m) {s0 : State} (s : State) (a2) (h : Onward m s0 s) :
    Onward.L m s0 (State.musterApply s a2) := by
  unfold State.musterApply
  extract_lets +onlyGivenNames x1
  refine ite_ind (P := Onward.L _ _) ?_ ?_
  · exact h
  · extract_lets +onlyGivenNames x2 x3 x4 x5
    have h6 : Onward m s0 x5 := by
      unfold x5
      exact State.setGroup_on (hm.of rfl) _ _ _ h
    clear_value x5
    refine ite_ind (P := Onward.L _ _) ?_ ?_
    · exact State.takeRelease_on (hm.of rfl) _ _ _ h6
    · exact State.arrive_on (hm.of rfl) _ _ h6

theorem State.musterOut_on {m : Nat} (hm : Covers 0x11cc27ea m) {s0 : State} (a1) (s : State) (a3) (h : Onward m s0 s) :
    Onward m s0 (State.musterOut a1 s a3) := by
  induction a1 generalizing s a3 with
  | zero => exact h
  | succ n ih =>
    cases a3 with
    | nil => exact h
    | cons o t =>
      unfold State.musterOut
      refine ite_ind (P := Onward _ _) ?_ ?_
      · exact ih _ _ (Onward.fst (State.musterApply_on (hm.of rfl) _ _ h))
      · exact ih _ _ (State.routeCtl_on (hm.of rfl) _ _ h)

theorem State.afterUpdate_on {m : Nat} (hm : Covers 0x11cc27ea m) {s0 : State} (s : State) (a2) (a3) (h : Onward m s0 s) :
    Onward m s0 (State.afterUpdate s a2 a3) := by
  unfold State.afterUpdate
  split
  · exact h
  · split
    rename_i v7 _ e9
    have h10 : Onward m s0 v7 := Onward.eqL e9 (State.testGroup_on (hm.of rfl) _ _ h)
    exact State.musterOut_on (hm.of rfl) _ _ _ h10

theorem State.update_on {m : Nat} (hm : Covers 0x11cc27ea m) {s0 : State} (s : State) (a2) (a3) (a4) (a5) (a6) (a7) (a8) (a9) (a10) (h : Onward m s0 s) :
    Onward.T m s0 (State.update s a2 a3 a4 a5 a6 a7 a8 a9 a10) := by
  unfold State.update
  split
  rename_i v4 e5
  have h6 : Onward m s0 v4 := Onward.eqT e5 (State.atomAt_on (hm.of rfl) _ _ _ _ _ _ _ _ _ _ h)
  refine Onward.triple ?_
  refine ite_ind (P := Onward _ _) ?_ ?_
  · exact h6
  · exact State.afterUpdate_on (hm.of rfl) _ _ _ h6

theorem State.heldArrivals_on {m : Nat} (hm : Covers 0x11cc27ea m) {s0 : State} (s : State) (h : Onward m s0 s) :
    Onward m s0 (State.heldArrivals s) := by
  unfold State.heldArrivals
  refine eachUpTo_ind (P := Onward _ _) _ _ ?_ ?_
  · exact h
  · intro x1 x2 h3
    extract_lets +onlyGivenNames x4
    refine ite_ind (P := Onward _ _) ?_ ?_
    · exact h3
    · refine eachUpTo_ind (P := Onward _ _) _ _ ?_ ?_
      · exact State.setGroup_on (hm.of rfl) _ _ _ h3
      · intro x5 x6 h7
        split
        rename_i v9 _ e11
        have h12 : Onward m s0 v9 := Onward.eqL e11 (State.arrive_on (hm.of rfl) _ _ h7)
        exact State.musterOut_on (hm.of rfl) _ _ _ h12

theorem State.releaseDue_on {m : Nat} (hm : Covers 0x11cc27ea m) {s0 : State} (s : State) (a2) (h : Onward m s0 s) :
    Onward m s0 (State.releaseDue s a2) := by
  unfold State.releaseDue
  extract_lets +onlyGivenNames x1
  split
  · exact h
  · refine ite_ind (P := Onward _ _) ?_ ?_
    · exact h
    · extract_lets +onlyGivenNames x7
      split
      rename_i v9 _ e11
      have h12 : Onward m s0 v9 := by
        refine Onward.eqL e11 ?_
        refine ite_ind (P := Onward.L _ _) ?_ ?_
        · exact State.actRelease_on (hm.of rfl) _ _ _ _ _ h
        · exact State.actRelease_on (hm.of rfl) _ _ _ _ _ h
      extract_lets +onlyGivenNames x13
      have h14 : Onward m s0 x13 := by
        unfold x13
        exact State.musterOut_on (hm.of rfl) _ _ _ h12
      clear_value x13
      refine ite_ind (P := Onward _ _) ?_ ?_
      · exact State.irq_on (hm.of rfl) _ _ (State.wr_on (hm.of rfl) _ _ _ h14)
      · exact h14

theorem execMusterRelease_on {m : Nat} (hm : Covers 0x11cc27ea m) {s0 : State} (a1) (s : State) (h : Onward m s0 s) :
    Onward.O m s0 (execMusterRelease a1 s) := by
  unfold execMusterRelease
  exact State.releaseDue_on (hm.of rfl) _ _ h

theorem execMusterForceRelease_on {m : Nat} (hm : Covers 0x11000008 m) {s0 : State} (a1) (s : State) (h : Onward m s0 s) :
    Onward.O m s0 (execMusterForceRelease a1 s) := by
  unfold execMusterForceRelease
  refine ite_ind (P := Onward.O _ _) ?_ ?_
  · exact h
  · refine ite_ind (P := Onward.O _ _) ?_ ?_
    · exact State.wr_on (hm.of rfl) _ _ _ h
    · extract_lets +onlyGivenNames x1
      have h2 : Onward m s0 x1 := by
        unfold x1
        exact State.wr_on (hm.of rfl) _ _ _ (State.wr_on (hm.of rfl) _ _ _ h)
      clear_value x1
      refine ite_ind (P := Onward.O _ _) ?_ ?_
      · exact State.irq_on (hm.of rfl) _ _ (State.wr_on (hm.of rfl) _ _ _ (State.wr_on (hm.of rfl) _ _ _ h2))
      · exact State.wr_on (hm.of rfl) _ _ _ (State.wr_on (hm.of rfl) _ _ _ (State.setGroup_on (hm.of rfl) _ _ _ h2))

end Sys2Proof.Machine
end

