-- ==== Sys2Proof/Laws/State.lean ====
section
/-! SUPPORT. Laws/State.lean: what each named update leaves as it was, field by field. -/
namespace Sys2Proof.Machine

@[simp] theorem State.setReg_pending (s : State) (a : Nat) (v : Word) : (s.setReg a v).pending = s.pending := rfl
@[simp] theorem State.setReg_out (s : State) (a : Nat) (v : Word) : (s.setReg a v).out = s.out := rfl
@[simp] theorem State.setReg_free (s : State) (a : Nat) (v : Word) : (s.setReg a v).free = s.free := rfl
@[simp] theorem State.setReg_staged (s : State) (a : Nat) (v : Word) : (s.setReg a v).staged = s.staged := rfl
@[simp] theorem State.setReg_mem (s : State) (a : Nat) (v : Word) : (s.setReg a v).mem = s.mem := rfl
@[simp] theorem State.setReg_dramPoison (s : State) (a : Nat) (v : Word) : (s.setReg a v).dramPoison = s.dramPoison := rfl
@[simp] theorem State.setReg_fold (s : State) (a : Nat) (v : Word) : (s.setReg a v).fold = s.fold := rfl
@[simp] theorem State.setReg_foldPoison (s : State) (a : Nat) (v : Word) : (s.setReg a v).foldPoison = s.foldPoison := rfl
@[simp] theorem State.setReg_lines (s : State) (a : Nat) (v : Word) : (s.setReg a v).lines = s.lines := rfl
@[simp] theorem State.setReg_banks (s : State) (a : Nat) (v : Word) : (s.setReg a v).banks = s.banks := rfl
@[simp] theorem State.setReg_ways (s : State) (a : Nat) (v : Word) : (s.setReg a v).ways = s.ways := rfl
@[simp] theorem State.setReg_ranges (s : State) (a : Nat) (v : Word) : (s.setReg a v).ranges = s.ranges := rfl
@[simp] theorem State.setReg_strands (s : State) (a : Nat) (v : Word) : (s.setReg a v).strands = s.strands := rfl
@[simp] theorem State.setReg_drovers (s : State) (a : Nat) (v : Word) : (s.setReg a v).drovers = s.drovers := rfl
@[simp] theorem State.setReg_ops (s : State) (a : Nat) (v : Word) : (s.setReg a v).ops = s.ops := rfl
@[simp] theorem State.setReg_nextOp (s : State) (a : Nat) (v : Word) : (s.setReg a v).nextOp = s.nextOp := rfl
@[simp] theorem State.setReg_xl (s : State) (a : Nat) (v : Word) : (s.setReg a v).xl = s.xl := rfl
@[simp] theorem State.setReg_chans (s : State) (a : Nat) (v : Word) : (s.setReg a v).chans = s.chans := rfl
@[simp] theorem State.setReg_drams (s : State) (a : Nat) (v : Word) : (s.setReg a v).drams = s.drams := rfl
@[simp] theorem State.setReg_bell (s : State) (a : Nat) (v : Word) : (s.setReg a v).bell = s.bell := rfl
@[simp] theorem State.setReg_tally (s : State) (a : Nat) (v : Word) : (s.setReg a v).tally = s.tally := rfl
@[simp] theorem State.setReg_log (s : State) (a : Nat) (v : Word) : (s.setReg a v).log = s.log := rfl
@[simp] theorem State.setReg_dramUe (s : State) (a : Nat) (v : Word) : (s.setReg a v).dramUe = s.dramUe := rfl
@[simp] theorem State.setReg_irqs (s : State) (a : Nat) (v : Word) : (s.setReg a v).irqs = s.irqs := rfl
@[simp] theorem State.setReg_closed (s : State) (a : Nat) (v : Word) : (s.setReg a v).closed = s.closed := rfl
@[simp] theorem State.setReg_resetPaddocks (s : State) (a : Nat) (v : Word) : (s.setReg a v).resetPaddocks = s.resetPaddocks := rfl
@[simp] theorem State.setReg_siteReqs (s : State) (a : Nat) (v : Word) : (s.setReg a v).siteReqs = s.siteReqs := rfl
@[simp] theorem State.setReg_fab (s : State) (a : Nat) (v : Word) : (s.setReg a v).fab = s.fab := rfl
@[simp] theorem State.setReg_penClock (s : State) (a : Nat) (v : Word) : (s.setReg a v).penClock = s.penClock := rfl
@[simp] theorem State.setReg_penGated (s : State) (a : Nat) (v : Word) : (s.setReg a v).penGated = s.penGated := rfl
@[simp] theorem State.setReg_savedXfers (s : State) (a : Nat) (v : Word) : (s.setReg a v).savedXfers = s.savedXfers := rfl
@[simp] theorem State.setReg_loaded (s : State) (a : Nat) (v : Word) : (s.setReg a v).loaded = s.loaded := rfl
@[simp] theorem State.setReg_sites (s : State) (a : Nat) (v : Word) : (s.setReg a v).sites = s.sites := rfl
@[simp] theorem State.setReg_siteHeld (s : State) (a : Nat) (v : Word) : (s.setReg a v).siteHeld = s.siteHeld := rfl
@[simp] theorem State.setReg_mboxes (s : State) (a : Nat) (v : Word) : (s.setReg a v).mboxes = s.mboxes := rfl
@[simp] theorem State.setReg_zones (s : State) (a : Nat) (v : Word) : (s.setReg a v).zones = s.zones := rfl
@[simp] theorem State.setReg_move (s : State) (a : Nat) (v : Word) : (s.setReg a v).move = s.move := rfl
@[simp] theorem State.setReg_waking (s : State) (a : Nat) (v : Word) : (s.setReg a v).waking = s.waking := rfl
@[simp] theorem State.setReg_down (s : State) (a : Nat) (v : Word) : (s.setReg a v).down = s.down := rfl
@[simp] theorem State.setReg_resetting (s : State) (a : Nat) (v : Word) : (s.setReg a v).resetting = s.resetting := rfl
@[simp] theorem State.setReg_zeroPads (s : State) (a : Nat) (v : Word) : (s.setReg a v).zeroPads = s.zeroPads := rfl
@[simp] theorem State.setReg_mram (s : State) (a : Nat) (v : Word) : (s.setReg a v).mram = s.mram := rfl
@[simp] theorem State.setReg_flash (s : State) (a : Nat) (v : Word) : (s.setReg a v).flash = s.flash := rfl
@[simp] theorem State.setReg_crook (s : State) (a : Nat) (v : Word) : (s.setReg a v).crook = s.crook := rfl
@[simp] theorem State.setReg_ports (s : State) (a : Nat) (v : Word) : (s.setReg a v).ports = s.ports := rfl
@[simp] theorem State.setReg_trace (s : State) (a : Nat) (v : Word) : (s.setReg a v).trace = s.trace := rfl
@[simp] theorem State.setStg_pending (s : State) (a : Nat) (v : Word) : (s.setStg a v).pending = s.pending := rfl
@[simp] theorem State.setStg_out (s : State) (a : Nat) (v : Word) : (s.setStg a v).out = s.out := rfl
@[simp] theorem State.setStg_free (s : State) (a : Nat) (v : Word) : (s.setStg a v).free = s.free := rfl
@[simp] theorem State.setStg_regs (s : State) (a : Nat) (v : Word) : (s.setStg a v).regs = s.regs := rfl
@[simp] theorem State.setStg_mem (s : State) (a : Nat) (v : Word) : (s.setStg a v).mem = s.mem := rfl
@[simp] theorem State.setStg_dramPoison (s : State) (a : Nat) (v : Word) : (s.setStg a v).dramPoison = s.dramPoison := rfl
@[simp] theorem State.setStg_fold (s : State) (a : Nat) (v : Word) : (s.setStg a v).fold = s.fold := rfl
@[simp] theorem State.setStg_foldPoison (s : State) (a : Nat) (v : Word) : (s.setStg a v).foldPoison = s.foldPoison := rfl
@[simp] theorem State.setStg_lines (s : State) (a : Nat) (v : Word) : (s.setStg a v).lines = s.lines := rfl
@[simp] theorem State.setStg_banks (s : State) (a : Nat) (v : Word) : (s.setStg a v).banks = s.banks := rfl
@[simp] theorem State.setStg_ways (s : State) (a : Nat) (v : Word) : (s.setStg a v).ways = s.ways := rfl
@[simp] theorem State.setStg_ranges (s : State) (a : Nat) (v : Word) : (s.setStg a v).ranges = s.ranges := rfl
@[simp] theorem State.setStg_strands (s : State) (a : Nat) (v : Word) : (s.setStg a v).strands = s.strands := rfl
@[simp] theorem State.setStg_drovers (s : State) (a : Nat) (v : Word) : (s.setStg a v).drovers = s.drovers := rfl
@[simp] theorem State.setStg_ops (s : State) (a : Nat) (v : Word) : (s.setStg a v).ops = s.ops := rfl
@[simp] theorem State.setStg_nextOp (s : State) (a : Nat) (v : Word) : (s.setStg a v).nextOp = s.nextOp := rfl
@[simp] theorem State.setStg_xl (s : State) (a : Nat) (v : Word) : (s.setStg a v).xl = s.xl := rfl
@[simp] theorem State.setStg_chans (s : State) (a : Nat) (v : Word) : (s.setStg a v).chans = s.chans := rfl
@[simp] theorem State.setStg_drams (s : State) (a : Nat) (v : Word) : (s.setStg a v).drams = s.drams := rfl
@[simp] theorem State.setStg_bell (s : State) (a : Nat) (v : Word) : (s.setStg a v).bell = s.bell := rfl
@[simp] theorem State.setStg_tally (s : State) (a : Nat) (v : Word) : (s.setStg a v).tally = s.tally := rfl
@[simp] theorem State.setStg_log (s : State) (a : Nat) (v : Word) : (s.setStg a v).log = s.log := rfl
@[simp] theorem State.setStg_dramUe (s : State) (a : Nat) (v : Word) : (s.setStg a v).dramUe = s.dramUe := rfl
@[simp] theorem State.setStg_irqs (s : State) (a : Nat) (v : Word) : (s.setStg a v).irqs = s.irqs := rfl
@[simp] theorem State.setStg_closed (s : State) (a : Nat) (v : Word) : (s.setStg a v).closed = s.closed := rfl
@[simp] theorem State.setStg_resetPaddocks (s : State) (a : Nat) (v : Word) : (s.setStg a v).resetPaddocks = s.resetPaddocks := rfl
@[simp] theorem State.setStg_siteReqs (s : State) (a : Nat) (v : Word) : (s.setStg a v).siteReqs = s.siteReqs := rfl
@[simp] theorem State.setStg_fab (s : State) (a : Nat) (v : Word) : (s.setStg a v).fab = s.fab := rfl
@[simp] theorem State.setStg_penClock (s : State) (a : Nat) (v : Word) : (s.setStg a v).penClock = s.penClock := rfl
@[simp] theorem State.setStg_penGated (s : State) (a : Nat) (v : Word) : (s.setStg a v).penGated = s.penGated := rfl
@[simp] theorem State.setStg_savedXfers (s : State) (a : Nat) (v : Word) : (s.setStg a v).savedXfers = s.savedXfers := rfl
@[simp] theorem State.setStg_loaded (s : State) (a : Nat) (v : Word) : (s.setStg a v).loaded = s.loaded := rfl
@[simp] theorem State.setStg_sites (s : State) (a : Nat) (v : Word) : (s.setStg a v).sites = s.sites := rfl
@[simp] theorem State.setStg_siteHeld (s : State) (a : Nat) (v : Word) : (s.setStg a v).siteHeld = s.siteHeld := rfl
@[simp] theorem State.setStg_mboxes (s : State) (a : Nat) (v : Word) : (s.setStg a v).mboxes = s.mboxes := rfl
@[simp] theorem State.setStg_zones (s : State) (a : Nat) (v : Word) : (s.setStg a v).zones = s.zones := rfl
@[simp] theorem State.setStg_move (s : State) (a : Nat) (v : Word) : (s.setStg a v).move = s.move := rfl
@[simp] theorem State.setStg_waking (s : State) (a : Nat) (v : Word) : (s.setStg a v).waking = s.waking := rfl
@[simp] theorem State.setStg_down (s : State) (a : Nat) (v : Word) : (s.setStg a v).down = s.down := rfl
@[simp] theorem State.setStg_resetting (s : State) (a : Nat) (v : Word) : (s.setStg a v).resetting = s.resetting := rfl
@[simp] theorem State.setStg_zeroPads (s : State) (a : Nat) (v : Word) : (s.setStg a v).zeroPads = s.zeroPads := rfl
@[simp] theorem State.setStg_mram (s : State) (a : Nat) (v : Word) : (s.setStg a v).mram = s.mram := rfl
@[simp] theorem State.setStg_flash (s : State) (a : Nat) (v : Word) : (s.setStg a v).flash = s.flash := rfl
@[simp] theorem State.setStg_crook (s : State) (a : Nat) (v : Word) : (s.setStg a v).crook = s.crook := rfl
@[simp] theorem State.setStg_ports (s : State) (a : Nat) (v : Word) : (s.setStg a v).ports = s.ports := rfl
@[simp] theorem State.setStg_trace (s : State) (a : Nat) (v : Word) : (s.setStg a v).trace = s.trace := rfl
@[simp] theorem State.wr_pending (s : State) (f : Fld) (v : Nat) : (s.wr f v).pending = s.pending := rfl
@[simp] theorem State.wr_out (s : State) (f : Fld) (v : Nat) : (s.wr f v).out = s.out := rfl
@[simp] theorem State.wr_free (s : State) (f : Fld) (v : Nat) : (s.wr f v).free = s.free := rfl
@[simp] theorem State.wr_staged (s : State) (f : Fld) (v : Nat) : (s.wr f v).staged = s.staged := rfl
@[simp] theorem State.wr_mem (s : State) (f : Fld) (v : Nat) : (s.wr f v).mem = s.mem := rfl
@[simp] theorem State.wr_dramPoison (s : State) (f : Fld) (v : Nat) : (s.wr f v).dramPoison = s.dramPoison := rfl
@[simp] theorem State.wr_fold (s : State) (f : Fld) (v : Nat) : (s.wr f v).fold = s.fold := rfl
@[simp] theorem State.wr_foldPoison (s : State) (f : Fld) (v : Nat) : (s.wr f v).foldPoison = s.foldPoison := rfl
@[simp] theorem State.wr_lines (s : State) (f : Fld) (v : Nat) : (s.wr f v).lines = s.lines := rfl
@[simp] theorem State.wr_banks (s : State) (f : Fld) (v : Nat) : (s.wr f v).banks = s.banks := rfl
@[simp] theorem State.wr_ways (s : State) (f : Fld) (v : Nat) : (s.wr f v).ways = s.ways := rfl
@[simp] theorem State.wr_ranges (s : State) (f : Fld) (v : Nat) : (s.wr f v).ranges = s.ranges := rfl
@[simp] theorem State.wr_strands (s : State) (f : Fld) (v : Nat) : (s.wr f v).strands = s.strands := rfl
@[simp] theorem State.wr_drovers (s : State) (f : Fld) (v : Nat) : (s.wr f v).drovers = s.drovers := rfl
@[simp] theorem State.wr_ops (s : State) (f : Fld) (v : Nat) : (s.wr f v).ops = s.ops := rfl
@[simp] theorem State.wr_nextOp (s : State) (f : Fld) (v : Nat) : (s.wr f v).nextOp = s.nextOp := rfl
@[simp] theorem State.wr_xl (s : State) (f : Fld) (v : Nat) : (s.wr f v).xl = s.xl := rfl
@[simp] theorem State.wr_chans (s : State) (f : Fld) (v : Nat) : (s.wr f v).chans = s.chans := rfl
@[simp] theorem State.wr_drams (s : State) (f : Fld) (v : Nat) : (s.wr f v).drams = s.drams := rfl
@[simp] theorem State.wr_bell (s : State) (f : Fld) (v : Nat) : (s.wr f v).bell = s.bell := rfl
@[simp] theorem State.wr_tally (s : State) (f : Fld) (v : Nat) : (s.wr f v).tally = s.tally := rfl
@[simp] theorem State.wr_log (s : State) (f : Fld) (v : Nat) : (s.wr f v).log = s.log := rfl
@[simp] theorem State.wr_dramUe (s : State) (f : Fld) (v : Nat) : (s.wr f v).dramUe = s.dramUe := rfl
@[simp] theorem State.wr_irqs (s : State) (f : Fld) (v : Nat) : (s.wr f v).irqs = s.irqs := rfl
@[simp] theorem State.wr_closed (s : State) (f : Fld) (v : Nat) : (s.wr f v).closed = s.closed := rfl
@[simp] theorem State.wr_resetPaddocks (s : State) (f : Fld) (v : Nat) : (s.wr f v).resetPaddocks = s.resetPaddocks := rfl
@[simp] theorem State.wr_siteReqs (s : State) (f : Fld) (v : Nat) : (s.wr f v).siteReqs = s.siteReqs := rfl
@[simp] theorem State.wr_fab (s : State) (f : Fld) (v : Nat) : (s.wr f v).fab = s.fab := rfl
@[simp] theorem State.wr_penClock (s : State) (f : Fld) (v : Nat) : (s.wr f v).penClock = s.penClock := rfl
@[simp] theorem State.wr_penGated (s : State) (f : Fld) (v : Nat) : (s.wr f v).penGated = s.penGated := rfl
@[simp] theorem State.wr_savedXfers (s : State) (f : Fld) (v : Nat) : (s.wr f v).savedXfers = s.savedXfers := rfl
@[simp] theorem State.wr_loaded (s : State) (f : Fld) (v : Nat) : (s.wr f v).loaded = s.loaded := rfl
@[simp] theorem State.wr_sites (s : State) (f : Fld) (v : Nat) : (s.wr f v).sites = s.sites := rfl
@[simp] theorem State.wr_siteHeld (s : State) (f : Fld) (v : Nat) : (s.wr f v).siteHeld = s.siteHeld := rfl
@[simp] theorem State.wr_mboxes (s : State) (f : Fld) (v : Nat) : (s.wr f v).mboxes = s.mboxes := rfl
@[simp] theorem State.wr_zones (s : State) (f : Fld) (v : Nat) : (s.wr f v).zones = s.zones := rfl
@[simp] theorem State.wr_move (s : State) (f : Fld) (v : Nat) : (s.wr f v).move = s.move := rfl
@[simp] theorem State.wr_waking (s : State) (f : Fld) (v : Nat) : (s.wr f v).waking = s.waking := rfl
@[simp] theorem State.wr_down (s : State) (f : Fld) (v : Nat) : (s.wr f v).down = s.down := rfl
@[simp] theorem State.wr_resetting (s : State) (f : Fld) (v : Nat) : (s.wr f v).resetting = s.resetting := rfl
@[simp] theorem State.wr_zeroPads (s : State) (f : Fld) (v : Nat) : (s.wr f v).zeroPads = s.zeroPads := rfl
@[simp] theorem State.wr_mram (s : State) (f : Fld) (v : Nat) : (s.wr f v).mram = s.mram := rfl
@[simp] theorem State.wr_flash (s : State) (f : Fld) (v : Nat) : (s.wr f v).flash = s.flash := rfl
@[simp] theorem State.wr_crook (s : State) (f : Fld) (v : Nat) : (s.wr f v).crook = s.crook := rfl
@[simp] theorem State.wr_ports (s : State) (f : Fld) (v : Nat) : (s.wr f v).ports = s.ports := rfl
@[simp] theorem State.wr_trace (s : State) (f : Fld) (v : Nat) : (s.wr f v).trace = s.trace := rfl
@[simp] theorem State.wrS_pending (s : State) (f : Fld) (v : Nat) : (s.wrS f v).pending = s.pending := rfl
@[simp] theorem State.wrS_out (s : State) (f : Fld) (v : Nat) : (s.wrS f v).out = s.out := rfl
@[simp] theorem State.wrS_free (s : State) (f : Fld) (v : Nat) : (s.wrS f v).free = s.free := rfl
@[simp] theorem State.wrS_regs (s : State) (f : Fld) (v : Nat) : (s.wrS f v).regs = s.regs := rfl
@[simp] theorem State.wrS_mem (s : State) (f : Fld) (v : Nat) : (s.wrS f v).mem = s.mem := rfl
@[simp] theorem State.wrS_dramPoison (s : State) (f : Fld) (v : Nat) : (s.wrS f v).dramPoison = s.dramPoison := rfl
@[simp] theorem State.wrS_fold (s : State) (f : Fld) (v : Nat) : (s.wrS f v).fold = s.fold := rfl
@[simp] theorem State.wrS_foldPoison (s : State) (f : Fld) (v : Nat) : (s.wrS f v).foldPoison = s.foldPoison := rfl
@[simp] theorem State.wrS_lines (s : State) (f : Fld) (v : Nat) : (s.wrS f v).lines = s.lines := rfl
@[simp] theorem State.wrS_banks (s : State) (f : Fld) (v : Nat) : (s.wrS f v).banks = s.banks := rfl
@[simp] theorem State.wrS_ways (s : State) (f : Fld) (v : Nat) : (s.wrS f v).ways = s.ways := rfl
@[simp] theorem State.wrS_ranges (s : State) (f : Fld) (v : Nat) : (s.wrS f v).ranges = s.ranges := rfl
@[simp] theorem State.wrS_strands (s : State) (f : Fld) (v : Nat) : (s.wrS f v).strands = s.strands := rfl
@[simp] theorem State.wrS_drovers (s : State) (f : Fld) (v : Nat) : (s.wrS f v).drovers = s.drovers := rfl
@[simp] theorem State.wrS_ops (s : State) (f : Fld) (v : Nat) : (s.wrS f v).ops = s.ops := rfl
@[simp] theorem State.wrS_nextOp (s : State) (f : Fld) (v : Nat) : (s.wrS f v).nextOp = s.nextOp := rfl
@[simp] theorem State.wrS_xl (s : State) (f : Fld) (v : Nat) : (s.wrS f v).xl = s.xl := rfl
@[simp] theorem State.wrS_chans (s : State) (f : Fld) (v : Nat) : (s.wrS f v).chans = s.chans := rfl
@[simp] theorem State.wrS_drams (s : State) (f : Fld) (v : Nat) : (s.wrS f v).drams = s.drams := rfl
@[simp] theorem State.wrS_bell (s : State) (f : Fld) (v : Nat) : (s.wrS f v).bell = s.bell := rfl
@[simp] theorem State.wrS_tally (s : State) (f : Fld) (v : Nat) : (s.wrS f v).tally = s.tally := rfl
@[simp] theorem State.wrS_log (s : State) (f : Fld) (v : Nat) : (s.wrS f v).log = s.log := rfl
@[simp] theorem State.wrS_dramUe (s : State) (f : Fld) (v : Nat) : (s.wrS f v).dramUe = s.dramUe := rfl
@[simp] theorem State.wrS_irqs (s : State) (f : Fld) (v : Nat) : (s.wrS f v).irqs = s.irqs := rfl
@[simp] theorem State.wrS_closed (s : State) (f : Fld) (v : Nat) : (s.wrS f v).closed = s.closed := rfl
@[simp] theorem State.wrS_resetPaddocks (s : State) (f : Fld) (v : Nat) : (s.wrS f v).resetPaddocks = s.resetPaddocks := rfl
@[simp] theorem State.wrS_siteReqs (s : State) (f : Fld) (v : Nat) : (s.wrS f v).siteReqs = s.siteReqs := rfl
@[simp] theorem State.wrS_fab (s : State) (f : Fld) (v : Nat) : (s.wrS f v).fab = s.fab := rfl
@[simp] theorem State.wrS_penClock (s : State) (f : Fld) (v : Nat) : (s.wrS f v).penClock = s.penClock := rfl
@[simp] theorem State.wrS_penGated (s : State) (f : Fld) (v : Nat) : (s.wrS f v).penGated = s.penGated := rfl
@[simp] theorem State.wrS_savedXfers (s : State) (f : Fld) (v : Nat) : (s.wrS f v).savedXfers = s.savedXfers := rfl
@[simp] theorem State.wrS_loaded (s : State) (f : Fld) (v : Nat) : (s.wrS f v).loaded = s.loaded := rfl
@[simp] theorem State.wrS_sites (s : State) (f : Fld) (v : Nat) : (s.wrS f v).sites = s.sites := rfl
@[simp] theorem State.wrS_siteHeld (s : State) (f : Fld) (v : Nat) : (s.wrS f v).siteHeld = s.siteHeld := rfl
@[simp] theorem State.wrS_mboxes (s : State) (f : Fld) (v : Nat) : (s.wrS f v).mboxes = s.mboxes := rfl
@[simp] theorem State.wrS_zones (s : State) (f : Fld) (v : Nat) : (s.wrS f v).zones = s.zones := rfl
@[simp] theorem State.wrS_move (s : State) (f : Fld) (v : Nat) : (s.wrS f v).move = s.move := rfl
@[simp] theorem State.wrS_waking (s : State) (f : Fld) (v : Nat) : (s.wrS f v).waking = s.waking := rfl
@[simp] theorem State.wrS_down (s : State) (f : Fld) (v : Nat) : (s.wrS f v).down = s.down := rfl
@[simp] theorem State.wrS_resetting (s : State) (f : Fld) (v : Nat) : (s.wrS f v).resetting = s.resetting := rfl
@[simp] theorem State.wrS_zeroPads (s : State) (f : Fld) (v : Nat) : (s.wrS f v).zeroPads = s.zeroPads := rfl
@[simp] theorem State.wrS_mram (s : State) (f : Fld) (v : Nat) : (s.wrS f v).mram = s.mram := rfl
@[simp] theorem State.wrS_flash (s : State) (f : Fld) (v : Nat) : (s.wrS f v).flash = s.flash := rfl
@[simp] theorem State.wrS_crook (s : State) (f : Fld) (v : Nat) : (s.wrS f v).crook = s.crook := rfl
@[simp] theorem State.wrS_ports (s : State) (f : Fld) (v : Nat) : (s.wrS f v).ports = s.ports := rfl
@[simp] theorem State.wrS_trace (s : State) (f : Fld) (v : Nat) : (s.wrS f v).trace = s.trace := rfl
@[simp] theorem State.inc_pending (s : State) (f : Fld) (k : Nat) : (s.inc f k).pending = s.pending := rfl
@[simp] theorem State.inc_out (s : State) (f : Fld) (k : Nat) : (s.inc f k).out = s.out := rfl
@[simp] theorem State.inc_free (s : State) (f : Fld) (k : Nat) : (s.inc f k).free = s.free := rfl
@[simp] theorem State.inc_staged (s : State) (f : Fld) (k : Nat) : (s.inc f k).staged = s.staged := rfl
@[simp] theorem State.inc_mem (s : State) (f : Fld) (k : Nat) : (s.inc f k).mem = s.mem := rfl
@[simp] theorem State.inc_dramPoison (s : State) (f : Fld) (k : Nat) : (s.inc f k).dramPoison = s.dramPoison := rfl
@[simp] theorem State.inc_fold (s : State) (f : Fld) (k : Nat) : (s.inc f k).fold = s.fold := rfl
@[simp] theorem State.inc_foldPoison (s : State) (f : Fld) (k : Nat) : (s.inc f k).foldPoison = s.foldPoison := rfl
@[simp] theorem State.inc_lines (s : State) (f : Fld) (k : Nat) : (s.inc f k).lines = s.lines := rfl
@[simp] theorem State.inc_banks (s : State) (f : Fld) (k : Nat) : (s.inc f k).banks = s.banks := rfl
@[simp] theorem State.inc_ways (s : State) (f : Fld) (k : Nat) : (s.inc f k).ways = s.ways := rfl
@[simp] theorem State.inc_ranges (s : State) (f : Fld) (k : Nat) : (s.inc f k).ranges = s.ranges := rfl
@[simp] theorem State.inc_strands (s : State) (f : Fld) (k : Nat) : (s.inc f k).strands = s.strands := rfl
@[simp] theorem State.inc_drovers (s : State) (f : Fld) (k : Nat) : (s.inc f k).drovers = s.drovers := rfl
@[simp] theorem State.inc_ops (s : State) (f : Fld) (k : Nat) : (s.inc f k).ops = s.ops := rfl
@[simp] theorem State.inc_nextOp (s : State) (f : Fld) (k : Nat) : (s.inc f k).nextOp = s.nextOp := rfl
@[simp] theorem State.inc_xl (s : State) (f : Fld) (k : Nat) : (s.inc f k).xl = s.xl := rfl
@[simp] theorem State.inc_chans (s : State) (f : Fld) (k : Nat) : (s.inc f k).chans = s.chans := rfl
@[simp] theorem State.inc_drams (s : State) (f : Fld) (k : Nat) : (s.inc f k).drams = s.drams := rfl
@[simp] theorem State.inc_bell (s : State) (f : Fld) (k : Nat) : (s.inc f k).bell = s.bell := rfl
@[simp] theorem State.inc_tally (s : State) (f : Fld) (k : Nat) : (s.inc f k).tally = s.tally := rfl
@[simp] theorem State.inc_log (s : State) (f : Fld) (k : Nat) : (s.inc f k).log = s.log := rfl
@[simp] theorem State.inc_dramUe (s : State) (f : Fld) (k : Nat) : (s.inc f k).dramUe = s.dramUe := rfl
@[simp] theorem State.inc_irqs (s : State) (f : Fld) (k : Nat) : (s.inc f k).irqs = s.irqs := rfl
@[simp] theorem State.inc_closed (s : State) (f : Fld) (k : Nat) : (s.inc f k).closed = s.closed := rfl
@[simp] theorem State.inc_resetPaddocks (s : State) (f : Fld) (k : Nat) : (s.inc f k).resetPaddocks = s.resetPaddocks := rfl
@[simp] theorem State.inc_siteReqs (s : State) (f : Fld) (k : Nat) : (s.inc f k).siteReqs = s.siteReqs := rfl
@[simp] theorem State.inc_fab (s : State) (f : Fld) (k : Nat) : (s.inc f k).fab = s.fab := rfl
@[simp] theorem State.inc_penClock (s : State) (f : Fld) (k : Nat) : (s.inc f k).penClock = s.penClock := rfl
@[simp] theorem State.inc_penGated (s : State) (f : Fld) (k : Nat) : (s.inc f k).penGated = s.penGated := rfl
@[simp] theorem State.inc_savedXfers (s : State) (f : Fld) (k : Nat) : (s.inc f k).savedXfers = s.savedXfers := rfl
@[simp] theorem State.inc_loaded (s : State) (f : Fld) (k : Nat) : (s.inc f k).loaded = s.loaded := rfl
@[simp] theorem State.inc_sites (s : State) (f : Fld) (k : Nat) : (s.inc f k).sites = s.sites := rfl
@[simp] theorem State.inc_siteHeld (s : State) (f : Fld) (k : Nat) : (s.inc f k).siteHeld = s.siteHeld := rfl
@[simp] theorem State.inc_mboxes (s : State) (f : Fld) (k : Nat) : (s.inc f k).mboxes = s.mboxes := rfl
@[simp] theorem State.inc_zones (s : State) (f : Fld) (k : Nat) : (s.inc f k).zones = s.zones := rfl
@[simp] theorem State.inc_move (s : State) (f : Fld) (k : Nat) : (s.inc f k).move = s.move := rfl
@[simp] theorem State.inc_waking (s : State) (f : Fld) (k : Nat) : (s.inc f k).waking = s.waking := rfl
@[simp] theorem State.inc_down (s : State) (f : Fld) (k : Nat) : (s.inc f k).down = s.down := rfl
@[simp] theorem State.inc_resetting (s : State) (f : Fld) (k : Nat) : (s.inc f k).resetting = s.resetting := rfl
@[simp] theorem State.inc_zeroPads (s : State) (f : Fld) (k : Nat) : (s.inc f k).zeroPads = s.zeroPads := rfl
@[simp] theorem State.inc_mram (s : State) (f : Fld) (k : Nat) : (s.inc f k).mram = s.mram := rfl
@[simp] theorem State.inc_flash (s : State) (f : Fld) (k : Nat) : (s.inc f k).flash = s.flash := rfl
@[simp] theorem State.inc_crook (s : State) (f : Fld) (k : Nat) : (s.inc f k).crook = s.crook := rfl
@[simp] theorem State.inc_ports (s : State) (f : Fld) (k : Nat) : (s.inc f k).ports = s.ports := rfl
@[simp] theorem State.inc_trace (s : State) (f : Fld) (k : Nat) : (s.inc f k).trace = s.trace := rfl
@[simp] theorem State.sat_pending (s : State) (f : Fld) (k : Nat) : (s.sat f k).pending = s.pending := rfl
@[simp] theorem State.sat_out (s : State) (f : Fld) (k : Nat) : (s.sat f k).out = s.out := rfl
@[simp] theorem State.sat_free (s : State) (f : Fld) (k : Nat) : (s.sat f k).free = s.free := rfl
@[simp] theorem State.sat_staged (s : State) (f : Fld) (k : Nat) : (s.sat f k).staged = s.staged := rfl
@[simp] theorem State.sat_mem (s : State) (f : Fld) (k : Nat) : (s.sat f k).mem = s.mem := rfl
@[simp] theorem State.sat_dramPoison (s : State) (f : Fld) (k : Nat) : (s.sat f k).dramPoison = s.dramPoison := rfl
@[simp] theorem State.sat_fold (s : State) (f : Fld) (k : Nat) : (s.sat f k).fold = s.fold := rfl
@[simp] theorem State.sat_foldPoison (s : State) (f : Fld) (k : Nat) : (s.sat f k).foldPoison = s.foldPoison := rfl
@[simp] theorem State.sat_lines (s : State) (f : Fld) (k : Nat) : (s.sat f k).lines = s.lines := rfl
@[simp] theorem State.sat_banks (s : State) (f : Fld) (k : Nat) : (s.sat f k).banks = s.banks := rfl
@[simp] theorem State.sat_ways (s : State) (f : Fld) (k : Nat) : (s.sat f k).ways = s.ways := rfl
@[simp] theorem State.sat_ranges (s : State) (f : Fld) (k : Nat) : (s.sat f k).ranges = s.ranges := rfl
@[simp] theorem State.sat_strands (s : State) (f : Fld) (k : Nat) : (s.sat f k).strands = s.strands := rfl
@[simp] theorem State.sat_drovers (s : State) (f : Fld) (k : Nat) : (s.sat f k).drovers = s.drovers := rfl
@[simp] theorem State.sat_ops (s : State) (f : Fld) (k : Nat) : (s.sat f k).ops = s.ops := rfl
@[simp] theorem State.sat_nextOp (s : State) (f : Fld) (k : Nat) : (s.sat f k).nextOp = s.nextOp := rfl
@[simp] theorem State.sat_xl (s : State) (f : Fld) (k : Nat) : (s.sat f k).xl = s.xl := rfl
@[simp] theorem State.sat_chans (s : State) (f : Fld) (k : Nat) : (s.sat f k).chans = s.chans := rfl
@[simp] theorem State.sat_drams (s : State) (f : Fld) (k : Nat) : (s.sat f k).drams = s.drams := rfl
@[simp] theorem State.sat_bell (s : State) (f : Fld) (k : Nat) : (s.sat f k).bell = s.bell := rfl
@[simp] theorem State.sat_tally (s : State) (f : Fld) (k : Nat) : (s.sat f k).tally = s.tally := rfl
@[simp] theorem State.sat_log (s : State) (f : Fld) (k : Nat) : (s.sat f k).log = s.log := rfl
@[simp] theorem State.sat_dramUe (s : State) (f : Fld) (k : Nat) : (s.sat f k).dramUe = s.dramUe := rfl
@[simp] theorem State.sat_irqs (s : State) (f : Fld) (k : Nat) : (s.sat f k).irqs = s.irqs := rfl
@[simp] theorem State.sat_closed (s : State) (f : Fld) (k : Nat) : (s.sat f k).closed = s.closed := rfl
@[simp] theorem State.sat_resetPaddocks (s : State) (f : Fld) (k : Nat) : (s.sat f k).resetPaddocks = s.resetPaddocks := rfl
@[simp] theorem State.sat_siteReqs (s : State) (f : Fld) (k : Nat) : (s.sat f k).siteReqs = s.siteReqs := rfl
@[simp] theorem State.sat_fab (s : State) (f : Fld) (k : Nat) : (s.sat f k).fab = s.fab := rfl
@[simp] theorem State.sat_penClock (s : State) (f : Fld) (k : Nat) : (s.sat f k).penClock = s.penClock := rfl
@[simp] theorem State.sat_penGated (s : State) (f : Fld) (k : Nat) : (s.sat f k).penGated = s.penGated := rfl
@[simp] theorem State.sat_savedXfers (s : State) (f : Fld) (k : Nat) : (s.sat f k).savedXfers = s.savedXfers := rfl
@[simp] theorem State.sat_loaded (s : State) (f : Fld) (k : Nat) : (s.sat f k).loaded = s.loaded := rfl
@[simp] theorem State.sat_sites (s : State) (f : Fld) (k : Nat) : (s.sat f k).sites = s.sites := rfl
@[simp] theorem State.sat_siteHeld (s : State) (f : Fld) (k : Nat) : (s.sat f k).siteHeld = s.siteHeld := rfl
@[simp] theorem State.sat_mboxes (s : State) (f : Fld) (k : Nat) : (s.sat f k).mboxes = s.mboxes := rfl
@[simp] theorem State.sat_zones (s : State) (f : Fld) (k : Nat) : (s.sat f k).zones = s.zones := rfl
@[simp] theorem State.sat_move (s : State) (f : Fld) (k : Nat) : (s.sat f k).move = s.move := rfl
@[simp] theorem State.sat_waking (s : State) (f : Fld) (k : Nat) : (s.sat f k).waking = s.waking := rfl
@[simp] theorem State.sat_down (s : State) (f : Fld) (k : Nat) : (s.sat f k).down = s.down := rfl
@[simp] theorem State.sat_resetting (s : State) (f : Fld) (k : Nat) : (s.sat f k).resetting = s.resetting := rfl
@[simp] theorem State.sat_zeroPads (s : State) (f : Fld) (k : Nat) : (s.sat f k).zeroPads = s.zeroPads := rfl
@[simp] theorem State.sat_mram (s : State) (f : Fld) (k : Nat) : (s.sat f k).mram = s.mram := rfl
@[simp] theorem State.sat_flash (s : State) (f : Fld) (k : Nat) : (s.sat f k).flash = s.flash := rfl
@[simp] theorem State.sat_crook (s : State) (f : Fld) (k : Nat) : (s.sat f k).crook = s.crook := rfl
@[simp] theorem State.sat_ports (s : State) (f : Fld) (k : Nat) : (s.sat f k).ports = s.ports := rfl
@[simp] theorem State.sat_trace (s : State) (f : Fld) (k : Nat) : (s.sat f k).trace = s.trace := rfl
@[simp] theorem State.emit_pending (s : State) (o : Out) : (s.emit o).pending = s.pending := rfl
@[simp] theorem State.emit_free (s : State) (o : Out) : (s.emit o).free = s.free := rfl
@[simp] theorem State.emit_regs (s : State) (o : Out) : (s.emit o).regs = s.regs := rfl
@[simp] theorem State.emit_staged (s : State) (o : Out) : (s.emit o).staged = s.staged := rfl
@[simp] theorem State.emit_mem (s : State) (o : Out) : (s.emit o).mem = s.mem := rfl
@[simp] theorem State.emit_dramPoison (s : State) (o : Out) : (s.emit o).dramPoison = s.dramPoison := rfl
@[simp] theorem State.emit_fold (s : State) (o : Out) : (s.emit o).fold = s.fold := rfl
@[simp] theorem State.emit_foldPoison (s : State) (o : Out) : (s.emit o).foldPoison = s.foldPoison := rfl
@[simp] theorem State.emit_lines (s : State) (o : Out) : (s.emit o).lines = s.lines := rfl
@[simp] theorem State.emit_banks (s : State) (o : Out) : (s.emit o).banks = s.banks := rfl
@[simp] theorem State.emit_ways (s : State) (o : Out) : (s.emit o).ways = s.ways := rfl
@[simp] theorem State.emit_ranges (s : State) (o : Out) : (s.emit o).ranges = s.ranges := rfl
@[simp] theorem State.emit_strands (s : State) (o : Out) : (s.emit o).strands = s.strands := rfl
@[simp] theorem State.emit_drovers (s : State) (o : Out) : (s.emit o).drovers = s.drovers := rfl
@[simp] theorem State.emit_ops (s : State) (o : Out) : (s.emit o).ops = s.ops := rfl
@[simp] theorem State.emit_nextOp (s : State) (o : Out) : (s.emit o).nextOp = s.nextOp := rfl
@[simp] theorem State.emit_xl (s : State) (o : Out) : (s.emit o).xl = s.xl := rfl
@[simp] theorem State.emit_chans (s : State) (o : Out) : (s.emit o).chans = s.chans := rfl
@[simp] theorem State.emit_drams (s : State) (o : Out) : (s.emit o).drams = s.drams := rfl
@[simp] theorem State.emit_bell (s : State) (o : Out) : (s.emit o).bell = s.bell := rfl
@[simp] theorem State.emit_tally (s : State) (o : Out) : (s.emit o).tally = s.tally := rfl
@[simp] theorem State.emit_log (s : State) (o : Out) : (s.emit o).log = s.log := rfl
@[simp] theorem State.emit_dramUe (s : State) (o : Out) : (s.emit o).dramUe = s.dramUe := rfl
@[simp] theorem State.emit_irqs (s : State) (o : Out) : (s.emit o).irqs = s.irqs := rfl
@[simp] theorem State.emit_closed (s : State) (o : Out) : (s.emit o).closed = s.closed := rfl
@[simp] theorem State.emit_resetPaddocks (s : State) (o : Out) : (s.emit o).resetPaddocks = s.resetPaddocks := rfl
@[simp] theorem State.emit_siteReqs (s : State) (o : Out) : (s.emit o).siteReqs = s.siteReqs := rfl
@[simp] theorem State.emit_fab (s : State) (o : Out) : (s.emit o).fab = s.fab := rfl
@[simp] theorem State.emit_penClock (s : State) (o : Out) : (s.emit o).penClock = s.penClock := rfl
@[simp] theorem State.emit_penGated (s : State) (o : Out) : (s.emit o).penGated = s.penGated := rfl
@[simp] theorem State.emit_savedXfers (s : State) (o : Out) : (s.emit o).savedXfers = s.savedXfers := rfl
@[simp] theorem State.emit_loaded (s : State) (o : Out) : (s.emit o).loaded = s.loaded := rfl
@[simp] theorem State.emit_sites (s : State) (o : Out) : (s.emit o).sites = s.sites := rfl
@[simp] theorem State.emit_siteHeld (s : State) (o : Out) : (s.emit o).siteHeld = s.siteHeld := rfl
@[simp] theorem State.emit_mboxes (s : State) (o : Out) : (s.emit o).mboxes = s.mboxes := rfl
@[simp] theorem State.emit_zones (s : State) (o : Out) : (s.emit o).zones = s.zones := rfl
@[simp] theorem State.emit_move (s : State) (o : Out) : (s.emit o).move = s.move := rfl
@[simp] theorem State.emit_waking (s : State) (o : Out) : (s.emit o).waking = s.waking := rfl
@[simp] theorem State.emit_down (s : State) (o : Out) : (s.emit o).down = s.down := rfl
@[simp] theorem State.emit_resetting (s : State) (o : Out) : (s.emit o).resetting = s.resetting := rfl
@[simp] theorem State.emit_zeroPads (s : State) (o : Out) : (s.emit o).zeroPads = s.zeroPads := rfl
@[simp] theorem State.emit_mram (s : State) (o : Out) : (s.emit o).mram = s.mram := rfl
@[simp] theorem State.emit_flash (s : State) (o : Out) : (s.emit o).flash = s.flash := rfl
@[simp] theorem State.emit_crook (s : State) (o : Out) : (s.emit o).crook = s.crook := rfl
@[simp] theorem State.emit_ports (s : State) (o : Out) : (s.emit o).ports = s.ports := rfl
@[simp] theorem State.emit_trace (s : State) (o : Out) : (s.emit o).trace = s.trace := rfl
@[simp] theorem State.irq_pending (s : State) (n : Nat) : (s.irq n).pending = s.pending := rfl
@[simp] theorem State.irq_out (s : State) (n : Nat) : (s.irq n).out = s.out := rfl
@[simp] theorem State.irq_free (s : State) (n : Nat) : (s.irq n).free = s.free := rfl
@[simp] theorem State.irq_regs (s : State) (n : Nat) : (s.irq n).regs = s.regs := rfl
@[simp] theorem State.irq_staged (s : State) (n : Nat) : (s.irq n).staged = s.staged := rfl
@[simp] theorem State.irq_mem (s : State) (n : Nat) : (s.irq n).mem = s.mem := rfl
@[simp] theorem State.irq_dramPoison (s : State) (n : Nat) : (s.irq n).dramPoison = s.dramPoison := rfl
@[simp] theorem State.irq_fold (s : State) (n : Nat) : (s.irq n).fold = s.fold := rfl
@[simp] theorem State.irq_foldPoison (s : State) (n : Nat) : (s.irq n).foldPoison = s.foldPoison := rfl
@[simp] theorem State.irq_lines (s : State) (n : Nat) : (s.irq n).lines = s.lines := rfl
@[simp] theorem State.irq_banks (s : State) (n : Nat) : (s.irq n).banks = s.banks := rfl
@[simp] theorem State.irq_ways (s : State) (n : Nat) : (s.irq n).ways = s.ways := rfl
@[simp] theorem State.irq_ranges (s : State) (n : Nat) : (s.irq n).ranges = s.ranges := rfl
@[simp] theorem State.irq_strands (s : State) (n : Nat) : (s.irq n).strands = s.strands := rfl
@[simp] theorem State.irq_drovers (s : State) (n : Nat) : (s.irq n).drovers = s.drovers := rfl
@[simp] theorem State.irq_ops (s : State) (n : Nat) : (s.irq n).ops = s.ops := rfl
@[simp] theorem State.irq_nextOp (s : State) (n : Nat) : (s.irq n).nextOp = s.nextOp := rfl
@[simp] theorem State.irq_xl (s : State) (n : Nat) : (s.irq n).xl = s.xl := rfl
@[simp] theorem State.irq_chans (s : State) (n : Nat) : (s.irq n).chans = s.chans := rfl
@[simp] theorem State.irq_drams (s : State) (n : Nat) : (s.irq n).drams = s.drams := rfl
@[simp] theorem State.irq_bell (s : State) (n : Nat) : (s.irq n).bell = s.bell := rfl
@[simp] theorem State.irq_tally (s : State) (n : Nat) : (s.irq n).tally = s.tally := rfl
@[simp] theorem State.irq_log (s : State) (n : Nat) : (s.irq n).log = s.log := rfl
@[simp] theorem State.irq_dramUe (s : State) (n : Nat) : (s.irq n).dramUe = s.dramUe := rfl
@[simp] theorem State.irq_closed (s : State) (n : Nat) : (s.irq n).closed = s.closed := rfl
@[simp] theorem State.irq_resetPaddocks (s : State) (n : Nat) : (s.irq n).resetPaddocks = s.resetPaddocks := rfl
@[simp] theorem State.irq_siteReqs (s : State) (n : Nat) : (s.irq n).siteReqs = s.siteReqs := rfl
@[simp] theorem State.irq_fab (s : State) (n : Nat) : (s.irq n).fab = s.fab := rfl
@[simp] theorem State.irq_penClock (s : State) (n : Nat) : (s.irq n).penClock = s.penClock := rfl
@[simp] theorem State.irq_penGated (s : State) (n : Nat) : (s.irq n).penGated = s.penGated := rfl
@[simp] theorem State.irq_savedXfers (s : State) (n : Nat) : (s.irq n).savedXfers = s.savedXfers := rfl
@[simp] theorem State.irq_loaded (s : State) (n : Nat) : (s.irq n).loaded = s.loaded := rfl
@[simp] theorem State.irq_sites (s : State) (n : Nat) : (s.irq n).sites = s.sites := rfl
@[simp] theorem State.irq_siteHeld (s : State) (n : Nat) : (s.irq n).siteHeld = s.siteHeld := rfl
@[simp] theorem State.irq_mboxes (s : State) (n : Nat) : (s.irq n).mboxes = s.mboxes := rfl
@[simp] theorem State.irq_zones (s : State) (n : Nat) : (s.irq n).zones = s.zones := rfl
@[simp] theorem State.irq_move (s : State) (n : Nat) : (s.irq n).move = s.move := rfl
@[simp] theorem State.irq_waking (s : State) (n : Nat) : (s.irq n).waking = s.waking := rfl
@[simp] theorem State.irq_down (s : State) (n : Nat) : (s.irq n).down = s.down := rfl
@[simp] theorem State.irq_resetting (s : State) (n : Nat) : (s.irq n).resetting = s.resetting := rfl
@[simp] theorem State.irq_zeroPads (s : State) (n : Nat) : (s.irq n).zeroPads = s.zeroPads := rfl
@[simp] theorem State.irq_mram (s : State) (n : Nat) : (s.irq n).mram = s.mram := rfl
@[simp] theorem State.irq_flash (s : State) (n : Nat) : (s.irq n).flash = s.flash := rfl
@[simp] theorem State.irq_crook (s : State) (n : Nat) : (s.irq n).crook = s.crook := rfl
@[simp] theorem State.irq_ports (s : State) (n : Nat) : (s.irq n).ports = s.ports := rfl
@[simp] theorem State.irq_trace (s : State) (n : Nat) : (s.irq n).trace = s.trace := rfl
@[simp] theorem State.taken_pending (s : State) : (s.taken).pending = s.pending := rfl
@[simp] theorem State.taken_out (s : State) : (s.taken).out = s.out := rfl
@[simp] theorem State.taken_regs (s : State) : (s.taken).regs = s.regs := rfl
@[simp] theorem State.taken_staged (s : State) : (s.taken).staged = s.staged := rfl
@[simp] theorem State.taken_mem (s : State) : (s.taken).mem = s.mem := rfl
@[simp] theorem State.taken_dramPoison (s : State) : (s.taken).dramPoison = s.dramPoison := rfl
@[simp] theorem State.taken_fold (s : State) : (s.taken).fold = s.fold := rfl
@[simp] theorem State.taken_foldPoison (s : State) : (s.taken).foldPoison = s.foldPoison := rfl
@[simp] theorem State.taken_lines (s : State) : (s.taken).lines = s.lines := rfl
@[simp] theorem State.taken_banks (s : State) : (s.taken).banks = s.banks := rfl
@[simp] theorem State.taken_ways (s : State) : (s.taken).ways = s.ways := rfl
@[simp] theorem State.taken_ranges (s : State) : (s.taken).ranges = s.ranges := rfl
@[simp] theorem State.taken_strands (s : State) : (s.taken).strands = s.strands := rfl
@[simp] theorem State.taken_drovers (s : State) : (s.taken).drovers = s.drovers := rfl
@[simp] theorem State.taken_ops (s : State) : (s.taken).ops = s.ops := rfl
@[simp] theorem State.taken_nextOp (s : State) : (s.taken).nextOp = s.nextOp := rfl
@[simp] theorem State.taken_xl (s : State) : (s.taken).xl = s.xl := rfl
@[simp] theorem State.taken_chans (s : State) : (s.taken).chans = s.chans := rfl
@[simp] theorem State.taken_drams (s : State) : (s.taken).drams = s.drams := rfl
@[simp] theorem State.taken_bell (s : State) : (s.taken).bell = s.bell := rfl
@[simp] theorem State.taken_tally (s : State) : (s.taken).tally = s.tally := rfl
@[simp] theorem State.taken_log (s : State) : (s.taken).log = s.log := rfl
@[simp] theorem State.taken_dramUe (s : State) : (s.taken).dramUe = s.dramUe := rfl
@[simp] theorem State.taken_irqs (s : State) : (s.taken).irqs = s.irqs := rfl
@[simp] theorem State.taken_closed (s : State) : (s.taken).closed = s.closed := rfl
@[simp] theorem State.taken_resetPaddocks (s : State) : (s.taken).resetPaddocks = s.resetPaddocks := rfl
@[simp] theorem State.taken_siteReqs (s : State) : (s.taken).siteReqs = s.siteReqs := rfl
@[simp] theorem State.taken_fab (s : State) : (s.taken).fab = s.fab := rfl
@[simp] theorem State.taken_penClock (s : State) : (s.taken).penClock = s.penClock := rfl
@[simp] theorem State.taken_penGated (s : State) : (s.taken).penGated = s.penGated := rfl
@[simp] theorem State.taken_savedXfers (s : State) : (s.taken).savedXfers = s.savedXfers := rfl
@[simp] theorem State.taken_loaded (s : State) : (s.taken).loaded = s.loaded := rfl
@[simp] theorem State.taken_sites (s : State) : (s.taken).sites = s.sites := rfl
@[simp] theorem State.taken_siteHeld (s : State) : (s.taken).siteHeld = s.siteHeld := rfl
@[simp] theorem State.taken_mboxes (s : State) : (s.taken).mboxes = s.mboxes := rfl
@[simp] theorem State.taken_zones (s : State) : (s.taken).zones = s.zones := rfl
@[simp] theorem State.taken_move (s : State) : (s.taken).move = s.move := rfl
@[simp] theorem State.taken_waking (s : State) : (s.taken).waking = s.waking := rfl
@[simp] theorem State.taken_down (s : State) : (s.taken).down = s.down := rfl
@[simp] theorem State.taken_resetting (s : State) : (s.taken).resetting = s.resetting := rfl
@[simp] theorem State.taken_zeroPads (s : State) : (s.taken).zeroPads = s.zeroPads := rfl
@[simp] theorem State.taken_mram (s : State) : (s.taken).mram = s.mram := rfl
@[simp] theorem State.taken_flash (s : State) : (s.taken).flash = s.flash := rfl
@[simp] theorem State.taken_crook (s : State) : (s.taken).crook = s.crook := rfl
@[simp] theorem State.taken_ports (s : State) : (s.taken).ports = s.ports := rfl
@[simp] theorem State.taken_trace (s : State) : (s.taken).trace = s.trace := rfl
@[simp] theorem State.ungate_pending (s : State) (p : Nat) : (s.ungate p).pending = s.pending := rfl
@[simp] theorem State.ungate_out (s : State) (p : Nat) : (s.ungate p).out = s.out := rfl
@[simp] theorem State.ungate_free (s : State) (p : Nat) : (s.ungate p).free = s.free := rfl
@[simp] theorem State.ungate_regs (s : State) (p : Nat) : (s.ungate p).regs = s.regs := rfl
@[simp] theorem State.ungate_staged (s : State) (p : Nat) : (s.ungate p).staged = s.staged := rfl
@[simp] theorem State.ungate_mem (s : State) (p : Nat) : (s.ungate p).mem = s.mem := rfl
@[simp] theorem State.ungate_dramPoison (s : State) (p : Nat) : (s.ungate p).dramPoison = s.dramPoison := rfl
@[simp] theorem State.ungate_fold (s : State) (p : Nat) : (s.ungate p).fold = s.fold := rfl
@[simp] theorem State.ungate_foldPoison (s : State) (p : Nat) : (s.ungate p).foldPoison = s.foldPoison := rfl
@[simp] theorem State.ungate_lines (s : State) (p : Nat) : (s.ungate p).lines = s.lines := rfl
@[simp] theorem State.ungate_banks (s : State) (p : Nat) : (s.ungate p).banks = s.banks := rfl
@[simp] theorem State.ungate_ways (s : State) (p : Nat) : (s.ungate p).ways = s.ways := rfl
@[simp] theorem State.ungate_ranges (s : State) (p : Nat) : (s.ungate p).ranges = s.ranges := rfl
@[simp] theorem State.ungate_strands (s : State) (p : Nat) : (s.ungate p).strands = s.strands := rfl
@[simp] theorem State.ungate_drovers (s : State) (p : Nat) : (s.ungate p).drovers = s.drovers := rfl
@[simp] theorem State.ungate_ops (s : State) (p : Nat) : (s.ungate p).ops = s.ops := rfl
@[simp] theorem State.ungate_nextOp (s : State) (p : Nat) : (s.ungate p).nextOp = s.nextOp := rfl
@[simp] theorem State.ungate_xl (s : State) (p : Nat) : (s.ungate p).xl = s.xl := rfl
@[simp] theorem State.ungate_chans (s : State) (p : Nat) : (s.ungate p).chans = s.chans := rfl
@[simp] theorem State.ungate_drams (s : State) (p : Nat) : (s.ungate p).drams = s.drams := rfl
@[simp] theorem State.ungate_bell (s : State) (p : Nat) : (s.ungate p).bell = s.bell := rfl
@[simp] theorem State.ungate_tally (s : State) (p : Nat) : (s.ungate p).tally = s.tally := rfl
@[simp] theorem State.ungate_log (s : State) (p : Nat) : (s.ungate p).log = s.log := rfl
@[simp] theorem State.ungate_dramUe (s : State) (p : Nat) : (s.ungate p).dramUe = s.dramUe := rfl
@[simp] theorem State.ungate_irqs (s : State) (p : Nat) : (s.ungate p).irqs = s.irqs := rfl
@[simp] theorem State.ungate_closed (s : State) (p : Nat) : (s.ungate p).closed = s.closed := rfl
@[simp] theorem State.ungate_resetPaddocks (s : State) (p : Nat) : (s.ungate p).resetPaddocks = s.resetPaddocks := rfl
@[simp] theorem State.ungate_siteReqs (s : State) (p : Nat) : (s.ungate p).siteReqs = s.siteReqs := rfl
@[simp] theorem State.ungate_fab (s : State) (p : Nat) : (s.ungate p).fab = s.fab := rfl
@[simp] theorem State.ungate_penClock (s : State) (p : Nat) : (s.ungate p).penClock = s.penClock := rfl
@[simp] theorem State.ungate_savedXfers (s : State) (p : Nat) : (s.ungate p).savedXfers = s.savedXfers := rfl
@[simp] theorem State.ungate_loaded (s : State) (p : Nat) : (s.ungate p).loaded = s.loaded := rfl
@[simp] theorem State.ungate_sites (s : State) (p : Nat) : (s.ungate p).sites = s.sites := rfl
@[simp] theorem State.ungate_siteHeld (s : State) (p : Nat) : (s.ungate p).siteHeld = s.siteHeld := rfl
@[simp] theorem State.ungate_mboxes (s : State) (p : Nat) : (s.ungate p).mboxes = s.mboxes := rfl
@[simp] theorem State.ungate_zones (s : State) (p : Nat) : (s.ungate p).zones = s.zones := rfl
@[simp] theorem State.ungate_move (s : State) (p : Nat) : (s.ungate p).move = s.move := rfl
@[simp] theorem State.ungate_waking (s : State) (p : Nat) : (s.ungate p).waking = s.waking := rfl
@[simp] theorem State.ungate_down (s : State) (p : Nat) : (s.ungate p).down = s.down := rfl
@[simp] theorem State.ungate_resetting (s : State) (p : Nat) : (s.ungate p).resetting = s.resetting := rfl
@[simp] theorem State.ungate_zeroPads (s : State) (p : Nat) : (s.ungate p).zeroPads = s.zeroPads := rfl
@[simp] theorem State.ungate_mram (s : State) (p : Nat) : (s.ungate p).mram = s.mram := rfl
@[simp] theorem State.ungate_flash (s : State) (p : Nat) : (s.ungate p).flash = s.flash := rfl
@[simp] theorem State.ungate_crook (s : State) (p : Nat) : (s.ungate p).crook = s.crook := rfl
@[simp] theorem State.ungate_ports (s : State) (p : Nat) : (s.ungate p).ports = s.ports := rfl
@[simp] theorem State.ungate_trace (s : State) (p : Nat) : (s.ungate p).trace = s.trace := rfl
@[simp] theorem State.setStrand_pending (s : State) (d t : Nat) (x : Strand) : (s.setStrand d t x).pending = s.pending := rfl
@[simp] theorem State.setStrand_out (s : State) (d t : Nat) (x : Strand) : (s.setStrand d t x).out = s.out := rfl
@[simp] theorem State.setStrand_free (s : State) (d t : Nat) (x : Strand) : (s.setStrand d t x).free = s.free := rfl
@[simp] theorem State.setStrand_regs (s : State) (d t : Nat) (x : Strand) : (s.setStrand d t x).regs = s.regs := rfl
@[simp] theorem State.setStrand_staged (s : State) (d t : Nat) (x : Strand) : (s.setStrand d t x).staged = s.staged := rfl
@[simp] theorem State.setStrand_mem (s : State) (d t : Nat) (x : Strand) : (s.setStrand d t x).mem = s.mem := rfl
@[simp] theorem State.setStrand_dramPoison (s : State) (d t : Nat) (x : Strand) : (s.setStrand d t x).dramPoison = s.dramPoison := rfl
@[simp] theorem State.setStrand_fold (s : State) (d t : Nat) (x : Strand) : (s.setStrand d t x).fold = s.fold := rfl
@[simp] theorem State.setStrand_foldPoison (s : State) (d t : Nat) (x : Strand) : (s.setStrand d t x).foldPoison = s.foldPoison := rfl
@[simp] theorem State.setStrand_lines (s : State) (d t : Nat) (x : Strand) : (s.setStrand d t x).lines = s.lines := rfl
@[simp] theorem State.setStrand_banks (s : State) (d t : Nat) (x : Strand) : (s.setStrand d t x).banks = s.banks := rfl
@[simp] theorem State.setStrand_ways (s : State) (d t : Nat) (x : Strand) : (s.setStrand d t x).ways = s.ways := rfl
@[simp] theorem State.setStrand_ranges (s : State) (d t : Nat) (x : Strand) : (s.setStrand d t x).ranges = s.ranges := rfl
@[simp] theorem State.setStrand_drovers (s : State) (d t : Nat) (x : Strand) : (s.setStrand d t x).drovers = s.drovers := rfl
@[simp] theorem State.setStrand_ops (s : State) (d t : Nat) (x : Strand) : (s.setStrand d t x).ops = s.ops := rfl
@[simp] theorem State.setStrand_nextOp (s : State) (d t : Nat) (x : Strand) : (s.setStrand d t x).nextOp = s.nextOp := rfl
@[simp] theorem State.setStrand_xl (s : State) (d t : Nat) (x : Strand) : (s.setStrand d t x).xl = s.xl := rfl
@[simp] theorem State.setStrand_chans (s : State) (d t : Nat) (x : Strand) : (s.setStrand d t x).chans = s.chans := rfl
@[simp] theorem State.setStrand_drams (s : State) (d t : Nat) (x : Strand) : (s.setStrand d t x).drams = s.drams := rfl
@[simp] theorem State.setStrand_bell (s : State) (d t : Nat) (x : Strand) : (s.setStrand d t x).bell = s.bell := rfl
@[simp] theorem State.setStrand_tally (s : State) (d t : Nat) (x : Strand) : (s.setStrand d t x).tally = s.tally := rfl
@[simp] theorem State.setStrand_log (s : State) (d t : Nat) (x : Strand) : (s.setStrand d t x).log = s.log := rfl
@[simp] theorem State.setStrand_dramUe (s : State) (d t : Nat) (x : Strand) : (s.setStrand d t x).dramUe = s.dramUe := rfl
@[simp] theorem State.setStrand_irqs (s : State) (d t : Nat) (x : Strand) : (s.setStrand d t x).irqs = s.irqs := rfl
@[simp] theorem State.setStrand_closed (s : State) (d t : Nat) (x : Strand) : (s.setStrand d t x).closed = s.closed := rfl
@[simp] theorem State.setStrand_resetPaddocks (s : State) (d t : Nat) (x : Strand) : (s.setStrand d t x).resetPaddocks = s.resetPaddocks := rfl
@[simp] theorem State.setStrand_siteReqs (s : State) (d t : Nat) (x : Strand) : (s.setStrand d t x).siteReqs = s.siteReqs := rfl
@[simp] theorem State.setStrand_fab (s : State) (d t : Nat) (x : Strand) : (s.setStrand d t x).fab = s.fab := rfl
@[simp] theorem State.setStrand_penClock (s : State) (d t : Nat) (x : Strand) : (s.setStrand d t x).penClock = s.penClock := rfl
@[simp] theorem State.setStrand_penGated (s : State) (d t : Nat) (x : Strand) : (s.setStrand d t x).penGated = s.penGated := rfl
@[simp] theorem State.setStrand_savedXfers (s : State) (d t : Nat) (x : Strand) : (s.setStrand d t x).savedXfers = s.savedXfers := rfl
@[simp] theorem State.setStrand_loaded (s : State) (d t : Nat) (x : Strand) : (s.setStrand d t x).loaded = s.loaded := rfl
@[simp] theorem State.setStrand_sites (s : State) (d t : Nat) (x : Strand) : (s.setStrand d t x).sites = s.sites := rfl
@[simp] theorem State.setStrand_siteHeld (s : State) (d t : Nat) (x : Strand) : (s.setStrand d t x).siteHeld = s.siteHeld := rfl
@[simp] theorem State.setStrand_mboxes (s : State) (d t : Nat) (x : Strand) : (s.setStrand d t x).mboxes = s.mboxes := rfl
@[simp] theorem State.setStrand_zones (s : State) (d t : Nat) (x : Strand) : (s.setStrand d t x).zones = s.zones := rfl
@[simp] theorem State.setStrand_move (s : State) (d t : Nat) (x : Strand) : (s.setStrand d t x).move = s.move := rfl
@[simp] theorem State.setStrand_waking (s : State) (d t : Nat) (x : Strand) : (s.setStrand d t x).waking = s.waking := rfl
@[simp] theorem State.setStrand_down (s : State) (d t : Nat) (x : Strand) : (s.setStrand d t x).down = s.down := rfl
@[simp] theorem State.setStrand_resetting (s : State) (d t : Nat) (x : Strand) : (s.setStrand d t x).resetting = s.resetting := rfl
@[simp] theorem State.setStrand_zeroPads (s : State) (d t : Nat) (x : Strand) : (s.setStrand d t x).zeroPads = s.zeroPads := rfl
@[simp] theorem State.setStrand_mram (s : State) (d t : Nat) (x : Strand) : (s.setStrand d t x).mram = s.mram := rfl
@[simp] theorem State.setStrand_flash (s : State) (d t : Nat) (x : Strand) : (s.setStrand d t x).flash = s.flash := rfl
@[simp] theorem State.setStrand_crook (s : State) (d t : Nat) (x : Strand) : (s.setStrand d t x).crook = s.crook := rfl
@[simp] theorem State.setStrand_ports (s : State) (d t : Nat) (x : Strand) : (s.setStrand d t x).ports = s.ports := rfl
@[simp] theorem State.setStrand_trace (s : State) (d t : Nat) (x : Strand) : (s.setStrand d t x).trace = s.trace := rfl
@[simp] theorem State.setDrv_pending (s : State) (d : Nat) (x : Drover) : (s.setDrv d x).pending = s.pending := rfl
@[simp] theorem State.setDrv_out (s : State) (d : Nat) (x : Drover) : (s.setDrv d x).out = s.out := rfl
@[simp] theorem State.setDrv_free (s : State) (d : Nat) (x : Drover) : (s.setDrv d x).free = s.free := rfl
@[simp] theorem State.setDrv_regs (s : State) (d : Nat) (x : Drover) : (s.setDrv d x).regs = s.regs := rfl
@[simp] theorem State.setDrv_staged (s : State) (d : Nat) (x : Drover) : (s.setDrv d x).staged = s.staged := rfl
@[simp] theorem State.setDrv_mem (s : State) (d : Nat) (x : Drover) : (s.setDrv d x).mem = s.mem := rfl
@[simp] theorem State.setDrv_dramPoison (s : State) (d : Nat) (x : Drover) : (s.setDrv d x).dramPoison = s.dramPoison := rfl
@[simp] theorem State.setDrv_fold (s : State) (d : Nat) (x : Drover) : (s.setDrv d x).fold = s.fold := rfl
@[simp] theorem State.setDrv_foldPoison (s : State) (d : Nat) (x : Drover) : (s.setDrv d x).foldPoison = s.foldPoison := rfl
@[simp] theorem State.setDrv_lines (s : State) (d : Nat) (x : Drover) : (s.setDrv d x).lines = s.lines := rfl
@[simp] theorem State.setDrv_banks (s : State) (d : Nat) (x : Drover) : (s.setDrv d x).banks = s.banks := rfl
@[simp] theorem State.setDrv_ways (s : State) (d : Nat) (x : Drover) : (s.setDrv d x).ways = s.ways := rfl
@[simp] theorem State.setDrv_ranges (s : State) (d : Nat) (x : Drover) : (s.setDrv d x).ranges = s.ranges := rfl
@[simp] theorem State.setDrv_strands (s : State) (d : Nat) (x : Drover) : (s.setDrv d x).strands = s.strands := rfl
@[simp] theorem State.setDrv_ops (s : State) (d : Nat) (x : Drover) : (s.setDrv d x).ops = s.ops := rfl
@[simp] theorem State.setDrv_nextOp (s : State) (d : Nat) (x : Drover) : (s.setDrv d x).nextOp = s.nextOp := rfl
@[simp] theorem State.setDrv_xl (s : State) (d : Nat) (x : Drover) : (s.setDrv d x).xl = s.xl := rfl
@[simp] theorem State.setDrv_chans (s : State) (d : Nat) (x : Drover) : (s.setDrv d x).chans = s.chans := rfl
@[simp] theorem State.setDrv_drams (s : State) (d : Nat) (x : Drover) : (s.setDrv d x).drams = s.drams := rfl
@[simp] theorem State.setDrv_bell (s : State) (d : Nat) (x : Drover) : (s.setDrv d x).bell = s.bell := rfl
@[simp] theorem State.setDrv_tally (s : State) (d : Nat) (x : Drover) : (s.setDrv d x).tally = s.tally := rfl
@[simp] theorem State.setDrv_log (s : State) (d : Nat) (x : Drover) : (s.setDrv d x).log = s.log := rfl
@[simp] theorem State.setDrv_dramUe (s : State) (d : Nat) (x : Drover) : (s.setDrv d x).dramUe = s.dramUe := rfl
@[simp] theorem State.setDrv_irqs (s : State) (d : Nat) (x : Drover) : (s.setDrv d x).irqs = s.irqs := rfl
@[simp] theorem State.setDrv_closed (s : State) (d : Nat) (x : Drover) : (s.setDrv d x).closed = s.closed := rfl
@[simp] theorem State.setDrv_resetPaddocks (s : State) (d : Nat) (x : Drover) : (s.setDrv d x).resetPaddocks = s.resetPaddocks := rfl
@[simp] theorem State.setDrv_siteReqs (s : State) (d : Nat) (x : Drover) : (s.setDrv d x).siteReqs = s.siteReqs := rfl
@[simp] theorem State.setDrv_fab (s : State) (d : Nat) (x : Drover) : (s.setDrv d x).fab = s.fab := rfl
@[simp] theorem State.setDrv_penClock (s : State) (d : Nat) (x : Drover) : (s.setDrv d x).penClock = s.penClock := rfl
@[simp] theorem State.setDrv_penGated (s : State) (d : Nat) (x : Drover) : (s.setDrv d x).penGated = s.penGated := rfl
@[simp] theorem State.setDrv_savedXfers (s : State) (d : Nat) (x : Drover) : (s.setDrv d x).savedXfers = s.savedXfers := rfl
@[simp] theorem State.setDrv_loaded (s : State) (d : Nat) (x : Drover) : (s.setDrv d x).loaded = s.loaded := rfl
@[simp] theorem State.setDrv_sites (s : State) (d : Nat) (x : Drover) : (s.setDrv d x).sites = s.sites := rfl
@[simp] theorem State.setDrv_siteHeld (s : State) (d : Nat) (x : Drover) : (s.setDrv d x).siteHeld = s.siteHeld := rfl
@[simp] theorem State.setDrv_mboxes (s : State) (d : Nat) (x : Drover) : (s.setDrv d x).mboxes = s.mboxes := rfl
@[simp] theorem State.setDrv_zones (s : State) (d : Nat) (x : Drover) : (s.setDrv d x).zones = s.zones := rfl
@[simp] theorem State.setDrv_move (s : State) (d : Nat) (x : Drover) : (s.setDrv d x).move = s.move := rfl
@[simp] theorem State.setDrv_waking (s : State) (d : Nat) (x : Drover) : (s.setDrv d x).waking = s.waking := rfl
@[simp] theorem State.setDrv_down (s : State) (d : Nat) (x : Drover) : (s.setDrv d x).down = s.down := rfl
@[simp] theorem State.setDrv_resetting (s : State) (d : Nat) (x : Drover) : (s.setDrv d x).resetting = s.resetting := rfl
@[simp] theorem State.setDrv_zeroPads (s : State) (d : Nat) (x : Drover) : (s.setDrv d x).zeroPads = s.zeroPads := rfl
@[simp] theorem State.setDrv_mram (s : State) (d : Nat) (x : Drover) : (s.setDrv d x).mram = s.mram := rfl
@[simp] theorem State.setDrv_flash (s : State) (d : Nat) (x : Drover) : (s.setDrv d x).flash = s.flash := rfl
@[simp] theorem State.setDrv_crook (s : State) (d : Nat) (x : Drover) : (s.setDrv d x).crook = s.crook := rfl
@[simp] theorem State.setDrv_ports (s : State) (d : Nat) (x : Drover) : (s.setDrv d x).ports = s.ports := rfl
@[simp] theorem State.setDrv_trace (s : State) (d : Nat) (x : Drover) : (s.setDrv d x).trace = s.trace := rfl
@[simp] theorem State.setOp_pending (s : State) (o : Op) : (s.setOp o).pending = s.pending := rfl
@[simp] theorem State.setOp_out (s : State) (o : Op) : (s.setOp o).out = s.out := rfl
@[simp] theorem State.setOp_free (s : State) (o : Op) : (s.setOp o).free = s.free := rfl
@[simp] theorem State.setOp_regs (s : State) (o : Op) : (s.setOp o).regs = s.regs := rfl
@[simp] theorem State.setOp_staged (s : State) (o : Op) : (s.setOp o).staged = s.staged := rfl
@[simp] theorem State.setOp_mem (s : State) (o : Op) : (s.setOp o).mem = s.mem := rfl
@[simp] theorem State.setOp_dramPoison (s : State) (o : Op) : (s.setOp o).dramPoison = s.dramPoison := rfl
@[simp] theorem State.setOp_fold (s : State) (o : Op) : (s.setOp o).fold = s.fold := rfl
@[simp] theorem State.setOp_foldPoison (s : State) (o : Op) : (s.setOp o).foldPoison = s.foldPoison := rfl
@[simp] theorem State.setOp_lines (s : State) (o : Op) : (s.setOp o).lines = s.lines := rfl
@[simp] theorem State.setOp_banks (s : State) (o : Op) : (s.setOp o).banks = s.banks := rfl
@[simp] theorem State.setOp_ways (s : State) (o : Op) : (s.setOp o).ways = s.ways := rfl
@[simp] theorem State.setOp_ranges (s : State) (o : Op) : (s.setOp o).ranges = s.ranges := rfl
@[simp] theorem State.setOp_strands (s : State) (o : Op) : (s.setOp o).strands = s.strands := rfl
@[simp] theorem State.setOp_drovers (s : State) (o : Op) : (s.setOp o).drovers = s.drovers := rfl
@[simp] theorem State.setOp_nextOp (s : State) (o : Op) : (s.setOp o).nextOp = s.nextOp := rfl
@[simp] theorem State.setOp_xl (s : State) (o : Op) : (s.setOp o).xl = s.xl := rfl
@[simp] theorem State.setOp_chans (s : State) (o : Op) : (s.setOp o).chans = s.chans := rfl
@[simp] theorem State.setOp_drams (s : State) (o : Op) : (s.setOp o).drams = s.drams := rfl
@[simp] theorem State.setOp_bell (s : State) (o : Op) : (s.setOp o).bell = s.bell := rfl
@[simp] theorem State.setOp_tally (s : State) (o : Op) : (s.setOp o).tally = s.tally := rfl
@[simp] theorem State.setOp_log (s : State) (o : Op) : (s.setOp o).log = s.log := rfl
@[simp] theorem State.setOp_dramUe (s : State) (o : Op) : (s.setOp o).dramUe = s.dramUe := rfl
@[simp] theorem State.setOp_irqs (s : State) (o : Op) : (s.setOp o).irqs = s.irqs := rfl
@[simp] theorem State.setOp_closed (s : State) (o : Op) : (s.setOp o).closed = s.closed := rfl
@[simp] theorem State.setOp_resetPaddocks (s : State) (o : Op) : (s.setOp o).resetPaddocks = s.resetPaddocks := rfl
@[simp] theorem State.setOp_siteReqs (s : State) (o : Op) : (s.setOp o).siteReqs = s.siteReqs := rfl
@[simp] theorem State.setOp_fab (s : State) (o : Op) : (s.setOp o).fab = s.fab := rfl
@[simp] theorem State.setOp_penClock (s : State) (o : Op) : (s.setOp o).penClock = s.penClock := rfl
@[simp] theorem State.setOp_penGated (s : State) (o : Op) : (s.setOp o).penGated = s.penGated := rfl
@[simp] theorem State.setOp_savedXfers (s : State) (o : Op) : (s.setOp o).savedXfers = s.savedXfers := rfl
@[simp] theorem State.setOp_loaded (s : State) (o : Op) : (s.setOp o).loaded = s.loaded := rfl
@[simp] theorem State.setOp_sites (s : State) (o : Op) : (s.setOp o).sites = s.sites := rfl
@[simp] theorem State.setOp_siteHeld (s : State) (o : Op) : (s.setOp o).siteHeld = s.siteHeld := rfl
@[simp] theorem State.setOp_mboxes (s : State) (o : Op) : (s.setOp o).mboxes = s.mboxes := rfl
@[simp] theorem State.setOp_zones (s : State) (o : Op) : (s.setOp o).zones = s.zones := rfl
@[simp] theorem State.setOp_move (s : State) (o : Op) : (s.setOp o).move = s.move := rfl
@[simp] theorem State.setOp_waking (s : State) (o : Op) : (s.setOp o).waking = s.waking := rfl
@[simp] theorem State.setOp_down (s : State) (o : Op) : (s.setOp o).down = s.down := rfl
@[simp] theorem State.setOp_resetting (s : State) (o : Op) : (s.setOp o).resetting = s.resetting := rfl
@[simp] theorem State.setOp_zeroPads (s : State) (o : Op) : (s.setOp o).zeroPads = s.zeroPads := rfl
@[simp] theorem State.setOp_mram (s : State) (o : Op) : (s.setOp o).mram = s.mram := rfl
@[simp] theorem State.setOp_flash (s : State) (o : Op) : (s.setOp o).flash = s.flash := rfl
@[simp] theorem State.setOp_crook (s : State) (o : Op) : (s.setOp o).crook = s.crook := rfl
@[simp] theorem State.setOp_ports (s : State) (o : Op) : (s.setOp o).ports = s.ports := rfl
@[simp] theorem State.setOp_trace (s : State) (o : Op) : (s.setOp o).trace = s.trace := rfl
@[simp] theorem State.dropOp_pending (s : State) (id : Nat) : (s.dropOp id).pending = s.pending := rfl
@[simp] theorem State.dropOp_out (s : State) (id : Nat) : (s.dropOp id).out = s.out := rfl
@[simp] theorem State.dropOp_free (s : State) (id : Nat) : (s.dropOp id).free = s.free := rfl
@[simp] theorem State.dropOp_regs (s : State) (id : Nat) : (s.dropOp id).regs = s.regs := rfl
@[simp] theorem State.dropOp_staged (s : State) (id : Nat) : (s.dropOp id).staged = s.staged := rfl
@[simp] theorem State.dropOp_mem (s : State) (id : Nat) : (s.dropOp id).mem = s.mem := rfl
@[simp] theorem State.dropOp_dramPoison (s : State) (id : Nat) : (s.dropOp id).dramPoison = s.dramPoison := rfl
@[simp] theorem State.dropOp_fold (s : State) (id : Nat) : (s.dropOp id).fold = s.fold := rfl
@[simp] theorem State.dropOp_foldPoison (s : State) (id : Nat) : (s.dropOp id).foldPoison = s.foldPoison := rfl
@[simp] theorem State.dropOp_lines (s : State) (id : Nat) : (s.dropOp id).lines = s.lines := rfl
@[simp] theorem State.dropOp_banks (s : State) (id : Nat) : (s.dropOp id).banks = s.banks := rfl
@[simp] theorem State.dropOp_ways (s : State) (id : Nat) : (s.dropOp id).ways = s.ways := rfl
@[simp] theorem State.dropOp_ranges (s : State) (id : Nat) : (s.dropOp id).ranges = s.ranges := rfl
@[simp] theorem State.dropOp_strands (s : State) (id : Nat) : (s.dropOp id).strands = s.strands := rfl
@[simp] theorem State.dropOp_drovers (s : State) (id : Nat) : (s.dropOp id).drovers = s.drovers := rfl
@[simp] theorem State.dropOp_nextOp (s : State) (id : Nat) : (s.dropOp id).nextOp = s.nextOp := rfl
@[simp] theorem State.dropOp_xl (s : State) (id : Nat) : (s.dropOp id).xl = s.xl := rfl
@[simp] theorem State.dropOp_chans (s : State) (id : Nat) : (s.dropOp id).chans = s.chans := rfl
@[simp] theorem State.dropOp_drams (s : State) (id : Nat) : (s.dropOp id).drams = s.drams := rfl
@[simp] theorem State.dropOp_bell (s : State) (id : Nat) : (s.dropOp id).bell = s.bell := rfl
@[simp] theorem State.dropOp_tally (s : State) (id : Nat) : (s.dropOp id).tally = s.tally := rfl
@[simp] theorem State.dropOp_log (s : State) (id : Nat) : (s.dropOp id).log = s.log := rfl
@[simp] theorem State.dropOp_dramUe (s : State) (id : Nat) : (s.dropOp id).dramUe = s.dramUe := rfl
@[simp] theorem State.dropOp_irqs (s : State) (id : Nat) : (s.dropOp id).irqs = s.irqs := rfl
@[simp] theorem State.dropOp_closed (s : State) (id : Nat) : (s.dropOp id).closed = s.closed := rfl
@[simp] theorem State.dropOp_resetPaddocks (s : State) (id : Nat) : (s.dropOp id).resetPaddocks = s.resetPaddocks := rfl
@[simp] theorem State.dropOp_siteReqs (s : State) (id : Nat) : (s.dropOp id).siteReqs = s.siteReqs := rfl
@[simp] theorem State.dropOp_fab (s : State) (id : Nat) : (s.dropOp id).fab = s.fab := rfl
@[simp] theorem State.dropOp_penClock (s : State) (id : Nat) : (s.dropOp id).penClock = s.penClock := rfl
@[simp] theorem State.dropOp_penGated (s : State) (id : Nat) : (s.dropOp id).penGated = s.penGated := rfl
@[simp] theorem State.dropOp_savedXfers (s : State) (id : Nat) : (s.dropOp id).savedXfers = s.savedXfers := rfl
@[simp] theorem State.dropOp_loaded (s : State) (id : Nat) : (s.dropOp id).loaded = s.loaded := rfl
@[simp] theorem State.dropOp_sites (s : State) (id : Nat) : (s.dropOp id).sites = s.sites := rfl
@[simp] theorem State.dropOp_siteHeld (s : State) (id : Nat) : (s.dropOp id).siteHeld = s.siteHeld := rfl
@[simp] theorem State.dropOp_mboxes (s : State) (id : Nat) : (s.dropOp id).mboxes = s.mboxes := rfl
@[simp] theorem State.dropOp_zones (s : State) (id : Nat) : (s.dropOp id).zones = s.zones := rfl
@[simp] theorem State.dropOp_move (s : State) (id : Nat) : (s.dropOp id).move = s.move := rfl
@[simp] theorem State.dropOp_waking (s : State) (id : Nat) : (s.dropOp id).waking = s.waking := rfl
@[simp] theorem State.dropOp_down (s : State) (id : Nat) : (s.dropOp id).down = s.down := rfl
@[simp] theorem State.dropOp_resetting (s : State) (id : Nat) : (s.dropOp id).resetting = s.resetting := rfl
@[simp] theorem State.dropOp_zeroPads (s : State) (id : Nat) : (s.dropOp id).zeroPads = s.zeroPads := rfl
@[simp] theorem State.dropOp_mram (s : State) (id : Nat) : (s.dropOp id).mram = s.mram := rfl
@[simp] theorem State.dropOp_flash (s : State) (id : Nat) : (s.dropOp id).flash = s.flash := rfl
@[simp] theorem State.dropOp_crook (s : State) (id : Nat) : (s.dropOp id).crook = s.crook := rfl
@[simp] theorem State.dropOp_ports (s : State) (id : Nat) : (s.dropOp id).ports = s.ports := rfl
@[simp] theorem State.dropOp_trace (s : State) (id : Nat) : (s.dropOp id).trace = s.trace := rfl
@[simp] theorem State.addOp_pending (s : State) (o : Op) : (s.addOp o).pending = s.pending := rfl
@[simp] theorem State.addOp_out (s : State) (o : Op) : (s.addOp o).out = s.out := rfl
@[simp] theorem State.addOp_free (s : State) (o : Op) : (s.addOp o).free = s.free := rfl
@[simp] theorem State.addOp_regs (s : State) (o : Op) : (s.addOp o).regs = s.regs := rfl
@[simp] theorem State.addOp_staged (s : State) (o : Op) : (s.addOp o).staged = s.staged := rfl
@[simp] theorem State.addOp_mem (s : State) (o : Op) : (s.addOp o).mem = s.mem := rfl
@[simp] theorem State.addOp_dramPoison (s : State) (o : Op) : (s.addOp o).dramPoison = s.dramPoison := rfl
@[simp] theorem State.addOp_fold (s : State) (o : Op) : (s.addOp o).fold = s.fold := rfl
@[simp] theorem State.addOp_foldPoison (s : State) (o : Op) : (s.addOp o).foldPoison = s.foldPoison := rfl
@[simp] theorem State.addOp_lines (s : State) (o : Op) : (s.addOp o).lines = s.lines := rfl
@[simp] theorem State.addOp_banks (s : State) (o : Op) : (s.addOp o).banks = s.banks := rfl
@[simp] theorem State.addOp_ways (s : State) (o : Op) : (s.addOp o).ways = s.ways := rfl
@[simp] theorem State.addOp_ranges (s : State) (o : Op) : (s.addOp o).ranges = s.ranges := rfl
@[simp] theorem State.addOp_strands (s : State) (o : Op) : (s.addOp o).strands = s.strands := rfl
@[simp] theorem State.addOp_drovers (s : State) (o : Op) : (s.addOp o).drovers = s.drovers := rfl
@[simp] theorem State.addOp_xl (s : State) (o : Op) : (s.addOp o).xl = s.xl := rfl
@[simp] theorem State.addOp_chans (s : State) (o : Op) : (s.addOp o).chans = s.chans := rfl
@[simp] theorem State.addOp_drams (s : State) (o : Op) : (s.addOp o).drams = s.drams := rfl
@[simp] theorem State.addOp_bell (s : State) (o : Op) : (s.addOp o).bell = s.bell := rfl
@[simp] theorem State.addOp_tally (s : State) (o : Op) : (s.addOp o).tally = s.tally := rfl
@[simp] theorem State.addOp_log (s : State) (o : Op) : (s.addOp o).log = s.log := rfl
@[simp] theorem State.addOp_dramUe (s : State) (o : Op) : (s.addOp o).dramUe = s.dramUe := rfl
@[simp] theorem State.addOp_irqs (s : State) (o : Op) : (s.addOp o).irqs = s.irqs := rfl
@[simp] theorem State.addOp_closed (s : State) (o : Op) : (s.addOp o).closed = s.closed := rfl
@[simp] theorem State.addOp_resetPaddocks (s : State) (o : Op) : (s.addOp o).resetPaddocks = s.resetPaddocks := rfl
@[simp] theorem State.addOp_siteReqs (s : State) (o : Op) : (s.addOp o).siteReqs = s.siteReqs := rfl
@[simp] theorem State.addOp_fab (s : State) (o : Op) : (s.addOp o).fab = s.fab := rfl
@[simp] theorem State.addOp_penClock (s : State) (o : Op) : (s.addOp o).penClock = s.penClock := rfl
@[simp] theorem State.addOp_penGated (s : State) (o : Op) : (s.addOp o).penGated = s.penGated := rfl
@[simp] theorem State.addOp_savedXfers (s : State) (o : Op) : (s.addOp o).savedXfers = s.savedXfers := rfl
@[simp] theorem State.addOp_loaded (s : State) (o : Op) : (s.addOp o).loaded = s.loaded := rfl
@[simp] theorem State.addOp_sites (s : State) (o : Op) : (s.addOp o).sites = s.sites := rfl
@[simp] theorem State.addOp_siteHeld (s : State) (o : Op) : (s.addOp o).siteHeld = s.siteHeld := rfl
@[simp] theorem State.addOp_mboxes (s : State) (o : Op) : (s.addOp o).mboxes = s.mboxes := rfl
@[simp] theorem State.addOp_zones (s : State) (o : Op) : (s.addOp o).zones = s.zones := rfl
@[simp] theorem State.addOp_move (s : State) (o : Op) : (s.addOp o).move = s.move := rfl
@[simp] theorem State.addOp_waking (s : State) (o : Op) : (s.addOp o).waking = s.waking := rfl
@[simp] theorem State.addOp_down (s : State) (o : Op) : (s.addOp o).down = s.down := rfl
@[simp] theorem State.addOp_resetting (s : State) (o : Op) : (s.addOp o).resetting = s.resetting := rfl
@[simp] theorem State.addOp_zeroPads (s : State) (o : Op) : (s.addOp o).zeroPads = s.zeroPads := rfl
@[simp] theorem State.addOp_mram (s : State) (o : Op) : (s.addOp o).mram = s.mram := rfl
@[simp] theorem State.addOp_flash (s : State) (o : Op) : (s.addOp o).flash = s.flash := rfl
@[simp] theorem State.addOp_crook (s : State) (o : Op) : (s.addOp o).crook = s.crook := rfl
@[simp] theorem State.addOp_ports (s : State) (o : Op) : (s.addOp o).ports = s.ports := rfl
@[simp] theorem State.addOp_trace (s : State) (o : Op) : (s.addOp o).trace = s.trace := rfl
@[simp] theorem State.setRangeQ_pending (s : State) (h : Nat) (q : List RangeReq) : (s.setRangeQ h q).pending = s.pending := rfl
@[simp] theorem State.setRangeQ_out (s : State) (h : Nat) (q : List RangeReq) : (s.setRangeQ h q).out = s.out := rfl
@[simp] theorem State.setRangeQ_free (s : State) (h : Nat) (q : List RangeReq) : (s.setRangeQ h q).free = s.free := rfl
@[simp] theorem State.setRangeQ_regs (s : State) (h : Nat) (q : List RangeReq) : (s.setRangeQ h q).regs = s.regs := rfl
@[simp] theorem State.setRangeQ_staged (s : State) (h : Nat) (q : List RangeReq) : (s.setRangeQ h q).staged = s.staged := rfl
@[simp] theorem State.setRangeQ_mem (s : State) (h : Nat) (q : List RangeReq) : (s.setRangeQ h q).mem = s.mem := rfl
@[simp] theorem State.setRangeQ_dramPoison (s : State) (h : Nat) (q : List RangeReq) : (s.setRangeQ h q).dramPoison = s.dramPoison := rfl
@[simp] theorem State.setRangeQ_fold (s : State) (h : Nat) (q : List RangeReq) : (s.setRangeQ h q).fold = s.fold := rfl
@[simp] theorem State.setRangeQ_foldPoison (s : State) (h : Nat) (q : List RangeReq) : (s.setRangeQ h q).foldPoison = s.foldPoison := rfl
@[simp] theorem State.setRangeQ_lines (s : State) (h : Nat) (q : List RangeReq) : (s.setRangeQ h q).lines = s.lines := rfl
@[simp] theorem State.setRangeQ_banks (s : State) (h : Nat) (q : List RangeReq) : (s.setRangeQ h q).banks = s.banks := rfl
@[simp] theorem State.setRangeQ_ways (s : State) (h : Nat) (q : List RangeReq) : (s.setRangeQ h q).ways = s.ways := rfl
@[simp] theorem State.setRangeQ_strands (s : State) (h : Nat) (q : List RangeReq) : (s.setRangeQ h q).strands = s.strands := rfl
@[simp] theorem State.setRangeQ_drovers (s : State) (h : Nat) (q : List RangeReq) : (s.setRangeQ h q).drovers = s.drovers := rfl
@[simp] theorem State.setRangeQ_ops (s : State) (h : Nat) (q : List RangeReq) : (s.setRangeQ h q).ops = s.ops := rfl
@[simp] theorem State.setRangeQ_nextOp (s : State) (h : Nat) (q : List RangeReq) : (s.setRangeQ h q).nextOp = s.nextOp := rfl
@[simp] theorem State.setRangeQ_xl (s : State) (h : Nat) (q : List RangeReq) : (s.setRangeQ h q).xl = s.xl := rfl
@[simp] theorem State.setRangeQ_chans (s : State) (h : Nat) (q : List RangeReq) : (s.setRangeQ h q).chans = s.chans := rfl
@[simp] theorem State.setRangeQ_drams (s : State) (h : Nat) (q : List RangeReq) : (s.setRangeQ h q).drams = s.drams := rfl
@[simp] theorem State.setRangeQ_bell (s : State) (h : Nat) (q : List RangeReq) : (s.setRangeQ h q).bell = s.bell := rfl
@[simp] theorem State.setRangeQ_tally (s : State) (h : Nat) (q : List RangeReq) : (s.setRangeQ h q).tally = s.tally := rfl
@[simp] theorem State.setRangeQ_log (s : State) (h : Nat) (q : List RangeReq) : (s.setRangeQ h q).log = s.log := rfl
@[simp] theorem State.setRangeQ_dramUe (s : State) (h : Nat) (q : List RangeReq) : (s.setRangeQ h q).dramUe = s.dramUe := rfl
@[simp] theorem State.setRangeQ_irqs (s : State) (h : Nat) (q : List RangeReq) : (s.setRangeQ h q).irqs = s.irqs := rfl
@[simp] theorem State.setRangeQ_closed (s : State) (h : Nat) (q : List RangeReq) : (s.setRangeQ h q).closed = s.closed := rfl
@[simp] theorem State.setRangeQ_resetPaddocks (s : State) (h : Nat) (q : List RangeReq) : (s.setRangeQ h q).resetPaddocks = s.resetPaddocks := rfl
@[simp] theorem State.setRangeQ_siteReqs (s : State) (h : Nat) (q : List RangeReq) : (s.setRangeQ h q).siteReqs = s.siteReqs := rfl
@[simp] theorem State.setRangeQ_fab (s : State) (h : Nat) (q : List RangeReq) : (s.setRangeQ h q).fab = s.fab := rfl
@[simp] theorem State.setRangeQ_penClock (s : State) (h : Nat) (q : List RangeReq) : (s.setRangeQ h q).penClock = s.penClock := rfl
@[simp] theorem State.setRangeQ_penGated (s : State) (h : Nat) (q : List RangeReq) : (s.setRangeQ h q).penGated = s.penGated := rfl
@[simp] theorem State.setRangeQ_savedXfers (s : State) (h : Nat) (q : List RangeReq) : (s.setRangeQ h q).savedXfers = s.savedXfers := rfl
@[simp] theorem State.setRangeQ_loaded (s : State) (h : Nat) (q : List RangeReq) : (s.setRangeQ h q).loaded = s.loaded := rfl
@[simp] theorem State.setRangeQ_sites (s : State) (h : Nat) (q : List RangeReq) : (s.setRangeQ h q).sites = s.sites := rfl
@[simp] theorem State.setRangeQ_siteHeld (s : State) (h : Nat) (q : List RangeReq) : (s.setRangeQ h q).siteHeld = s.siteHeld := rfl
@[simp] theorem State.setRangeQ_mboxes (s : State) (h : Nat) (q : List RangeReq) : (s.setRangeQ h q).mboxes = s.mboxes := rfl
@[simp] theorem State.setRangeQ_zones (s : State) (h : Nat) (q : List RangeReq) : (s.setRangeQ h q).zones = s.zones := rfl
@[simp] theorem State.setRangeQ_move (s : State) (h : Nat) (q : List RangeReq) : (s.setRangeQ h q).move = s.move := rfl
@[simp] theorem State.setRangeQ_waking (s : State) (h : Nat) (q : List RangeReq) : (s.setRangeQ h q).waking = s.waking := rfl
@[simp] theorem State.setRangeQ_down (s : State) (h : Nat) (q : List RangeReq) : (s.setRangeQ h q).down = s.down := rfl
@[simp] theorem State.setRangeQ_resetting (s : State) (h : Nat) (q : List RangeReq) : (s.setRangeQ h q).resetting = s.resetting := rfl
@[simp] theorem State.setRangeQ_zeroPads (s : State) (h : Nat) (q : List RangeReq) : (s.setRangeQ h q).zeroPads = s.zeroPads := rfl
@[simp] theorem State.setRangeQ_mram (s : State) (h : Nat) (q : List RangeReq) : (s.setRangeQ h q).mram = s.mram := rfl
@[simp] theorem State.setRangeQ_flash (s : State) (h : Nat) (q : List RangeReq) : (s.setRangeQ h q).flash = s.flash := rfl
@[simp] theorem State.setRangeQ_crook (s : State) (h : Nat) (q : List RangeReq) : (s.setRangeQ h q).crook = s.crook := rfl
@[simp] theorem State.setRangeQ_ports (s : State) (h : Nat) (q : List RangeReq) : (s.setRangeQ h q).ports = s.ports := rfl
@[simp] theorem State.setRangeQ_trace (s : State) (h : Nat) (q : List RangeReq) : (s.setRangeQ h q).trace = s.trace := rfl
@[simp] theorem State.setBank_pending (s : State) (b : Nat) (x : Bank) : (s.setBank b x).pending = s.pending := rfl
@[simp] theorem State.setBank_out (s : State) (b : Nat) (x : Bank) : (s.setBank b x).out = s.out := rfl
@[simp] theorem State.setBank_free (s : State) (b : Nat) (x : Bank) : (s.setBank b x).free = s.free := rfl
@[simp] theorem State.setBank_regs (s : State) (b : Nat) (x : Bank) : (s.setBank b x).regs = s.regs := rfl
@[simp] theorem State.setBank_staged (s : State) (b : Nat) (x : Bank) : (s.setBank b x).staged = s.staged := rfl
@[simp] theorem State.setBank_mem (s : State) (b : Nat) (x : Bank) : (s.setBank b x).mem = s.mem := rfl
@[simp] theorem State.setBank_dramPoison (s : State) (b : Nat) (x : Bank) : (s.setBank b x).dramPoison = s.dramPoison := rfl
@[simp] theorem State.setBank_fold (s : State) (b : Nat) (x : Bank) : (s.setBank b x).fold = s.fold := rfl
@[simp] theorem State.setBank_foldPoison (s : State) (b : Nat) (x : Bank) : (s.setBank b x).foldPoison = s.foldPoison := rfl
@[simp] theorem State.setBank_lines (s : State) (b : Nat) (x : Bank) : (s.setBank b x).lines = s.lines := rfl
@[simp] theorem State.setBank_ways (s : State) (b : Nat) (x : Bank) : (s.setBank b x).ways = s.ways := rfl
@[simp] theorem State.setBank_ranges (s : State) (b : Nat) (x : Bank) : (s.setBank b x).ranges = s.ranges := rfl
@[simp] theorem State.setBank_strands (s : State) (b : Nat) (x : Bank) : (s.setBank b x).strands = s.strands := rfl
@[simp] theorem State.setBank_drovers (s : State) (b : Nat) (x : Bank) : (s.setBank b x).drovers = s.drovers := rfl
@[simp] theorem State.setBank_ops (s : State) (b : Nat) (x : Bank) : (s.setBank b x).ops = s.ops := rfl
@[simp] theorem State.setBank_nextOp (s : State) (b : Nat) (x : Bank) : (s.setBank b x).nextOp = s.nextOp := rfl
@[simp] theorem State.setBank_xl (s : State) (b : Nat) (x : Bank) : (s.setBank b x).xl = s.xl := rfl
@[simp] theorem State.setBank_chans (s : State) (b : Nat) (x : Bank) : (s.setBank b x).chans = s.chans := rfl
@[simp] theorem State.setBank_drams (s : State) (b : Nat) (x : Bank) : (s.setBank b x).drams = s.drams := rfl
@[simp] theorem State.setBank_bell (s : State) (b : Nat) (x : Bank) : (s.setBank b x).bell = s.bell := rfl
@[simp] theorem State.setBank_tally (s : State) (b : Nat) (x : Bank) : (s.setBank b x).tally = s.tally := rfl
@[simp] theorem State.setBank_log (s : State) (b : Nat) (x : Bank) : (s.setBank b x).log = s.log := rfl
@[simp] theorem State.setBank_dramUe (s : State) (b : Nat) (x : Bank) : (s.setBank b x).dramUe = s.dramUe := rfl
@[simp] theorem State.setBank_irqs (s : State) (b : Nat) (x : Bank) : (s.setBank b x).irqs = s.irqs := rfl
@[simp] theorem State.setBank_closed (s : State) (b : Nat) (x : Bank) : (s.setBank b x).closed = s.closed := rfl
@[simp] theorem State.setBank_resetPaddocks (s : State) (b : Nat) (x : Bank) : (s.setBank b x).resetPaddocks = s.resetPaddocks := rfl
@[simp] theorem State.setBank_siteReqs (s : State) (b : Nat) (x : Bank) : (s.setBank b x).siteReqs = s.siteReqs := rfl
@[simp] theorem State.setBank_fab (s : State) (b : Nat) (x : Bank) : (s.setBank b x).fab = s.fab := rfl
@[simp] theorem State.setBank_penClock (s : State) (b : Nat) (x : Bank) : (s.setBank b x).penClock = s.penClock := rfl
@[simp] theorem State.setBank_penGated (s : State) (b : Nat) (x : Bank) : (s.setBank b x).penGated = s.penGated := rfl
@[simp] theorem State.setBank_savedXfers (s : State) (b : Nat) (x : Bank) : (s.setBank b x).savedXfers = s.savedXfers := rfl
@[simp] theorem State.setBank_loaded (s : State) (b : Nat) (x : Bank) : (s.setBank b x).loaded = s.loaded := rfl
@[simp] theorem State.setBank_sites (s : State) (b : Nat) (x : Bank) : (s.setBank b x).sites = s.sites := rfl
@[simp] theorem State.setBank_siteHeld (s : State) (b : Nat) (x : Bank) : (s.setBank b x).siteHeld = s.siteHeld := rfl
@[simp] theorem State.setBank_mboxes (s : State) (b : Nat) (x : Bank) : (s.setBank b x).mboxes = s.mboxes := rfl
@[simp] theorem State.setBank_zones (s : State) (b : Nat) (x : Bank) : (s.setBank b x).zones = s.zones := rfl
@[simp] theorem State.setBank_move (s : State) (b : Nat) (x : Bank) : (s.setBank b x).move = s.move := rfl
@[simp] theorem State.setBank_waking (s : State) (b : Nat) (x : Bank) : (s.setBank b x).waking = s.waking := rfl
@[simp] theorem State.setBank_down (s : State) (b : Nat) (x : Bank) : (s.setBank b x).down = s.down := rfl
@[simp] theorem State.setBank_resetting (s : State) (b : Nat) (x : Bank) : (s.setBank b x).resetting = s.resetting := rfl
@[simp] theorem State.setBank_zeroPads (s : State) (b : Nat) (x : Bank) : (s.setBank b x).zeroPads = s.zeroPads := rfl
@[simp] theorem State.setBank_mram (s : State) (b : Nat) (x : Bank) : (s.setBank b x).mram = s.mram := rfl
@[simp] theorem State.setBank_flash (s : State) (b : Nat) (x : Bank) : (s.setBank b x).flash = s.flash := rfl
@[simp] theorem State.setBank_crook (s : State) (b : Nat) (x : Bank) : (s.setBank b x).crook = s.crook := rfl
@[simp] theorem State.setBank_ports (s : State) (b : Nat) (x : Bank) : (s.setBank b x).ports = s.ports := rfl
@[simp] theorem State.setBank_trace (s : State) (b : Nat) (x : Bank) : (s.setBank b x).trace = s.trace := rfl
@[simp] theorem State.setPenWays_pending (s : State) (p : Nat) (x : PenWays) : (s.setPenWays p x).pending = s.pending := rfl
@[simp] theorem State.setPenWays_out (s : State) (p : Nat) (x : PenWays) : (s.setPenWays p x).out = s.out := rfl
@[simp] theorem State.setPenWays_free (s : State) (p : Nat) (x : PenWays) : (s.setPenWays p x).free = s.free := rfl
@[simp] theorem State.setPenWays_regs (s : State) (p : Nat) (x : PenWays) : (s.setPenWays p x).regs = s.regs := rfl
@[simp] theorem State.setPenWays_staged (s : State) (p : Nat) (x : PenWays) : (s.setPenWays p x).staged = s.staged := rfl
@[simp] theorem State.setPenWays_mem (s : State) (p : Nat) (x : PenWays) : (s.setPenWays p x).mem = s.mem := rfl
@[simp] theorem State.setPenWays_dramPoison (s : State) (p : Nat) (x : PenWays) : (s.setPenWays p x).dramPoison = s.dramPoison := rfl
@[simp] theorem State.setPenWays_fold (s : State) (p : Nat) (x : PenWays) : (s.setPenWays p x).fold = s.fold := rfl
@[simp] theorem State.setPenWays_foldPoison (s : State) (p : Nat) (x : PenWays) : (s.setPenWays p x).foldPoison = s.foldPoison := rfl
@[simp] theorem State.setPenWays_lines (s : State) (p : Nat) (x : PenWays) : (s.setPenWays p x).lines = s.lines := rfl
@[simp] theorem State.setPenWays_banks (s : State) (p : Nat) (x : PenWays) : (s.setPenWays p x).banks = s.banks := rfl
@[simp] theorem State.setPenWays_ranges (s : State) (p : Nat) (x : PenWays) : (s.setPenWays p x).ranges = s.ranges := rfl
@[simp] theorem State.setPenWays_strands (s : State) (p : Nat) (x : PenWays) : (s.setPenWays p x).strands = s.strands := rfl
@[simp] theorem State.setPenWays_drovers (s : State) (p : Nat) (x : PenWays) : (s.setPenWays p x).drovers = s.drovers := rfl
@[simp] theorem State.setPenWays_ops (s : State) (p : Nat) (x : PenWays) : (s.setPenWays p x).ops = s.ops := rfl
@[simp] theorem State.setPenWays_nextOp (s : State) (p : Nat) (x : PenWays) : (s.setPenWays p x).nextOp = s.nextOp := rfl
@[simp] theorem State.setPenWays_xl (s : State) (p : Nat) (x : PenWays) : (s.setPenWays p x).xl = s.xl := rfl
@[simp] theorem State.setPenWays_chans (s : State) (p : Nat) (x : PenWays) : (s.setPenWays p x).chans = s.chans := rfl
@[simp] theorem State.setPenWays_drams (s : State) (p : Nat) (x : PenWays) : (s.setPenWays p x).drams = s.drams := rfl
@[simp] theorem State.setPenWays_bell (s : State) (p : Nat) (x : PenWays) : (s.setPenWays p x).bell = s.bell := rfl
@[simp] theorem State.setPenWays_tally (s : State) (p : Nat) (x : PenWays) : (s.setPenWays p x).tally = s.tally := rfl
@[simp] theorem State.setPenWays_log (s : State) (p : Nat) (x : PenWays) : (s.setPenWays p x).log = s.log := rfl
@[simp] theorem State.setPenWays_dramUe (s : State) (p : Nat) (x : PenWays) : (s.setPenWays p x).dramUe = s.dramUe := rfl
@[simp] theorem State.setPenWays_irqs (s : State) (p : Nat) (x : PenWays) : (s.setPenWays p x).irqs = s.irqs := rfl
@[simp] theorem State.setPenWays_closed (s : State) (p : Nat) (x : PenWays) : (s.setPenWays p x).closed = s.closed := rfl
@[simp] theorem State.setPenWays_resetPaddocks (s : State) (p : Nat) (x : PenWays) : (s.setPenWays p x).resetPaddocks = s.resetPaddocks := rfl
@[simp] theorem State.setPenWays_siteReqs (s : State) (p : Nat) (x : PenWays) : (s.setPenWays p x).siteReqs = s.siteReqs := rfl
@[simp] theorem State.setPenWays_fab (s : State) (p : Nat) (x : PenWays) : (s.setPenWays p x).fab = s.fab := rfl
@[simp] theorem State.setPenWays_penClock (s : State) (p : Nat) (x : PenWays) : (s.setPenWays p x).penClock = s.penClock := rfl
@[simp] theorem State.setPenWays_penGated (s : State) (p : Nat) (x : PenWays) : (s.setPenWays p x).penGated = s.penGated := rfl
@[simp] theorem State.setPenWays_savedXfers (s : State) (p : Nat) (x : PenWays) : (s.setPenWays p x).savedXfers = s.savedXfers := rfl
@[simp] theorem State.setPenWays_loaded (s : State) (p : Nat) (x : PenWays) : (s.setPenWays p x).loaded = s.loaded := rfl
@[simp] theorem State.setPenWays_sites (s : State) (p : Nat) (x : PenWays) : (s.setPenWays p x).sites = s.sites := rfl
@[simp] theorem State.setPenWays_siteHeld (s : State) (p : Nat) (x : PenWays) : (s.setPenWays p x).siteHeld = s.siteHeld := rfl
@[simp] theorem State.setPenWays_mboxes (s : State) (p : Nat) (x : PenWays) : (s.setPenWays p x).mboxes = s.mboxes := rfl
@[simp] theorem State.setPenWays_zones (s : State) (p : Nat) (x : PenWays) : (s.setPenWays p x).zones = s.zones := rfl
@[simp] theorem State.setPenWays_move (s : State) (p : Nat) (x : PenWays) : (s.setPenWays p x).move = s.move := rfl
@[simp] theorem State.setPenWays_waking (s : State) (p : Nat) (x : PenWays) : (s.setPenWays p x).waking = s.waking := rfl
@[simp] theorem State.setPenWays_down (s : State) (p : Nat) (x : PenWays) : (s.setPenWays p x).down = s.down := rfl
@[simp] theorem State.setPenWays_resetting (s : State) (p : Nat) (x : PenWays) : (s.setPenWays p x).resetting = s.resetting := rfl
@[simp] theorem State.setPenWays_zeroPads (s : State) (p : Nat) (x : PenWays) : (s.setPenWays p x).zeroPads = s.zeroPads := rfl
@[simp] theorem State.setPenWays_mram (s : State) (p : Nat) (x : PenWays) : (s.setPenWays p x).mram = s.mram := rfl
@[simp] theorem State.setPenWays_flash (s : State) (p : Nat) (x : PenWays) : (s.setPenWays p x).flash = s.flash := rfl
@[simp] theorem State.setPenWays_crook (s : State) (p : Nat) (x : PenWays) : (s.setPenWays p x).crook = s.crook := rfl
@[simp] theorem State.setPenWays_ports (s : State) (p : Nat) (x : PenWays) : (s.setPenWays p x).ports = s.ports := rfl
@[simp] theorem State.setPenWays_trace (s : State) (p : Nat) (x : PenWays) : (s.setPenWays p x).trace = s.trace := rfl
@[simp] theorem State.setLine_pending (s : State) (l : Nat) (x : Option Line) : (s.setLine l x).pending = s.pending := rfl
@[simp] theorem State.setLine_out (s : State) (l : Nat) (x : Option Line) : (s.setLine l x).out = s.out := rfl
@[simp] theorem State.setLine_free (s : State) (l : Nat) (x : Option Line) : (s.setLine l x).free = s.free := rfl
@[simp] theorem State.setLine_regs (s : State) (l : Nat) (x : Option Line) : (s.setLine l x).regs = s.regs := rfl
@[simp] theorem State.setLine_staged (s : State) (l : Nat) (x : Option Line) : (s.setLine l x).staged = s.staged := rfl
@[simp] theorem State.setLine_mem (s : State) (l : Nat) (x : Option Line) : (s.setLine l x).mem = s.mem := rfl
@[simp] theorem State.setLine_dramPoison (s : State) (l : Nat) (x : Option Line) : (s.setLine l x).dramPoison = s.dramPoison := rfl
@[simp] theorem State.setLine_fold (s : State) (l : Nat) (x : Option Line) : (s.setLine l x).fold = s.fold := rfl
@[simp] theorem State.setLine_foldPoison (s : State) (l : Nat) (x : Option Line) : (s.setLine l x).foldPoison = s.foldPoison := rfl
@[simp] theorem State.setLine_banks (s : State) (l : Nat) (x : Option Line) : (s.setLine l x).banks = s.banks := rfl
@[simp] theorem State.setLine_ways (s : State) (l : Nat) (x : Option Line) : (s.setLine l x).ways = s.ways := rfl
@[simp] theorem State.setLine_ranges (s : State) (l : Nat) (x : Option Line) : (s.setLine l x).ranges = s.ranges := rfl
@[simp] theorem State.setLine_strands (s : State) (l : Nat) (x : Option Line) : (s.setLine l x).strands = s.strands := rfl
@[simp] theorem State.setLine_drovers (s : State) (l : Nat) (x : Option Line) : (s.setLine l x).drovers = s.drovers := rfl
@[simp] theorem State.setLine_ops (s : State) (l : Nat) (x : Option Line) : (s.setLine l x).ops = s.ops := rfl
@[simp] theorem State.setLine_nextOp (s : State) (l : Nat) (x : Option Line) : (s.setLine l x).nextOp = s.nextOp := rfl
@[simp] theorem State.setLine_xl (s : State) (l : Nat) (x : Option Line) : (s.setLine l x).xl = s.xl := rfl
@[simp] theorem State.setLine_chans (s : State) (l : Nat) (x : Option Line) : (s.setLine l x).chans = s.chans := rfl
@[simp] theorem State.setLine_drams (s : State) (l : Nat) (x : Option Line) : (s.setLine l x).drams = s.drams := rfl
@[simp] theorem State.setLine_bell (s : State) (l : Nat) (x : Option Line) : (s.setLine l x).bell = s.bell := rfl
@[simp] theorem State.setLine_tally (s : State) (l : Nat) (x : Option Line) : (s.setLine l x).tally = s.tally := rfl
@[simp] theorem State.setLine_log (s : State) (l : Nat) (x : Option Line) : (s.setLine l x).log = s.log := rfl
@[simp] theorem State.setLine_dramUe (s : State) (l : Nat) (x : Option Line) : (s.setLine l x).dramUe = s.dramUe := rfl
@[simp] theorem State.setLine_irqs (s : State) (l : Nat) (x : Option Line) : (s.setLine l x).irqs = s.irqs := rfl
@[simp] theorem State.setLine_closed (s : State) (l : Nat) (x : Option Line) : (s.setLine l x).closed = s.closed := rfl
@[simp] theorem State.setLine_resetPaddocks (s : State) (l : Nat) (x : Option Line) : (s.setLine l x).resetPaddocks = s.resetPaddocks := rfl
@[simp] theorem State.setLine_siteReqs (s : State) (l : Nat) (x : Option Line) : (s.setLine l x).siteReqs = s.siteReqs := rfl
@[simp] theorem State.setLine_fab (s : State) (l : Nat) (x : Option Line) : (s.setLine l x).fab = s.fab := rfl
@[simp] theorem State.setLine_penClock (s : State) (l : Nat) (x : Option Line) : (s.setLine l x).penClock = s.penClock := rfl
@[simp] theorem State.setLine_penGated (s : State) (l : Nat) (x : Option Line) : (s.setLine l x).penGated = s.penGated := rfl
@[simp] theorem State.setLine_savedXfers (s : State) (l : Nat) (x : Option Line) : (s.setLine l x).savedXfers = s.savedXfers := rfl
@[simp] theorem State.setLine_loaded (s : State) (l : Nat) (x : Option Line) : (s.setLine l x).loaded = s.loaded := rfl
@[simp] theorem State.setLine_sites (s : State) (l : Nat) (x : Option Line) : (s.setLine l x).sites = s.sites := rfl
@[simp] theorem State.setLine_siteHeld (s : State) (l : Nat) (x : Option Line) : (s.setLine l x).siteHeld = s.siteHeld := rfl
@[simp] theorem State.setLine_mboxes (s : State) (l : Nat) (x : Option Line) : (s.setLine l x).mboxes = s.mboxes := rfl
@[simp] theorem State.setLine_zones (s : State) (l : Nat) (x : Option Line) : (s.setLine l x).zones = s.zones := rfl
@[simp] theorem State.setLine_move (s : State) (l : Nat) (x : Option Line) : (s.setLine l x).move = s.move := rfl
@[simp] theorem State.setLine_waking (s : State) (l : Nat) (x : Option Line) : (s.setLine l x).waking = s.waking := rfl
@[simp] theorem State.setLine_down (s : State) (l : Nat) (x : Option Line) : (s.setLine l x).down = s.down := rfl
@[simp] theorem State.setLine_resetting (s : State) (l : Nat) (x : Option Line) : (s.setLine l x).resetting = s.resetting := rfl
@[simp] theorem State.setLine_zeroPads (s : State) (l : Nat) (x : Option Line) : (s.setLine l x).zeroPads = s.zeroPads := rfl
@[simp] theorem State.setLine_mram (s : State) (l : Nat) (x : Option Line) : (s.setLine l x).mram = s.mram := rfl
@[simp] theorem State.setLine_flash (s : State) (l : Nat) (x : Option Line) : (s.setLine l x).flash = s.flash := rfl
@[simp] theorem State.setLine_crook (s : State) (l : Nat) (x : Option Line) : (s.setLine l x).crook = s.crook := rfl
@[simp] theorem State.setLine_ports (s : State) (l : Nat) (x : Option Line) : (s.setLine l x).ports = s.ports := rfl
@[simp] theorem State.setLine_trace (s : State) (l : Nat) (x : Option Line) : (s.setLine l x).trace = s.trace := rfl
@[simp] theorem State.setBad_pending (s : State) (w : Nat) (b : Bool) : (s.setBad w b).pending = s.pending := rfl
@[simp] theorem State.setBad_out (s : State) (w : Nat) (b : Bool) : (s.setBad w b).out = s.out := rfl
@[simp] theorem State.setBad_free (s : State) (w : Nat) (b : Bool) : (s.setBad w b).free = s.free := rfl
@[simp] theorem State.setBad_regs (s : State) (w : Nat) (b : Bool) : (s.setBad w b).regs = s.regs := rfl
@[simp] theorem State.setBad_staged (s : State) (w : Nat) (b : Bool) : (s.setBad w b).staged = s.staged := rfl
@[simp] theorem State.setBad_mem (s : State) (w : Nat) (b : Bool) : (s.setBad w b).mem = s.mem := rfl
@[simp] theorem State.setBad_dramPoison (s : State) (w : Nat) (b : Bool) : (s.setBad w b).dramPoison = s.dramPoison := rfl
@[simp] theorem State.setBad_fold (s : State) (w : Nat) (b : Bool) : (s.setBad w b).fold = s.fold := rfl
@[simp] theorem State.setBad_lines (s : State) (w : Nat) (b : Bool) : (s.setBad w b).lines = s.lines := rfl
@[simp] theorem State.setBad_banks (s : State) (w : Nat) (b : Bool) : (s.setBad w b).banks = s.banks := rfl
@[simp] theorem State.setBad_ways (s : State) (w : Nat) (b : Bool) : (s.setBad w b).ways = s.ways := rfl
@[simp] theorem State.setBad_ranges (s : State) (w : Nat) (b : Bool) : (s.setBad w b).ranges = s.ranges := rfl
@[simp] theorem State.setBad_strands (s : State) (w : Nat) (b : Bool) : (s.setBad w b).strands = s.strands := rfl
@[simp] theorem State.setBad_drovers (s : State) (w : Nat) (b : Bool) : (s.setBad w b).drovers = s.drovers := rfl
@[simp] theorem State.setBad_ops (s : State) (w : Nat) (b : Bool) : (s.setBad w b).ops = s.ops := rfl
@[simp] theorem State.setBad_nextOp (s : State) (w : Nat) (b : Bool) : (s.setBad w b).nextOp = s.nextOp := rfl
@[simp] theorem State.setBad_xl (s : State) (w : Nat) (b : Bool) : (s.setBad w b).xl = s.xl := rfl
@[simp] theorem State.setBad_chans (s : State) (w : Nat) (b : Bool) : (s.setBad w b).chans = s.chans := rfl
@[simp] theorem State.setBad_drams (s : State) (w : Nat) (b : Bool) : (s.setBad w b).drams = s.drams := rfl
@[simp] theorem State.setBad_bell (s : State) (w : Nat) (b : Bool) : (s.setBad w b).bell = s.bell := rfl
@[simp] theorem State.setBad_tally (s : State) (w : Nat) (b : Bool) : (s.setBad w b).tally = s.tally := rfl
@[simp] theorem State.setBad_log (s : State) (w : Nat) (b : Bool) : (s.setBad w b).log = s.log := rfl
@[simp] theorem State.setBad_dramUe (s : State) (w : Nat) (b : Bool) : (s.setBad w b).dramUe = s.dramUe := rfl
@[simp] theorem State.setBad_irqs (s : State) (w : Nat) (b : Bool) : (s.setBad w b).irqs = s.irqs := rfl
@[simp] theorem State.setBad_closed (s : State) (w : Nat) (b : Bool) : (s.setBad w b).closed = s.closed := rfl
@[simp] theorem State.setBad_resetPaddocks (s : State) (w : Nat) (b : Bool) : (s.setBad w b).resetPaddocks = s.resetPaddocks := rfl
@[simp] theorem State.setBad_siteReqs (s : State) (w : Nat) (b : Bool) : (s.setBad w b).siteReqs = s.siteReqs := rfl
@[simp] theorem State.setBad_fab (s : State) (w : Nat) (b : Bool) : (s.setBad w b).fab = s.fab := rfl
@[simp] theorem State.setBad_penClock (s : State) (w : Nat) (b : Bool) : (s.setBad w b).penClock = s.penClock := rfl
@[simp] theorem State.setBad_penGated (s : State) (w : Nat) (b : Bool) : (s.setBad w b).penGated = s.penGated := rfl
@[simp] theorem State.setBad_savedXfers (s : State) (w : Nat) (b : Bool) : (s.setBad w b).savedXfers = s.savedXfers := rfl
@[simp] theorem State.setBad_loaded (s : State) (w : Nat) (b : Bool) : (s.setBad w b).loaded = s.loaded := rfl
@[simp] theorem State.setBad_sites (s : State) (w : Nat) (b : Bool) : (s.setBad w b).sites = s.sites := rfl
@[simp] theorem State.setBad_siteHeld (s : State) (w : Nat) (b : Bool) : (s.setBad w b).siteHeld = s.siteHeld := rfl
@[simp] theorem State.setBad_mboxes (s : State) (w : Nat) (b : Bool) : (s.setBad w b).mboxes = s.mboxes := rfl
@[simp] theorem State.setBad_zones (s : State) (w : Nat) (b : Bool) : (s.setBad w b).zones = s.zones := rfl
@[simp] theorem State.setBad_move (s : State) (w : Nat) (b : Bool) : (s.setBad w b).move = s.move := rfl
@[simp] theorem State.setBad_waking (s : State) (w : Nat) (b : Bool) : (s.setBad w b).waking = s.waking := rfl
@[simp] theorem State.setBad_down (s : State) (w : Nat) (b : Bool) : (s.setBad w b).down = s.down := rfl
@[simp] theorem State.setBad_resetting (s : State) (w : Nat) (b : Bool) : (s.setBad w b).resetting = s.resetting := rfl
@[simp] theorem State.setBad_zeroPads (s : State) (w : Nat) (b : Bool) : (s.setBad w b).zeroPads = s.zeroPads := rfl
@[simp] theorem State.setBad_mram (s : State) (w : Nat) (b : Bool) : (s.setBad w b).mram = s.mram := rfl
@[simp] theorem State.setBad_flash (s : State) (w : Nat) (b : Bool) : (s.setBad w b).flash = s.flash := rfl
@[simp] theorem State.setBad_crook (s : State) (w : Nat) (b : Bool) : (s.setBad w b).crook = s.crook := rfl
@[simp] theorem State.setBad_ports (s : State) (w : Nat) (b : Bool) : (s.setBad w b).ports = s.ports := rfl
@[simp] theorem State.setBad_trace (s : State) (w : Nat) (b : Bool) : (s.setBad w b).trace = s.trace := rfl
@[simp] theorem State.setStack_pending (s : State) (k : Nat) (x : Stack) : (s.setStack k x).pending = s.pending := rfl
@[simp] theorem State.setStack_out (s : State) (k : Nat) (x : Stack) : (s.setStack k x).out = s.out := rfl
@[simp] theorem State.setStack_free (s : State) (k : Nat) (x : Stack) : (s.setStack k x).free = s.free := rfl
@[simp] theorem State.setStack_regs (s : State) (k : Nat) (x : Stack) : (s.setStack k x).regs = s.regs := rfl
@[simp] theorem State.setStack_staged (s : State) (k : Nat) (x : Stack) : (s.setStack k x).staged = s.staged := rfl
@[simp] theorem State.setStack_mem (s : State) (k : Nat) (x : Stack) : (s.setStack k x).mem = s.mem := rfl
@[simp] theorem State.setStack_dramPoison (s : State) (k : Nat) (x : Stack) : (s.setStack k x).dramPoison = s.dramPoison := rfl
@[simp] theorem State.setStack_fold (s : State) (k : Nat) (x : Stack) : (s.setStack k x).fold = s.fold := rfl
@[simp] theorem State.setStack_foldPoison (s : State) (k : Nat) (x : Stack) : (s.setStack k x).foldPoison = s.foldPoison := rfl
@[simp] theorem State.setStack_lines (s : State) (k : Nat) (x : Stack) : (s.setStack k x).lines = s.lines := rfl
@[simp] theorem State.setStack_banks (s : State) (k : Nat) (x : Stack) : (s.setStack k x).banks = s.banks := rfl
@[simp] theorem State.setStack_ways (s : State) (k : Nat) (x : Stack) : (s.setStack k x).ways = s.ways := rfl
@[simp] theorem State.setStack_ranges (s : State) (k : Nat) (x : Stack) : (s.setStack k x).ranges = s.ranges := rfl
@[simp] theorem State.setStack_strands (s : State) (k : Nat) (x : Stack) : (s.setStack k x).strands = s.strands := rfl
@[simp] theorem State.setStack_drovers (s : State) (k : Nat) (x : Stack) : (s.setStack k x).drovers = s.drovers := rfl
@[simp] theorem State.setStack_ops (s : State) (k : Nat) (x : Stack) : (s.setStack k x).ops = s.ops := rfl
@[simp] theorem State.setStack_nextOp (s : State) (k : Nat) (x : Stack) : (s.setStack k x).nextOp = s.nextOp := rfl
@[simp] theorem State.setStack_xl (s : State) (k : Nat) (x : Stack) : (s.setStack k x).xl = s.xl := rfl
@[simp] theorem State.setStack_chans (s : State) (k : Nat) (x : Stack) : (s.setStack k x).chans = s.chans := rfl
@[simp] theorem State.setStack_bell (s : State) (k : Nat) (x : Stack) : (s.setStack k x).bell = s.bell := rfl
@[simp] theorem State.setStack_tally (s : State) (k : Nat) (x : Stack) : (s.setStack k x).tally = s.tally := rfl
@[simp] theorem State.setStack_log (s : State) (k : Nat) (x : Stack) : (s.setStack k x).log = s.log := rfl
@[simp] theorem State.setStack_dramUe (s : State) (k : Nat) (x : Stack) : (s.setStack k x).dramUe = s.dramUe := rfl
@[simp] theorem State.setStack_irqs (s : State) (k : Nat) (x : Stack) : (s.setStack k x).irqs = s.irqs := rfl
@[simp] theorem State.setStack_closed (s : State) (k : Nat) (x : Stack) : (s.setStack k x).closed = s.closed := rfl
@[simp] theorem State.setStack_resetPaddocks (s : State) (k : Nat) (x : Stack) : (s.setStack k x).resetPaddocks = s.resetPaddocks := rfl
@[simp] theorem State.setStack_siteReqs (s : State) (k : Nat) (x : Stack) : (s.setStack k x).siteReqs = s.siteReqs := rfl
@[simp] theorem State.setStack_fab (s : State) (k : Nat) (x : Stack) : (s.setStack k x).fab = s.fab := rfl
@[simp] theorem State.setStack_penClock (s : State) (k : Nat) (x : Stack) : (s.setStack k x).penClock = s.penClock := rfl
@[simp] theorem State.setStack_penGated (s : State) (k : Nat) (x : Stack) : (s.setStack k x).penGated = s.penGated := rfl
@[simp] theorem State.setStack_savedXfers (s : State) (k : Nat) (x : Stack) : (s.setStack k x).savedXfers = s.savedXfers := rfl
@[simp] theorem State.setStack_loaded (s : State) (k : Nat) (x : Stack) : (s.setStack k x).loaded = s.loaded := rfl
@[simp] theorem State.setStack_sites (s : State) (k : Nat) (x : Stack) : (s.setStack k x).sites = s.sites := rfl
@[simp] theorem State.setStack_siteHeld (s : State) (k : Nat) (x : Stack) : (s.setStack k x).siteHeld = s.siteHeld := rfl
@[simp] theorem State.setStack_mboxes (s : State) (k : Nat) (x : Stack) : (s.setStack k x).mboxes = s.mboxes := rfl
@[simp] theorem State.setStack_zones (s : State) (k : Nat) (x : Stack) : (s.setStack k x).zones = s.zones := rfl
@[simp] theorem State.setStack_move (s : State) (k : Nat) (x : Stack) : (s.setStack k x).move = s.move := rfl
@[simp] theorem State.setStack_waking (s : State) (k : Nat) (x : Stack) : (s.setStack k x).waking = s.waking := rfl
@[simp] theorem State.setStack_down (s : State) (k : Nat) (x : Stack) : (s.setStack k x).down = s.down := rfl
@[simp] theorem State.setStack_resetting (s : State) (k : Nat) (x : Stack) : (s.setStack k x).resetting = s.resetting := rfl
@[simp] theorem State.setStack_zeroPads (s : State) (k : Nat) (x : Stack) : (s.setStack k x).zeroPads = s.zeroPads := rfl
@[simp] theorem State.setStack_mram (s : State) (k : Nat) (x : Stack) : (s.setStack k x).mram = s.mram := rfl
@[simp] theorem State.setStack_flash (s : State) (k : Nat) (x : Stack) : (s.setStack k x).flash = s.flash := rfl
@[simp] theorem State.setStack_crook (s : State) (k : Nat) (x : Stack) : (s.setStack k x).crook = s.crook := rfl
@[simp] theorem State.setStack_ports (s : State) (k : Nat) (x : Stack) : (s.setStack k x).ports = s.ports := rfl
@[simp] theorem State.setStack_trace (s : State) (k : Nat) (x : Stack) : (s.setStack k x).trace = s.trace := rfl
@[simp] theorem State.setChan_pending (s : State) (k c : Nat) (x : Chan) : (s.setChan k c x).pending = s.pending := rfl
@[simp] theorem State.setChan_out (s : State) (k c : Nat) (x : Chan) : (s.setChan k c x).out = s.out := rfl
@[simp] theorem State.setChan_free (s : State) (k c : Nat) (x : Chan) : (s.setChan k c x).free = s.free := rfl
@[simp] theorem State.setChan_regs (s : State) (k c : Nat) (x : Chan) : (s.setChan k c x).regs = s.regs := rfl
@[simp] theorem State.setChan_staged (s : State) (k c : Nat) (x : Chan) : (s.setChan k c x).staged = s.staged := rfl
@[simp] theorem State.setChan_mem (s : State) (k c : Nat) (x : Chan) : (s.setChan k c x).mem = s.mem := rfl
@[simp] theorem State.setChan_dramPoison (s : State) (k c : Nat) (x : Chan) : (s.setChan k c x).dramPoison = s.dramPoison := rfl
@[simp] theorem State.setChan_fold (s : State) (k c : Nat) (x : Chan) : (s.setChan k c x).fold = s.fold := rfl
@[simp] theorem State.setChan_foldPoison (s : State) (k c : Nat) (x : Chan) : (s.setChan k c x).foldPoison = s.foldPoison := rfl
@[simp] theorem State.setChan_lines (s : State) (k c : Nat) (x : Chan) : (s.setChan k c x).lines = s.lines := rfl
@[simp] theorem State.setChan_banks (s : State) (k c : Nat) (x : Chan) : (s.setChan k c x).banks = s.banks := rfl
@[simp] theorem State.setChan_ways (s : State) (k c : Nat) (x : Chan) : (s.setChan k c x).ways = s.ways := rfl
@[simp] theorem State.setChan_ranges (s : State) (k c : Nat) (x : Chan) : (s.setChan k c x).ranges = s.ranges := rfl
@[simp] theorem State.setChan_strands (s : State) (k c : Nat) (x : Chan) : (s.setChan k c x).strands = s.strands := rfl
@[simp] theorem State.setChan_drovers (s : State) (k c : Nat) (x : Chan) : (s.setChan k c x).drovers = s.drovers := rfl
@[simp] theorem State.setChan_ops (s : State) (k c : Nat) (x : Chan) : (s.setChan k c x).ops = s.ops := rfl
@[simp] theorem State.setChan_nextOp (s : State) (k c : Nat) (x : Chan) : (s.setChan k c x).nextOp = s.nextOp := rfl
@[simp] theorem State.setChan_xl (s : State) (k c : Nat) (x : Chan) : (s.setChan k c x).xl = s.xl := rfl
@[simp] theorem State.setChan_drams (s : State) (k c : Nat) (x : Chan) : (s.setChan k c x).drams = s.drams := rfl
@[simp] theorem State.setChan_bell (s : State) (k c : Nat) (x : Chan) : (s.setChan k c x).bell = s.bell := rfl
@[simp] theorem State.setChan_tally (s : State) (k c : Nat) (x : Chan) : (s.setChan k c x).tally = s.tally := rfl
@[simp] theorem State.setChan_log (s : State) (k c : Nat) (x : Chan) : (s.setChan k c x).log = s.log := rfl
@[simp] theorem State.setChan_dramUe (s : State) (k c : Nat) (x : Chan) : (s.setChan k c x).dramUe = s.dramUe := rfl
@[simp] theorem State.setChan_irqs (s : State) (k c : Nat) (x : Chan) : (s.setChan k c x).irqs = s.irqs := rfl
@[simp] theorem State.setChan_closed (s : State) (k c : Nat) (x : Chan) : (s.setChan k c x).closed = s.closed := rfl
@[simp] theorem State.setChan_resetPaddocks (s : State) (k c : Nat) (x : Chan) : (s.setChan k c x).resetPaddocks = s.resetPaddocks := rfl
@[simp] theorem State.setChan_siteReqs (s : State) (k c : Nat) (x : Chan) : (s.setChan k c x).siteReqs = s.siteReqs := rfl
@[simp] theorem State.setChan_fab (s : State) (k c : Nat) (x : Chan) : (s.setChan k c x).fab = s.fab := rfl
@[simp] theorem State.setChan_penClock (s : State) (k c : Nat) (x : Chan) : (s.setChan k c x).penClock = s.penClock := rfl
@[simp] theorem State.setChan_penGated (s : State) (k c : Nat) (x : Chan) : (s.setChan k c x).penGated = s.penGated := rfl
@[simp] theorem State.setChan_savedXfers (s : State) (k c : Nat) (x : Chan) : (s.setChan k c x).savedXfers = s.savedXfers := rfl
@[simp] theorem State.setChan_loaded (s : State) (k c : Nat) (x : Chan) : (s.setChan k c x).loaded = s.loaded := rfl
@[simp] theorem State.setChan_sites (s : State) (k c : Nat) (x : Chan) : (s.setChan k c x).sites = s.sites := rfl
@[simp] theorem State.setChan_siteHeld (s : State) (k c : Nat) (x : Chan) : (s.setChan k c x).siteHeld = s.siteHeld := rfl
@[simp] theorem State.setChan_mboxes (s : State) (k c : Nat) (x : Chan) : (s.setChan k c x).mboxes = s.mboxes := rfl
@[simp] theorem State.setChan_zones (s : State) (k c : Nat) (x : Chan) : (s.setChan k c x).zones = s.zones := rfl
@[simp] theorem State.setChan_move (s : State) (k c : Nat) (x : Chan) : (s.setChan k c x).move = s.move := rfl
@[simp] theorem State.setChan_waking (s : State) (k c : Nat) (x : Chan) : (s.setChan k c x).waking = s.waking := rfl
@[simp] theorem State.setChan_down (s : State) (k c : Nat) (x : Chan) : (s.setChan k c x).down = s.down := rfl
@[simp] theorem State.setChan_resetting (s : State) (k c : Nat) (x : Chan) : (s.setChan k c x).resetting = s.resetting := rfl
@[simp] theorem State.setChan_zeroPads (s : State) (k c : Nat) (x : Chan) : (s.setChan k c x).zeroPads = s.zeroPads := rfl
@[simp] theorem State.setChan_mram (s : State) (k c : Nat) (x : Chan) : (s.setChan k c x).mram = s.mram := rfl
@[simp] theorem State.setChan_flash (s : State) (k c : Nat) (x : Chan) : (s.setChan k c x).flash = s.flash := rfl
@[simp] theorem State.setChan_crook (s : State) (k c : Nat) (x : Chan) : (s.setChan k c x).crook = s.crook := rfl
@[simp] theorem State.setChan_ports (s : State) (k c : Nat) (x : Chan) : (s.setChan k c x).ports = s.ports := rfl
@[simp] theorem State.setChan_trace (s : State) (k c : Nat) (x : Chan) : (s.setChan k c x).trace = s.trace := rfl
@[simp] theorem State.setXl_pending (s : State) (x : Xlat) : (s.setXl x).pending = s.pending := rfl
@[simp] theorem State.setXl_out (s : State) (x : Xlat) : (s.setXl x).out = s.out := rfl
@[simp] theorem State.setXl_free (s : State) (x : Xlat) : (s.setXl x).free = s.free := rfl
@[simp] theorem State.setXl_regs (s : State) (x : Xlat) : (s.setXl x).regs = s.regs := rfl
@[simp] theorem State.setXl_staged (s : State) (x : Xlat) : (s.setXl x).staged = s.staged := rfl
@[simp] theorem State.setXl_mem (s : State) (x : Xlat) : (s.setXl x).mem = s.mem := rfl
@[simp] theorem State.setXl_dramPoison (s : State) (x : Xlat) : (s.setXl x).dramPoison = s.dramPoison := rfl
@[simp] theorem State.setXl_fold (s : State) (x : Xlat) : (s.setXl x).fold = s.fold := rfl
@[simp] theorem State.setXl_foldPoison (s : State) (x : Xlat) : (s.setXl x).foldPoison = s.foldPoison := rfl
@[simp] theorem State.setXl_lines (s : State) (x : Xlat) : (s.setXl x).lines = s.lines := rfl
@[simp] theorem State.setXl_banks (s : State) (x : Xlat) : (s.setXl x).banks = s.banks := rfl
@[simp] theorem State.setXl_ways (s : State) (x : Xlat) : (s.setXl x).ways = s.ways := rfl
@[simp] theorem State.setXl_ranges (s : State) (x : Xlat) : (s.setXl x).ranges = s.ranges := rfl
@[simp] theorem State.setXl_strands (s : State) (x : Xlat) : (s.setXl x).strands = s.strands := rfl
@[simp] theorem State.setXl_drovers (s : State) (x : Xlat) : (s.setXl x).drovers = s.drovers := rfl
@[simp] theorem State.setXl_ops (s : State) (x : Xlat) : (s.setXl x).ops = s.ops := rfl
@[simp] theorem State.setXl_nextOp (s : State) (x : Xlat) : (s.setXl x).nextOp = s.nextOp := rfl
@[simp] theorem State.setXl_chans (s : State) (x : Xlat) : (s.setXl x).chans = s.chans := rfl
@[simp] theorem State.setXl_drams (s : State) (x : Xlat) : (s.setXl x).drams = s.drams := rfl
@[simp] theorem State.setXl_bell (s : State) (x : Xlat) : (s.setXl x).bell = s.bell := rfl
@[simp] theorem State.setXl_tally (s : State) (x : Xlat) : (s.setXl x).tally = s.tally := rfl
@[simp] theorem State.setXl_log (s : State) (x : Xlat) : (s.setXl x).log = s.log := rfl
@[simp] theorem State.setXl_dramUe (s : State) (x : Xlat) : (s.setXl x).dramUe = s.dramUe := rfl
@[simp] theorem State.setXl_irqs (s : State) (x : Xlat) : (s.setXl x).irqs = s.irqs := rfl
@[simp] theorem State.setXl_closed (s : State) (x : Xlat) : (s.setXl x).closed = s.closed := rfl
@[simp] theorem State.setXl_resetPaddocks (s : State) (x : Xlat) : (s.setXl x).resetPaddocks = s.resetPaddocks := rfl
@[simp] theorem State.setXl_siteReqs (s : State) (x : Xlat) : (s.setXl x).siteReqs = s.siteReqs := rfl
@[simp] theorem State.setXl_fab (s : State) (x : Xlat) : (s.setXl x).fab = s.fab := rfl
@[simp] theorem State.setXl_penClock (s : State) (x : Xlat) : (s.setXl x).penClock = s.penClock := rfl
@[simp] theorem State.setXl_penGated (s : State) (x : Xlat) : (s.setXl x).penGated = s.penGated := rfl
@[simp] theorem State.setXl_savedXfers (s : State) (x : Xlat) : (s.setXl x).savedXfers = s.savedXfers := rfl
@[simp] theorem State.setXl_loaded (s : State) (x : Xlat) : (s.setXl x).loaded = s.loaded := rfl
@[simp] theorem State.setXl_sites (s : State) (x : Xlat) : (s.setXl x).sites = s.sites := rfl
@[simp] theorem State.setXl_siteHeld (s : State) (x : Xlat) : (s.setXl x).siteHeld = s.siteHeld := rfl
@[simp] theorem State.setXl_mboxes (s : State) (x : Xlat) : (s.setXl x).mboxes = s.mboxes := rfl
@[simp] theorem State.setXl_zones (s : State) (x : Xlat) : (s.setXl x).zones = s.zones := rfl
@[simp] theorem State.setXl_move (s : State) (x : Xlat) : (s.setXl x).move = s.move := rfl
@[simp] theorem State.setXl_waking (s : State) (x : Xlat) : (s.setXl x).waking = s.waking := rfl
@[simp] theorem State.setXl_down (s : State) (x : Xlat) : (s.setXl x).down = s.down := rfl
@[simp] theorem State.setXl_resetting (s : State) (x : Xlat) : (s.setXl x).resetting = s.resetting := rfl
@[simp] theorem State.setXl_zeroPads (s : State) (x : Xlat) : (s.setXl x).zeroPads = s.zeroPads := rfl
@[simp] theorem State.setXl_mram (s : State) (x : Xlat) : (s.setXl x).mram = s.mram := rfl
@[simp] theorem State.setXl_flash (s : State) (x : Xlat) : (s.setXl x).flash = s.flash := rfl
@[simp] theorem State.setXl_crook (s : State) (x : Xlat) : (s.setXl x).crook = s.crook := rfl
@[simp] theorem State.setXl_ports (s : State) (x : Xlat) : (s.setXl x).ports = s.ports := rfl
@[simp] theorem State.setXl_trace (s : State) (x : Xlat) : (s.setXl x).trace = s.trace := rfl
@[simp] theorem State.setFab_pending (s : State) (f : Fabric) : (s.setFab f).pending = s.pending := rfl
@[simp] theorem State.setFab_out (s : State) (f : Fabric) : (s.setFab f).out = s.out := rfl
@[simp] theorem State.setFab_free (s : State) (f : Fabric) : (s.setFab f).free = s.free := rfl
@[simp] theorem State.setFab_regs (s : State) (f : Fabric) : (s.setFab f).regs = s.regs := rfl
@[simp] theorem State.setFab_staged (s : State) (f : Fabric) : (s.setFab f).staged = s.staged := rfl
@[simp] theorem State.setFab_mem (s : State) (f : Fabric) : (s.setFab f).mem = s.mem := rfl
@[simp] theorem State.setFab_dramPoison (s : State) (f : Fabric) : (s.setFab f).dramPoison = s.dramPoison := rfl
@[simp] theorem State.setFab_fold (s : State) (f : Fabric) : (s.setFab f).fold = s.fold := rfl
@[simp] theorem State.setFab_foldPoison (s : State) (f : Fabric) : (s.setFab f).foldPoison = s.foldPoison := rfl
@[simp] theorem State.setFab_lines (s : State) (f : Fabric) : (s.setFab f).lines = s.lines := rfl
@[simp] theorem State.setFab_banks (s : State) (f : Fabric) : (s.setFab f).banks = s.banks := rfl
@[simp] theorem State.setFab_ways (s : State) (f : Fabric) : (s.setFab f).ways = s.ways := rfl
@[simp] theorem State.setFab_ranges (s : State) (f : Fabric) : (s.setFab f).ranges = s.ranges := rfl
@[simp] theorem State.setFab_strands (s : State) (f : Fabric) : (s.setFab f).strands = s.strands := rfl
@[simp] theorem State.setFab_drovers (s : State) (f : Fabric) : (s.setFab f).drovers = s.drovers := rfl
@[simp] theorem State.setFab_ops (s : State) (f : Fabric) : (s.setFab f).ops = s.ops := rfl
@[simp] theorem State.setFab_nextOp (s : State) (f : Fabric) : (s.setFab f).nextOp = s.nextOp := rfl
@[simp] theorem State.setFab_xl (s : State) (f : Fabric) : (s.setFab f).xl = s.xl := rfl
@[simp] theorem State.setFab_chans (s : State) (f : Fabric) : (s.setFab f).chans = s.chans := rfl
@[simp] theorem State.setFab_drams (s : State) (f : Fabric) : (s.setFab f).drams = s.drams := rfl
@[simp] theorem State.setFab_bell (s : State) (f : Fabric) : (s.setFab f).bell = s.bell := rfl
@[simp] theorem State.setFab_tally (s : State) (f : Fabric) : (s.setFab f).tally = s.tally := rfl
@[simp] theorem State.setFab_log (s : State) (f : Fabric) : (s.setFab f).log = s.log := rfl
@[simp] theorem State.setFab_dramUe (s : State) (f : Fabric) : (s.setFab f).dramUe = s.dramUe := rfl
@[simp] theorem State.setFab_irqs (s : State) (f : Fabric) : (s.setFab f).irqs = s.irqs := rfl
@[simp] theorem State.setFab_closed (s : State) (f : Fabric) : (s.setFab f).closed = s.closed := rfl
@[simp] theorem State.setFab_resetPaddocks (s : State) (f : Fabric) : (s.setFab f).resetPaddocks = s.resetPaddocks := rfl
@[simp] theorem State.setFab_siteReqs (s : State) (f : Fabric) : (s.setFab f).siteReqs = s.siteReqs := rfl
@[simp] theorem State.setFab_penClock (s : State) (f : Fabric) : (s.setFab f).penClock = s.penClock := rfl
@[simp] theorem State.setFab_penGated (s : State) (f : Fabric) : (s.setFab f).penGated = s.penGated := rfl
@[simp] theorem State.setFab_savedXfers (s : State) (f : Fabric) : (s.setFab f).savedXfers = s.savedXfers := rfl
@[simp] theorem State.setFab_loaded (s : State) (f : Fabric) : (s.setFab f).loaded = s.loaded := rfl
@[simp] theorem State.setFab_sites (s : State) (f : Fabric) : (s.setFab f).sites = s.sites := rfl
@[simp] theorem State.setFab_siteHeld (s : State) (f : Fabric) : (s.setFab f).siteHeld = s.siteHeld := rfl
@[simp] theorem State.setFab_mboxes (s : State) (f : Fabric) : (s.setFab f).mboxes = s.mboxes := rfl
@[simp] theorem State.setFab_zones (s : State) (f : Fabric) : (s.setFab f).zones = s.zones := rfl
@[simp] theorem State.setFab_move (s : State) (f : Fabric) : (s.setFab f).move = s.move := rfl
@[simp] theorem State.setFab_waking (s : State) (f : Fabric) : (s.setFab f).waking = s.waking := rfl
@[simp] theorem State.setFab_down (s : State) (f : Fabric) : (s.setFab f).down = s.down := rfl
@[simp] theorem State.setFab_resetting (s : State) (f : Fabric) : (s.setFab f).resetting = s.resetting := rfl
@[simp] theorem State.setFab_zeroPads (s : State) (f : Fabric) : (s.setFab f).zeroPads = s.zeroPads := rfl
@[simp] theorem State.setFab_mram (s : State) (f : Fabric) : (s.setFab f).mram = s.mram := rfl
@[simp] theorem State.setFab_flash (s : State) (f : Fabric) : (s.setFab f).flash = s.flash := rfl
@[simp] theorem State.setFab_crook (s : State) (f : Fabric) : (s.setFab f).crook = s.crook := rfl
@[simp] theorem State.setFab_ports (s : State) (f : Fabric) : (s.setFab f).ports = s.ports := rfl
@[simp] theorem State.setFab_trace (s : State) (f : Fabric) : (s.setFab f).trace = s.trace := rfl
@[simp] theorem State.setPort_pending (s : State) (p : Nat) (x : Port) : (s.setPort p x).pending = s.pending := rfl
@[simp] theorem State.setPort_out (s : State) (p : Nat) (x : Port) : (s.setPort p x).out = s.out := rfl
@[simp] theorem State.setPort_free (s : State) (p : Nat) (x : Port) : (s.setPort p x).free = s.free := rfl
@[simp] theorem State.setPort_regs (s : State) (p : Nat) (x : Port) : (s.setPort p x).regs = s.regs := rfl
@[simp] theorem State.setPort_staged (s : State) (p : Nat) (x : Port) : (s.setPort p x).staged = s.staged := rfl
@[simp] theorem State.setPort_mem (s : State) (p : Nat) (x : Port) : (s.setPort p x).mem = s.mem := rfl
@[simp] theorem State.setPort_dramPoison (s : State) (p : Nat) (x : Port) : (s.setPort p x).dramPoison = s.dramPoison := rfl
@[simp] theorem State.setPort_fold (s : State) (p : Nat) (x : Port) : (s.setPort p x).fold = s.fold := rfl
@[simp] theorem State.setPort_foldPoison (s : State) (p : Nat) (x : Port) : (s.setPort p x).foldPoison = s.foldPoison := rfl
@[simp] theorem State.setPort_lines (s : State) (p : Nat) (x : Port) : (s.setPort p x).lines = s.lines := rfl
@[simp] theorem State.setPort_banks (s : State) (p : Nat) (x : Port) : (s.setPort p x).banks = s.banks := rfl
@[simp] theorem State.setPort_ways (s : State) (p : Nat) (x : Port) : (s.setPort p x).ways = s.ways := rfl
@[simp] theorem State.setPort_ranges (s : State) (p : Nat) (x : Port) : (s.setPort p x).ranges = s.ranges := rfl
@[simp] theorem State.setPort_strands (s : State) (p : Nat) (x : Port) : (s.setPort p x).strands = s.strands := rfl
@[simp] theorem State.setPort_drovers (s : State) (p : Nat) (x : Port) : (s.setPort p x).drovers = s.drovers := rfl
@[simp] theorem State.setPort_ops (s : State) (p : Nat) (x : Port) : (s.setPort p x).ops = s.ops := rfl
@[simp] theorem State.setPort_nextOp (s : State) (p : Nat) (x : Port) : (s.setPort p x).nextOp = s.nextOp := rfl
@[simp] theorem State.setPort_xl (s : State) (p : Nat) (x : Port) : (s.setPort p x).xl = s.xl := rfl
@[simp] theorem State.setPort_chans (s : State) (p : Nat) (x : Port) : (s.setPort p x).chans = s.chans := rfl
@[simp] theorem State.setPort_drams (s : State) (p : Nat) (x : Port) : (s.setPort p x).drams = s.drams := rfl
@[simp] theorem State.setPort_bell (s : State) (p : Nat) (x : Port) : (s.setPort p x).bell = s.bell := rfl
@[simp] theorem State.setPort_tally (s : State) (p : Nat) (x : Port) : (s.setPort p x).tally = s.tally := rfl
@[simp] theorem State.setPort_log (s : State) (p : Nat) (x : Port) : (s.setPort p x).log = s.log := rfl
@[simp] theorem State.setPort_dramUe (s : State) (p : Nat) (x : Port) : (s.setPort p x).dramUe = s.dramUe := rfl
@[simp] theorem State.setPort_irqs (s : State) (p : Nat) (x : Port) : (s.setPort p x).irqs = s.irqs := rfl
@[simp] theorem State.setPort_closed (s : State) (p : Nat) (x : Port) : (s.setPort p x).closed = s.closed := rfl
@[simp] theorem State.setPort_resetPaddocks (s : State) (p : Nat) (x : Port) : (s.setPort p x).resetPaddocks = s.resetPaddocks := rfl
@[simp] theorem State.setPort_siteReqs (s : State) (p : Nat) (x : Port) : (s.setPort p x).siteReqs = s.siteReqs := rfl
@[simp] theorem State.setPort_penClock (s : State) (p : Nat) (x : Port) : (s.setPort p x).penClock = s.penClock := rfl
@[simp] theorem State.setPort_penGated (s : State) (p : Nat) (x : Port) : (s.setPort p x).penGated = s.penGated := rfl
@[simp] theorem State.setPort_savedXfers (s : State) (p : Nat) (x : Port) : (s.setPort p x).savedXfers = s.savedXfers := rfl
@[simp] theorem State.setPort_loaded (s : State) (p : Nat) (x : Port) : (s.setPort p x).loaded = s.loaded := rfl
@[simp] theorem State.setPort_sites (s : State) (p : Nat) (x : Port) : (s.setPort p x).sites = s.sites := rfl
@[simp] theorem State.setPort_siteHeld (s : State) (p : Nat) (x : Port) : (s.setPort p x).siteHeld = s.siteHeld := rfl
@[simp] theorem State.setPort_mboxes (s : State) (p : Nat) (x : Port) : (s.setPort p x).mboxes = s.mboxes := rfl
@[simp] theorem State.setPort_zones (s : State) (p : Nat) (x : Port) : (s.setPort p x).zones = s.zones := rfl
@[simp] theorem State.setPort_move (s : State) (p : Nat) (x : Port) : (s.setPort p x).move = s.move := rfl
@[simp] theorem State.setPort_waking (s : State) (p : Nat) (x : Port) : (s.setPort p x).waking = s.waking := rfl
@[simp] theorem State.setPort_down (s : State) (p : Nat) (x : Port) : (s.setPort p x).down = s.down := rfl
@[simp] theorem State.setPort_resetting (s : State) (p : Nat) (x : Port) : (s.setPort p x).resetting = s.resetting := rfl
@[simp] theorem State.setPort_zeroPads (s : State) (p : Nat) (x : Port) : (s.setPort p x).zeroPads = s.zeroPads := rfl
@[simp] theorem State.setPort_mram (s : State) (p : Nat) (x : Port) : (s.setPort p x).mram = s.mram := rfl
@[simp] theorem State.setPort_flash (s : State) (p : Nat) (x : Port) : (s.setPort p x).flash = s.flash := rfl
@[simp] theorem State.setPort_crook (s : State) (p : Nat) (x : Port) : (s.setPort p x).crook = s.crook := rfl
@[simp] theorem State.setPort_ports (s : State) (p : Nat) (x : Port) : (s.setPort p x).ports = s.ports := rfl
@[simp] theorem State.setPort_trace (s : State) (p : Nat) (x : Port) : (s.setPort p x).trace = s.trace := rfl
@[simp] theorem State.setLog_pending (s : State) (l : Recorder) : (s.setLog l).pending = s.pending := rfl
@[simp] theorem State.setLog_out (s : State) (l : Recorder) : (s.setLog l).out = s.out := rfl
@[simp] theorem State.setLog_free (s : State) (l : Recorder) : (s.setLog l).free = s.free := rfl
@[simp] theorem State.setLog_regs (s : State) (l : Recorder) : (s.setLog l).regs = s.regs := rfl
@[simp] theorem State.setLog_staged (s : State) (l : Recorder) : (s.setLog l).staged = s.staged := rfl
@[simp] theorem State.setLog_mem (s : State) (l : Recorder) : (s.setLog l).mem = s.mem := rfl
@[simp] theorem State.setLog_dramPoison (s : State) (l : Recorder) : (s.setLog l).dramPoison = s.dramPoison := rfl
@[simp] theorem State.setLog_fold (s : State) (l : Recorder) : (s.setLog l).fold = s.fold := rfl
@[simp] theorem State.setLog_foldPoison (s : State) (l : Recorder) : (s.setLog l).foldPoison = s.foldPoison := rfl
@[simp] theorem State.setLog_lines (s : State) (l : Recorder) : (s.setLog l).lines = s.lines := rfl
@[simp] theorem State.setLog_banks (s : State) (l : Recorder) : (s.setLog l).banks = s.banks := rfl
@[simp] theorem State.setLog_ways (s : State) (l : Recorder) : (s.setLog l).ways = s.ways := rfl
@[simp] theorem State.setLog_ranges (s : State) (l : Recorder) : (s.setLog l).ranges = s.ranges := rfl
@[simp] theorem State.setLog_strands (s : State) (l : Recorder) : (s.setLog l).strands = s.strands := rfl
@[simp] theorem State.setLog_drovers (s : State) (l : Recorder) : (s.setLog l).drovers = s.drovers := rfl
@[simp] theorem State.setLog_ops (s : State) (l : Recorder) : (s.setLog l).ops = s.ops := rfl
@[simp] theorem State.setLog_nextOp (s : State) (l : Recorder) : (s.setLog l).nextOp = s.nextOp := rfl
@[simp] theorem State.setLog_xl (s : State) (l : Recorder) : (s.setLog l).xl = s.xl := rfl
@[simp] theorem State.setLog_chans (s : State) (l : Recorder) : (s.setLog l).chans = s.chans := rfl
@[simp] theorem State.setLog_drams (s : State) (l : Recorder) : (s.setLog l).drams = s.drams := rfl
@[simp] theorem State.setLog_bell (s : State) (l : Recorder) : (s.setLog l).bell = s.bell := rfl
@[simp] theorem State.setLog_tally (s : State) (l : Recorder) : (s.setLog l).tally = s.tally := rfl
@[simp] theorem State.setLog_dramUe (s : State) (l : Recorder) : (s.setLog l).dramUe = s.dramUe := rfl
@[simp] theorem State.setLog_irqs (s : State) (l : Recorder) : (s.setLog l).irqs = s.irqs := rfl
@[simp] theorem State.setLog_closed (s : State) (l : Recorder) : (s.setLog l).closed = s.closed := rfl
@[simp] theorem State.setLog_resetPaddocks (s : State) (l : Recorder) : (s.setLog l).resetPaddocks = s.resetPaddocks := rfl
@[simp] theorem State.setLog_siteReqs (s : State) (l : Recorder) : (s.setLog l).siteReqs = s.siteReqs := rfl
@[simp] theorem State.setLog_fab (s : State) (l : Recorder) : (s.setLog l).fab = s.fab := rfl
@[simp] theorem State.setLog_penClock (s : State) (l : Recorder) : (s.setLog l).penClock = s.penClock := rfl
@[simp] theorem State.setLog_penGated (s : State) (l : Recorder) : (s.setLog l).penGated = s.penGated := rfl
@[simp] theorem State.setLog_savedXfers (s : State) (l : Recorder) : (s.setLog l).savedXfers = s.savedXfers := rfl
@[simp] theorem State.setLog_loaded (s : State) (l : Recorder) : (s.setLog l).loaded = s.loaded := rfl
@[simp] theorem State.setLog_sites (s : State) (l : Recorder) : (s.setLog l).sites = s.sites := rfl
@[simp] theorem State.setLog_siteHeld (s : State) (l : Recorder) : (s.setLog l).siteHeld = s.siteHeld := rfl
@[simp] theorem State.setLog_mboxes (s : State) (l : Recorder) : (s.setLog l).mboxes = s.mboxes := rfl
@[simp] theorem State.setLog_zones (s : State) (l : Recorder) : (s.setLog l).zones = s.zones := rfl
@[simp] theorem State.setLog_move (s : State) (l : Recorder) : (s.setLog l).move = s.move := rfl
@[simp] theorem State.setLog_waking (s : State) (l : Recorder) : (s.setLog l).waking = s.waking := rfl
@[simp] theorem State.setLog_down (s : State) (l : Recorder) : (s.setLog l).down = s.down := rfl
@[simp] theorem State.setLog_resetting (s : State) (l : Recorder) : (s.setLog l).resetting = s.resetting := rfl
@[simp] theorem State.setLog_zeroPads (s : State) (l : Recorder) : (s.setLog l).zeroPads = s.zeroPads := rfl
@[simp] theorem State.setLog_mram (s : State) (l : Recorder) : (s.setLog l).mram = s.mram := rfl
@[simp] theorem State.setLog_flash (s : State) (l : Recorder) : (s.setLog l).flash = s.flash := rfl
@[simp] theorem State.setLog_crook (s : State) (l : Recorder) : (s.setLog l).crook = s.crook := rfl
@[simp] theorem State.setLog_ports (s : State) (l : Recorder) : (s.setLog l).ports = s.ports := rfl
@[simp] theorem State.setLog_trace (s : State) (l : Recorder) : (s.setLog l).trace = s.trace := rfl
@[simp] theorem State.setBellLogic_pending (s : State) (b : BellLogic) : (s.setBellLogic b).pending = s.pending := rfl
@[simp] theorem State.setBellLogic_out (s : State) (b : BellLogic) : (s.setBellLogic b).out = s.out := rfl
@[simp] theorem State.setBellLogic_free (s : State) (b : BellLogic) : (s.setBellLogic b).free = s.free := rfl
@[simp] theorem State.setBellLogic_regs (s : State) (b : BellLogic) : (s.setBellLogic b).regs = s.regs := rfl
@[simp] theorem State.setBellLogic_staged (s : State) (b : BellLogic) : (s.setBellLogic b).staged = s.staged := rfl
@[simp] theorem State.setBellLogic_mem (s : State) (b : BellLogic) : (s.setBellLogic b).mem = s.mem := rfl
@[simp] theorem State.setBellLogic_dramPoison (s : State) (b : BellLogic) : (s.setBellLogic b).dramPoison = s.dramPoison := rfl
@[simp] theorem State.setBellLogic_fold (s : State) (b : BellLogic) : (s.setBellLogic b).fold = s.fold := rfl
@[simp] theorem State.setBellLogic_foldPoison (s : State) (b : BellLogic) : (s.setBellLogic b).foldPoison = s.foldPoison := rfl
@[simp] theorem State.setBellLogic_lines (s : State) (b : BellLogic) : (s.setBellLogic b).lines = s.lines := rfl
@[simp] theorem State.setBellLogic_banks (s : State) (b : BellLogic) : (s.setBellLogic b).banks = s.banks := rfl
@[simp] theorem State.setBellLogic_ways (s : State) (b : BellLogic) : (s.setBellLogic b).ways = s.ways := rfl
@[simp] theorem State.setBellLogic_ranges (s : State) (b : BellLogic) : (s.setBellLogic b).ranges = s.ranges := rfl
@[simp] theorem State.setBellLogic_strands (s : State) (b : BellLogic) : (s.setBellLogic b).strands = s.strands := rfl
@[simp] theorem State.setBellLogic_drovers (s : State) (b : BellLogic) : (s.setBellLogic b).drovers = s.drovers := rfl
@[simp] theorem State.setBellLogic_ops (s : State) (b : BellLogic) : (s.setBellLogic b).ops = s.ops := rfl
@[simp] theorem State.setBellLogic_nextOp (s : State) (b : BellLogic) : (s.setBellLogic b).nextOp = s.nextOp := rfl
@[simp] theorem State.setBellLogic_xl (s : State) (b : BellLogic) : (s.setBellLogic b).xl = s.xl := rfl
@[simp] theorem State.setBellLogic_chans (s : State) (b : BellLogic) : (s.setBellLogic b).chans = s.chans := rfl
@[simp] theorem State.setBellLogic_drams (s : State) (b : BellLogic) : (s.setBellLogic b).drams = s.drams := rfl
@[simp] theorem State.setBellLogic_tally (s : State) (b : BellLogic) : (s.setBellLogic b).tally = s.tally := rfl
@[simp] theorem State.setBellLogic_log (s : State) (b : BellLogic) : (s.setBellLogic b).log = s.log := rfl
@[simp] theorem State.setBellLogic_dramUe (s : State) (b : BellLogic) : (s.setBellLogic b).dramUe = s.dramUe := rfl
@[simp] theorem State.setBellLogic_irqs (s : State) (b : BellLogic) : (s.setBellLogic b).irqs = s.irqs := rfl
@[simp] theorem State.setBellLogic_closed (s : State) (b : BellLogic) : (s.setBellLogic b).closed = s.closed := rfl
@[simp] theorem State.setBellLogic_resetPaddocks (s : State) (b : BellLogic) : (s.setBellLogic b).resetPaddocks = s.resetPaddocks := rfl
@[simp] theorem State.setBellLogic_siteReqs (s : State) (b : BellLogic) : (s.setBellLogic b).siteReqs = s.siteReqs := rfl
@[simp] theorem State.setBellLogic_fab (s : State) (b : BellLogic) : (s.setBellLogic b).fab = s.fab := rfl
@[simp] theorem State.setBellLogic_penClock (s : State) (b : BellLogic) : (s.setBellLogic b).penClock = s.penClock := rfl
@[simp] theorem State.setBellLogic_penGated (s : State) (b : BellLogic) : (s.setBellLogic b).penGated = s.penGated := rfl
@[simp] theorem State.setBellLogic_savedXfers (s : State) (b : BellLogic) : (s.setBellLogic b).savedXfers = s.savedXfers := rfl
@[simp] theorem State.setBellLogic_loaded (s : State) (b : BellLogic) : (s.setBellLogic b).loaded = s.loaded := rfl
@[simp] theorem State.setBellLogic_sites (s : State) (b : BellLogic) : (s.setBellLogic b).sites = s.sites := rfl
@[simp] theorem State.setBellLogic_siteHeld (s : State) (b : BellLogic) : (s.setBellLogic b).siteHeld = s.siteHeld := rfl
@[simp] theorem State.setBellLogic_mboxes (s : State) (b : BellLogic) : (s.setBellLogic b).mboxes = s.mboxes := rfl
@[simp] theorem State.setBellLogic_zones (s : State) (b : BellLogic) : (s.setBellLogic b).zones = s.zones := rfl
@[simp] theorem State.setBellLogic_move (s : State) (b : BellLogic) : (s.setBellLogic b).move = s.move := rfl
@[simp] theorem State.setBellLogic_waking (s : State) (b : BellLogic) : (s.setBellLogic b).waking = s.waking := rfl
@[simp] theorem State.setBellLogic_down (s : State) (b : BellLogic) : (s.setBellLogic b).down = s.down := rfl
@[simp] theorem State.setBellLogic_resetting (s : State) (b : BellLogic) : (s.setBellLogic b).resetting = s.resetting := rfl
@[simp] theorem State.setBellLogic_zeroPads (s : State) (b : BellLogic) : (s.setBellLogic b).zeroPads = s.zeroPads := rfl
@[simp] theorem State.setBellLogic_mram (s : State) (b : BellLogic) : (s.setBellLogic b).mram = s.mram := rfl
@[simp] theorem State.setBellLogic_flash (s : State) (b : BellLogic) : (s.setBellLogic b).flash = s.flash := rfl
@[simp] theorem State.setBellLogic_crook (s : State) (b : BellLogic) : (s.setBellLogic b).crook = s.crook := rfl
@[simp] theorem State.setBellLogic_ports (s : State) (b : BellLogic) : (s.setBellLogic b).ports = s.ports := rfl
@[simp] theorem State.setBellLogic_trace (s : State) (b : BellLogic) : (s.setBellLogic b).trace = s.trace := rfl
@[simp] theorem State.setSite_pending (s : State) (k : Nat) (x : Site) : (s.setSite k x).pending = s.pending := rfl
@[simp] theorem State.setSite_out (s : State) (k : Nat) (x : Site) : (s.setSite k x).out = s.out := rfl
@[simp] theorem State.setSite_free (s : State) (k : Nat) (x : Site) : (s.setSite k x).free = s.free := rfl
@[simp] theorem State.setSite_regs (s : State) (k : Nat) (x : Site) : (s.setSite k x).regs = s.regs := rfl
@[simp] theorem State.setSite_staged (s : State) (k : Nat) (x : Site) : (s.setSite k x).staged = s.staged := rfl
@[simp] theorem State.setSite_mem (s : State) (k : Nat) (x : Site) : (s.setSite k x).mem = s.mem := rfl
@[simp] theorem State.setSite_dramPoison (s : State) (k : Nat) (x : Site) : (s.setSite k x).dramPoison = s.dramPoison := rfl
@[simp] theorem State.setSite_fold (s : State) (k : Nat) (x : Site) : (s.setSite k x).fold = s.fold := rfl
@[simp] theorem State.setSite_foldPoison (s : State) (k : Nat) (x : Site) : (s.setSite k x).foldPoison = s.foldPoison := rfl
@[simp] theorem State.setSite_lines (s : State) (k : Nat) (x : Site) : (s.setSite k x).lines = s.lines := rfl
@[simp] theorem State.setSite_banks (s : State) (k : Nat) (x : Site) : (s.setSite k x).banks = s.banks := rfl
@[simp] theorem State.setSite_ways (s : State) (k : Nat) (x : Site) : (s.setSite k x).ways = s.ways := rfl
@[simp] theorem State.setSite_ranges (s : State) (k : Nat) (x : Site) : (s.setSite k x).ranges = s.ranges := rfl
@[simp] theorem State.setSite_strands (s : State) (k : Nat) (x : Site) : (s.setSite k x).strands = s.strands := rfl
@[simp] theorem State.setSite_drovers (s : State) (k : Nat) (x : Site) : (s.setSite k x).drovers = s.drovers := rfl
@[simp] theorem State.setSite_ops (s : State) (k : Nat) (x : Site) : (s.setSite k x).ops = s.ops := rfl
@[simp] theorem State.setSite_nextOp (s : State) (k : Nat) (x : Site) : (s.setSite k x).nextOp = s.nextOp := rfl
@[simp] theorem State.setSite_xl (s : State) (k : Nat) (x : Site) : (s.setSite k x).xl = s.xl := rfl
@[simp] theorem State.setSite_chans (s : State) (k : Nat) (x : Site) : (s.setSite k x).chans = s.chans := rfl
@[simp] theorem State.setSite_drams (s : State) (k : Nat) (x : Site) : (s.setSite k x).drams = s.drams := rfl
@[simp] theorem State.setSite_bell (s : State) (k : Nat) (x : Site) : (s.setSite k x).bell = s.bell := rfl
@[simp] theorem State.setSite_tally (s : State) (k : Nat) (x : Site) : (s.setSite k x).tally = s.tally := rfl
@[simp] theorem State.setSite_log (s : State) (k : Nat) (x : Site) : (s.setSite k x).log = s.log := rfl
@[simp] theorem State.setSite_dramUe (s : State) (k : Nat) (x : Site) : (s.setSite k x).dramUe = s.dramUe := rfl
@[simp] theorem State.setSite_irqs (s : State) (k : Nat) (x : Site) : (s.setSite k x).irqs = s.irqs := rfl
@[simp] theorem State.setSite_closed (s : State) (k : Nat) (x : Site) : (s.setSite k x).closed = s.closed := rfl
@[simp] theorem State.setSite_resetPaddocks (s : State) (k : Nat) (x : Site) : (s.setSite k x).resetPaddocks = s.resetPaddocks := rfl
@[simp] theorem State.setSite_siteReqs (s : State) (k : Nat) (x : Site) : (s.setSite k x).siteReqs = s.siteReqs := rfl
@[simp] theorem State.setSite_fab (s : State) (k : Nat) (x : Site) : (s.setSite k x).fab = s.fab := rfl
@[simp] theorem State.setSite_penClock (s : State) (k : Nat) (x : Site) : (s.setSite k x).penClock = s.penClock := rfl
@[simp] theorem State.setSite_penGated (s : State) (k : Nat) (x : Site) : (s.setSite k x).penGated = s.penGated := rfl
@[simp] theorem State.setSite_savedXfers (s : State) (k : Nat) (x : Site) : (s.setSite k x).savedXfers = s.savedXfers := rfl
@[simp] theorem State.setSite_loaded (s : State) (k : Nat) (x : Site) : (s.setSite k x).loaded = s.loaded := rfl
@[simp] theorem State.setSite_siteHeld (s : State) (k : Nat) (x : Site) : (s.setSite k x).siteHeld = s.siteHeld := rfl
@[simp] theorem State.setSite_mboxes (s : State) (k : Nat) (x : Site) : (s.setSite k x).mboxes = s.mboxes := rfl
@[simp] theorem State.setSite_zones (s : State) (k : Nat) (x : Site) : (s.setSite k x).zones = s.zones := rfl
@[simp] theorem State.setSite_move (s : State) (k : Nat) (x : Site) : (s.setSite k x).move = s.move := rfl
@[simp] theorem State.setSite_waking (s : State) (k : Nat) (x : Site) : (s.setSite k x).waking = s.waking := rfl
@[simp] theorem State.setSite_down (s : State) (k : Nat) (x : Site) : (s.setSite k x).down = s.down := rfl
@[simp] theorem State.setSite_resetting (s : State) (k : Nat) (x : Site) : (s.setSite k x).resetting = s.resetting := rfl
@[simp] theorem State.setSite_zeroPads (s : State) (k : Nat) (x : Site) : (s.setSite k x).zeroPads = s.zeroPads := rfl
@[simp] theorem State.setSite_mram (s : State) (k : Nat) (x : Site) : (s.setSite k x).mram = s.mram := rfl
@[simp] theorem State.setSite_flash (s : State) (k : Nat) (x : Site) : (s.setSite k x).flash = s.flash := rfl
@[simp] theorem State.setSite_crook (s : State) (k : Nat) (x : Site) : (s.setSite k x).crook = s.crook := rfl
@[simp] theorem State.setSite_ports (s : State) (k : Nat) (x : Site) : (s.setSite k x).ports = s.ports := rfl
@[simp] theorem State.setSite_trace (s : State) (k : Nat) (x : Site) : (s.setSite k x).trace = s.trace := rfl
@[simp] theorem State.setMbox_pending (s : State) (m : Nat) (x : Mbox) : (s.setMbox m x).pending = s.pending := rfl
@[simp] theorem State.setMbox_out (s : State) (m : Nat) (x : Mbox) : (s.setMbox m x).out = s.out := rfl
@[simp] theorem State.setMbox_free (s : State) (m : Nat) (x : Mbox) : (s.setMbox m x).free = s.free := rfl
@[simp] theorem State.setMbox_regs (s : State) (m : Nat) (x : Mbox) : (s.setMbox m x).regs = s.regs := rfl
@[simp] theorem State.setMbox_staged (s : State) (m : Nat) (x : Mbox) : (s.setMbox m x).staged = s.staged := rfl
@[simp] theorem State.setMbox_mem (s : State) (m : Nat) (x : Mbox) : (s.setMbox m x).mem = s.mem := rfl
@[simp] theorem State.setMbox_dramPoison (s : State) (m : Nat) (x : Mbox) : (s.setMbox m x).dramPoison = s.dramPoison := rfl
@[simp] theorem State.setMbox_fold (s : State) (m : Nat) (x : Mbox) : (s.setMbox m x).fold = s.fold := rfl
@[simp] theorem State.setMbox_foldPoison (s : State) (m : Nat) (x : Mbox) : (s.setMbox m x).foldPoison = s.foldPoison := rfl
@[simp] theorem State.setMbox_lines (s : State) (m : Nat) (x : Mbox) : (s.setMbox m x).lines = s.lines := rfl
@[simp] theorem State.setMbox_banks (s : State) (m : Nat) (x : Mbox) : (s.setMbox m x).banks = s.banks := rfl
@[simp] theorem State.setMbox_ways (s : State) (m : Nat) (x : Mbox) : (s.setMbox m x).ways = s.ways := rfl
@[simp] theorem State.setMbox_ranges (s : State) (m : Nat) (x : Mbox) : (s.setMbox m x).ranges = s.ranges := rfl
@[simp] theorem State.setMbox_strands (s : State) (m : Nat) (x : Mbox) : (s.setMbox m x).strands = s.strands := rfl
@[simp] theorem State.setMbox_drovers (s : State) (m : Nat) (x : Mbox) : (s.setMbox m x).drovers = s.drovers := rfl
@[simp] theorem State.setMbox_ops (s : State) (m : Nat) (x : Mbox) : (s.setMbox m x).ops = s.ops := rfl
@[simp] theorem State.setMbox_nextOp (s : State) (m : Nat) (x : Mbox) : (s.setMbox m x).nextOp = s.nextOp := rfl
@[simp] theorem State.setMbox_xl (s : State) (m : Nat) (x : Mbox) : (s.setMbox m x).xl = s.xl := rfl
@[simp] theorem State.setMbox_chans (s : State) (m : Nat) (x : Mbox) : (s.setMbox m x).chans = s.chans := rfl
@[simp] theorem State.setMbox_drams (s : State) (m : Nat) (x : Mbox) : (s.setMbox m x).drams = s.drams := rfl
@[simp] theorem State.setMbox_bell (s : State) (m : Nat) (x : Mbox) : (s.setMbox m x).bell = s.bell := rfl
@[simp] theorem State.setMbox_tally (s : State) (m : Nat) (x : Mbox) : (s.setMbox m x).tally = s.tally := rfl
@[simp] theorem State.setMbox_log (s : State) (m : Nat) (x : Mbox) : (s.setMbox m x).log = s.log := rfl
@[simp] theorem State.setMbox_dramUe (s : State) (m : Nat) (x : Mbox) : (s.setMbox m x).dramUe = s.dramUe := rfl
@[simp] theorem State.setMbox_irqs (s : State) (m : Nat) (x : Mbox) : (s.setMbox m x).irqs = s.irqs := rfl
@[simp] theorem State.setMbox_closed (s : State) (m : Nat) (x : Mbox) : (s.setMbox m x).closed = s.closed := rfl
@[simp] theorem State.setMbox_resetPaddocks (s : State) (m : Nat) (x : Mbox) : (s.setMbox m x).resetPaddocks = s.resetPaddocks := rfl
@[simp] theorem State.setMbox_siteReqs (s : State) (m : Nat) (x : Mbox) : (s.setMbox m x).siteReqs = s.siteReqs := rfl
@[simp] theorem State.setMbox_fab (s : State) (m : Nat) (x : Mbox) : (s.setMbox m x).fab = s.fab := rfl
@[simp] theorem State.setMbox_penClock (s : State) (m : Nat) (x : Mbox) : (s.setMbox m x).penClock = s.penClock := rfl
@[simp] theorem State.setMbox_penGated (s : State) (m : Nat) (x : Mbox) : (s.setMbox m x).penGated = s.penGated := rfl
@[simp] theorem State.setMbox_savedXfers (s : State) (m : Nat) (x : Mbox) : (s.setMbox m x).savedXfers = s.savedXfers := rfl
@[simp] theorem State.setMbox_loaded (s : State) (m : Nat) (x : Mbox) : (s.setMbox m x).loaded = s.loaded := rfl
@[simp] theorem State.setMbox_sites (s : State) (m : Nat) (x : Mbox) : (s.setMbox m x).sites = s.sites := rfl
@[simp] theorem State.setMbox_siteHeld (s : State) (m : Nat) (x : Mbox) : (s.setMbox m x).siteHeld = s.siteHeld := rfl
@[simp] theorem State.setMbox_zones (s : State) (m : Nat) (x : Mbox) : (s.setMbox m x).zones = s.zones := rfl
@[simp] theorem State.setMbox_move (s : State) (m : Nat) (x : Mbox) : (s.setMbox m x).move = s.move := rfl
@[simp] theorem State.setMbox_waking (s : State) (m : Nat) (x : Mbox) : (s.setMbox m x).waking = s.waking := rfl
@[simp] theorem State.setMbox_down (s : State) (m : Nat) (x : Mbox) : (s.setMbox m x).down = s.down := rfl
@[simp] theorem State.setMbox_resetting (s : State) (m : Nat) (x : Mbox) : (s.setMbox m x).resetting = s.resetting := rfl
@[simp] theorem State.setMbox_zeroPads (s : State) (m : Nat) (x : Mbox) : (s.setMbox m x).zeroPads = s.zeroPads := rfl
@[simp] theorem State.setMbox_mram (s : State) (m : Nat) (x : Mbox) : (s.setMbox m x).mram = s.mram := rfl
@[simp] theorem State.setMbox_flash (s : State) (m : Nat) (x : Mbox) : (s.setMbox m x).flash = s.flash := rfl
@[simp] theorem State.setMbox_crook (s : State) (m : Nat) (x : Mbox) : (s.setMbox m x).crook = s.crook := rfl
@[simp] theorem State.setMbox_ports (s : State) (m : Nat) (x : Mbox) : (s.setMbox m x).ports = s.ports := rfl
@[simp] theorem State.setMbox_trace (s : State) (m : Nat) (x : Mbox) : (s.setMbox m x).trace = s.trace := rfl
@[simp] theorem State.setZone_pending (s : State) (z : Nat) (x : Zone) : (s.setZone z x).pending = s.pending := rfl
@[simp] theorem State.setZone_out (s : State) (z : Nat) (x : Zone) : (s.setZone z x).out = s.out := rfl
@[simp] theorem State.setZone_free (s : State) (z : Nat) (x : Zone) : (s.setZone z x).free = s.free := rfl
@[simp] theorem State.setZone_regs (s : State) (z : Nat) (x : Zone) : (s.setZone z x).regs = s.regs := rfl
@[simp] theorem State.setZone_staged (s : State) (z : Nat) (x : Zone) : (s.setZone z x).staged = s.staged := rfl
@[simp] theorem State.setZone_mem (s : State) (z : Nat) (x : Zone) : (s.setZone z x).mem = s.mem := rfl
@[simp] theorem State.setZone_dramPoison (s : State) (z : Nat) (x : Zone) : (s.setZone z x).dramPoison = s.dramPoison := rfl
@[simp] theorem State.setZone_fold (s : State) (z : Nat) (x : Zone) : (s.setZone z x).fold = s.fold := rfl
@[simp] theorem State.setZone_foldPoison (s : State) (z : Nat) (x : Zone) : (s.setZone z x).foldPoison = s.foldPoison := rfl
@[simp] theorem State.setZone_lines (s : State) (z : Nat) (x : Zone) : (s.setZone z x).lines = s.lines := rfl
@[simp] theorem State.setZone_banks (s : State) (z : Nat) (x : Zone) : (s.setZone z x).banks = s.banks := rfl
@[simp] theorem State.setZone_ways (s : State) (z : Nat) (x : Zone) : (s.setZone z x).ways = s.ways := rfl
@[simp] theorem State.setZone_ranges (s : State) (z : Nat) (x : Zone) : (s.setZone z x).ranges = s.ranges := rfl
@[simp] theorem State.setZone_strands (s : State) (z : Nat) (x : Zone) : (s.setZone z x).strands = s.strands := rfl
@[simp] theorem State.setZone_drovers (s : State) (z : Nat) (x : Zone) : (s.setZone z x).drovers = s.drovers := rfl
@[simp] theorem State.setZone_ops (s : State) (z : Nat) (x : Zone) : (s.setZone z x).ops = s.ops := rfl
@[simp] theorem State.setZone_nextOp (s : State) (z : Nat) (x : Zone) : (s.setZone z x).nextOp = s.nextOp := rfl
@[simp] theorem State.setZone_xl (s : State) (z : Nat) (x : Zone) : (s.setZone z x).xl = s.xl := rfl
@[simp] theorem State.setZone_chans (s : State) (z : Nat) (x : Zone) : (s.setZone z x).chans = s.chans := rfl
@[simp] theorem State.setZone_drams (s : State) (z : Nat) (x : Zone) : (s.setZone z x).drams = s.drams := rfl
@[simp] theorem State.setZone_bell (s : State) (z : Nat) (x : Zone) : (s.setZone z x).bell = s.bell := rfl
@[simp] theorem State.setZone_tally (s : State) (z : Nat) (x : Zone) : (s.setZone z x).tally = s.tally := rfl
@[simp] theorem State.setZone_log (s : State) (z : Nat) (x : Zone) : (s.setZone z x).log = s.log := rfl
@[simp] theorem State.setZone_dramUe (s : State) (z : Nat) (x : Zone) : (s.setZone z x).dramUe = s.dramUe := rfl
@[simp] theorem State.setZone_irqs (s : State) (z : Nat) (x : Zone) : (s.setZone z x).irqs = s.irqs := rfl
@[simp] theorem State.setZone_closed (s : State) (z : Nat) (x : Zone) : (s.setZone z x).closed = s.closed := rfl
@[simp] theorem State.setZone_resetPaddocks (s : State) (z : Nat) (x : Zone) : (s.setZone z x).resetPaddocks = s.resetPaddocks := rfl
@[simp] theorem State.setZone_siteReqs (s : State) (z : Nat) (x : Zone) : (s.setZone z x).siteReqs = s.siteReqs := rfl
@[simp] theorem State.setZone_fab (s : State) (z : Nat) (x : Zone) : (s.setZone z x).fab = s.fab := rfl
@[simp] theorem State.setZone_penClock (s : State) (z : Nat) (x : Zone) : (s.setZone z x).penClock = s.penClock := rfl
@[simp] theorem State.setZone_penGated (s : State) (z : Nat) (x : Zone) : (s.setZone z x).penGated = s.penGated := rfl
@[simp] theorem State.setZone_savedXfers (s : State) (z : Nat) (x : Zone) : (s.setZone z x).savedXfers = s.savedXfers := rfl
@[simp] theorem State.setZone_loaded (s : State) (z : Nat) (x : Zone) : (s.setZone z x).loaded = s.loaded := rfl
@[simp] theorem State.setZone_sites (s : State) (z : Nat) (x : Zone) : (s.setZone z x).sites = s.sites := rfl
@[simp] theorem State.setZone_siteHeld (s : State) (z : Nat) (x : Zone) : (s.setZone z x).siteHeld = s.siteHeld := rfl
@[simp] theorem State.setZone_mboxes (s : State) (z : Nat) (x : Zone) : (s.setZone z x).mboxes = s.mboxes := rfl
@[simp] theorem State.setZone_move (s : State) (z : Nat) (x : Zone) : (s.setZone z x).move = s.move := rfl
@[simp] theorem State.setZone_waking (s : State) (z : Nat) (x : Zone) : (s.setZone z x).waking = s.waking := rfl
@[simp] theorem State.setZone_down (s : State) (z : Nat) (x : Zone) : (s.setZone z x).down = s.down := rfl
@[simp] theorem State.setZone_resetting (s : State) (z : Nat) (x : Zone) : (s.setZone z x).resetting = s.resetting := rfl
@[simp] theorem State.setZone_zeroPads (s : State) (z : Nat) (x : Zone) : (s.setZone z x).zeroPads = s.zeroPads := rfl
@[simp] theorem State.setZone_mram (s : State) (z : Nat) (x : Zone) : (s.setZone z x).mram = s.mram := rfl
@[simp] theorem State.setZone_flash (s : State) (z : Nat) (x : Zone) : (s.setZone z x).flash = s.flash := rfl
@[simp] theorem State.setZone_crook (s : State) (z : Nat) (x : Zone) : (s.setZone z x).crook = s.crook := rfl
@[simp] theorem State.setZone_ports (s : State) (z : Nat) (x : Zone) : (s.setZone z x).ports = s.ports := rfl
@[simp] theorem State.setZone_trace (s : State) (z : Nat) (x : Zone) : (s.setZone z x).trace = s.trace := rfl
@[simp] theorem State.setPorts_pending (s : State) (p : MgmtPorts) : (s.setPorts p).pending = s.pending := rfl
@[simp] theorem State.setPorts_out (s : State) (p : MgmtPorts) : (s.setPorts p).out = s.out := rfl
@[simp] theorem State.setPorts_free (s : State) (p : MgmtPorts) : (s.setPorts p).free = s.free := rfl
@[simp] theorem State.setPorts_regs (s : State) (p : MgmtPorts) : (s.setPorts p).regs = s.regs := rfl
@[simp] theorem State.setPorts_staged (s : State) (p : MgmtPorts) : (s.setPorts p).staged = s.staged := rfl
@[simp] theorem State.setPorts_mem (s : State) (p : MgmtPorts) : (s.setPorts p).mem = s.mem := rfl
@[simp] theorem State.setPorts_dramPoison (s : State) (p : MgmtPorts) : (s.setPorts p).dramPoison = s.dramPoison := rfl
@[simp] theorem State.setPorts_fold (s : State) (p : MgmtPorts) : (s.setPorts p).fold = s.fold := rfl
@[simp] theorem State.setPorts_foldPoison (s : State) (p : MgmtPorts) : (s.setPorts p).foldPoison = s.foldPoison := rfl
@[simp] theorem State.setPorts_lines (s : State) (p : MgmtPorts) : (s.setPorts p).lines = s.lines := rfl
@[simp] theorem State.setPorts_banks (s : State) (p : MgmtPorts) : (s.setPorts p).banks = s.banks := rfl
@[simp] theorem State.setPorts_ways (s : State) (p : MgmtPorts) : (s.setPorts p).ways = s.ways := rfl
@[simp] theorem State.setPorts_ranges (s : State) (p : MgmtPorts) : (s.setPorts p).ranges = s.ranges := rfl
@[simp] theorem State.setPorts_strands (s : State) (p : MgmtPorts) : (s.setPorts p).strands = s.strands := rfl
@[simp] theorem State.setPorts_drovers (s : State) (p : MgmtPorts) : (s.setPorts p).drovers = s.drovers := rfl
@[simp] theorem State.setPorts_ops (s : State) (p : MgmtPorts) : (s.setPorts p).ops = s.ops := rfl
@[simp] theorem State.setPorts_nextOp (s : State) (p : MgmtPorts) : (s.setPorts p).nextOp = s.nextOp := rfl
@[simp] theorem State.setPorts_xl (s : State) (p : MgmtPorts) : (s.setPorts p).xl = s.xl := rfl
@[simp] theorem State.setPorts_chans (s : State) (p : MgmtPorts) : (s.setPorts p).chans = s.chans := rfl
@[simp] theorem State.setPorts_drams (s : State) (p : MgmtPorts) : (s.setPorts p).drams = s.drams := rfl
@[simp] theorem State.setPorts_bell (s : State) (p : MgmtPorts) : (s.setPorts p).bell = s.bell := rfl
@[simp] theorem State.setPorts_tally (s : State) (p : MgmtPorts) : (s.setPorts p).tally = s.tally := rfl
@[simp] theorem State.setPorts_log (s : State) (p : MgmtPorts) : (s.setPorts p).log = s.log := rfl
@[simp] theorem State.setPorts_dramUe (s : State) (p : MgmtPorts) : (s.setPorts p).dramUe = s.dramUe := rfl
@[simp] theorem State.setPorts_irqs (s : State) (p : MgmtPorts) : (s.setPorts p).irqs = s.irqs := rfl
@[simp] theorem State.setPorts_closed (s : State) (p : MgmtPorts) : (s.setPorts p).closed = s.closed := rfl
@[simp] theorem State.setPorts_resetPaddocks (s : State) (p : MgmtPorts) : (s.setPorts p).resetPaddocks = s.resetPaddocks := rfl
@[simp] theorem State.setPorts_siteReqs (s : State) (p : MgmtPorts) : (s.setPorts p).siteReqs = s.siteReqs := rfl
@[simp] theorem State.setPorts_fab (s : State) (p : MgmtPorts) : (s.setPorts p).fab = s.fab := rfl
@[simp] theorem State.setPorts_penClock (s : State) (p : MgmtPorts) : (s.setPorts p).penClock = s.penClock := rfl
@[simp] theorem State.setPorts_penGated (s : State) (p : MgmtPorts) : (s.setPorts p).penGated = s.penGated := rfl
@[simp] theorem State.setPorts_savedXfers (s : State) (p : MgmtPorts) : (s.setPorts p).savedXfers = s.savedXfers := rfl
@[simp] theorem State.setPorts_loaded (s : State) (p : MgmtPorts) : (s.setPorts p).loaded = s.loaded := rfl
@[simp] theorem State.setPorts_sites (s : State) (p : MgmtPorts) : (s.setPorts p).sites = s.sites := rfl
@[simp] theorem State.setPorts_siteHeld (s : State) (p : MgmtPorts) : (s.setPorts p).siteHeld = s.siteHeld := rfl
@[simp] theorem State.setPorts_mboxes (s : State) (p : MgmtPorts) : (s.setPorts p).mboxes = s.mboxes := rfl
@[simp] theorem State.setPorts_zones (s : State) (p : MgmtPorts) : (s.setPorts p).zones = s.zones := rfl
@[simp] theorem State.setPorts_move (s : State) (p : MgmtPorts) : (s.setPorts p).move = s.move := rfl
@[simp] theorem State.setPorts_waking (s : State) (p : MgmtPorts) : (s.setPorts p).waking = s.waking := rfl
@[simp] theorem State.setPorts_down (s : State) (p : MgmtPorts) : (s.setPorts p).down = s.down := rfl
@[simp] theorem State.setPorts_resetting (s : State) (p : MgmtPorts) : (s.setPorts p).resetting = s.resetting := rfl
@[simp] theorem State.setPorts_zeroPads (s : State) (p : MgmtPorts) : (s.setPorts p).zeroPads = s.zeroPads := rfl
@[simp] theorem State.setPorts_mram (s : State) (p : MgmtPorts) : (s.setPorts p).mram = s.mram := rfl
@[simp] theorem State.setPorts_flash (s : State) (p : MgmtPorts) : (s.setPorts p).flash = s.flash := rfl
@[simp] theorem State.setPorts_crook (s : State) (p : MgmtPorts) : (s.setPorts p).crook = s.crook := rfl
@[simp] theorem State.setPorts_trace (s : State) (p : MgmtPorts) : (s.setPorts p).trace = s.trace := rfl
@[simp] theorem State.setCrook_pending (s : State) (c : Crook) : (s.setCrook c).pending = s.pending := rfl
@[simp] theorem State.setCrook_out (s : State) (c : Crook) : (s.setCrook c).out = s.out := rfl
@[simp] theorem State.setCrook_free (s : State) (c : Crook) : (s.setCrook c).free = s.free := rfl
@[simp] theorem State.setCrook_regs (s : State) (c : Crook) : (s.setCrook c).regs = s.regs := rfl
@[simp] theorem State.setCrook_staged (s : State) (c : Crook) : (s.setCrook c).staged = s.staged := rfl
@[simp] theorem State.setCrook_mem (s : State) (c : Crook) : (s.setCrook c).mem = s.mem := rfl
@[simp] theorem State.setCrook_dramPoison (s : State) (c : Crook) : (s.setCrook c).dramPoison = s.dramPoison := rfl
@[simp] theorem State.setCrook_fold (s : State) (c : Crook) : (s.setCrook c).fold = s.fold := rfl
@[simp] theorem State.setCrook_foldPoison (s : State) (c : Crook) : (s.setCrook c).foldPoison = s.foldPoison := rfl
@[simp] theorem State.setCrook_lines (s : State) (c : Crook) : (s.setCrook c).lines = s.lines := rfl
@[simp] theorem State.setCrook_banks (s : State) (c : Crook) : (s.setCrook c).banks = s.banks := rfl
@[simp] theorem State.setCrook_ways (s : State) (c : Crook) : (s.setCrook c).ways = s.ways := rfl
@[simp] theorem State.setCrook_ranges (s : State) (c : Crook) : (s.setCrook c).ranges = s.ranges := rfl
@[simp] theorem State.setCrook_strands (s : State) (c : Crook) : (s.setCrook c).strands = s.strands := rfl
@[simp] theorem State.setCrook_drovers (s : State) (c : Crook) : (s.setCrook c).drovers = s.drovers := rfl
@[simp] theorem State.setCrook_ops (s : State) (c : Crook) : (s.setCrook c).ops = s.ops := rfl
@[simp] theorem State.setCrook_nextOp (s : State) (c : Crook) : (s.setCrook c).nextOp = s.nextOp := rfl
@[simp] theorem State.setCrook_xl (s : State) (c : Crook) : (s.setCrook c).xl = s.xl := rfl
@[simp] theorem State.setCrook_chans (s : State) (c : Crook) : (s.setCrook c).chans = s.chans := rfl
@[simp] theorem State.setCrook_drams (s : State) (c : Crook) : (s.setCrook c).drams = s.drams := rfl
@[simp] theorem State.setCrook_bell (s : State) (c : Crook) : (s.setCrook c).bell = s.bell := rfl
@[simp] theorem State.setCrook_tally (s : State) (c : Crook) : (s.setCrook c).tally = s.tally := rfl
@[simp] theorem State.setCrook_log (s : State) (c : Crook) : (s.setCrook c).log = s.log := rfl
@[simp] theorem State.setCrook_dramUe (s : State) (c : Crook) : (s.setCrook c).dramUe = s.dramUe := rfl
@[simp] theorem State.setCrook_irqs (s : State) (c : Crook) : (s.setCrook c).irqs = s.irqs := rfl
@[simp] theorem State.setCrook_closed (s : State) (c : Crook) : (s.setCrook c).closed = s.closed := rfl
@[simp] theorem State.setCrook_resetPaddocks (s : State) (c : Crook) : (s.setCrook c).resetPaddocks = s.resetPaddocks := rfl
@[simp] theorem State.setCrook_siteReqs (s : State) (c : Crook) : (s.setCrook c).siteReqs = s.siteReqs := rfl
@[simp] theorem State.setCrook_fab (s : State) (c : Crook) : (s.setCrook c).fab = s.fab := rfl
@[simp] theorem State.setCrook_penClock (s : State) (c : Crook) : (s.setCrook c).penClock = s.penClock := rfl
@[simp] theorem State.setCrook_penGated (s : State) (c : Crook) : (s.setCrook c).penGated = s.penGated := rfl
@[simp] theorem State.setCrook_savedXfers (s : State) (c : Crook) : (s.setCrook c).savedXfers = s.savedXfers := rfl
@[simp] theorem State.setCrook_loaded (s : State) (c : Crook) : (s.setCrook c).loaded = s.loaded := rfl
@[simp] theorem State.setCrook_sites (s : State) (c : Crook) : (s.setCrook c).sites = s.sites := rfl
@[simp] theorem State.setCrook_siteHeld (s : State) (c : Crook) : (s.setCrook c).siteHeld = s.siteHeld := rfl
@[simp] theorem State.setCrook_mboxes (s : State) (c : Crook) : (s.setCrook c).mboxes = s.mboxes := rfl
@[simp] theorem State.setCrook_zones (s : State) (c : Crook) : (s.setCrook c).zones = s.zones := rfl
@[simp] theorem State.setCrook_move (s : State) (c : Crook) : (s.setCrook c).move = s.move := rfl
@[simp] theorem State.setCrook_waking (s : State) (c : Crook) : (s.setCrook c).waking = s.waking := rfl
@[simp] theorem State.setCrook_down (s : State) (c : Crook) : (s.setCrook c).down = s.down := rfl
@[simp] theorem State.setCrook_resetting (s : State) (c : Crook) : (s.setCrook c).resetting = s.resetting := rfl
@[simp] theorem State.setCrook_zeroPads (s : State) (c : Crook) : (s.setCrook c).zeroPads = s.zeroPads := rfl
@[simp] theorem State.setCrook_mram (s : State) (c : Crook) : (s.setCrook c).mram = s.mram := rfl
@[simp] theorem State.setCrook_flash (s : State) (c : Crook) : (s.setCrook c).flash = s.flash := rfl
@[simp] theorem State.setCrook_ports (s : State) (c : Crook) : (s.setCrook c).ports = s.ports := rfl
@[simp] theorem State.setCrook_trace (s : State) (c : Crook) : (s.setCrook c).trace = s.trace := rfl
@[simp] theorem State.setMram_pending (s : State) (m : Mram) : (s.setMram m).pending = s.pending := rfl
@[simp] theorem State.setMram_out (s : State) (m : Mram) : (s.setMram m).out = s.out := rfl
@[simp] theorem State.setMram_free (s : State) (m : Mram) : (s.setMram m).free = s.free := rfl
@[simp] theorem State.setMram_regs (s : State) (m : Mram) : (s.setMram m).regs = s.regs := rfl
@[simp] theorem State.setMram_staged (s : State) (m : Mram) : (s.setMram m).staged = s.staged := rfl
@[simp] theorem State.setMram_mem (s : State) (m : Mram) : (s.setMram m).mem = s.mem := rfl
@[simp] theorem State.setMram_dramPoison (s : State) (m : Mram) : (s.setMram m).dramPoison = s.dramPoison := rfl
@[simp] theorem State.setMram_fold (s : State) (m : Mram) : (s.setMram m).fold = s.fold := rfl
@[simp] theorem State.setMram_foldPoison (s : State) (m : Mram) : (s.setMram m).foldPoison = s.foldPoison := rfl
@[simp] theorem State.setMram_lines (s : State) (m : Mram) : (s.setMram m).lines = s.lines := rfl
@[simp] theorem State.setMram_banks (s : State) (m : Mram) : (s.setMram m).banks = s.banks := rfl
@[simp] theorem State.setMram_ways (s : State) (m : Mram) : (s.setMram m).ways = s.ways := rfl
@[simp] theorem State.setMram_ranges (s : State) (m : Mram) : (s.setMram m).ranges = s.ranges := rfl
@[simp] theorem State.setMram_strands (s : State) (m : Mram) : (s.setMram m).strands = s.strands := rfl
@[simp] theorem State.setMram_drovers (s : State) (m : Mram) : (s.setMram m).drovers = s.drovers := rfl
@[simp] theorem State.setMram_ops (s : State) (m : Mram) : (s.setMram m).ops = s.ops := rfl
@[simp] theorem State.setMram_nextOp (s : State) (m : Mram) : (s.setMram m).nextOp = s.nextOp := rfl
@[simp] theorem State.setMram_xl (s : State) (m : Mram) : (s.setMram m).xl = s.xl := rfl
@[simp] theorem State.setMram_chans (s : State) (m : Mram) : (s.setMram m).chans = s.chans := rfl
@[simp] theorem State.setMram_drams (s : State) (m : Mram) : (s.setMram m).drams = s.drams := rfl
@[simp] theorem State.setMram_bell (s : State) (m : Mram) : (s.setMram m).bell = s.bell := rfl
@[simp] theorem State.setMram_tally (s : State) (m : Mram) : (s.setMram m).tally = s.tally := rfl
@[simp] theorem State.setMram_log (s : State) (m : Mram) : (s.setMram m).log = s.log := rfl
@[simp] theorem State.setMram_dramUe (s : State) (m : Mram) : (s.setMram m).dramUe = s.dramUe := rfl
@[simp] theorem State.setMram_irqs (s : State) (m : Mram) : (s.setMram m).irqs = s.irqs := rfl
@[simp] theorem State.setMram_closed (s : State) (m : Mram) : (s.setMram m).closed = s.closed := rfl
@[simp] theorem State.setMram_resetPaddocks (s : State) (m : Mram) : (s.setMram m).resetPaddocks = s.resetPaddocks := rfl
@[simp] theorem State.setMram_siteReqs (s : State) (m : Mram) : (s.setMram m).siteReqs = s.siteReqs := rfl
@[simp] theorem State.setMram_fab (s : State) (m : Mram) : (s.setMram m).fab = s.fab := rfl
@[simp] theorem State.setMram_penClock (s : State) (m : Mram) : (s.setMram m).penClock = s.penClock := rfl
@[simp] theorem State.setMram_penGated (s : State) (m : Mram) : (s.setMram m).penGated = s.penGated := rfl
@[simp] theorem State.setMram_savedXfers (s : State) (m : Mram) : (s.setMram m).savedXfers = s.savedXfers := rfl
@[simp] theorem State.setMram_loaded (s : State) (m : Mram) : (s.setMram m).loaded = s.loaded := rfl
@[simp] theorem State.setMram_sites (s : State) (m : Mram) : (s.setMram m).sites = s.sites := rfl
@[simp] theorem State.setMram_siteHeld (s : State) (m : Mram) : (s.setMram m).siteHeld = s.siteHeld := rfl
@[simp] theorem State.setMram_mboxes (s : State) (m : Mram) : (s.setMram m).mboxes = s.mboxes := rfl
@[simp] theorem State.setMram_zones (s : State) (m : Mram) : (s.setMram m).zones = s.zones := rfl
@[simp] theorem State.setMram_move (s : State) (m : Mram) : (s.setMram m).move = s.move := rfl
@[simp] theorem State.setMram_waking (s : State) (m : Mram) : (s.setMram m).waking = s.waking := rfl
@[simp] theorem State.setMram_down (s : State) (m : Mram) : (s.setMram m).down = s.down := rfl
@[simp] theorem State.setMram_resetting (s : State) (m : Mram) : (s.setMram m).resetting = s.resetting := rfl
@[simp] theorem State.setMram_zeroPads (s : State) (m : Mram) : (s.setMram m).zeroPads = s.zeroPads := rfl
@[simp] theorem State.setMram_flash (s : State) (m : Mram) : (s.setMram m).flash = s.flash := rfl
@[simp] theorem State.setMram_crook (s : State) (m : Mram) : (s.setMram m).crook = s.crook := rfl
@[simp] theorem State.setMram_ports (s : State) (m : Mram) : (s.setMram m).ports = s.ports := rfl
@[simp] theorem State.setMram_trace (s : State) (m : Mram) : (s.setMram m).trace = s.trace := rfl
@[simp] theorem State.setFlash_pending (s : State) (f : Flash) : (s.setFlash f).pending = s.pending := rfl
@[simp] theorem State.setFlash_out (s : State) (f : Flash) : (s.setFlash f).out = s.out := rfl
@[simp] theorem State.setFlash_free (s : State) (f : Flash) : (s.setFlash f).free = s.free := rfl
@[simp] theorem State.setFlash_regs (s : State) (f : Flash) : (s.setFlash f).regs = s.regs := rfl
@[simp] theorem State.setFlash_staged (s : State) (f : Flash) : (s.setFlash f).staged = s.staged := rfl
@[simp] theorem State.setFlash_mem (s : State) (f : Flash) : (s.setFlash f).mem = s.mem := rfl
@[simp] theorem State.setFlash_dramPoison (s : State) (f : Flash) : (s.setFlash f).dramPoison = s.dramPoison := rfl
@[simp] theorem State.setFlash_fold (s : State) (f : Flash) : (s.setFlash f).fold = s.fold := rfl
@[simp] theorem State.setFlash_foldPoison (s : State) (f : Flash) : (s.setFlash f).foldPoison = s.foldPoison := rfl
@[simp] theorem State.setFlash_lines (s : State) (f : Flash) : (s.setFlash f).lines = s.lines := rfl
@[simp] theorem State.setFlash_banks (s : State) (f : Flash) : (s.setFlash f).banks = s.banks := rfl
@[simp] theorem State.setFlash_ways (s : State) (f : Flash) : (s.setFlash f).ways = s.ways := rfl
@[simp] theorem State.setFlash_ranges (s : State) (f : Flash) : (s.setFlash f).ranges = s.ranges := rfl
@[simp] theorem State.setFlash_strands (s : State) (f : Flash) : (s.setFlash f).strands = s.strands := rfl
@[simp] theorem State.setFlash_drovers (s : State) (f : Flash) : (s.setFlash f).drovers = s.drovers := rfl
@[simp] theorem State.setFlash_ops (s : State) (f : Flash) : (s.setFlash f).ops = s.ops := rfl
@[simp] theorem State.setFlash_nextOp (s : State) (f : Flash) : (s.setFlash f).nextOp = s.nextOp := rfl
@[simp] theorem State.setFlash_xl (s : State) (f : Flash) : (s.setFlash f).xl = s.xl := rfl
@[simp] theorem State.setFlash_chans (s : State) (f : Flash) : (s.setFlash f).chans = s.chans := rfl
@[simp] theorem State.setFlash_drams (s : State) (f : Flash) : (s.setFlash f).drams = s.drams := rfl
@[simp] theorem State.setFlash_bell (s : State) (f : Flash) : (s.setFlash f).bell = s.bell := rfl
@[simp] theorem State.setFlash_tally (s : State) (f : Flash) : (s.setFlash f).tally = s.tally := rfl
@[simp] theorem State.setFlash_log (s : State) (f : Flash) : (s.setFlash f).log = s.log := rfl
@[simp] theorem State.setFlash_dramUe (s : State) (f : Flash) : (s.setFlash f).dramUe = s.dramUe := rfl
@[simp] theorem State.setFlash_irqs (s : State) (f : Flash) : (s.setFlash f).irqs = s.irqs := rfl
@[simp] theorem State.setFlash_closed (s : State) (f : Flash) : (s.setFlash f).closed = s.closed := rfl
@[simp] theorem State.setFlash_resetPaddocks (s : State) (f : Flash) : (s.setFlash f).resetPaddocks = s.resetPaddocks := rfl
@[simp] theorem State.setFlash_siteReqs (s : State) (f : Flash) : (s.setFlash f).siteReqs = s.siteReqs := rfl
@[simp] theorem State.setFlash_fab (s : State) (f : Flash) : (s.setFlash f).fab = s.fab := rfl
@[simp] theorem State.setFlash_penClock (s : State) (f : Flash) : (s.setFlash f).penClock = s.penClock := rfl
@[simp] theorem State.setFlash_penGated (s : State) (f : Flash) : (s.setFlash f).penGated = s.penGated := rfl
@[simp] theorem State.setFlash_savedXfers (s : State) (f : Flash) : (s.setFlash f).savedXfers = s.savedXfers := rfl
@[simp] theorem State.setFlash_loaded (s : State) (f : Flash) : (s.setFlash f).loaded = s.loaded := rfl
@[simp] theorem State.setFlash_sites (s : State) (f : Flash) : (s.setFlash f).sites = s.sites := rfl
@[simp] theorem State.setFlash_siteHeld (s : State) (f : Flash) : (s.setFlash f).siteHeld = s.siteHeld := rfl
@[simp] theorem State.setFlash_mboxes (s : State) (f : Flash) : (s.setFlash f).mboxes = s.mboxes := rfl
@[simp] theorem State.setFlash_zones (s : State) (f : Flash) : (s.setFlash f).zones = s.zones := rfl
@[simp] theorem State.setFlash_move (s : State) (f : Flash) : (s.setFlash f).move = s.move := rfl
@[simp] theorem State.setFlash_waking (s : State) (f : Flash) : (s.setFlash f).waking = s.waking := rfl
@[simp] theorem State.setFlash_down (s : State) (f : Flash) : (s.setFlash f).down = s.down := rfl
@[simp] theorem State.setFlash_resetting (s : State) (f : Flash) : (s.setFlash f).resetting = s.resetting := rfl
@[simp] theorem State.setFlash_zeroPads (s : State) (f : Flash) : (s.setFlash f).zeroPads = s.zeroPads := rfl
@[simp] theorem State.setFlash_mram (s : State) (f : Flash) : (s.setFlash f).mram = s.mram := rfl
@[simp] theorem State.setFlash_crook (s : State) (f : Flash) : (s.setFlash f).crook = s.crook := rfl
@[simp] theorem State.setFlash_ports (s : State) (f : Flash) : (s.setFlash f).ports = s.ports := rfl
@[simp] theorem State.setFlash_trace (s : State) (f : Flash) : (s.setFlash f).trace = s.trace := rfl

end Sys2Proof.Machine
end

