-- ==== Sys2Proof/Laws/Regs.lean ====
section
/-! SUPPORT. Laws/Regs.lean: what a register, a field, a strand, a line, a bank and a port read as after a write. -/
namespace Sys2Proof.Machine

/-! ### Bit fields -/

theorem getLsbD_setBits {w : Nat} (x : BitVec w) (hi lo v i : Nat) (hi' : i < w) :
    (setBits x hi lo v).getLsbD i = if lo ≤ i ∧ i < hi + 1 then v.testBit (i - lo) else x.getLsbD i := by
  unfold setBits
  simp only [BitVec.getLsbD_or, BitVec.getLsbD_and, BitVec.getLsbD_not, BitVec.getLsbD_shiftLeft, BitVec.getLsbD_setWidth,
    BitVec.getLsbD_ofNat, BitVec.getLsbD_allOnes, hi', decide_true, Bool.true_and]
  by_cases h : lo ≤ i
  · have h1 : decide (i < lo) = false := by simp; omega
    by_cases h2 : i < hi + 1
    · have h3 : i - lo < hi + 1 - lo := by omega
      have h4 : i - lo < w := by omega
      simp [h, h1, h2, h3, h4]
    · have h3 : ¬ i - lo < hi + 1 - lo := by omega
      simp [h, h1, h2, h3]
  · have h1 : decide (i < lo) = true := by simp; omega
    simp [h, h1]

theorem bits_setBits_same {w : Nat} (x : BitVec w) (hi lo v : Nat) (h : hi < w) :
    bits (setBits x hi lo v) hi lo = v % 2 ^ (hi + 1 - lo) := by
  unfold bits
  apply Nat.eq_of_testBit_eq
  intro i
  rw [BitVec.testBit_toNat, BitVec.getLsbD_extractLsb', Nat.testBit_mod_two_pow]
  by_cases hi' : i < hi + 1 - lo
  · rw [getLsbD_setBits _ _ _ _ _ (by omega)]
    have : lo ≤ lo + i ∧ lo + i < hi + 1 := by omega
    simp [hi', this]
  · simp [hi']

theorem bits_setBits_ne {w : Nat} (x : BitVec w) (hi lo v hi' lo' : Nat) (h : hi' < w) (d : hi < lo' ∨ hi' < lo) :
    bits (setBits x hi lo v) hi' lo' = bits x hi' lo' := by
  unfold bits
  apply Nat.eq_of_testBit_eq
  intro i
  rw [BitVec.testBit_toNat, BitVec.testBit_toNat, BitVec.getLsbD_extractLsb', BitVec.getLsbD_extractLsb']
  by_cases hi2 : i < hi' + 1 - lo'
  · rw [getLsbD_setBits _ _ _ _ _ (by omega)]
    rw [if_neg (by omega)]
  · simp [hi2]

/-! ### Registers and fields -/

theorem State.reg_setReg (s : State) (a b : Nat) (v : Word) : (s.setReg a v).reg b = if b = a then v else s.reg b :=
  Tab.get_put regReset s.regs a b v

@[simp] theorem State.reg_setReg_same (s : State) (a : Nat) (v : Word) : (s.setReg a v).reg a = v := by
  simp [State.reg_setReg]

theorem State.reg_wr_ne (s : State) (f : Fld) (v a : Nat) (h : a ≠ f.addr) : (s.wr f v).reg a = s.reg a := by
  unfold State.wr
  rw [State.reg_setReg, if_neg h]

theorem State.reg_wr_same (s : State) (f : Fld) (v : Nat) :
    (s.wr f v).reg f.addr = setBits (s.reg f.addr) f.hi f.lo v := by
  unfold State.wr
  rw [State.reg_setReg, if_pos rfl]

/-- A field reads as the low bits of what was written. -/
theorem State.rd_wr_same (s : State) (f : Fld) (v : Nat) (h : f.hi < 64) :
    (s.wr f v).rd f = v % 2 ^ (f.hi + 1 - f.lo) := by
  unfold State.rd
  rw [State.reg_wr_same]
  exact bits_setBits_same _ _ _ _ h

/-- A field of another register, or of other bits of the register, reads as before. -/
theorem State.rd_wr_ne (s : State) (f g : Fld) (v : Nat)
    (h : g.addr ≠ f.addr ∨ g.hi < 64 ∧ (f.hi < g.lo ∨ g.hi < f.lo)) : (s.wr f v).rd g = s.rd g := by
  unfold State.rd
  by_cases ha : g.addr = f.addr
  · rcases h with h | ⟨h, d⟩
    · exact absurd ha h
    · rw [ha, State.reg_wr_same]
      exact bits_setBits_ne _ _ _ _ _ _ h d
  · rw [State.reg_wr_ne _ _ _ _ ha]

theorem State.rd_setReg_ne (s : State) (g : Fld) (a : Nat) (v : Word) (h : g.addr ≠ a) : (s.setReg a v).rd g = s.rd g := by
  unfold State.rd
  rw [State.reg_setReg, if_neg h]

theorem State.stg_setStg (s : State) (a b : Nat) (v : Word) : (s.setStg a v).stg b = if b = a then v else s.stg b :=
  Tab.get_put regReset s.staged a b v

/-! ### Tables of units -/

theorem State.strand_setStrand (s : State) (d t d' t' : Nat) (x : Strand) :
    (s.setStrand d t x).strand d' t' = if 8 * d' + t' = 8 * d + t then x else s.strand d' t' :=
  Tab.get_put (fun _ => {}) s.strands (8 * d + t) (8 * d' + t') x

@[simp] theorem State.strand_setStrand_same (s : State) (d t : Nat) (x : Strand) : (s.setStrand d t x).strand d t = x := by
  simp [State.strand_setStrand]

theorem State.drv_setDrv (s : State) (d d' : Nat) (x : Drover) :
    (s.setDrv d x).drv d' = if d' = d then x else s.drv d' :=
  Tab.get_put _ s.drovers d d' x

@[simp] theorem State.drv_setDrv_same (s : State) (d : Nat) (x : Drover) : (s.setDrv d x).drv d = x := by
  simp [State.drv_setDrv]

theorem State.line_setLine (s : State) (l m : Nat) (x : Option Line) :
    (s.setLine l x).line m = if m = l then x else s.line m := Tab.get_put (fun _ => none) s.lines l m x

@[simp] theorem State.line_setLine_same (s : State) (l : Nat) (x : Option Line) : (s.setLine l x).line l = x := by
  simp [State.line_setLine]

theorem State.bank_setBank (s : State) (b c : Nat) (x : Bank) :
    (s.setBank b x).bank c = if c = b then x else s.bank c :=
  Tab.get_put _ s.banks b c x

@[simp] theorem State.bank_setBank_same (s : State) (b : Nat) (x : Bank) : (s.setBank b x).bank b = x := by
  simp [State.bank_setBank]

theorem State.port_setPort (s : State) (p q : Nat) (x : Port) :
    (s.setPort p x).port q = if q = p then x else s.port q :=
  Tab.get_put _ s.fab.ports p q x

@[simp] theorem State.port_setPort_same (s : State) (p : Nat) (x : Port) : (s.setPort p x).port p = x := by
  simp [State.port_setPort]

theorem State.chan_setChan (s : State) (k c k' c' : Nat) (x : Chan) :
    (s.setChan k c x).chan k' c' = if 64 * k' + c' = 64 * k + c then x else s.chan k' c' :=
  Tab.get_put (fun _ => {}) s.chans (64 * k + c) (64 * k' + c') x

@[simp] theorem State.chan_setChan_same (s : State) (k c : Nat) (x : Chan) : (s.setChan k c x).chan k c = x := by
  simp [State.chan_setChan]

end Sys2Proof.Machine
end

