-- ==== Sys2Proof/Laws/Issue.lean ====
section
/-! SUPPORT. Laws/Issue.lean: what issue does of an instruction that executes, one that is illegal and one that waits. -/
namespace Sys2Proof.Machine

/-- The state an instruction's effect begins from: the turn has passed and the instruction is counted as issued. -/
def State.issued (s : State) (w : Issue) : State :=
  (s.passTurn w.drover.val w.strand.val).inc (Fd.dbgIssued (penOf w.drover.val) (w.drover.val % 8)) 1

theorem inc_issued (w : Issue) (s : State) : (s.inc (Fd.dbgIssued (penOf w.drover) (w.drover.val % 8)) 1).reg (issuedReg w) = s.reg (issuedReg w) + 1 := by
  unfold State.inc issuedReg
  rw [State.reg_wr_same]
  simp only [Fd.dbgIssued, State.rd, bits, setBits]
  apply BitVec.eq_of_toNat_eq
  simp
theorem State.reg_issued (s : State) (w : Issue) : (s.issued w).reg (issuedReg w) = s.reg (issuedReg w) + 1 := inc_issued w _
theorem State.reg_issued_ne (s : State) (w : Issue) (a) (h : a ≠ issuedReg w) : (s.issued w).reg a = s.reg a := by
  unfold State.issued State.inc
  rw [State.reg_wr_ne _ _ _ _ h]
  rfl

@[simp] theorem State.strand_issued (s : State) (w : Issue) (d k : Nat) : (s.issued w).strand d k = s.strand d k := rfl
@[simp] theorem State.ops_issued (s : State) (w : Issue) : (s.issued w).ops = s.ops := rfl
@[simp] theorem State.xl_issued (s : State) (w : Issue) : (s.issued w).xl = s.xl := rfl
@[simp] theorem State.nextOp_issued (s : State) (w : Issue) : (s.issued w).nextOp = s.nextOp := rfl

theorem State.passes_turn (s : State) (w : Issue) : PassesTurn w s (s.passTurn w.drover w.strand) := by
  refine ⟨by simp [State.passTurn], fun d hd => ?_⟩
  unfold State.passTurn
  rw [State.drv_setDrv, if_neg hd]
theorem State.passes_issued (s : State) (w : Issue) : PassesTurn w s (s.issued w) := s.passes_turn w

/-- Passing the turn on is seen in the Drovers' part alone. -/
theorem PassesTurn.of_drovers {w : Issue} {s t u : State} (h : PassesTurn w s t) (e : u.drovers = t.drovers) : PassesTurn w s u := by
  have : ∀ d, u.drv d = t.drv d := fun d => congrArg (fun x => Tab.get _ x d) e
  exact ⟨(this _).trans h.1, fun d hd => (this d).trans (h.2 d hd)⟩

/-! ### What issue does -/

theorem issue_eq {s : State} {w : Issue} {i ext eff} (h : s.issues w i ext) : s.issue w i ext eff = eff (s.issued w) := by
  obtain ⟨⟨h1, h2, h3⟩, h4, h5⟩ := h
  have h5' : ((s.passTurn w.drover w.strand).strand w.drover w.strand).pred w.pn w.pg = true := h5
  simp only [State.issue, h1, h2, h3, h4, h5, ne_eq, not_true_eq_false, decide_false, Bool.not_true, Bool.or_self,
    Bool.false_eq_true, if_false]
  rfl

/-- An instruction that does not stand at the strand's address, whose strand is not ready or whose turn has not come,
does nothing. -/
theorem issue_idle {s : State} {w : Issue} {i ext eff} (h : ¬ s.offers w i ext) : s.issue w i ext eff = s := by
  unfold State.offers at h
  unfold State.issue
  simp only [ne_eq, Bool.or_eq_true, decide_eq_true_eq, Bool.not_eq_true']
  rw [if_pos]
  by_cases h1 : s.fetched w.drover w.strand = some (i.word w.pn w.pg, ext)
  · by_cases h2 : s.ready w.drover w.strand = true
    · exact .inr (by simpa [h1, h2] using h)
    · exact .inl (.inr (by simpa using h2))
  · exact .inl (.inl h1)

theorem issue_illegal {s : State} {w : Issue} {i ext eff} (h : s.offers w i ext)
    (hb : keisIllegal (i.word w.pn w.pg) ext = true) :
    s.issue w i ext eff = (s.passTurn w.drover w.strand).strandFault w.drover w.strand stIllegal (s.strand w.drover w.strand).pc := by
  obtain ⟨h1, h2, h3⟩ := h
  simp only [State.issue, h1, h2, h3, hb, ne_eq, not_true_eq_false, decide_false, Bool.not_true, Bool.or_self,
    Bool.false_eq_true, if_false, if_true]

theorem issue_skips {s : State} {w : Issue} {i ext eff} (h : s.offers w i ext)
    (hb : keisIllegal (i.word w.pn w.pg) ext = false) (hp : (s.strand w.drover w.strand).pred w.pn w.pg = false) :
    s.issue w i ext eff = (s.passTurn w.drover w.strand).advance w.drover w.strand i.len := by
  obtain ⟨h1, h2, h3⟩ := h
  simp only [State.issue, h1, h2, h3, hb, hp, ne_eq, not_true_eq_false, decide_false, Bool.not_true, Bool.not_false, Bool.or_self,
    Bool.false_eq_true, if_false, if_true]

/-! ### What an instruction leaves -/

theorem leaves_gen {c : Instr} {w : Issue} {s t : State} {x : Strand} (h : exec c s = .next t)
    (e : t.strand w.drover w.strand = x) (sb : StrandsBut w.drover w.strand s t)
    (kp : Keeps [.strands] (s.issued w) t) : Leaves c w s x := by
  have hr : ∀ a, t.reg a = (s.issued w).reg a := fun a => by
    have := kp .regs (by simp)
    exact congrArg (fun r => Tab.get regReset r a) this
  refine ⟨t, h, e, sb, ⟨(hr _).trans (s.reg_issued w), fun a ha => (hr a).trans (s.reg_issued_ne w a (by simpa using ha))⟩,
    (s.passes_issued w).of_drovers (kp .drovers (by simp)), ?_⟩
  intro p hp
  have := kp p (fun q => hp (by simp at q; simp [q]))
  cases p <;> first | exact this | simp at hp

theorem leaves_of {c : Instr} {w : Issue} {s : State} {x : Strand}
    (h : exec c s = .next ((s.issued w).setStrand w.drover w.strand x)) : Leaves c w s x := by
  refine leaves_gen h (by simp) ?_ ?_
  · intro e f hne
    rw [State.strand_setStrand, if_neg hne]
    rfl
  · intro p hp
    cases p <;> first | rfl | simp at hp

theorem leaves_of2 {c : Instr} {w : Issue} {s : State} {x y : Strand}
    (h : exec c s = .next (((s.issued w).setStrand w.drover w.strand y).setStrand w.drover w.strand x)) : Leaves c w s x := by
  refine leaves_gen h (by simp) ?_ ?_
  · intro e f hne
    rw [State.strand_setStrand, if_neg hne, State.strand_setStrand, if_neg hne]
    rfl
  · intro p hp
    cases p <;> first | rfl | simp at hp

theorem retires_of {c : Instr} {w : Issue} {s : State} {len : Nat} {x : Strand}
    (h : exec c s = .next ((s.issued w).retire w.drover w.strand len x)) : Retires c w s len x := by
  refine leaves_of2 (y := x) ?_
  rw [h]
  simp [State.retire, State.advance]

theorem scalar_retires {c : Instr} {w : Issue} {s : State} {i ext ga f} {v : Word} (hc : exec c s = .next (s.scalar w i ext ga f))
    (h : s.issues w i ext) (hv : f (s.strand w.drover w.strand) = v) :
    Retires c w s i.len ((s.strand w.drover w.strand).wg ga.toNat v) := by
  refine retires_of ?_
  rw [hc]
  unfold State.scalar
  rw [issue_eq h, ← hv]
  rfl

/-- The outcome of a command whose meaning is the issue of an instruction that executes. -/
theorem exec_issued {c : Instr} {s r : State} {w : Issue} {i ext eff} (hc : exec c s = .next (s.issue w i ext eff))
    (h : s.issues w i ext) (hr : eff (s.issued w) = r) : exec c s = .next r := by
  rw [hc, issue_eq h, hr]

/-! ### Events -/

/-- An event record changes the recorder and what it shows alone. -/
theorem State.record_within (s : State) (src code p0 p1 p2 : Nat) : Within 0x140000a s (s.record src code p0 p1 p2) :=
  (State.record_on (m := 0x140000a) rfl s src code p0 p1 p2 (Onward.refl s)).within

/-- A strand fault (R115): g1, `FIRST_FAIL` and the phase of its strand, and an event record. -/
theorem State.strandFault_spec (s : State) (d k st : Nat) (a : BitVec 48) :
    (s.strandFault d k st a).strand d k = { ((s.strand d k).wg 1 (a.setWidth 64)).offer st with phase := phEnding, wait := none } ∧
    StrandsBut d k s (s.strandFault d k st a) ∧ Keeps [.strands, .regs, .log, .out, .irqs] s (s.strandFault d k st a) := by
  unfold State.strandFault
  have w := State.record_within (s.setStrand d k { ((s.strand d k).wg 1 (a.setWidth 64)).offer st with phase := phEnding, wait := none })
    (halfOf d) 0x0101 (uwStrand d k) st (a.toNat % 2 ^ 32)
  have e := w .strands (by decide)
  refine ⟨?_, ?_, ?_⟩
  · show Tab.get _ (State.strands _) _ = _
    rw [show State.strands _ = _ from e]
    exact State.strand_setStrand_same s d k _
  · intro f g hne
    show Tab.get _ (State.strands _) _ = _
    rw [show State.strands _ = _ from e]
    have := State.strand_setStrand s d k f g ({ ((s.strand d k).wg 1 (a.setWidth 64)).offer st with phase := phEnding, wait := none })
    rw [if_neg hne] at this
    exact this
  · intro p hp
    have k := w p (by cases p <;> first | rfl | simp at hp)
    cases p <;> first | exact k | simp at hp

theorem leaves_faults {c : Instr} {w : Issue} {s : State} {st}
    (h : exec c s = .next ((s.passTurn w.drover w.strand).strandFault w.drover w.strand st (s.strand w.drover w.strand).pc)) :
    Faults c w s st := by
  obtain ⟨a, b, d⟩ := State.strandFault_spec (s.passTurn w.drover w.strand) w.drover w.strand st (s.strand w.drover w.strand).pc
  refine ⟨_, h, a, b, (s.passes_turn w).of_drovers (d .drovers (by simp)), fun p hp => ?_⟩
  have k := d p (fun q => hp (by simp at q; rcases q with q | q | q | q | q <;> simp [q]))
  cases p <;> first | exact k | simp at hp

theorem inc_faults {c : Instr} {w : Issue} {s : State} {st}
    (h : exec c s = .next ((s.issued w).strandFault w.drover w.strand st (s.strand w.drover w.strand).pc)) :
    Faults c w s st := by
  obtain ⟨a, b, d⟩ := State.strandFault_spec (s.issued w) w.drover w.strand st (s.strand w.drover w.strand).pc
  refine ⟨_, h, a, b, (s.passes_issued w).of_drovers (d .drovers (by simp)), fun p hp => ?_⟩
  have k := d p (fun q => hp (by simp at q; rcases q with q | q | q | q | q <;> simp [q]))
  cases p <;> first | exact k | simp at hp

/-- Every command of an instruction's row is the issue of that instruction. -/
theorem exec_issueOf {c : Instr} {w : Issue} {i : KInstr} {ext : Word} (h : issueOf c = some (w, i, ext)) (s : State) :
    ∃ eff, exec c s = .next (s.issue w i ext eff) := by
  cases c
  case kAdd w o | kSub w o | kMul w o | kAnd w o | kOr w o | kXor w o | kShl w o | kShr w o | kSra w o | kMin w o |
      kMax w o | kMinu w o | kMaxu w o =>
    obtain ⟨rfl, rfl, rfl⟩ : _ ∧ _ ∧ _ := by simpa only [issueOf, Option.some.injEq, Prod.mk.injEq] using h
    show ∃ eff, Host.Outcome.next (State.alu s _ _ _ _) = _
    unfold State.alu State.scalar
    exact ⟨_, rfl⟩
  case kCmp w o | kLi w o imm | kBell w o | kSelf w o =>
    obtain ⟨rfl, rfl, rfl⟩ : _ ∧ _ ∧ _ := by simpa only [issueOf, Option.some.injEq, Prod.mk.injEq] using h
    show ∃ eff, Host.Outcome.next (State.scalar s _ _ _ _ _) = _
    unfold State.scalar
    exact ⟨_, rfl⟩
  case kDset w o | kDget w o | kDadd w o =>
    obtain ⟨rfl, rfl, rfl⟩ : _ ∧ _ ∧ _ := by simpa only [issueOf, Option.some.injEq, Prod.mk.injEq] using h
    show ∃ eff, Host.Outcome.next (State.dfld s _ _ _ _) = _
    unfold State.dfld
    exact ⟨_, rfl⟩
  case kFenceLocal w o | kFenceFold w o | kFenceGlobal w o =>
    obtain ⟨rfl, rfl, rfl⟩ : _ ∧ _ ∧ _ := by simpa only [issueOf, Option.some.injEq, Prod.mk.injEq] using h
    show ∃ eff, Host.Outcome.next (State.fence s _ _ _) = _
    unfold State.fence
    exact ⟨_, rfl⟩
  case kLd w o | kSt w o | kAadd w o | kAmin w o | kAmax w o | kAxch w o | kAcas w o | kAacc w o | kSettle w o |
      kFrange w o | kTtouch w o =>
    obtain ⟨rfl, rfl, rfl⟩ : _ ∧ _ ∧ _ := by simpa only [issueOf, Option.some.injEq, Prod.mk.injEq] using h
    show ∃ eff, Host.Outcome.next (State.memOp s _ _ _) = _
    unfold State.memOp
    exact ⟨_, rfl⟩
  case kDld w o | kDst w o =>
    obtain ⟨rfl, rfl, rfl⟩ : _ ∧ _ ∧ _ := by simpa only [issueOf, Option.some.injEq, Prod.mk.injEq] using h
    show ∃ eff, Host.Outcome.next (State.descOp s _ _ _) = _
    unfold State.descOp
    exact ⟨_, rfl⟩
  case kPut w o | kGet w o | kRacc w o =>
    obtain ⟨rfl, rfl, rfl⟩ : _ ∧ _ ∧ _ := by simpa only [issueOf, Option.some.injEq, Prod.mk.injEq] using h
    show ∃ eff, Host.Outcome.next (State.remoteOp s _ _ _) = _
    unfold State.remoteOp
    exact ⟨_, rfl⟩
  case kRatomAdd w o | kRatomMin w o | kRatomMax w o | kRatomExchange w o | kRatomCas w o =>
    obtain ⟨rfl, rfl, rfl⟩ : _ ∧ _ ∧ _ := by simpa only [issueOf, Option.some.injEq, Prod.mk.injEq] using h
    show ∃ eff, Host.Outcome.next (State.ratomOp s _ _ _) = _
    unfold State.ratomOp
    exact ⟨_, rfl⟩
  case kMove w o | kGather w o | kScatter w o | kGraze w o | kCompact w o | kIsect w o | kUnion w o | kMerge w o |
      kEbag w o | kHist w o | kSegredSum w o | kSegredMin w o | kSegredMax w o | kSegredMean w o | kTopkLargest w o |
      kTopkSmallest w o =>
    obtain ⟨rfl, rfl, rfl⟩ : _ ∧ _ ∧ _ := by simpa only [issueOf, Option.some.injEq, Prod.mk.injEq] using h
    show ∃ eff, Host.Outcome.next (State.xferOp s _ _ _) = _
    unfold State.xferOp
    exact ⟨_, rfl⟩
  case kNop | kEnd | kBr | kLoop | kJr | kFailrd | kWaitc | kWaitbell | kAt | kSignal =>
    obtain ⟨rfl, rfl, rfl⟩ : _ ∧ _ ∧ _ := by simpa only [issueOf, Option.some.injEq, Prod.mk.injEq] using h
    exact ⟨_, rfl⟩
  all_goals simp only [issueOf, reduceCtorEq] at h

/-! ### Waits -/

theorem State.beginWait_waits {s : State} {d k : Nat} {wt : Wait}
    (h : (s.setStrand d k { s.strand d k with wait := some wt, phase := phStalled }).waitOver d k wt = false) :
    s.beginWait d k wt = s.setStrand d k { s.strand d k with wait := some wt, phase := phStalled } := by
  unfold State.beginWait State.wake
  simp [h]

theorem State.beginWait_over {s : State} {d k : Nat} {wt : Wait} (hb : ∀ b, wt ≠ .bell b) (hs : ∀ b, wt ≠ .slot b)
    (h : (s.setStrand d k { s.strand d k with wait := some wt, phase := phStalled }).waitOver d k wt = true) :
    s.beginWait d k wt = ((s.setStrand d k { s.strand d k with wait := some wt, phase := phStalled }).setStrand d k
      { s.strand d k with wait := none, phase := phStalled }).advance d k 8 := by
  unfold State.beginWait State.wake
  cases wt with
  | bell b => exact absurd rfl (hb b)
  | slot b => exact absurd rfl (hs b)
  | counter cn v => simp [h]
  | fence v => simp [h]

/-! ### Operations in flight -/

theorem State.lookup_congr {s t : State} (hx : t.xl = s.xl) (d : Nat) (va : Word) (acc : Acc)
    (h1 : t.reg (Fd.xlatCtxEn (paddockOf d)).addr = s.reg (Fd.xlatCtxEn (paddockOf d)).addr) : t.lookup d va acc = s.lookup d va acc := by
  have e1 : t.flag (Fd.xlatCtxEn (paddockOf d)) = s.flag (Fd.xlatCtxEn (paddockOf d)) := by
    unfold State.flag State.rd; rw [h1]
  have e2 : t.tenancy (paddockOf d) = s.tenancy (paddockOf d) := by
    unfold State.tenancy State.rd
    have : (Fd.xlatCtxTenancy (paddockOf d)).addr = (Fd.xlatCtxEn (paddockOf d)).addr := rfl
    rw [this, h1]
  unfold State.lookup
  simp only [e1, e2, State.l1, State.l2, hx]
theorem State.op_setOp (s : State) (o : Op) (n : Nat) (h : (s.op? o.id).isSome = true) : (s.setOp o).op? n = if n = o.id then some o else s.op? n := by
  unfold State.op? State.setOp at *
  simp only
  generalize s.ops = l at *
  induction l with
  | nil => simp at h
  | cons p l ih =>
    simp only [List.map_cons, List.find?_cons]
    by_cases hp : p.id = o.id
    · simp only [hp, if_true]
      by_cases hn : n = o.id
      · subst hn; simp
      · have h2 : ¬ o.id = n := fun e => hn e.symm
        simp only [h2, decide_false, hn, if_false]
        rw [List.find?_map]
        induction l with
        | nil => rfl
        | cons q l ih2 =>
          simp only [List.find?_cons, Function.comp]
          by_cases hq : q.id = o.id
          · simp only [hq, if_true, h2, decide_false]
            apply ih2
            · intro; simp_all
            · simp [hp]
          · simp only [hq, if_false]
            by_cases hqn : q.id = n
            · simp [hqn]
              intro e; exact absurd (hqn.trans e) (by simpa [hqn] using hn)
            · simp only [hqn, decide_false]
              apply ih2
              · intro; simp_all
              · simp [hp]
    · simp only [hp, if_false]
      have h' : (l.find? (fun p => decide (p.id = o.id))).isSome = true := by
        simpa [List.find?_cons, hp] using h
      by_cases hn : p.id = n
      · have : ¬ n = o.id := fun e => hp (hn.trans e)
        simp [hn, this]
      · simp only [hn, decide_false]
        exact ih h'
theorem State.op_addOp (s : State) (o : Op) (n : Nat) (h : (s.op? o.id).isSome = false) : (s.addOp o).op? n = if n = o.id then some o else s.op? n := by
  unfold State.op? State.addOp at *
  simp only [List.find?_append]
  by_cases hn : n = o.id
  · subst hn
    have : s.ops.find? (fun p => decide (p.id = o.id)) = none := by simpa using h
    simp [this]
  · have h2 : ¬ o.id = n := fun e => hn e.symm
    simp [hn, h2]
theorem State.op_putOp (s : State) (o : Op) (n : Nat) : (s.putOp o).op? n = if n = o.id then some o else s.op? n := by
  unfold State.putOp
  by_cases h : (s.op? o.id).isSome = true
  · rw [if_pos h]; exact State.op_setOp s o n h
  · rw [if_neg h]; exact State.op_addOp s o n (by simpa using h)

theorem State.strand_of_strands {s t : State} (h : t.strands = s.strands) (d k : Nat) : t.strand d k = s.strand d k := by
  show Tab.get _ t.strands _ = _
  rw [h]; rfl

theorem State.wake_id {s : State} {d k : Nat} (h : (s.strand d k).wait = none) : s.wake d k = s := by
  unfold State.wake
  simp only [h]

/-- What completing an operation that has its strand does (R138 to R141): of a strand that waits for nothing. -/
theorem State.finish_spec (s : State) (o : Op) (st hi k : Nat) (hl : o.lost = false) (hd : o.detached = false) (hp : o.poisoned = false ∨ st ≠ stOk)
   (hw : (s.strand o.drover o.strand).wait = none) :
   (s.finish o st hi k).strand o.drover o.strand = (s.strand o.drover o.strand).completed o.cn k o.gs st o.reason hi ∧
   StrandsBut o.drover o.strand s (s.finish o st hi k) ∧ (s.finish o st hi k).ops = s.ops.filter (fun p => p.id ≠ o.id) ∧
   Within 0x2a008 s (s.finish o st hi k) := by
  have e : (if (decide (st = stOk) && o.poisoned) = true then stPoison else st) = st := by
    rcases hp with h | h <;> simp [h]
  have hwt : ∀ y : Strand, y.wait = none → y.wait = none := fun _ h => h
  have h1 : ((s.strand o.drover o.strand).completed o.cn k o.gs st o.reason hi).wait = none := by
    unfold Strand.completed
    simp only
    cases o.cn <;> simp only <;> split <;> (simp only [Strand.wg, Strand.offer, Strand.raise]; repeat' split) <;> exact hw
  have key : ∃ A : State, s.finish o st hi k = (A.wake o.drover o.strand).pruneTickets ∧
      A.strands = (s.setStrand o.drover o.strand ((s.strand o.drover o.strand).completed o.cn k o.gs st o.reason hi)).strands ∧
      A.ops = s.ops.filter (fun p => p.id ≠ o.id) := by
    unfold State.finish
    simp only [hl, hd, e, Bool.false_eq_true, if_false]
    split
    · exact ⟨_, rfl, rfl, rfl⟩
    · exact ⟨_, rfl, rfl, rfl⟩
  obtain ⟨A, key, hs, ho⟩ := key
  have hsA : A.strand o.drover o.strand = (s.strand o.drover o.strand).completed o.cn k o.gs st o.reason hi :=
    (State.strand_of_strands hs _ _).trans (State.strand_setStrand_same s _ _ _)
  rw [State.wake_id ((congrArg Strand.wait hsA).trans h1)] at key
  refine ⟨?_, ?_, ?_, (State.finish_on (Covers.refl _) _ _ _ _ _ (Onward.refl _)).within⟩
  · rw [key]
    exact (State.strand_of_strands rfl _ _).trans hsA
  · intro d k' hne
    rw [key]
    exact (State.strand_of_strands rfl _ _).trans ((State.strand_of_strands hs _ _).trans ((State.strand_setStrand s _ _ _ _ _).trans (if_neg hne)))
  · rw [key]
    exact ho

end Sys2Proof.Machine
end

