-- ==== Sys2Proof/Laws/Keis.lean ====
section
/-! SUPPORT. Laws/Keis.lean: the fields of an instruction word read back what was encoded (Tables 4.1 and 4.2). -/
namespace Sys2Proof.Machine

/-- A field of a word is a quotient and a remainder. -/
theorem bits_div {w : Nat} (x : BitVec w) (hi lo : Nat) : bits x hi lo = x.toNat / 2 ^ lo % 2 ^ (hi + 1 - lo) := by
  unfold bits
  simp [BitVec.extractLsb'_toNat, Nat.shiftRight_eq_div_pow]

theorem bit_div (x : Word) (n : Nat) : bit x n = decide (x.toNat / 2 ^ n % 2 = 1) := by
  unfold bit
  rw [BitVec.getLsbD, Nat.testBit_eq_decide_div_mod_eq]

theorem keisWord_nat (op fmt : Nat) (pn : Bool) (pg : BitVec 5) (rest : Nat) (h1 : op < 256) (h2 : fmt < 16)
    (h3 : rest < 2 ^ 46) :
    (keisWord op fmt pn pg rest).toNat = op * 2 ^ 56 + fmt * 2 ^ 52 + b2n pn * 2 ^ 51 + pg.toNat * 2 ^ 46 + rest := by
  unfold keisWord
  rw [BitVec.toNat_ofNat, Nat.mod_eq_of_lt]
  have := pg.isLt
  have : b2n pn ≤ 1 := by cases pn <;> decide
  omega

theorem b2n_le (b : Bool) : b2n b ≤ 1 := by cases b <;> decide

theorem op_lt (i : KInstr) : i.op < 256 := by
  cases i with
  | alu f o => exact (by cases f <;> decide : f.code < 256)
  | xfer c o => exact (by cases c <;> decide : opByte c < 256)
  | mem c o => exact (by cases c <;> decide : opByte c < 256)
  | sync c o => exact (by cases c <;> decide : c.code < 256)
  | dfld c o => exact (by cases c <;> decide : c.code < 256)
  | _ => simp [KInstr.op]

theorem fmt_lt (i : KInstr) : i.fmt < 16 := by
  cases i with
  | alu f o => simp only [KInstr.fmt]; split <;> decide
  | _ => simp [KInstr.fmt]

theorem rest_lt (i : KInstr) : i.rest < 2 ^ 46 := by
  cases i with
  | jr o => have := o.ga.isLt; have := o.gb.isLt; have := o.gc.isLt; have := o.cond.isLt; simp only [KInstr.rest]; omega
  | alu f o =>
    have := o.ga.isLt; have := o.gb.isLt; have := o.cond.isLt
    simp only [KInstr.rest]; split
    · rename_i c _; have := c.isLt; omega
    · rename_i c _; have := c.isLt; omega
  | br o => have := o.ga.isLt; have := o.gb.isLt; have := o.cond.isLt; have := o.offset.isLt; simp only [KInstr.rest]; omega
  | loop o =>
    have := o.ga.isLt; have := o.gb.isLt; have := o.cond.isLt; have := o.offset.isLt; simp only [KInstr.rest]; omega
  | xfer c o =>
    have := o.dn.isLt; have := b2n_le o.ce; have := o.cn.isLt; have := o.gs.isLt; have := o.gx.isLt
    have := o.gy.isLt; simp only [KInstr.rest, xferRest]; omega
  | mem c o =>
    have := o.ga.isLt; have := o.gp.isLt; have := o.gv.isLt; have := o.gk.isLt; have := b2n_le o.ce
    have := o.cn.isLt; have := o.sub.isLt; have := o.imm.isLt; simp only [KInstr.rest, memRest]; omega
  | sync k o =>
    have := o.ga.isLt; have := o.cn.isLt; have := o.varnt.isLt; have := o.imm.isLt; simp only [KInstr.rest]; omega
  | li ga => have := ga.isLt; simp only [KInstr.rest]; omega
  | dfld k o => have := o.dn.isLt; have := o.off.isLt; have := o.w.isLt; have := o.gb.isLt; simp only [KInstr.rest]; omega

/-- The number an instruction's first word is. -/
theorem word_nat (i : KInstr) (pn : Bool) (pg : BitVec 5) :
    (i.word pn pg).toNat = i.op * 2 ^ 56 + i.fmt * 2 ^ 52 + b2n pn * 2 ^ 51 + pg.toNat * 2 ^ 46 + i.rest :=
  keisWord_nat _ _ _ _ _ (op_lt i) (fmt_lt i) (rest_lt i)

/-- Reading each field of an instruction's first word gives what was encoded: `OP`, `FMT`, the predicate. -/
theorem word_op (i : KInstr) (pn pg) : bits (i.word pn pg) 63 56 = i.op := by
  rw [bits_div, word_nat]; have := op_lt i; have := fmt_lt i; have := rest_lt i; have := b2n_le pn; have := pg.isLt; omega

theorem word_fmt (i : KInstr) (pn pg) : bits (i.word pn pg) 55 52 = i.fmt := by
  rw [bits_div, word_nat]; have := op_lt i; have := fmt_lt i; have := rest_lt i; have := b2n_le pn; have := pg.isLt; omega

theorem word_pg (i : KInstr) (pn pg) : fieldOf 5 (i.word pn pg) 46 = pg := by
  apply BitVec.eq_of_toNat_eq
  unfold fieldOf
  rw [BitVec.toNat_ofNat, word_nat]; have := op_lt i; have := fmt_lt i; have := rest_lt i; have := b2n_le pn
  have := pg.isLt; omega

theorem word_pn (i : KInstr) (pn pg) : bit (i.word pn pg) 51 = pn := by
  rw [bit_div, word_nat]; have h1 := op_lt i; have h2 := fmt_lt i; have h3 := rest_lt i; have h4 := pg.isLt
  have h5 := b2n_le pn
  have : (i.op * 2 ^ 56 + i.fmt * 2 ^ 52 + b2n pn * 2 ^ 51 + pg.toNat * 2 ^ 46 + i.rest) / 2 ^ 51 % 2 = b2n pn := by
    generalize i.op = a at *
    generalize i.fmt = b at *
    generalize b2n pn = c at *
    generalize pg.toNat = d at *
    generalize i.rest = r at *
    omega
  rw [this]
  cases pn <;> rfl

/-- A field below bit m does not see what stands at m and above. -/
theorem low_field (r q m n lo : Nat) (h : n + lo ≤ m) : (r + 2 ^ m * q) / 2 ^ lo % 2 ^ n = r / 2 ^ lo % 2 ^ n := by
  have e2 : 2 ^ m = 2 ^ lo * (2 ^ n * 2 ^ (m - lo - n)) := by
    rw [← Nat.pow_add, ← Nat.pow_add]; congr 1; omega
  rw [e2, Nat.mul_assoc, Nat.add_mul_div_left _ _ (Nat.two_pow_pos lo), Nat.mul_assoc, Nat.add_mul_mod_self_left]

/-- A field within bits [45:0] is a field of the operands' part. -/
theorem word_rest (i : KInstr) (pn pg) (n lo : Nat) (h : n + lo ≤ 46) :
    fieldOf n (i.word pn pg) lo = BitVec.ofNat n (i.rest / 2 ^ lo) := by
  apply BitVec.eq_of_toNat_eq
  unfold fieldOf
  rw [BitVec.toNat_ofNat, BitVec.toNat_ofNat, word_nat]
  generalize i.rest = r
  generalize i.op = a
  generalize i.fmt = b
  generalize b2n pn = c
  generalize pg.toNat = d
  have e :
    a * 2 ^ 56 + b * 2 ^ 52 + c * 2 ^ 51 + d * 2 ^ 46 + r = r + 2 ^ 46 * (a * 2 ^ 10 + b * 2 ^ 6 + c * 2 ^ 5 + d) := by omega
  rw [e]
  exact low_field r _ 46 n lo h

theorem word_bits (i : KInstr) (pn pg) (hi lo : Nat) (h : hi < 46) (hl : lo ≤ hi) :
    bits (i.word pn pg) hi lo = i.rest / 2 ^ lo % 2 ^ (hi + 1 - lo) := by
  have := congrArg BitVec.toNat (word_rest i pn pg (hi + 1 - lo) lo (by omega))
  rw [bits_div]
  simpa [fieldOf] using this

theorem word_bit (i : KInstr) (pn pg) (n : Nat) (h : n < 46) : bit (i.word pn pg) n = decide (i.rest / 2 ^ n % 2 = 1) := by
  have := word_bits i pn pg n n h (Nat.le_refl n)
  rw [bits_div] at this
  rw [bit_div]
  simp only [Nat.add_sub_cancel_left, Nat.pow_one] at this
  rw [this]

end Sys2Proof.Machine
end

