-- ==== Sys2Proof/Laws/Memory.lean ====
section
/-! SUPPORT. Laws/Memory.lean: reads after writes of byte memories and of module-local memory. -/
namespace Sys2Proof.Machine

theorem Memory.read_put (m : List Host.Cell) (a b : Nat) (v : Byte) :
    Memory.read (Tab.put blank m a v) b = if b = a then v else Memory.read m b := Tab.get_put _ m a b v

/-- A byte of a memory after a write from a on. -/
theorem Memory.read_write (bs : List Byte) : ∀ (m : List Host.Cell) (a b : Nat),
    Memory.read (Memory.write m a bs) b = if a ≤ b ∧ b < a + bs.length then bs.getD (b - a) 0 else Memory.read m b := by
  induction bs with
  | nil =>
    intro m a b
    rw [if_neg (by simp only [List.length_nil]; omega)]
    rfl
  | cons v t ih =>
    intro m a b
    show Memory.read (Memory.write (Tab.put blank m a v) (a + 1) t) b = _
    rw [ih, Memory.read_put]
    simp only [List.length_cons]
    by_cases h1 : b = a
    · subst h1
      rw [if_neg (by omega), if_pos rfl, if_pos (by omega)]
      simp
    · by_cases h2 : a + 1 ≤ b ∧ b < a + 1 + t.length
      · rw [if_pos h2, if_pos (by omega)]
        rw [show b - a = (b - (a + 1)) + 1 by omega]
        simp
      · rw [if_neg h2, if_neg h1, if_neg (by omega)]

/-- What a byte of module-local memory reads as depends on. -/
theorem State.readByte_congr {s t : State} (hl : t.lines = s.lines) (hm : t.mem = s.mem) (hd : t.drams = s.drams)
    (hr : ∀ k, k < 8 → t.reg (Fd.dramStackStatusStripeUsed k).addr = s.reg (Fd.dramStackStatusStripeUsed k).addr) (b : Nat)
    (hf : Memory.read t.fold b = Memory.read s.fold b) : t.readByte b = s.readByte b := by
  have hline : ∀ l, t.line l = s.line l := fun l => congrArg (fun r => Tab.get _ r l) hl
  have hdr : isStack b = true → t.dramByte b = s.dramByte b := by
    intro hb
    have hk : b / 2 ^ 36 < 8 := by
      unfold isStack at hb
      simp at hb
      omega
    have e1 : t.redirected b = s.redirected b := by
      unfold State.redirected State.flag State.rd
      have r1 := hr _ hk
      have r2 : t.reg (Fd.dramStackStatusStripeChan (b / 2 ^ 36)).addr = s.reg (Fd.dramStackStatusStripeChan (b / 2 ^ 36)).addr := r1
      show (decide (bits (t.reg (Fd.dramStackStatusStripeUsed (b / 2 ^ 36)).addr) _ _ = 1) && !inStripe b &&
        decide (chanOf (lineNo b) = bits (t.reg (Fd.dramStackStatusStripeChan (b / 2 ^ 36)).addr) _ _)) = _
      rw [r1, r2]
    have e2 : t.place b = s.place b := by
      unfold State.place
      rw [e1]
      have : t.stack (b / 2 ^ 36) = s.stack (b / 2 ^ 36) := congrArg (fun r => Tab.get _ r _) hd
      simp only [this]
    unfold State.dramByte
    rw [e2, hm]
  unfold State.readByte
  rw [hline, hf, hm]
  by_cases hb : isStack b = true
  · rw [hdr hb]
  · simp only [hb]
    rfl

/-- A write to the scratchpad: what each byte reads as after it. -/
theorem State.readByte_scratch (s : State) (a : Nat) (bs : List Byte) (bad stream : Bool) {cls : DramClass} (ha : isScratch a = true)
    (hb : bs.length = 0 ∨ isScratch (a + bs.length - 1) = true) (b : Nat) :
    (s.writeBytes a bs bad stream cls).readByte b = if a ≤ b ∧ b < a + bs.length then bs.getD (b - a) 0 else s.readByte b := by
  have hna : isStack a = false := by
    unfold isStack
    unfold isScratch at ha
    simp at ha ⊢
    omega
  have e : s.writeBytes a bs bad stream cls = ({ s with fold := Memory.write s.fold a bs }).poisonSpan a bs.length bad := by
    unfold State.writeBytes
    rw [hna, ha]
    rfl
  have w : Within 0x100 ({ s with fold := Memory.write s.fold a bs } : State) (s.writeBytes a bs bad stream cls) := by
    rw [e]
    exact (State.poisonSpan_on (Covers.refl _) _ _ _ _ (Onward.refl _)).within
  have wf : (s.writeBytes a bs bad stream cls).fold = Memory.write s.fold a bs := w .fold (by decide)
  by_cases h : a ≤ b ∧ b < a + bs.length
  · rw [if_pos h]
    have hs : isScratch b = true := by
      rcases hb with hb | hb
      · omega
      · unfold isScratch at ha hb ⊢
        simp at ha hb ⊢
        omega
    have hnb : isStack b = false := by
      unfold isStack
      unfold isScratch at hs
      simp at hs ⊢
      omega
    unfold State.readByte
    simp only [hnb, hs, Bool.false_eq_true, if_false, if_true]
    rw [wf, Memory.read_write, if_pos h]
  · rw [if_neg h]
    refine State.readByte_congr (s := s) (w .lines (by decide)) (w .mem (by decide)) (w .drams (by decide)) ?_ b ?_
    · intro k _
      exact congrArg (fun r => Tab.get regReset r _) (w .regs (by decide))
    · rw [wf, Memory.read_write, if_neg h]

end Sys2Proof.Machine
end

