-- ==== Sys2Proof/Laws/OnSite.lean ====
section
/-! SUPPORT. Laws/OnSite.lean: what the site links, bank accesses, ways and range engines keep. -/
set_option maxRecDepth 4000
namespace Sys2Proof.Machine

theorem State.setSite_on {m : Nat} (hm : Covers 0x200000000 m) {s0 : State} (s : State) (a2) (a3) (h : Onward m s0 s) :
    Onward m s0 (State.setSite s a2 a3) := by
  unfold State.setSite
  exact Onward.trans h (Onward.frame hm rfl rfl rfl rfl rfl rfl (fun w => ⟨w.1, w.2, w.3, w.4, w.5, w.6, w.7, w.8, w.9, w.10, w.11, w.12, w.13, Tab.wf_put _ _ _ _ w.14, w.15, w.16, w.17, w.18, w.19, w.20, w.21, w.22, w.23, w.24⟩)
    (fun p e => by cases p <;> first | exact absurd e (by decide) | rfl))

theorem State.setUp_on {m : Nat} (hm : Covers 0x200000000 m) {s0 : State} (s : State) (a2) (a3) (a4) (h : Onward m s0 s) :
    Onward m s0 (State.setUp s a2 a3 a4) := by
  unfold State.setUp
  exact State.setSite_on (hm.of rfl) _ _ _ h

theorem State.setDown_on {m : Nat} (hm : Covers 0x200000000 m) {s0 : State} (s : State) (a2) (a3) (a4) (h : Onward m s0 s) :
    Onward m s0 (State.setDown s a2 a3 a4) := by
  unfold State.setDown
  exact State.setSite_on (hm.of rfl) _ _ _ h

theorem State.siteState_on {m : Nat} (hm : Covers 0x1000008 m) {s0 : State} (s : State) (a2) (a3) (h : Onward m s0 s) :
    Onward m s0 (State.siteState s a2 a3) := by
  unfold State.siteState
  refine ite_ind (P := Onward _ _) ?_ ?_
  · exact h
  · exact State.irq_on (hm.of rfl) _ _ (State.wr_on (hm.of rfl) _ _ _ h)

theorem State.siteWires_on {m : Nat} (hm : Covers 0x200000002 m) {s0 : State} (s : State) (a2) (a3) (a4) (a5) (h : Onward m s0 s) :
    Onward m s0 (State.siteWires s a2 a3 a4 a5) := by
  unfold State.siteWires
  extract_lets +onlyGivenNames x1
  refine ite_ind (P := Onward _ _) ?_ ?_
  · exact h
  · exact State.emit_on (hm.of rfl) _ _ (State.setSite_on (hm.of rfl) _ _ _ h)

theorem State.siteRecord_on {m : Nat} (hm : Covers 0x140000a m) {s0 : State} (s : State) (a2) (a3) (a4) (a5) (h : Onward m s0 s) :
    Onward m s0 (State.siteRecord s a2 a3 a4 a5) := by
  unfold State.siteRecord
  exact State.record_on (hm.of rfl) _ _ _ _ _ _ h

theorem State.trySlp_on {m : Nat} (hm : Covers 0x200000002 m) {s0 : State} (a1) (a2) (a3) (a4) (ha3 : Onward.P m s0 a3) :
    Onward.P m s0 (State.trySlp a1 a2 a3 a4) := by
  unfold State.trySlp
  extract_lets +onlyGivenNames x1
  have h2 : Onward m s0 x1 := by
    unfold x1
    refine Onward.snd ?_
    exact ha3
  clear_value x1
  extract_lets +onlyGivenNames x3 x4
  refine ite_ind (P := Onward.P _ _) ?_ ?_
  · exact h2
  · extract_lets +onlyGivenNames x5 x6 x7 x8
    have h9 : Onward m s0 x8 := by
      unfold x8
      exact State.emit_on (hm.of rfl) _ _ (State.setUp_on (hm.of rfl) _ _ _ _ h2)
    clear_value x8
    refine Onward.pair ?_
    refine ite_ind (P := Onward _ _) ?_ ?_
    · exact State.emit_on (hm.of rfl) _ _ h9
    · exact h9

theorem State.drainUp_on {m : Nat} (hm : Covers 0x200000002 m) {s0 : State} (s : State) (a2) (a3) (h : Onward m s0 s) :
    Onward m s0 (State.drainUp s a2 a3) := by
  unfold State.drainUp
  extract_lets +onlyGivenNames x1
  split
  rename_i v4 e5
  have h6 : Onward m s0 v4 := by
    refine Onward.eqP e5 ?_
    refine foldl_ind (P := Onward.P _ _) ?_ _ _ ?_
    · intro x7 x8 h9
      exact State.trySlp_on (hm.of rfl) _ _ _ _ h9
    · exact State.setUp_on (hm.of rfl) _ _ _ _ h
  extract_lets +onlyGivenNames x10
  exact State.setUp_on (hm.of rfl) _ _ _ _ h6

theorem State.sendSlp_on {m : Nat} (hm : Covers 0x200000002 m) {s0 : State} (s : State) (a2) (a3) (a4) (h : Onward m s0 s) :
    Onward m s0 (State.sendSlp s a2 a3 a4) := by
  unfold State.sendSlp
  extract_lets +onlyGivenNames x1
  exact State.drainUp_on (hm.of rfl) _ _ _ (State.setUp_on (hm.of rfl) _ _ _ _ h)

theorem State.siteReply_on {m : Nat} (hm : Covers 0x200000002 m) {s0 : State} (s : State) (a2) (a3) (a4) (a5) (a6) (a7) (a8) (a9) (h : Onward m s0 s) :
    Onward m s0 (State.siteReply s a2 a3 a4 a5 a6 a7 a8 a9) := by
  unfold State.siteReply
  refine ite_ind (P := Onward _ _) ?_ ?_
  · exact h
  · split
    · exact h
    · exact State.sendSlp_on (hm.of rfl) _ _ _ _ h

theorem State.siteDone_on {m : Nat} (hm : Covers 0x200000002 m) {s0 : State} (s : State) (a2) (a3) (a4) (a5) (a6) (h : Onward m s0 s) :
    Onward m s0 (State.siteDone s a2 a3 a4 a5 a6) := by
  unfold State.siteDone
  exact State.siteReply_on (hm.of rfl) _ _ _ _ _ _ _ _ _ h

theorem State.siteFails_on {m : Nat} (hm : Covers 0x200000002 m) {s0 : State} (s : State) (a2) (a3) (a4) (a5) (a6) (a7) (h : Onward m s0 s) :
    Onward m s0 (State.siteFails s a2 a3 a4 a5 a6 a7) := by
  unfold State.siteFails
  refine ite_ind (P := Onward _ _) ?_ ?_
  · exact State.siteReply_on (hm.of rfl) _ _ _ _ _ _ _ _ _ h
  · exact State.siteDone_on (hm.of rfl) _ _ _ _ _ _ h

theorem State.moveSlp_on {m : Nat} (hm : Covers 0x200000002 m) {s0 : State} (s : State) (a2) (a3) (h : Onward m s0 s) :
    Onward m s0 (State.moveSlp s a2 a3) := by
  unfold State.moveSlp
  extract_lets +onlyGivenNames x1
  split
  · exact h
  · refine ite_ind (P := Onward _ _) ?_ ?_
    · exact h
    · exact State.sendSlp_on (hm.of rfl) _ _ _ _ (State.setUp_on (hm.of rfl) _ _ _ _ h)

theorem State.sendLinkCtl_on {m : Nat} (hm : Covers 0x200000002 m) {s0 : State} (s : State) (a2) (a3) (a4) (a5) (h : Onward m s0 s) :
    Onward m s0 (State.sendLinkCtl s a2 a3 a4 a5) := by
  unfold State.sendLinkCtl
  split
  · exact h
  · extract_lets +onlyGivenNames x6 x7
    exact State.emit_on (hm.of rfl) _ _ (State.setDown_on (hm.of rfl) _ _ _ _ h)

theorem State.tookSlp_on {m : Nat} (hm : Covers 0x200000002 m) {s0 : State} (s : State) (a2) (a3) (a4) (a5) (h : Onward m s0 s) :
    Onward m s0 (State.tookSlp s a2 a3 a4 a5) := by
  unfold State.tookSlp
  extract_lets +onlyGivenNames x1 x2 x3
  have h4 : Onward m s0 x3 := by
    unfold x3
    exact State.setDown_on (hm.of rfl) _ _ _ _ h
  clear_value x3
  refine ite_ind (P := Onward _ _) ?_ ?_
  · exact State.sendLinkCtl_on (hm.of rfl) _ _ _ _ _ h4
  · exact h4

theorem State.shutDown_on {m : Nat} (hm : Covers 0x200000002 m) {s0 : State} (s : State) (a2) (a3) (h : Onward m s0 s) :
    Onward m s0 (State.shutDown s a2 a3) := by
  unfold State.shutDown
  extract_lets +onlyGivenNames x1
  refine ite_ind (P := Onward _ _) ?_ ?_
  · exact State.setDown_on (hm.of rfl) _ _ _ _ (State.sendLinkCtl_on (hm.of rfl) _ _ _ _ _ h)
  · exact h

theorem State.emitFrame_on {m : Nat} (hm : Covers 0x2 m) {s0 : State} (s : State) (a2) (a3) (h : Onward m s0 s) :
    Onward m s0 (State.emitFrame s a2 a3) := by
  unfold State.emitFrame
  split
  · exact State.emit_on (hm.of rfl) _ _ h
  · exact h

theorem State.sendFrame_on {m : Nat} (hm : Covers 0x200000002 m) {s0 : State} (s : State) (a2) (a3) (a4) (h : Onward m s0 s) :
    Onward m s0 (State.sendFrame s a2 a3 a4) := by
  unfold State.sendFrame
  extract_lets +onlyGivenNames x1
  exact State.emitFrame_on (hm.of rfl) _ _ _ (State.setSite_on (hm.of rfl) _ _ _ h)

theorem State.bellFrames_on {m : Nat} (hm : Covers 0x200000002 m) {s0 : State} (s : State) (h : Onward m s0 s) :
    Onward m s0 (State.bellFrames s) := by
  unfold State.bellFrames
  refine eachUpTo_ind (P := Onward _ _) _ _ ?_ ?_
  · exact h
  · intro x1 x2 h3
    refine ite_ind (P := Onward _ _) ?_ ?_
    · exact State.sendFrame_on (hm.of rfl) _ _ _ _ h3
    · exact h3

theorem State.siteBell_on {m : Nat} (hm : Covers 0x200000002 m) {s0 : State} (s : State) (h : Onward m s0 s) :
    Onward m s0 (State.siteBell s) := by
  unfold State.siteBell
  extract_lets +onlyGivenNames x1
  have h2 : Onward m s0 x1 := by
    unfold x1
    refine eachUpTo_ind (P := Onward _ _) _ _ ?_ ?_
    · exact h
    · intro x3 x4 h5
      refine foldl_ind (P := Onward _ _) ?_ _ _ ?_
      · intro x6 x7 h8
        exact State.shutDown_on (hm.of rfl) _ _ _ h8
      · exact h5
  clear_value x1
  extract_lets +onlyGivenNames x9
  have h10 : Onward m s0 x9 := by
    unfold x9
    refine ite_ind (P := Onward _ _) ?_ ?_
    · exact h2
    · exact State.emit_on (hm.of rfl) _ _ h2
  clear_value x9
  refine ite_ind (P := Onward _ _) ?_ ?_
  · exact h10
  · extract_lets +onlyGivenNames x11
    refine State.bellFrames_on (hm.of rfl) _ ?_
    refine eachUpTo_ind (P := Onward _ _) _ _ ?_ ?_
    · exact h10
    · intro x12 x13 h14
      exact State.setSite_on (hm.of rfl) _ _ _ h14

theorem State.siteSend_on {m : Nat} (hm : Covers 0x208000002 m) {s0 : State} (s : State) (a2) (a3) (a4) (a5) (a6) (a7) (a8) (a9) (a10) (a11) (h : Onward m s0 s) :
    Onward.M m s0 (State.siteSend s a2 a3 a4 a5 a6 a7 a8 a9 a10 a11) := by
  unfold State.siteSend
  extract_lets +onlyGivenNames x1
  split
  · extract_lets +onlyGivenNames x8 x9
    have h10 : Onward m s0 x9 := by
      unfold x9
      exact Onward.trans h (Onward.frame hm rfl rfl rfl rfl rfl rfl (fun w => ⟨w.1, w.2, w.3, w.4, w.5, w.6, w.7, w.8, w.9, w.10, w.11, w.12, w.13, w.14, w.15, w.16, w.17, w.18, w.19, w.20, w.21, w.22, w.23, w.24⟩)
    (fun p e => by cases p <;> first | exact absurd e (by decide) | rfl))
    clear_value x9
    extract_lets +onlyGivenNames x11
    exact State.sendSlp_on (hm.of rfl) _ _ _ _ h10
  · exact trivial

set_option maxRecDepth 100000 in
theorem State.siteSpan_on {m : Nat} (hm : Covers 0x208000002 m) {s0 : State} (s : State) (a2) (a3) (a4) (a5) (a6) (a7) (a8) (a9) (a10) (a11) (h : Onward m s0 s) :
    Onward.M m s0 (State.siteSpan s a2 a3 a4 a5 a6 a7 a8 a9 a10 a11) := by
  unfold State.siteSpan
  refine foldl_ind (P := Onward.M _ _) ?_ _ _ h
  intro b p hb
  cases b with
  | none => exact trivial
  | some t =>
    have hb : Onward m s0 t := hb
    dsimp only
    refine ite_ind (P := Onward.M _ _) ?_ ?_
    · exact State.siteSend_on (hm.of rfl) _ _ _ _ _ _ _ _ _ _ _ hb
    · exact State.siteSend_on (hm.of rfl) _ _ _ _ _ _ _ _ _ _ _ hb

theorem State.setServed_on {m : Nat} (hm : Covers 0x8000 m) {s0 : State} (s : State) (a2) (a3) (a4) (a5) (h : Onward m s0 s) :
    Onward m s0 (State.setServed s a2 a3 a4 a5) := by
  unfold State.setServed
  exact State.setOp_on (hm.of rfl) _ _ h

theorem State.setRangeQ_on {m : Nat} (hm : Covers 0x1000 m) {s0 : State} (s : State) (a2) (a3) (h : Onward m s0 s) :
    Onward m s0 (State.setRangeQ s a2 a3) := by
  unfold State.setRangeQ
  exact Onward.trans h (Onward.frame hm rfl rfl rfl rfl rfl rfl (fun w => ⟨w.1, w.2, w.3, w.4, w.5, w.6, w.7, Tab.wf_put _ _ _ _ w.8, w.9, w.10, w.11, w.12, w.13, w.14, w.15, w.16, w.17, w.18, w.19, w.20, w.21, w.22, w.23, w.24⟩)
    (fun p e => by cases p <;> first | exact absurd e (by decide) | rfl))

theorem State.joinRange_on {m : Nat} (hm : Covers 0x19000 m) {s0 : State} (s : State) (a2) (h : Onward m s0 s) :
    Onward m s0 (State.joinRange s a2) := by
  unfold State.joinRange
  extract_lets +onlyGivenNames x1 x2
  refine ite_ind (P := Onward _ _) ?_ ?_
  · exact State.setServed_on (hm.of rfl) _ _ _ _ _ (State.putOp_on (hm.of rfl) _ _ h)
  · refine ite_ind (P := Onward _ _) ?_ ?_
    · exact State.putOp_on (hm.of rfl) _ _ h
    · exact State.setRangeQ_on (hm.of rfl) _ _ _ (State.putOp_on (hm.of rfl) _ _ h)

theorem State.startRange_on {m : Nat} (hm : Covers 0x3b008 m) {s0 : State} (s : State) (a2) (a3) (h : Onward m s0 s) :
    Onward m s0 (State.startRange s a2 a3) := by
  unfold State.startRange
  extract_lets +onlyGivenNames x1
  refine ite_ind (P := Onward _ _) ?_ ?_
  · exact State.failOp_on (hm.of rfl) _ _ _ h
  · refine ite_ind (P := Onward _ _) ?_ ?_
    · exact State.failOp_on (hm.of rfl) _ _ _ h
    · exact State.joinRange_on (hm.of rfl) _ _ h

theorem State.perform_on {m : Nat} (hm : Covers 0x11cca7ea m) {s0 : State} (s : State) (a2) (h : Onward m s0 s) :
    Onward.M m s0 (State.perform s a2) := by
  unfold State.perform
  extract_lets +onlyGivenNames x1 x2
  split
  · exact State.setServed_on (hm.of rfl) _ _ _ _ _ h
  · refine ite_ind (P := Onward.M _ _) ?_ ?_
    · exact State.setServed_on (hm.of rfl) _ _ _ _ _ h
    · split
      · exact trivial
      · exact State.setServed_on (hm.of rfl) _ _ _ _ _ h
      · split
        · extract_lets +onlyGivenNames x16
          have h17 : Onward m s0 x16 := by
            unfold x16
            exact State.touch_on (hm.of rfl) _ _ _ _ _ _ _ h
          clear_value x16
          extract_lets +onlyGivenNames x18
          exact State.setServed_on (hm.of rfl) _ _ _ _ _ h17
        · extract_lets +onlyGivenNames x21
          have h22 : Onward m s0 x21 := by
            unfold x21
            exact State.touch_on (hm.of rfl) _ _ _ _ _ _ _ h
          clear_value x21
          extract_lets +onlyGivenNames x23
          exact State.setServed_on (hm.of rfl) _ _ _ _ _ h22
        · exact State.setServed_on (hm.of rfl) _ _ _ _ _ (State.writeBytes_on (hm.of rfl) _ _ _ _ _ _ h)
        · exact State.setServed_on (hm.of rfl) _ _ _ _ _ (State.writeBytes_on (hm.of rfl) _ _ _ _ _ _ h)
        · split
          rename_i v32 e33
          have h34 : Onward m s0 v32 := Onward.eqP e33 (State.accumulate_on (hm.of rfl) _ _ _ _ _ _ _ _ h)
          exact State.setServed_on (hm.of rfl) _ _ _ _ _ h34
        · split
          rename_i v44 e45
          have h46 : Onward m s0 v44 := Onward.eqT e45 (State.update_on (hm.of rfl) _ _ _ _ _ _ _ _ _ _ h)
          exact State.setServed_on (hm.of rfl) _ _ _ _ _ h46

theorem State.toSite_on {m : Nat} (hm : Covers 0x208008002 m) {s0 : State} (s : State) (a2) (h : Onward m s0 s) :
    Onward m s0 (State.toSite s a2) := by
  unfold State.toSite
  extract_lets +onlyGivenNames x1
  refine ite_ind (P := Onward _ _) ?_ ?_
  · exact State.setServed_on (hm.of rfl) _ _ _ _ _ h
  · extract_lets +onlyGivenNames x2
    split
    · rename_i v4 e5
      have h6 : Onward m s0 v4 := Onward.eqM e5 (State.siteSpan_on (hm.of rfl) _ _ _ _ _ _ _ _ _ _ _ h)
      exact State.setOp_on (hm.of rfl) _ _ h6
    · exact h

theorem State.translate_on {m : Nat} (hm : Covers 0x20943b02a m) {s0 : State} (s : State) (a2) (h : Onward m s0 s) :
    Onward m s0 (State.translate s a2) := by
  unfold State.translate
  extract_lets +onlyGivenNames x1 x2
  have h3 : Onward m s0 x2 := by
    unfold x2
    exact State.looked_on (hm.of rfl) _ _ _ h
  clear_value x2
  split
  · exact State.failOp_on (hm.of rfl) _ _ _ h3
  · refine ite_ind (P := Onward _ _) ?_ ?_
    · exact State.putOp_on (hm.of rfl) _ _ h3
    · extract_lets +onlyGivenNames x10
      split
      rename_i v13 e14
      have h15 : Onward m s0 v13 := Onward.eqP e14 (State.askTicket_on (hm.of rfl) _ _ _ _ _ h3)
      exact State.putOp_on (hm.of rfl) _ _ h15
  · extract_lets +onlyGivenNames x21
    split
    · exact State.startRange_on (hm.of rfl) _ _ _ (State.putOp_on (hm.of rfl) _ _ h3)
    · exact State.startRange_on (hm.of rfl) _ _ _ (State.putOp_on (hm.of rfl) _ _ h3)
    · refine State.wake_on (hm.of rfl) _ _ _ ?_
      refine ite_ind (P := Onward _ _) ?_ ?_
      · exact State.toSite_on (hm.of rfl) _ _ (State.putOp_on (hm.of rfl) _ _ h3)
      · exact State.putOp_on (hm.of rfl) _ _ h3

theorem State.complete_on {m : Nat} (hm : Covers 0x2a008 m) {s0 : State} (s : State) (a2) (h : Onward m s0 s) :
    Onward m s0 (State.complete s a2) := by
  unfold State.complete
  refine ite_ind (P := Onward _ _) ?_ ?_
  · exact State.failOp_on (hm.of rfl) _ _ _ h
  · refine ite_ind (P := Onward _ _) ?_ ?_
    · exact State.failOp_on (hm.of rfl) _ _ _ h
    · extract_lets +onlyGivenNames x1
      have h2 : Onward m s0 x1 := by
        unfold x1
        refine ite_ind (P := Onward _ _) ?_ ?_
        · exact State.setStrand_on (hm.of rfl) _ _ _ _ h
        · exact State.result_on (hm.of rfl) _ _ _ h
      clear_value x1
      exact State.finish_on (hm.of rfl) _ _ _ _ _ h2

theorem State.beginMem_on {m : Nat} (hm : Covers 0x20943b02a m) {s0 : State} (s : State) (a2) (a3) (h : Onward m s0 s) :
    Onward m s0 (State.beginMem s a2 a3) := by
  unfold State.beginMem
  extract_lets +onlyGivenNames x1 x2 x3 x4
  refine ite_ind (P := Onward _ _) ?_ ?_
  · refine ite_ind (P := Onward _ _) ?_ ?_
    · exact State.failOp_on (hm.of rfl) _ _ _ h
    · exact State.translate_on (hm.of rfl) _ _ h
  · refine ite_ind (P := Onward _ _) ?_ ?_
    · exact State.translate_on (hm.of rfl) _ _ h
    · refine ite_ind (P := Onward _ _) ?_ ?_
      · exact State.failOp_on (hm.of rfl) _ _ _ h
      · exact State.translate_on (hm.of rfl) _ _ h

theorem State.beginDesc_on {m : Nat} (hm : Covers 0x20943b02a m) {s0 : State} (s : State) (a2) (a3) (h : Onward m s0 s) :
    Onward m s0 (State.beginDesc s a2 a3) := by
  unfold State.beginDesc
  extract_lets +onlyGivenNames x1 x2
  refine ite_ind (P := Onward _ _) ?_ ?_
  · exact State.failOp_on (hm.of rfl) _ _ _ h
  · exact State.translate_on (hm.of rfl) _ _ h

theorem State.slotFreed_on {m : Nat} (hm : Covers 0x20943b02a m) {s0 : State} (s : State) (a2) (a3) (h : Onward m s0 s) :
    Onward m s0 (State.slotFreed s a2 a3) := by
  unfold State.slotFreed
  refine ite_ind (P := Onward _ _) ?_ ?_
  · exact h
  · split
    · exact State.translate_on (hm.of rfl) _ _ h
    · exact h

theorem State.cleanLine_on {m : Nat} (hm : Covers 0x1cc03ea m) {s0 : State} (s : State) (a2) (h : Onward m s0 s) :
    Onward m s0 (State.cleanLine s a2) := by
  unfold State.cleanLine
  split
  · exact h
  · extract_lets +onlyGivenNames x6
    have h7 : Onward m s0 x6 := by
      unfold x6
      refine ite_ind (P := Onward _ _) ?_ ?_
      · exact h
      · exact State.settleLine_on (hm.of rfl) _ _ _ h
    clear_value x6
    split
    · refine ite_ind (P := Onward _ _) ?_ ?_
      · exact State.setLine_on (hm.of rfl) _ _ _ (State.writeBack_on (hm.of rfl) _ _ _ h7)
      · exact h7
    · exact h7

theorem State.emptyLines_on {m : Nat} (hm : Covers 0x1cc03ea m) {s0 : State} (s : State) (a2) (a3) (h : Onward m s0 s) :
    Onward m s0 (State.emptyLines s a2 a3) := by
  unfold State.emptyLines
  refine foldl_ind (P := Onward _ _) ?_ _ _ ?_
  · intro x1 x2 h3
    extract_lets +onlyGivenNames x4
    have h5 : Onward m s0 x4 := by
      unfold x4
      exact State.cleanLine_on (hm.of rfl) _ _ h3
    clear_value x4
    refine ite_ind (P := Onward _ _) ?_ ?_
    · exact State.setLine_on (hm.of rfl) _ _ _ (State.eraseLine_on (hm.of rfl) _ _ h5)
    · exact h5
  · exact h

theorem State.zeroSlot_on {m : Nat} (hm : Covers 0x180 m) {s0 : State} (s : State) (a2) (a3) (h : Onward m s0 s) :
    Onward m s0 (State.zeroSlot s a2 a3) := by
  unfold State.zeroSlot
  extract_lets +onlyGivenNames x1
  exact Onward.trans h (Onward.frame hm rfl rfl rfl rfl rfl rfl (fun w => ⟨w.1, by dsimp only; exact Memory.wf_keep _ _ w.2, w.3, w.4, w.5, w.6, w.7, w.8, w.9, w.10, w.11, w.12, w.13, w.14, w.15, w.16, w.17, Nats.wf_filter _ _ w.18, w.19, w.20, w.21, w.22, w.23, w.24⟩)
    (fun p e => by cases p <;> first | exact absurd e (by decide) | rfl))

theorem State.wayCfgApplied_on {m : Nat} (hm : Covers 0x988 m) {s0 : State} (s : State) (a2) (a3) (a4) (h : Onward m s0 s) :
    Onward m s0 (State.wayCfgApplied s a2 a3 a4) := by
  unfold State.wayCfgApplied
  extract_lets +onlyGivenNames x1 x2 x3 x4 x5 x6 x7 x8
  have h9 : Onward m s0 x8 := by
    unfold x8
    exact State.setPenWays_on (hm.of rfl) _ _ _ h
  clear_value x8
  extract_lets +onlyGivenNames x10
  have h11 : Onward m s0 x10 := by
    unfold x10
    refine foldl_ind (P := Onward _ _) ?_ _ _ ?_
    · intro x12 x13 h14
      exact State.zeroSlot_on (hm.of rfl) _ _ _ h14
    · exact h9
  clear_value x10
  extract_lets +onlyGivenNames x15
  have h16 : Onward m s0 x15 := by
    unfold x15
    refine ite_ind (P := Onward _ _) ?_ ?_
    · exact State.wr_on (hm.of rfl) _ _ _ h11
    · exact h11
  clear_value x15
  refine ite_ind (P := Onward _ _) ?_ ?_
  · exact State.wr_on (hm.of rfl) _ _ _ (State.setPenWays_on (hm.of rfl) _ _ _ h16)
  · extract_lets +onlyGivenNames x17
    have h18 : Onward m s0 x17 := by
      unfold x17
      refine ite_ind (P := Onward _ _) ?_ ?_
      · exact h16
      · exact State.wr_on (hm.of rfl) _ _ _ h16
    clear_value x17
    extract_lets +onlyGivenNames x19
    refine ite_ind (P := Onward _ _) ?_ ?_
    · exact h18
    · exact State.wr_on (hm.of rfl) _ _ _ (State.setPenWays_on (hm.of rfl) _ _ _ h18)

theorem State.pinLine_on {m : Nat} (hm : Covers 0x1cc07ea m) {s0 : State} (s : State) (a2) (h : Onward m s0 s) :
    Onward.M m s0 (State.pinLine s a2) := by
  unfold State.pinLine
  extract_lets +onlyGivenNames x1 x2
  split
  · exact trivial
  · rename_i v7 e8
    have h9 : Onward m s0 v7 := Onward.eqMP e8 (State.chooseWay_on (hm.of rfl) _ _ _ _ h)
    extract_lets +onlyGivenNames x10
    have h11 : Onward m s0 x10 := by
      unfold x10
      split
      · refine ite_ind (P := Onward _ _) ?_ ?_
        · exact h9
        · exact State.evict_on (hm.of rfl) _ _ _ h9
      · exact h9
    clear_value x10
    split
    · exact State.setLine_on (hm.of rfl) _ _ _ h11
    · extract_lets +onlyGivenNames x22
      have h23 : Onward m s0 x22 := by
        unfold x22
        exact State.setLine_on (hm.of rfl) _ _ _ h11
      clear_value x22
      extract_lets +onlyGivenNames x24
      exact State.askChan_on (hm.of rfl) _ _ _ (State.foldCount_on (hm.of rfl) _ _ _ (State.setBank_on (hm.of rfl) _ _ _ h23))

theorem State.zeroDram_on {m : Nat} (hm : Covers 0x8c0060 m) {s0 : State} (s : State) (a2) (h : Onward m s0 s) :
    Onward m s0 (State.zeroDram s a2) := by
  unfold State.zeroDram
  refine State.queueWrites_on (hm.of rfl) _ _ _ ?_
  refine eachUpTo_ind (P := Onward _ _) _ _ ?_ ?_
  · exact h
  · intro x1 x2 h3
    exact State.dramWrite_on (hm.of rfl) _ _ _ _ h3

theorem State.rangeAbsent_on {m : Nat} (hm : Covers 0x1cc07ea m) {s0 : State} (s : State) (a2) (a3) (h : Onward m s0 s) :
    Onward.T m s0 (State.rangeAbsent s a2 a3) := by
  unfold State.rangeAbsent
  refine ite_ind (P := Onward.T _ _) ?_ ?_
  · exact Onward.triple (State.zeroDram_on (hm.of rfl) _ _ h)
  · refine ite_ind (P := Onward.T _ _) ?_ ?_
    · split
      · rename_i v4 e5
        have h6 : Onward m s0 v4 := Onward.eqM e5 (State.pinLine_on (hm.of rfl) _ _ h)
        exact Onward.triple h6
      · exact h
    · exact h

theorem State.rangeAcc_on {m : Nat} (hm : Covers 0x1cc07ea m) {s0 : State} (s : State) (a2) (a3) (a4) (h : Onward m s0 s) :
    Onward.T m s0 (State.rangeAcc s a2 a3 a4) := by
  unfold State.rangeAcc
  extract_lets +onlyGivenNames x12
  split
  · exact Onward.triple (State.writeBack_on (hm.of rfl) _ _ _ h)
  · exact Onward.triple (State.discard_on (hm.of rfl) _ _ _ h)
  · extract_lets +onlyGivenNames x16
    have h17 : Onward m s0 x16 := by
      unfold x16
      exact State.settleLine_on (hm.of rfl) _ _ _ h
    clear_value x16
    split
    · exact Onward.triple (State.discard_on (hm.of rfl) _ _ _ (State.writeBack_on (hm.of rfl) _ _ _ h17))
    · exact h17
  · extract_lets +onlyGivenNames x24
    have h25 : Onward m s0 x24 := by
      unfold x24
      exact State.setLine_on (hm.of rfl) _ _ _ h
    clear_value x24
    exact Onward.trans h25 (Onward.frame hm rfl rfl rfl rfl rfl rfl (fun w => ⟨w.1, w.2, w.3, w.4, w.5, w.6, w.7, w.8, w.9, w.10, w.11, w.12, w.13, w.14, w.15, w.16, w.17, Nats.wf_filter _ _ w.18, w.19, w.20, w.21, w.22, w.23, w.24⟩)
      (fun p e => by cases p <;> first | exact absurd e (by decide) | rfl))
  · exact h
  · exact Onward.triple (State.setLine_on (hm.of rfl) _ _ _ h)
  · exact Onward.triple (State.settleLine_on (hm.of rfl) _ _ _ h)

theorem State.rangeHeld_on {m : Nat} (hm : Covers 0x1cc07ea m) {s0 : State} (s : State) (a2) (a3) (a4) (h : Onward m s0 s) :
    Onward.T m s0 (State.rangeHeld s a2 a3 a4) := by
  unfold State.rangeHeld
  extract_lets +onlyGivenNames x12
  split
  · refine Onward.triple ?_
    refine ite_ind (P := Onward _ _) ?_ ?_
    · exact State.setLine_on (hm.of rfl) _ _ _ (State.writeBack_on (hm.of rfl) _ _ _ h)
    · exact h
  · exact Onward.triple (State.discard_on (hm.of rfl) _ _ _ h)
  · refine Onward.triple ?_
    refine State.discard_on (hm.of rfl) _ _ _ ?_
    refine ite_ind (P := Onward _ _) ?_ ?_
    · exact State.writeBack_on (hm.of rfl) _ _ _ h
    · exact h
  · exact Onward.triple (State.setLine_on (hm.of rfl) _ _ _ (State.eraseLine_on (hm.of rfl) _ _ h))
  · refine ite_ind (P := Onward.T _ _) ?_ ?_
    · exact h
    · refine ite_ind (P := Onward.T _ _) ?_ ?_
      · exact Onward.triple (State.setLine_on (hm.of rfl) _ _ _ h)
      · split
        · rename_i v41 e42
          have h43 : Onward m s0 v41 := Onward.eqM e42 (State.pinLine_on (hm.of rfl) _ _ h)
          exact h43
        · exact h
  · exact Onward.triple (State.setLine_on (hm.of rfl) _ _ _ h)
  · exact Onward.triple (State.setLine_on (hm.of rfl) _ _ _ h)

theorem State.rangeLine_on {m : Nat} (hm : Covers 0x1cc07ea m) {s0 : State} (s : State) (a2) (a3) (h : Onward m s0 s) :
    Onward.T m s0 (State.rangeLine s a2 a3) := by
  unfold State.rangeLine
  split
  · exact State.rangeAbsent_on hm _ _ _ h
  · refine ite_ind (P := Onward.T _ _) ?_ ?_
    · exact State.rangeAcc_on hm _ _ _ _ h
    · exact State.rangeHeld_on hm _ _ _ _ h

theorem State.walk_on {m : Nat} (hm : Covers 0x1cc07ea m) {s0 : State} (s : State) (a2) (a3) (h : Onward m s0 s) :
    Onward.P m s0 (State.walk s a2 a3) := by
  unfold State.walk
  refine foldl_ind (P := Onward.P _ _) ?_ _ _ ?_
  · intro x1 x2 h3
    refine ite_ind (P := Onward.P _ _) ?_ ?_
    · refine Onward.pair ?_
      refine Onward.snd ?_
      exact h3
    · split
      rename_i v7 e8
      have h9 : Onward m s0 v7 := by
        refine Onward.eqT e8 ?_
        refine State.rangeLine_on (hm.of rfl) _ _ _ ?_
        refine Onward.snd ?_
        exact h3
      exact h9
  · exact h

theorem State.setHead_on {m : Nat} (hm : Covers 0x1000 m) {s0 : State} (s : State) (a2) (a3) (h : Onward m s0 s) :
    Onward m s0 (State.setHead s a2 a3) := by
  unfold State.setHead
  exact State.setRangeQ_on (hm.of rfl) _ _ _ h

theorem State.rangeRoom_on {m : Nat} (hm : Covers 0x19000 m) {s0 : State} (s : State) (a2) (h : Onward m s0 s) :
    Onward m s0 (State.rangeRoom s a2) := by
  unfold State.rangeRoom
  refine ite_ind (P := Onward _ _) ?_ ?_
  · exact h
  · split
    · exact State.joinRange_on (hm.of rfl) _ _ h
    · exact h

theorem State.rangeDone_on {m : Nat} (hm : Covers 0x20101900a m) {s0 : State} (s : State) (a2) (a3) (a4) (h : Onward m s0 s) :
    Onward m s0 (State.rangeDone s a2 a3 a4) := by
  unfold State.rangeDone
  extract_lets +onlyGivenNames x1
  have h2 : Onward m s0 x1 := by
    unfold x1
    exact State.setRangeQ_on (hm.of rfl) _ _ _ h
  clear_value x1
  extract_lets +onlyGivenNames x3
  have h4 : Onward m s0 x3 := by
    unfold x3
    exact State.wr_on (hm.of rfl) _ _ _ (State.wr_on (hm.of rfl) _ _ _ (State.wr_on (hm.of rfl) _ _ _ h2))
  clear_value x3
  extract_lets +onlyGivenNames x5
  have h6 : Onward m s0 x5 := by
    unfold x5
    exact State.wr_on (hm.of rfl) _ _ _ (State.wr_on (hm.of rfl) _ _ _ h4)
  clear_value x5
  extract_lets +onlyGivenNames x7
  have h8 : Onward m s0 x7 := by
    unfold x7
    split
    · split
      · exact State.setServed_on (hm.of rfl) _ _ _ _ _ h2
      · exact h2
    · exact State.siteDone_on (hm.of rfl) _ _ _ _ _ _ h2
    · exact State.irq_on (hm.of rfl) _ _ h6
  clear_value x7
  exact State.rangeRoom_on (hm.of rfl) _ _ h8

theorem execRangeEngineStart_on {m : Nat} (hm : Covers 0x201cd97ea m) {s0 : State} (a1) (s : State) (h : Onward m s0 s) :
    Onward.O m s0 (execRangeEngineStart a1 s) := by
  unfold execRangeEngineStart
  split
  · exact h
  · refine ite_ind (P := Onward.O _ _) ?_ ?_
    · exact h
    · refine ite_ind (P := Onward.O _ _) ?_ ?_
      · exact State.rangeDone_on (hm.of rfl) _ _ _ _ h
      · split
        rename_i v9 e10
        have h11 : Onward m s0 v9 := Onward.eqP e10 (State.walk_on (hm.of rfl) _ _ _ h)
        exact State.setHead_on (hm.of rfl) _ _ _ h11

theorem execRangeComplete_on {m : Nat} (hm : Covers 0x201cd97ea m) {s0 : State} (a1) (s : State) (h : Onward m s0 s) :
    Onward.O m s0 (execRangeComplete a1 s) := by
  unfold execRangeComplete
  split
  · exact h
  · refine ite_ind (P := Onward.O _ _) ?_ ?_
    · exact h
    · split
      rename_i v9 e10
      have h11 : Onward m s0 v9 := Onward.eqP e10 (State.walk_on (hm.of rfl) _ _ _ h)
      refine Onward.next ?_
      refine ite_ind (P := Onward _ _) ?_ ?_
      · exact State.rangeDone_on (hm.of rfl) _ _ _ _ h11
      · exact State.setHead_on (hm.of rfl) _ _ _ h11

theorem State.rangeAfterMiss_on {m : Nat} (hm : Covers 0x1cc17ea m) {s0 : State} (s : State) (a2) (h : Onward m s0 s) :
    Onward m s0 (State.rangeAfterMiss s a2) := by
  unfold State.rangeAfterMiss
  split
  · refine ite_ind (P := Onward _ _) ?_ ?_
    · exact h
    · split
      rename_i v7 e8
      have h9 : Onward m s0 v7 := Onward.eqP e8 (State.walk_on (hm.of rfl) _ _ _ h)
      exact State.setHead_on (hm.of rfl) _ _ _ h9
  · exact h

theorem State.frangeGo_on {m : Nat} (hm : Covers 0x1008 m) {s0 : State} (s : State) (a2) (a3) (h : Onward m s0 s) :
    Onward m s0 (State.frangeGo s a2 a3) := by
  unfold State.frangeGo
  refine ite_ind (P := Onward _ _) ?_ ?_
  · exact h
  · refine ite_ind (P := Onward _ _) ?_ ?_
    · exact State.wr_on (hm.of rfl) _ _ _ h
    · extract_lets +onlyGivenNames x1
      have h2 : Onward m s0 x1 := by
        unfold x1
        exact State.wr_on (hm.of rfl) _ _ _ h
      extract_lets +onlyGivenNames x3 x4
      refine ite_ind (P := Onward _ _) ?_ ?_
      · exact State.wr_on (hm.of rfl) _ _ _ h2
      · refine ite_ind (P := Onward _ _) ?_ ?_
        · exact State.wr_on (hm.of rfl) _ _ _ h2
        · refine ite_ind (P := Onward _ _) ?_ ?_
          · exact State.wr_on (hm.of rfl) _ _ _ h2
          · exact State.setRangeQ_on (hm.of rfl) _ _ _ (State.wr_on (hm.of rfl) _ _ _ (State.wr_on (hm.of rfl) _ _ _ h2))

theorem execFrClean_on {m : Nat} (hm : Covers 0x1008 m) {s0 : State} (a1) (s : State) (h : Onward m s0 s) :
    Onward.O m s0 (execFrClean a1 s) := by
  unfold execFrClean
  exact State.frangeGo_on (hm.of rfl) _ _ _ h

theorem execFrInvalidate_on {m : Nat} (hm : Covers 0x1008 m) {s0 : State} (a1) (s : State) (h : Onward m s0 s) :
    Onward.O m s0 (execFrInvalidate a1 s) := by
  unfold execFrInvalidate
  exact State.frangeGo_on (hm.of rfl) _ _ _ h

theorem execFrCleanInv_on {m : Nat} (hm : Covers 0x1008 m) {s0 : State} (a1) (s : State) (h : Onward m s0 s) :
    Onward.O m s0 (execFrCleanInv a1 s) := by
  unfold execFrCleanInv
  exact State.frangeGo_on (hm.of rfl) _ _ _ h

theorem execFrZero_on {m : Nat} (hm : Covers 0x1008 m) {s0 : State} (a1) (s : State) (h : Onward m s0 s) :
    Onward.O m s0 (execFrZero a1 s) := by
  unfold execFrZero
  exact State.frangeGo_on (hm.of rfl) _ _ _ h

theorem execFrPin_on {m : Nat} (hm : Covers 0x1008 m) {s0 : State} (a1) (s : State) (h : Onward m s0 s) :
    Onward.O m s0 (execFrPin a1 s) := by
  unfold execFrPin
  exact State.frangeGo_on (hm.of rfl) _ _ _ h

theorem execFrUnpin_on {m : Nat} (hm : Covers 0x1008 m) {s0 : State} (a1) (s : State) (h : Onward m s0 s) :
    Onward.O m s0 (execFrUnpin a1 s) := by
  unfold execFrUnpin
  exact State.frangeGo_on (hm.of rfl) _ _ _ h

end Sys2Proof.Machine
end

