-- ==== Sys2Proof/Laws/OnBanks.lean ====
section
/-! SUPPORT. Laws/OnBanks.lean: what the commands of banks, DRAM, ports and gates keep. -/
set_option maxRecDepth 4000
namespace Sys2Proof.Machine

theorem State.serve_on {m : Nat} (hm : Covers 0x11cca7ea m) {s0 : State} (s : State) (a2) (h : Onward m s0 s) :
    Onward m s0 (State.serve s a2) := by
  unfold State.serve
  extract_lets +onlyGivenNames x1
  split
  · exact State.emit_on (hm.of rfl) _ _ (State.touch_on (hm.of rfl) _ _ _ _ _ _ _ h)
  · exact State.emit_on (hm.of rfl) _ _ (State.writeBytes_on (hm.of rfl) _ _ _ _ _ _ h)
  · split
    · refine ite_ind (P := Onward _ _) ?_ ?_
      · refine Onward.getD ?_ ?_
        · exact State.perform_on (hm.of rfl) _ _ h
        · exact h
      · exact h
    · exact h

theorem State.foldError_on {m : Nat} (hm : Covers 0x140010a m) {s0 : State} (s : State) (a2) (h : Onward m s0 s) :
    Onward m s0 (State.foldError s a2) := by
  unfold State.foldError
  extract_lets +onlyGivenNames x1
  split
  · exact h
  · extract_lets +onlyGivenNames x9 x10
    refine ite_ind (P := Onward _ _) ?_ ?_
    · exact State.record_on (hm.of rfl) _ _ _ _ _ _ (State.inc_on (hm.of rfl) _ _ _ (State.setBad_on (hm.of rfl) _ _ _ h))
    · exact State.record_on (hm.of rfl) _ _ _ _ _ _ (State.inc_on (hm.of rfl) _ _ _ h)

theorem State.uncounted_on {m : Nat} (hm : Covers 0x8 m) {s0 : State} (s : State) (a2) (a3) (h : Onward m s0 s) (ha3 : ∀ y1, Onward m s0 y1 → Onward m s0 (a3 y1)) :
    Onward m s0 (State.uncounted s a2 a3) := by
  unfold State.uncounted
  extract_lets +onlyGivenNames x1
  have h2 : Onward m s0 x1 := by
    unfold x1
    refine ha3 _ ?_
    exact h
  clear_value x1
  exact State.wr_on (hm.of rfl) _ _ _ (State.wr_on (hm.of rfl) _ _ _ (State.wr_on (hm.of rfl) _ _ _ h2))

theorem State.waitAt_on {m : Nat} (hm : Covers 0x408 m) {s0 : State} (s : State) (a2) (a3) (a4) (h : Onward m s0 s) :
    Onward m s0 (State.waitAt s a2 a3 a4) := by
  unfold State.waitAt
  extract_lets +onlyGivenNames x1
  refine ite_ind (P := Onward _ _) ?_ ?_
  · exact h
  · extract_lets +onlyGivenNames x2
    have h3 : Onward m s0 x2 := by
      unfold x2
      exact State.setBank_on (hm.of rfl) _ _ _ h
    clear_value x2
    refine ite_ind (P := Onward _ _) ?_ ?_
    · exact State.inc_on (hm.of rfl) _ _ _ h3
    · exact h3

theorem State.attach_on {m : Nat} (hm : Covers 0x408 m) {s0 : State} (s : State) (a2) (a3) (a4) (h : Onward m s0 s) :
    Onward m s0 (State.attach s a2 a3 a4) := by
  unfold State.attach
  extract_lets +onlyGivenNames x1 x2 x3
  have h4 : Onward m s0 x3 := by
    unfold x3
    exact State.setBank_on (hm.of rfl) _ _ _ h
  clear_value x3
  refine ite_ind (P := Onward _ _) ?_ ?_
  · exact State.inc_on (hm.of rfl) _ _ _ (State.inc_on (hm.of rfl) _ _ _ h4)
  · exact h4

theorem State.newMiss_on {m : Nat} (hm : Covers 0x1cc07ea m) {s0 : State} (s : State) (a2) (a3) (a4) (a5) (h : Onward m s0 s) :
    Onward m s0 (State.newMiss s a2 a3 a4 a5) := by
  unfold State.newMiss
  extract_lets +onlyGivenNames x1
  have h2 : Onward m s0 x1 := by
    unfold x1
    exact State.inc_on (hm.of rfl) _ _ _ h
  clear_value x1
  split
  rename_i v6 e7
  have h8 : Onward m s0 v6 := by
    refine Onward.eqT e7 ?_
    split
    · exact h2
    · split
      · rename_i v16 e17
        have h18 : Onward m s0 v16 := Onward.eqMP e17 (State.makeRoom_on (hm.of rfl) _ _ h2)
        exact h18
      · exact h2
  exact State.askChan_on (hm.of rfl) _ _ _ (State.setBank_on (hm.of rfl) _ _ _ h8)

theorem State.lookAt_on {m : Nat} (hm : Covers 0x51cca7ea m) {s0 : State} (s : State) (a2) (a3) (h : Onward m s0 s) :
    Onward m s0 (State.lookAt s a2 a3) := by
  unfold State.lookAt
  split
  split
  extract_lets +onlyGivenNames x11 x12 x13
  have h14 : Onward m s0 x13 := by
    unfold x13
    exact State.ungate_on (hm.of rfl) _ _ h
  clear_value x13
  extract_lets +onlyGivenNames x15
  have h16 : ∀ u17, Onward m s0 u17 → Onward m s0 (x15 u17) := by
    intro x18 h19
    unfold x15
    refine State.serve_on (hm.of rfl) _ _ ?_
    refine foldl_ind (P := Onward _ _) ?_ _ _ ?_
    · intro x20 x21 h22
      exact State.foldError_on (hm.of rfl) _ _ h22
    · exact h19
  clear_value x15
  split
  · split
    · exact State.serve_on (hm.of rfl) _ _ h14
    · exact State.emit_on (hm.of rfl) _ _ h14
  · refine ite_ind (P := Onward _ _) ?_ ?_
    · exact State.waitAt_on (hm.of rfl) _ _ _ _ h14
    · exact h14
  · extract_lets +onlyGivenNames x35 x36
    refine ite_ind (P := Onward _ _) ?_ ?_
    · refine h16 _ ?_
      exact h14
    · split
      · refine ite_ind (P := Onward _ _) ?_ ?_
        · refine h16 _ ?_
          exact h14
        · refine ite_ind (P := Onward _ _) ?_ ?_
          · exact State.attach_on (hm.of rfl) _ _ _ _ h14
          · exact State.waitAt_on (hm.of rfl) _ _ _ _ h14
      · refine ite_ind (P := Onward _ _) ?_ ?_
        · refine h16 _ ?_
          exact h14
        · refine ite_ind (P := Onward _ _) ?_ ?_
          · exact State.waitAt_on (hm.of rfl) _ _ _ _ h14
          · exact State.newMiss_on (hm.of rfl) _ _ _ _ _ h14

theorem State.lookAgain_on {m : Nat} (hm : Covers 0x51cca7ea m) {s0 : State} (s : State) (a2) (h : Onward m s0 s) :
    Onward m s0 (State.lookAgain s a2) := by
  unfold State.lookAgain
  extract_lets +onlyGivenNames x1
  refine foldl_ind (P := Onward _ _) ?_ _ _ ?_
  · intro x2 x3 h4
    exact State.lookAt_on (hm.of rfl) _ _ _ h4
  · exact State.setBank_on (hm.of rfl) _ _ _ h

theorem State.lookPen_on {m : Nat} (hm : Covers 0x51cca7ea m) {s0 : State} (s : State) (a2) (h : Onward m s0 s) :
    Onward m s0 (State.lookPen s a2) := by
  unfold State.lookPen
  refine eachUpTo_ind (P := Onward _ _) _ _ ?_ ?_
  · exact h
  · intro x1 x2 h3
    exact State.lookAgain_on (hm.of rfl) _ _ h3

theorem execBankRequest_on {m : Nat} (hm : Covers 0x51cca7ea m) {s0 : State} (a1) (s : State) (h : Onward m s0 s) :
    Onward.O m s0 (execBankRequest a1 s) := by
  unfold execBankRequest
  split
  extract_lets +onlyGivenNames x6
  refine ite_ind (P := Onward.O _ _) ?_ ?_
  · exact State.lookAt_on (hm.of rfl) _ _ _ h
  · exact h

theorem State.multicast_on {m : Nat} (hm : Covers 0x2 m) {s0 : State} (s : State) (a2) (a3) (a4) (a5) (h : Onward m s0 s) :
    Onward m s0 (State.multicast s a2 a3 a4 a5) := by
  induction a5 generalizing s a4 with
  | zero => exact h
  | succ n ih =>
    unfold State.multicast
    exact ite_ind (P := Onward _ _) h (ih _ _ (State.emit_on (hm.of rfl) _ _ h))

theorem State.serveAll_on {m : Nat} (hm : Covers 0x11cca7ea m) {s0 : State} (a1) (a2) (s : State) (h : Onward m s0 s) :
    Onward m s0 (State.serveAll a1 a2 s) := by
  induction a1 generalizing s a2 with
  | zero => exact h
  | succ n ih =>
    cases a2 with
    | nil => exact h
    | cons r t =>
      unfold State.serveAll
      split
      · exact ih _ _ (State.multicast_on (hm.of rfl) _ _ _ _ _ (State.touch_on (hm.of rfl) _ _ _ _ _ _ _ h))
      · exact ih _ _ (State.serve_on (hm.of rfl) _ _ h)

theorem State.endMiss_on {m : Nat} (hm : Covers 0x51ccb7ea m) {s0 : State} (s : State) (a2) (a3) (h : Onward m s0 s) :
    Onward m s0 (State.endMiss s a2 a3) := by
  unfold State.endMiss
  extract_lets +onlyGivenNames x1 x2 x3
  have h4 : Onward m s0 x3 := by
    unfold x3
    exact State.ungate_on (hm.of rfl) _ _ h
  clear_value x3
  extract_lets +onlyGivenNames x5 x6
  have h7 : Onward m s0 x6 := by
    unfold x6
    exact State.setBank_on (hm.of rfl) _ _ _ h4
  clear_value x6
  extract_lets +onlyGivenNames x8
  have h9 : Onward m s0 x8 := by
    unfold x8
    split
    · extract_lets +onlyGivenNames x14
      refine ite_ind (P := Onward _ _) ?_ ?_
      · exact h7
      · exact State.setLine_on (hm.of rfl) _ _ _ (State.fillSectors_on (hm.of rfl) _ _ _ h7)
    · exact State.setLine_on (hm.of rfl) _ _ _ (State.fillSectors_on (hm.of rfl) _ _ _ h7)
    · exact h7
  clear_value x8
  refine State.rangeAfterMiss_on (hm.of rfl) _ _ ?_
  refine State.uncounted_on (hm.of rfl) _ _ _ ?_ ?_
  · exact h9
  · intro x24 h25
    exact State.serveAll_on (hm.of rfl) _ _ _ h25

theorem execFoldFill_on {m : Nat} (hm : Covers 0x51ccb7ea m) {s0 : State} (a1) (a2) (s : State) (h : Onward m s0 s) :
    Onward.O m s0 (execFoldFill a1 a2 s) := by
  unfold execFoldFill
  extract_lets +onlyGivenNames x1
  split
  · exact h
  · refine ite_ind (P := Onward.O _ _) ?_ ?_
    · exact h
    · exact State.lookAgain_on (hm.of rfl) _ _ (State.endMiss_on (hm.of rfl) _ _ _ h)

theorem execMergeBufferExpiry_on {m : Nat} (hm : Covers 0x400 m) {s0 : State} (a1) (a2) (s : State) (h : Onward m s0 s) :
    Onward.O m s0 (execMergeBufferExpiry a1 a2 s) := by
  unfold execMergeBufferExpiry
  extract_lets +onlyGivenNames x1
  exact State.setBank_on (hm.of rfl) _ _ _ h

theorem execFoldScrubPass_on {m : Nat} (hm : Covers 0x5150050a m) {s0 : State} (a1) (a2) (s : State) (h : Onward m s0 s) :
    Onward.O m s0 (execFoldScrubPass a1 a2 s) := by
  unfold execFoldScrubPass
  extract_lets +onlyGivenNames x1 x2 x3 x4 x5
  refine ite_ind (P := Onward.O _ _) ?_ ?_
  · exact h
  · extract_lets +onlyGivenNames x6 x7
    have h8 : Onward m s0 x7 := by
      unfold x7
      exact State.setBank_on (hm.of rfl) _ _ _ (State.ungate_on (hm.of rfl) _ _ h)
    clear_value x7
    extract_lets +onlyGivenNames x9
    have h10 : Onward m s0 x9 := by
      unfold x9
      refine foldl_ind (P := Onward _ _) ?_ _ _ ?_
      · intro x11 x12 h13
        exact State.foldError_on (hm.of rfl) _ _ h13
      · exact h8
    clear_value x9
    refine ite_ind (P := Onward.O _ _) ?_ ?_
    · exact h10
    · extract_lets +onlyGivenNames x14 x15 x16 x17 x18
      have h19 : Onward m s0 x18 := by
        unfold x18
        exact State.setBank_on (hm.of rfl) _ _ _ h10
      clear_value x18
      exact State.record_on (hm.of rfl) _ _ _ _ _ _ (State.announce_on (hm.of rfl) _ _ h19)

theorem State.openScrub_on {m : Nat} (hm : Covers 0x400 m) {s0 : State} (s : State) (a2) (h : Onward m s0 s) :
    Onward m s0 (State.openScrub s a2) := by
  unfold State.openScrub
  split
  · exact h
  · refine ite_ind (P := Onward _ _) ?_ ?_
    · exact h
    · exact State.setBank_on (hm.of rfl) _ _ _ h

theorem State.openScrubs_on {m : Nat} (hm : Covers 0x400 m) {s0 : State} (s : State) (h : Onward m s0 s) :
    Onward m s0 (State.openScrubs s) := by
  unfold State.openScrubs
  refine foldl_ind (P := Onward _ _) ?_ _ _ ?_
  · intro x1 x2 h3
    exact State.openScrub_on (hm.of rfl) _ _ h3
  · exact h

theorem execFoldScrubWindow_on {m : Nat} (hm : Covers 0x400 m) {s0 : State} (a1) (s : State) (h : Onward m s0 s) :
    Onward.O m s0 (execFoldScrubWindow a1 s) := by
  unfold execFoldScrubWindow
  exact State.openScrub_on (hm.of rfl) _ _ h

theorem State.closeScrubs_on {m : Nat} (hm : Covers 0x51cca7ea m) {s0 : State} (s : State) (h : Onward m s0 s) :
    Onward m s0 (State.closeScrubs s) := by
  unfold State.closeScrubs
  refine foldl_ind (P := Onward _ _) ?_ _ _ ?_
  · intro x1 x2 h3
    split
    · refine ite_ind (P := Onward _ _) ?_ ?_
      · exact State.lookAgain_on (hm.of rfl) _ _ (State.setBank_on (hm.of rfl) _ _ _ h3)
      · exact h3
    · exact h3
  · exact h

theorem execSlotConversionDone_on {m : Nat} (hm : Covers 0x51ccafea m) {s0 : State} (a1) (s : State) (h : Onward m s0 s) :
    Onward.O m s0 (execSlotConversionDone a1 s) := by
  unfold execSlotConversionDone
  extract_lets +onlyGivenNames x1 x2
  split
  · exact h
  · refine ite_ind (P := Onward.O _ _) ?_ ?_
    · exact h
    · extract_lets +onlyGivenNames x9
      have h10 : Onward m s0 x9 := by
        unfold x9
        exact State.zeroSlot_on (hm.of rfl) _ _ _ (State.emptyLines_on (hm.of rfl) _ _ _ h)
      clear_value x9
      extract_lets +onlyGivenNames x11
      have h12 : Onward m s0 x11 := by
        unfold x11
        exact State.inc_on (hm.of rfl) _ _ _ (State.setPenWays_on (hm.of rfl) _ _ _ h10)
      clear_value x11
      refine Onward.next ?_
      refine State.lookPen_on (hm.of rfl) _ _ ?_
      refine ite_ind (P := Onward _ _) ?_ ?_
      · exact State.wr_on (hm.of rfl) _ _ _ h12
      · exact h12

theorem execCacheDisableDone_on {m : Nat} (hm : Covers 0x51ccafea m) {s0 : State} (a1) (s : State) (h : Onward m s0 s) :
    Onward.O m s0 (execCacheDisableDone a1 s) := by
  unfold execCacheDisableDone
  extract_lets +onlyGivenNames x1 x2
  refine ite_ind (P := Onward.O _ _) ?_ ?_
  · exact h
  · extract_lets +onlyGivenNames x3 x4
    have h5 : Onward m s0 x4 := by
      unfold x4
      exact State.emptyLines_on (hm.of rfl) _ _ _ h
    clear_value x4
    extract_lets +onlyGivenNames x6
    have h7 : Onward m s0 x6 := by
      unfold x6
      refine foldl_ind (P := Onward _ _) ?_ _ _ ?_
      · intro x8 x9 h10
        exact State.zeroSlot_on (hm.of rfl) _ _ _ h10
      · exact h5
    clear_value x6
    extract_lets +onlyGivenNames x11
    have h12 : Onward m s0 x11 := by
      unfold x11
      exact State.wr_on (hm.of rfl) _ _ _ (State.setPenWays_on (hm.of rfl) _ _ _ h7)
    clear_value x11
    exact State.lookPen_on (hm.of rfl) _ _ (State.wr_on (hm.of rfl) _ _ _ (State.wr_on (hm.of rfl) _ _ _ h12))

theorem State.wayDown_on {m : Nat} (hm : Covers 0x1cc0bea m) {s0 : State} (s : State) (a2) (a3) (h : Onward m s0 s) :
    Onward m s0 (State.wayDown s a2 a3) := by
  unfold State.wayDown
  extract_lets +onlyGivenNames x1
  refine ite_ind (P := Onward _ _) ?_ ?_
  · exact h
  · extract_lets +onlyGivenNames x2
    have h3 : Onward m s0 x2 := by
      unfold x2
      refine ite_ind (P := Onward _ _) ?_ ?_
      · exact State.zeroSlot_on (hm.of rfl) _ _ _ h
      · exact State.emptyLines_on (hm.of rfl) _ _ _ h
    clear_value x2
    exact State.wrBit_on (hm.of rfl) _ _ _ _ (State.setPenWays_on (hm.of rfl) _ _ _ h3)

theorem State.wayUp_on {m : Nat} (hm : Covers 0x988 m) {s0 : State} (s : State) (a2) (a3) (h : Onward m s0 s) :
    Onward m s0 (State.wayUp s a2 a3) := by
  unfold State.wayUp
  extract_lets +onlyGivenNames x1
  refine ite_ind (P := Onward _ _) ?_ ?_
  · exact h
  · exact State.wrBit_on (hm.of rfl) _ _ _ _ (State.zeroSlot_on (hm.of rfl) _ _ _ (State.setPenWays_on (hm.of rfl) _ _ _ h))

theorem State.waysDue_on {m : Nat} (hm : Covers 0x1cc0bea m) {s0 : State} (s : State) (h : Onward m s0 s) :
    Onward m s0 (State.waysDue s) := by
  unfold State.waysDue
  refine eachUpTo_ind (P := Onward _ _) _ _ ?_ ?_
  · exact h
  · intro x1 x2 h3
    extract_lets +onlyGivenNames x4
    refine foldl_ind (P := Onward _ _) ?_ _ _ ?_
    · intro x5 x6 h7
      exact State.wayUp_on (hm.of rfl) _ _ _ h7
    · refine foldl_ind (P := Onward _ _) ?_ _ _ ?_
      · intro x8 x9 h10
        exact State.wayDown_on (hm.of rfl) _ _ _ h10
      · exact h3

theorem execWayPowerDown_on {m : Nat} (hm : Covers 0x1cc0bea m) {s0 : State} (a1) (a2) (s : State) (h : Onward m s0 s) :
    Onward.O m s0 (execWayPowerDown a1 a2 s) := by
  unfold execWayPowerDown
  exact State.wayDown_on (hm.of rfl) _ _ _ h

theorem execWayPowerUp_on {m : Nat} (hm : Covers 0x988 m) {s0 : State} (a1) (a2) (s : State) (h : Onward m s0 s) :
    Onward.O m s0 (execWayPowerUp a1 a2 s) := by
  unfold execWayPowerUp
  exact State.wayUp_on (hm.of rfl) _ _ _ h

theorem State.askRetrain_on {m : Nat} (hm : Covers 0x40000 m) {s0 : State} (s : State) (a2) (a3) (a4) (h : Onward m s0 s) :
    Onward m s0 (State.askRetrain s a2 a3 a4) := by
  unfold State.askRetrain
  extract_lets +onlyGivenNames x1
  refine ite_ind (P := Onward _ _) ?_ ?_
  · exact h
  · exact State.setChan_on (hm.of rfl) _ _ _ _ h

theorem State.eccSector_on {m : Nat} (hm : Covers 0x1c4000a m) {s0 : State} (s : State) (a2) (a3) (a4) (a5) (a6) (a7) (h : Onward m s0 s) :
    Onward m s0 (State.eccSector s a2 a3 a4 a5 a6 a7) := by
  unfold State.eccSector
  extract_lets +onlyGivenNames x1
  refine ite_ind (P := Onward _ _) ?_ ?_
  · exact h
  · refine ite_ind (P := Onward _ _) ?_ ?_
    · extract_lets +onlyGivenNames x2 x3
      have h4 : Onward m s0 x3 := by
        unfold x3
        exact State.setChan_on (hm.of rfl) _ _ _ _ h
      clear_value x3
      extract_lets +onlyGivenNames x5
      have h6 : Onward m s0 x5 := by
        unfold x5
        exact Onward.trans h4 (Onward.frame hm rfl rfl rfl rfl rfl rfl (fun w => ⟨w.1, w.2, w.3, w.4, w.5, w.6, w.7, w.8, w.9, w.10, w.11, w.12, w.13, w.14, w.15, w.16, w.17, w.18, Nats.wf_ins _ _ w.19, w.20, w.21, w.22, w.23, w.24⟩)
    (fun p e => by cases p <;> first | exact absurd e (by decide) | rfl))
      clear_value x5
      extract_lets +onlyGivenNames x7
      have h8 : Onward m s0 x7 := by
        unfold x7
        exact State.record_on (hm.of rfl) _ _ _ _ _ _ (State.inc_on (hm.of rfl) _ _ _ h6)
      clear_value x7
      refine ite_ind (P := Onward _ _) ?_ ?_
      · exact State.askRetrain_on (hm.of rfl) _ _ _ _ h8
      · exact h8
    · split
      · exact h
      · extract_lets +onlyGivenNames x14 x15 x16 x17
        have h18 : Onward m s0 x17 := by
          unfold x17
          exact State.inc_on (hm.of rfl) _ _ _ (State.setChan_on (hm.of rfl) _ _ _ _ h)
        clear_value x17
        extract_lets +onlyGivenNames x19
        have h20 : Onward m s0 x19 := by
          unfold x19
          exact State.record_on (hm.of rfl) _ _ _ _ _ _ h18
        clear_value x19
        refine ite_ind (P := Onward _ _) ?_ ?_
        · exact State.askRetrain_on (hm.of rfl) _ _ _ _ h20
        · exact h20

theorem State.eccRead_on {m : Nat} (hm : Covers 0x1c4000a m) {s0 : State} (s : State) (a2) (a3) (a4) (a5) (h : Onward m s0 s) :
    Onward m s0 (State.eccRead s a2 a3 a4 a5) := by
  unfold State.eccRead
  split
  · exact h
  · refine foldl_ind (P := Onward _ _) ?_ _ _ ?_
    · intro x6 x7 h8
      exact State.eccSector_on (hm.of rfl) _ _ _ _ _ _ _ h8
    · exact h

theorem State.returnData_on {m : Nat} (hm : Covers 0x2 m) {s0 : State} (s : State) (a2) (h : Onward m s0 s) :
    Onward m s0 (State.returnData s a2) := by
  unfold State.returnData
  extract_lets +onlyGivenNames x1 x2
  exact State.emit_on (hm.of rfl) _ _ h

theorem State.answered_on {m : Nat} (hm : Covers 0x402 m) {s0 : State} (s : State) (a2) (h : Onward m s0 s) :
    Onward m s0 (State.answered s a2) := by
  unfold State.answered
  extract_lets +onlyGivenNames x1 x2 x3
  have h4 : Onward m s0 x3 := by
    unfold x3
    exact State.returnData_on (hm.of rfl) _ _ h
  clear_value x3
  extract_lets +onlyGivenNames x5 x6
  refine ite_ind (P := Onward _ _) ?_ ?_
  · exact h4
  · exact State.setBank_on (hm.of rfl) _ _ _ h4

theorem State.feed_on {m : Nat} (hm : Covers 0x40400 m) {s0 : State} (s : State) (a2) (a3) (h : Onward m s0 s) :
    Onward m s0 (State.feed s a2 a3) := by
  unfold State.feed
  extract_lets +onlyGivenNames x1
  refine State.settleRows_on (hm.of rfl) _ _ _ ?_
  refine State.drainWrites_on (hm.of rfl) _ _ _ ?_
  refine foldl_ind (P := Onward _ _) ?_ _ _ ?_
  · intro x2 x3 h4
    exact State.askChan_on (hm.of rfl) _ _ _ h4
  · exact h

theorem execDramRequest_on {m : Nat} (hm : Covers 0x40002 m) {s0 : State} (a1) (s : State) (h : Onward m s0 s) :
    Onward.O m s0 (execDramRequest a1 s) := by
  unfold execDramRequest
  extract_lets +onlyGivenNames x1
  split
  · refine ite_ind (P := Onward.O _ _) ?_ ?_
    · exact h
    · exact State.returnData_on (hm.of rfl) _ _ h
  · extract_lets +onlyGivenNames x7 x8
    refine ite_ind (P := Onward.O _ _) ?_ ?_
    · refine ite_ind (P := Onward.O _ _) ?_ ?_
      · exact h
      · exact State.drainWrites_on (hm.of rfl) _ _ _ (State.setChan_on (hm.of rfl) _ _ _ _ h)
    · refine ite_ind (P := Onward.O _ _) ?_ ?_
      · exact State.returnData_on (hm.of rfl) _ _ h
      · refine ite_ind (P := Onward.O _ _) ?_ ?_
        · exact h
        · exact State.setChan_on (hm.of rfl) _ _ _ _ h

theorem State.servePart_on {m : Nat} (hm : Covers 0x1c4040a m) {s0 : State} (s : State) (a2) (a3) (a4) (a5) (a6) (a7) (a8) (h : Onward m s0 s) :
    Onward m s0 (State.servePart s a2 a3 a4 a5 a6 a7 a8) := by
  unfold State.servePart
  extract_lets +onlyGivenNames x1 x2 x3 x4 x5 x6 x7 x8 x9 x10
  have h11 : Onward m s0 x10 := by
    unfold x10
    exact State.setChan_on (hm.of rfl) _ _ _ _ h
  clear_value x10
  extract_lets +onlyGivenNames x12
  have h13 : Onward m s0 x12 := by
    unfold x12
    exact State.eccRead_on (hm.of rfl) _ _ _ _ _ h11
  clear_value x12
  refine State.feed_on (hm.of rfl) _ _ _ ?_
  refine ite_ind (P := Onward _ _) ?_ ?_
  · exact State.answered_on (hm.of rfl) _ _ h13
  · exact h13

theorem execDramDataReturn_on {m : Nat} (hm : Covers 0x1c4040a m) {s0 : State} (a1) (a2) (a3) (s : State) (h : Onward m s0 s) :
    Onward.O m s0 (execDramDataReturn a1 a2 a3 s) := by
  unfold execDramDataReturn
  extract_lets +onlyGivenNames x1
  split
  · exact h
  · extract_lets +onlyGivenNames x7
    split
    · exact h
    · split
      · refine ite_ind (P := Onward.O _ _) ?_ ?_
        · exact h
        · exact State.servePart_on (hm.of rfl) _ _ _ _ _ _ _ _ h
      · exact h

theorem execDramRefresh_on {m : Nat} (hm : Covers 0xc0000 m) {s0 : State} (a1) (a2) (s : State) (h : Onward m s0 s) :
    Onward.O m s0 (execDramRefresh a1 a2 s) := by
  unfold execDramRefresh
  extract_lets +onlyGivenNames x1 x2 x3 x4 x5
  refine ite_ind (P := Onward.O _ _) ?_ ?_
  · exact h
  · extract_lets +onlyGivenNames x6 x7
    have h8 : Onward m s0 x7 := by
      unfold x7
      exact State.setStack_on (hm.of rfl) _ _ _ h
    clear_value x7
    extract_lets +onlyGivenNames x9
    exact State.setChan_on (hm.of rfl) _ _ _ _ h8

theorem execDramPatrolScrub_on {m : Nat} (hm : Covers 0x1c4000a m) {s0 : State} (a1) (a2) (a3) (s : State) (h : Onward m s0 s) :
    Onward.O m s0 (execDramPatrolScrub a1 a2 a3 s) := by
  unfold execDramPatrolScrub
  extract_lets +onlyGivenNames x1 x2 x3 x4
  refine ite_ind (P := Onward.O _ _) ?_ ?_
  · exact h
  · extract_lets +onlyGivenNames x5 x6 x7
    have h8 : Onward m s0 x7 := by
      unfold x7
      exact State.setChan_on (hm.of rfl) _ _ _ _ h
    clear_value x7
    refine Onward.next ?_
    refine foldl_ind (P := Onward _ _) ?_ _ _ ?_
    · intro x9 x10 h11
      exact State.eccSector_on (hm.of rfl) _ _ _ _ _ _ _ h11
    · exact h8

theorem State.showWindow_on {m : Nat} (hm : Covers 0x8 m) {s0 : State} (s : State) (a2) (h : Onward m s0 s) :
    Onward m s0 (State.showWindow s a2) := by
  unfold State.showWindow
  extract_lets +onlyGivenNames x1
  clear_value x1
  cases x1 with
  | nil => exact State.wr_on (hm.of rfl) _ _ _ (State.setReg_on (hm.of rfl) _ _ _ h)
  | cons w t => exact State.wr_on (hm.of rfl) _ _ _ (State.setReg_on (hm.of rfl) _ _ _ h)

theorem State.announceWindow_on {m : Nat} (hm : Covers 0x115c000a m) {s0 : State} (s : State) (a2) (a3) (a4) (h : Onward m s0 s) :
    Onward m s0 (State.announceWindow s a2 a3 a4) := by
  unfold State.announceWindow
  extract_lets +onlyGivenNames x1 x2 x3
  have h4 : Onward m s0 x3 := by
    unfold x3
    exact State.setStack_on (hm.of rfl) _ _ _ (State.setChan_on (hm.of rfl) _ _ _ _ h)
  clear_value x3
  exact State.showWindow_on (hm.of rfl) _ _ (State.announce_on (hm.of rfl) _ _ h4)

theorem execRecentreAnnounce_on {m : Nat} (hm : Covers 0x115c000a m) {s0 : State} (a1) (a2) (a3) (s : State) (h : Onward m s0 s) :
    Onward.O m s0 (execRecentreAnnounce a1 a2 a3 s) := by
  unfold execRecentreAnnounce
  extract_lets k c
  generalize s.firstStart k = f
  split
  · exact Onward.next h
  · split
    · exact Onward.next (State.emit_on (hm.of rfl) _ _ h)
    · split
      · exact Onward.next h
      · exact Onward.next (State.announceWindow_on (hm.of rfl) _ _ _ _ h)

theorem State.cadence_on {m : Nat} (hm : Covers 0x115c000a m) {s0 : State} (s : State) (h : Onward m s0 s) :
    Onward m s0 (State.cadence s) := by
  unfold State.cadence
  refine ite_ind (P := Onward _ _) ?_ ?_
  · exact h
  · refine eachUpTo_ind (P := Onward _ _) _ _ ?_ ?_
    · exact h
    · intro x1 x2 h3
      extract_lets +onlyGivenNames x4 x5 x6 x7
      refine ite_ind (P := Onward _ _) ?_ ?_
      · exact h3
      · split
        · exact h3
        · exact State.announceWindow_on (hm.of rfl) _ _ _ _ h3

theorem State.skipWindow_on {m : Nat} (hm : Covers 0x115c000e m) {s0 : State} (s : State) (a2) (a3) (h : Onward m s0 s) :
    Onward m s0 (State.skipWindow s a2 a3) := by
  unfold State.skipWindow
  extract_lets +onlyGivenNames x1 x2 x3 x4
  have h5 : Onward m s0 x4 := by
    unfold x4
    exact State.inc_on (hm.of rfl) _ _ _ (State.setChan_on (hm.of rfl) _ _ _ _ (State.taken_on (hm.of rfl) _ h))
  clear_value x4
  extract_lets +onlyGivenNames x6
  have h7 : Onward m s0 x6 := by
    unfold x6
    exact State.record_on (hm.of rfl) _ _ _ _ _ _ h5
  clear_value x6
  refine ite_ind (P := Onward _ _) ?_ ?_
  · exact State.showWindow_on (hm.of rfl) _ _ h7
  · exact State.announceWindow_on (hm.of rfl) _ _ _ _ h7

theorem State.openWindow_on {m : Nat} (hm : Covers 0x115c000e m) {s0 : State} (s : State) (a2) (a3) (a4) (h : Onward m s0 s) :
    Onward m s0 (State.openWindow s a2 a3 a4) := by
  unfold State.openWindow
  extract_lets +onlyGivenNames x1 x2
  refine ite_ind (P := Onward _ _) ?_ ?_
  · exact State.skipWindow_on (hm.of rfl) _ _ _ h
  · extract_lets +onlyGivenNames x3
    exact State.showWindow_on (hm.of rfl) _ _ (State.wr_on (hm.of rfl) _ _ _ (State.setChan_on (hm.of rfl) _ _ _ _ h))

theorem execRecentreWindow_on {m : Nat} (hm : Covers 0x115c000e m) {s0 : State} (a1) (a2) (s : State) (h : Onward m s0 s) :
    Onward.O m s0 (execRecentreWindow a1 a2 s) := by
  unfold execRecentreWindow
  extract_lets +onlyGivenNames x1
  refine ite_ind (P := Onward.O _ _) ?_ ?_
  · split
    · exact h
    · exact State.skipWindow_on (hm.of rfl) _ _ _ h
  · split
    · exact State.setChan_on (hm.of rfl) _ _ _ _ h
    · exact State.openWindow_on (hm.of rfl) _ _ _ _ h
    · exact h

theorem State.openWindows_on {m : Nat} (hm : Covers 0x115c000e m) {s0 : State} (s : State) (h : Onward m s0 s) :
    Onward m s0 (State.openWindows s) := by
  unfold State.openWindows
  refine eachUpTo_ind (P := Onward _ _) _ _ ?_ ?_
  · exact h
  · intro x1 x2 h3
    split
    · exact State.openWindow_on (hm.of rfl) _ _ _ _ h3
    · exact h3

theorem State.zeroStack_on {m : Nat} (hm : Covers 0x8c0060 m) {s0 : State} (s : State) (a2) (h : Onward m s0 s) :
    Onward m s0 (State.zeroStack s a2) := by
  unfold State.zeroStack
  extract_lets +onlyGivenNames x1 x2 x3
  have h4 : Onward m s0 x3 := by
    unfold x3
    exact Onward.trans h (Onward.frame hm rfl rfl rfl rfl rfl rfl (fun w => ⟨by dsimp only; exact Memory.wf_keep _ _ w.1, w.2, w.3, w.4, w.5, w.6, w.7, w.8, w.9, w.10, w.11, w.12, w.13, w.14, w.15, w.16, Nats.wf_filter _ _ w.17, w.18, Nats.wf_filter _ _ w.19, w.20, w.21, w.22, w.23, w.24⟩)
    (fun p e => by cases p <;> first | exact absurd e (by decide) | rfl))
  clear_value x3
  extract_lets +onlyGivenNames x5 x6
  have h7 : Onward m s0 x6 := by
    unfold x6
    refine ite_ind (P := Onward _ _) ?_ ?_
    · exact State.setStack_on (hm.of rfl) _ _ _ h4
    · exact h4
  clear_value x6
  refine foldl_ind (P := Onward _ _) ?_ _ _ ?_
  · intro x8 x9 h10
    exact State.setChan_on (hm.of rfl) _ _ _ _ h10
  · exact h7

theorem State.closeWindows_on {m : Nat} (hm : Covers 0x8c0068 m) {s0 : State} (s : State) (h : Onward m s0 s) :
    Onward m s0 (State.closeWindows s) := by
  unfold State.closeWindows
  refine foldl_ind (P := Onward _ _) ?_ _ _ ?_
  · intro x1 x2 h3
    extract_lets +onlyGivenNames x4 x5 x6
    refine ite_ind (P := Onward _ _) ?_ ?_
    · extract_lets +onlyGivenNames x7
      have h8 : Onward m s0 x7 := by
        unfold x7
        exact State.inc_on (hm.of rfl) _ _ _ (State.setChan_on (hm.of rfl) _ _ _ _ h3)
      clear_value x7
      extract_lets +onlyGivenNames x9
      have h10 : Onward m s0 x9 := by
        unfold x9
        exact State.wr_on (hm.of rfl) _ _ _ h8
      clear_value x9
      extract_lets +onlyGivenNames x11
      have h12 : Onward m s0 x11 := by
        unfold x11
        refine ite_ind (P := Onward _ _) ?_ ?_
        · exact State.zeroStack_on (hm.of rfl) _ _ h10
        · exact h10
      clear_value x11
      refine ite_ind (P := Onward _ _) ?_ ?_
      · exact State.askRetrain_on (hm.of rfl) _ _ _ _ h12
      · exact h12
    · exact h3
  · exact h

theorem State.newRound_on {m : Nat} (hm : Covers 0x40000 m) {s0 : State} (s : State) (h : Onward m s0 s) :
    Onward m s0 (State.newRound s) := by
  unfold State.newRound
  refine ite_ind (P := Onward _ _) ?_ ?_
  · exact h
  · exact Onward.trans h (Onward.frame hm rfl rfl rfl rfl rfl rfl (fun w => ⟨w.1, w.2, w.3, w.4, w.5, w.6, w.7, w.8, w.9, w.10, Tab.wf_mapv _ _ _ w.11, w.12, w.13, w.14, w.15, w.16, w.17, w.18, w.19, w.20, w.21, w.22, w.23, w.24⟩)
    (fun p e => by cases p <;> first | exact absurd e (by decide) | rfl))

theorem State.requeue_on {m : Nat} (hm : Covers 0x8c0462 m) {s0 : State} (s : State) (a2) (a3) (a4) (h : Onward m s0 s) :
    Onward m s0 (State.requeue s a2 a3 a4) := by
  unfold State.requeue
  extract_lets +onlyGivenNames x1
  have h2 : Onward m s0 x1 := by
    unfold x1
    refine foldl_ind (P := Onward _ _) ?_ _ _ ?_
    · intro x3 x4 h5
      exact State.dramWrite_on (hm.of rfl) _ _ _ _ h5
    · exact h
  clear_value x1
  extract_lets +onlyGivenNames x6
  have h7 : Onward m s0 x6 := by
    unfold x6
    refine foldl_ind (P := Onward _ _) ?_ _ _ ?_
    · intro x8 x9 h10
      split
      · exact State.setChan_on (hm.of rfl) _ _ _ _ h10
      · exact h10
    · exact h2
  clear_value x6
  refine foldl_ind (P := Onward _ _) ?_ _ _ ?_
  · intro x16 x17 h18
    split
    · exact State.setChan_on (hm.of rfl) _ _ _ _ h18
    · exact State.answered_on (hm.of rfl) _ _ h18
  · exact h7

theorem State.retireChan_on {m : Nat} (hm : Covers 0x1cc066a m) {s0 : State} (s : State) (a2) (a3) (a4) (h : Onward m s0 s) :
    Onward m s0 (State.retireChan s a2 a3 a4) := by
  unfold State.retireChan
  refine ite_ind (P := Onward _ _) ?_ ?_
  · exact h
  · extract_lets +onlyGivenNames x1 x2 x3
    have h4 : Onward m s0 x3 := by
      unfold x3
      exact State.inc_on (hm.of rfl) _ _ _ (State.setReg_on (hm.of rfl) _ _ _ h)
    clear_value x3
    extract_lets +onlyGivenNames x5
    have h6 : Onward m s0 x5 := by
      unfold x5
      exact State.irq_on (hm.of rfl) _ _ (State.setChan_on (hm.of rfl) _ _ _ _ h4)
    clear_value x5
    refine ite_ind (P := Onward _ _) ?_ ?_
    · extract_lets +onlyGivenNames x7
      have h8 : Onward m s0 x7 := by
        unfold x7
        exact State.wr_on (hm.of rfl) _ _ _ (State.wr_on (hm.of rfl) _ _ _ h6)
      clear_value x7
      extract_lets +onlyGivenNames x9 x10 x11 x12
      have h13 : Onward m s0 x12 := by
        unfold x12
        exact State.setStack_on (hm.of rfl) _ _ _ h8
      clear_value x12
      extract_lets +onlyGivenNames x14
      have h15 : Onward m s0 x14 := by
        unfold x14
        exact Onward.trans h13 (Onward.frame hm rfl rfl rfl rfl rfl rfl (fun w => ⟨by dsimp only; exact Memory.wf_keep _ _ w.1, w.2, w.3, w.4, Tab.wf_mapv _ _ _ w.5, w.6, w.7, w.8, w.9, w.10, w.11, w.12, w.13, w.14, w.15, w.16, Nats.wf_filter _ _ w.17, w.18, Nats.wf_filter _ _ w.19, w.20, w.21, w.22, w.23, w.24⟩)
    (fun p e => by cases p <;> first | exact absurd e (by decide) | rfl))
      clear_value x14
      exact State.record_on (hm.of rfl) _ _ _ _ _ _ (State.requeue_on (hm.of rfl) _ _ _ _ h15)
    · extract_lets +onlyGivenNames x16 x17
      have h18 : Onward m s0 x17 := by
        unfold x17
        exact State.wr_on (hm.of rfl) _ _ _ (State.setStack_on (hm.of rfl) _ _ _ h6)
      clear_value x17
      exact State.record_on (hm.of rfl) _ _ _ _ _ _ (State.requeue_on (hm.of rfl) _ _ _ _ h18)

theorem State.startRetrain_on {m : Nat} (hm : Covers 0x40008 m) {s0 : State} (s : State) (a2) (a3) (h : Onward m s0 s) :
    Onward m s0 (State.startRetrain s a2 a3) := by
  unfold State.startRetrain
  extract_lets +onlyGivenNames x1
  split
  · exact h
  · refine ite_ind (P := Onward _ _) ?_ ?_
    · exact h
    · extract_lets +onlyGivenNames x7 x8
      have h9 : Onward m s0 x8 := by
        unfold x8
        exact State.setChan_on (hm.of rfl) _ _ _ _ h
      clear_value x8
      exact State.wr_on (hm.of rfl) _ _ _ (State.sat_on (hm.of rfl) _ _ _ h9)

theorem State.startRetrains_on {m : Nat} (hm : Covers 0x40008 m) {s0 : State} (s : State) (h : Onward m s0 s) :
    Onward m s0 (State.startRetrains s) := by
  unfold State.startRetrains
  refine foldl_ind (P := Onward _ _) ?_ _ _ ?_
  · intro x1 x2 h3
    exact State.startRetrain_on (hm.of rfl) _ _ _ h3
  · exact h

theorem execForcedRetrain_on {m : Nat} (hm : Covers 0x40008 m) {s0 : State} (a1) (a2) (a3) (s : State) (h : Onward m s0 s) :
    Onward.O m s0 (execForcedRetrain a1 a2 a3 s) := by
  unfold execForcedRetrain
  extract_lets +onlyGivenNames x1
  refine ite_ind (P := Onward.O _ _) ?_ ?_
  · exact State.startRetrain_on (hm.of rfl) _ _ _ h
  · exact h

theorem execDramCaParity_on {m : Nat} (hm : Covers 0x40000 m) {s0 : State} (a1) (a2) (s : State) (h : Onward m s0 s) :
    Onward.O m s0 (execDramCaParity a1 a2 s) := by
  unfold execDramCaParity
  refine ite_ind (P := Onward.O _ _) ?_ ?_
  · exact h
  · exact State.askRetrain_on (hm.of rfl) _ _ _ _ h

theorem State.spareRecord_on {m : Nat} (hm : Covers 0x140000a m) {s0 : State} (s : State) (a2) (a3) (a4) (a5) (a6) (h : Onward m s0 s) :
    Onward m s0 (State.spareRecord s a2 a3 a4 a5 a6) := by
  unfold State.spareRecord
  exact State.record_on (hm.of rfl) _ _ _ _ _ _ h

theorem State.spareWires_on {m : Nat} (hm : Covers 0x148000a m) {s0 : State} (s : State) (a2) (a3) (a4) (h : Onward m s0 s) :
    Onward m s0 (State.spareWires s a2 a3 a4) := by
  unfold State.spareWires
  extract_lets +onlyGivenNames x1 x2
  have h3 : ∀ u4, Onward m s0 u4 → ∀ u5, ∀ u6, ∀ u7, ∀ u8, Onward m s0 (x2 u4 u5 u6 u7 u8) := by
    intro x9 h10 x11 x12 x13 x14
    unfold x2
    extract_lets +onlyGivenNames x15
    have h16 : Onward m s0 x15 := by
      unfold x15
      exact State.wr_on (hm.of rfl) _ _ _ h10
    clear_value x15
    refine ite_ind (P := Onward _ _) ?_ ?_
    · exact State.spareRecord_on (hm.of rfl) _ _ _ _ _ _ h16
    · exact h16
  clear_value x2
  extract_lets +onlyGivenNames x17
  have h18 : Onward m s0 x17 := by
    unfold x17
    refine h3 _ ?_ _ _ _ _
    exact h
  clear_value x17
  extract_lets +onlyGivenNames x19
  have h20 : Onward m s0 x19 := by
    unfold x19
    refine h3 _ ?_ _ _ _ _
    exact h18
  clear_value x19
  extract_lets +onlyGivenNames x21
  have h22 : Onward m s0 x21 := by
    unfold x21
    refine h3 _ ?_ _ _ _ _
    exact h20
  clear_value x21
  extract_lets +onlyGivenNames x23
  exact State.wr_on (hm.of rfl) _ _ _ (State.setStack_on (hm.of rfl) _ _ _ h22)

theorem State.chanDone_on {m : Nat} (hm : Covers 0x1000008 m) {s0 : State} (s : State) (a2) (a3) (a4) (h : Onward m s0 s) :
    Onward m s0 (State.chanDone s a2 a3 a4) := by
  unfold State.chanDone
  exact State.irq_on (hm.of rfl) _ _ (State.wr_on (hm.of rfl) _ _ _ (State.wr_on (hm.of rfl) _ _ _ h))

theorem execRetrainComplete_on {m : Nat} (hm : Covers 0x1cc066a m) {s0 : State} (a1) (a2) (a3) (s : State) (h : Onward m s0 s) :
    Onward.O m s0 (execRetrainComplete a1 a2 a3 s) := by
  unfold execRetrainComplete
  extract_lets +onlyGivenNames x1 x2 x3
  refine ite_ind (P := Onward.O _ _) ?_ ?_
  · exact h
  · extract_lets +onlyGivenNames x4
    have h5 : Onward m s0 x4 := by
      unfold x4
      exact State.setChan_on (hm.of rfl) _ _ _ _ h
    clear_value x4
    extract_lets +onlyGivenNames x6
    have h7 : Onward m s0 x6 := by
      unfold x6
      exact State.spareWires_on (hm.of rfl) _ _ _ _ (State.spareWires_on (hm.of rfl) _ _ _ _ h5)
    clear_value x6
    extract_lets +onlyGivenNames x8 x9 x10
    have h11 : Onward m s0 x10 := by
      unfold x10
      refine foldl_ind (P := Onward _ _) ?_ _ _ ?_
      · intro x12 x13 h14
        refine foldl_ind (P := Onward _ _) ?_ _ _ ?_
        · intro x15 x16 h17
          exact State.eccSector_on (hm.of rfl) _ _ _ _ _ _ _ h17
        · exact h14
      · exact h7
    clear_value x10
    extract_lets +onlyGivenNames x18
    have h19 : Onward m s0 x18 := by
      unfold x18
      exact State.record_on (hm.of rfl) _ _ _ _ _ _ h11
    clear_value x18
    extract_lets +onlyGivenNames x20
    have h21 : Onward m s0 x20 := by
      unfold x20
      refine ite_ind (P := Onward _ _) ?_ ?_
      · exact State.retireChan_on (hm.of rfl) _ _ _ _ h19
      · exact h19
    clear_value x20
    extract_lets +onlyGivenNames x22
    have h23 : Onward m s0 x22 := by
      unfold x22
      exact State.wr_on (hm.of rfl) _ _ _ h21
    clear_value x22
    refine Onward.next ?_
    refine State.feed_on (hm.of rfl) _ _ _ ?_
    refine ite_ind (P := Onward _ _) ?_ ?_
    · exact State.chanDone_on (hm.of rfl) _ _ _ _ h23
    · exact State.irq_on (hm.of rfl) _ _ h23

theorem State.chanGo_on {m : Nat} (hm : Covers 0x1000008 m) {s0 : State} (s : State) (a2) (a3) (a4) (a5) (h : Onward m s0 s) (ha5 : ∀ y1, Onward m s0 y1 → Onward m s0 (a5 y1)) :
    Onward m s0 (State.chanGo s a2 a3 a4 a5) := by
  unfold State.chanGo
  refine ite_ind (P := Onward _ _) ?_ ?_
  · exact h
  · refine ite_ind (P := Onward _ _) ?_ ?_
    · exact State.wr_on (hm.of rfl) _ _ _ h
    · extract_lets +onlyGivenNames x1
      have h2 : Onward m s0 x1 := by
        unfold x1
        exact State.wr_on (hm.of rfl) _ _ _ (State.wr_on (hm.of rfl) _ _ _ h)
      clear_value x1
      refine ite_ind (P := Onward _ _) ?_ ?_
      · exact State.chanDone_on (hm.of rfl) _ _ _ _ h2
      · refine ite_ind (P := Onward _ _) ?_ ?_
        · exact State.chanDone_on (hm.of rfl) _ _ _ _ h2
        · refine ha5 _ ?_
          exact h2

theorem execChanRetrain_on {m : Nat} (hm : Covers 0x1040008 m) {s0 : State} (a1) (a2) (s : State) (h : Onward m s0 s) :
    Onward.O m s0 (execChanRetrain a1 a2 s) := by
  unfold execChanRetrain
  extract_lets +onlyGivenNames x1 x2
  refine Onward.next ?_
  refine State.chanGo_on (hm.of rfl) _ _ _ _ _ ?_ ?_
  · exact h
  · intro x3 h4
    extract_lets +onlyGivenNames x5
    have h6 : Onward m s0 x5 := by
      unfold x5
      exact State.askRetrain_on (hm.of rfl) _ _ _ _ h4
    clear_value x5
    exact State.wr_on (hm.of rfl) _ _ _ (State.wr_on (hm.of rfl) _ _ _ (State.setChan_on (hm.of rfl) _ _ _ _ h6))

theorem execChanRetire_on {m : Nat} (hm : Covers 0x1cc066a m) {s0 : State} (a1) (a2) (s : State) (h : Onward m s0 s) :
    Onward.O m s0 (execChanRetire a1 a2 s) := by
  unfold execChanRetire
  extract_lets +onlyGivenNames x1 x2
  refine Onward.next ?_
  refine State.chanGo_on (hm.of rfl) _ _ _ _ _ ?_ ?_
  · exact h
  · intro x3 h4
    extract_lets +onlyGivenNames x5
    refine ite_ind (P := Onward _ _) ?_ ?_
    · exact State.wr_on (hm.of rfl) _ _ _ (State.wr_on (hm.of rfl) _ _ _ (State.setChan_on (hm.of rfl) _ _ _ _ h4))
    · exact State.chanDone_on (hm.of rfl) _ _ _ _ (State.retireChan_on (hm.of rfl) _ _ _ _ h4)

theorem State.portState_on {m : Nat} (hm : Covers 0x1000008 m) {s0 : State} (s : State) (a2) (a3) (h : Onward m s0 s) :
    Onward m s0 (State.portState s a2 a3) := by
  unfold State.portState
  refine ite_ind (P := Onward _ _) ?_ ?_
  · exact h
  · exact State.irq_on (hm.of rfl) _ _ (State.wr_on (hm.of rfl) _ _ _ h)

theorem State.portRecord_on {m : Nat} (hm : Covers 0x140000a m) {s0 : State} (s : State) (a2) (h : Onward m s0 s) :
    Onward m s0 (State.portRecord s a2) := by
  unfold State.portRecord
  exact State.record_on (hm.of rfl) _ _ _ _ _ _ h

theorem State.portOut_on {m : Nat} (hm : Covers 0x11000008 m) {s0 : State} (s : State) (a2) (a3) (a4) (h : Onward m s0 s) :
    Onward m s0 (State.portOut s a2 a3 a4) := by
  unfold State.portOut
  extract_lets +onlyGivenNames x1 x2
  have h3 : Onward m s0 x2 := by
    unfold x2
    exact State.wr_on (hm.of rfl) _ _ _ (State.wr_on (hm.of rfl) _ _ _ (State.portState_on (hm.of rfl) _ _ _ h))
  clear_value x2
  extract_lets +onlyGivenNames x4 x5
  refine ite_ind (P := Onward _ _) ?_ ?_
  · exact State.setPort_on (hm.of rfl) _ _ _ h3
  · extract_lets +onlyGivenNames x6 x7
    refine ite_ind (P := Onward _ _) ?_ ?_
    · exact State.setPort_on (hm.of rfl) _ _ _ h3
    · extract_lets +onlyGivenNames x8
      have h9 : Onward m s0 x8 := by
        unfold x8
        exact State.setPort_on (hm.of rfl) _ _ _ h3
      clear_value x8
      exact State.setPort_on (hm.of rfl) _ _ _ h9

theorem State.trainPort_on {m : Nat} (hm : Covers 0x11000008 m) {s0 : State} (s : State) (a2) (h : Onward m s0 s) :
    Onward m s0 (State.trainPort s a2) := by
  unfold State.trainPort
  refine ite_ind (P := Onward _ _) ?_ ?_
  · exact h
  · exact State.portOut_on (hm.of rfl) _ _ _ _ h

theorem State.sourceOut_on {m : Nat} (hm : Covers 0x1140000a m) {s0 : State} (s : State) (a2) (a3) (h : Onward m s0 s) :
    Onward m s0 (State.sourceOut s a2 a3) := by
  unfold State.sourceOut
  refine eachUpTo_ind (P := Onward _ _) _ _ ?_ ?_
  · exact h
  · intro x1 x2 h3
    refine ite_ind (P := Onward _ _) ?_ ?_
    · exact h3
    · extract_lets +onlyGivenNames x4 x5
      have h6 : Onward m s0 x5 := by
        unfold x5
        exact State.portOut_on (hm.of rfl) _ _ _ _ h3
      clear_value x5
      refine ite_ind (P := Onward _ _) ?_ ?_
      · exact State.portRecord_on (hm.of rfl) _ _ h6
      · exact h6

theorem State.laserState_on {m : Nat} (hm : Covers 0x140000a m) {s0 : State} (s : State) (a2) (a3) (h : Onward m s0 s) :
    Onward m s0 (State.laserState s a2 a3) := by
  unfold State.laserState
  extract_lets +onlyGivenNames x1
  refine ite_ind (P := Onward _ _) ?_ ?_
  · exact h
  · exact State.record_on (hm.of rfl) _ _ _ _ _ _ (State.irq_on (hm.of rfl) _ _ (State.wr_on (hm.of rfl) _ _ _ h))

theorem State.optDone_on {m : Nat} (hm : Covers 0x1000008 m) {s0 : State} (s : State) (a2) (h : Onward m s0 s) :
    Onward m s0 (State.optDone s a2) := by
  unfold State.optDone
  refine ite_ind (P := Onward _ _) ?_ ?_
  · exact State.irq_on (hm.of rfl) _ _ (State.wr_on (hm.of rfl) _ _ _ (State.wr_on (hm.of rfl) _ _ _ h))
  · exact h

theorem State.optGo_on {m : Nat} (hm : Covers 0x1000008 m) {s0 : State} (s : State) (a2) (a3) (a4) (a5) (a6) (a7) (h : Onward m s0 s) (ha7 : ∀ y1, Onward m s0 y1 → Onward m s0 (a7 y1)) :
    Onward m s0 (State.optGo s a2 a3 a4 a5 a6 a7) := by
  unfold State.optGo
  refine ite_ind (P := Onward _ _) ?_ ?_
  · exact h
  · refine ite_ind (P := Onward _ _) ?_ ?_
    · exact State.wr_on (hm.of rfl) _ _ _ h
    · extract_lets +onlyGivenNames x1
      have h2 : Onward m s0 x1 := by
        unfold x1
        exact State.wrSome_on (hm.of rfl) _ _ _ (State.wrSome_on (hm.of rfl) _ _ _ (State.wrSome_on (hm.of rfl) _ _ _ (State.wr_on (hm.of rfl) _ _ _ h)))
      clear_value x1
      refine ite_ind (P := Onward _ _) ?_ ?_
      · exact State.irq_on (hm.of rfl) _ _ (State.wr_on (hm.of rfl) _ _ _ (State.wr_on (hm.of rfl) _ _ _ h2))
      · refine ha7 _ ?_
        exact State.wr_on (hm.of rfl) _ _ _ (State.wr_on (hm.of rfl) _ _ _ h2)

theorem State.setSlot_on {m : Nat} (hm : Covers 0x8 m) {s0 : State} (s : State) (a2) (a3) (h : Onward m s0 s) :
    Onward m s0 (State.setSlot s a2 a3) := by
  unfold State.setSlot
  exact State.setReg_on (hm.of rfl) _ _ _ h

theorem State.moveLane_on {m : Nat} (hm : Covers 0x8 m) {s0 : State} (s : State) (a2) (a3) (a4) (h : Onward m s0 s) :
    Onward m s0 (State.moveLane s a2 a3 a4) := by
  unfold State.moveLane
  extract_lets +onlyGivenNames x1
  split
  · exact State.setSlot_on (hm.of rfl) _ _ _ h
  · exact State.sat_on (hm.of rfl) _ _ _ (State.setSlot_on (hm.of rfl) _ _ _ h)

theorem State.placeSlot_on {m : Nat} (hm : Covers 0x8 m) {s0 : State} (s : State) (a2) (a3) (h : Onward m s0 s) :
    Onward m s0 (State.placeSlot s a2 a3) := by
  unfold State.placeSlot
  split
  · split
    · exact State.setSlot_on (hm.of rfl) _ _ _ h
    · split
      · exact State.setSlot_on (hm.of rfl) _ _ _ h
      · exact State.sat_on (hm.of rfl) _ _ _ h
  · exact State.sat_on (hm.of rfl) _ _ _ h

theorem State.movePort_on {m : Nat} (hm : Covers 0x10000008 m) {s0 : State} (s : State) (a2) (h : Onward m s0 s) :
    Onward m s0 (State.movePort s a2) := by
  unfold State.movePort
  extract_lets +onlyGivenNames x1
  refine ite_ind (P := Onward _ _) ?_ ?_
  · exact h
  · extract_lets +onlyGivenNames x2
    have h3 : Onward m s0 x2 := by
      unfold x2
      exact State.setPort_on (hm.of rfl) _ _ _ h
    clear_value x2
    refine ite_ind (P := Onward _ _) ?_ ?_
    · exact h3
    · refine foldl_ind (P := Onward _ _) ?_ _ _ ?_
      · intro x4 x5 h6
        refine foldl_ind (P := Onward _ _) ?_ _ _ ?_
        · intro x7 x8 h9
          exact State.placeSlot_on (hm.of rfl) _ _ _ h9
        · exact State.setSlot_on (hm.of rfl) _ _ _ h6
      · exact h3

theorem State.substitute_on {m : Nat} (hm : Covers 0x10000008 m) {s0 : State} (s : State) (h : Onward m s0 s) :
    Onward m s0 (State.substitute s) := by
  unfold State.substitute
  extract_lets +onlyGivenNames x1 x2
  have h3 : Onward m s0 x2 := by
    unfold x2
    refine ite_ind (P := Onward _ _) ?_ ?_
    · exact h
    · exact State.wr_on (hm.of rfl) _ _ _ h
  clear_value x2
  exact State.setFab_on (hm.of rfl) _ _ h3

theorem State.laneFail_on {m : Nat} (hm : Covers 0x10000000 m) {s0 : State} (s : State) (a2) (a3) (a4) (h : Onward m s0 s) :
    Onward m s0 (State.laneFail s a2 a3 a4) := by
  unfold State.laneFail
  extract_lets +onlyGivenNames x1
  refine ite_ind (P := Onward _ _) ?_ ?_
  · exact h
  · extract_lets +onlyGivenNames x2
    exact State.tellNeighbour_on (hm.of rfl) _ _ _ _ (State.setPort_on (hm.of rfl) _ _ _ h)

theorem State.removeLane_on {m : Nat} (hm : Covers 0x1140000a m) {s0 : State} (s : State) (a2) (a3) (a4) (h : Onward m s0 s) :
    Onward m s0 (State.removeLane s a2 a3 a4) := by
  unfold State.removeLane
  extract_lets +onlyGivenNames x1 x2
  have h3 : Onward m s0 x2 := by
    unfold x2
    exact State.setPort_on (hm.of rfl) _ _ _ h
  clear_value x2
  extract_lets +onlyGivenNames x4
  have h5 : Onward m s0 x4 := by
    unfold x4
    exact State.sat_on (hm.of rfl) _ _ _ (State.wrBit_on (hm.of rfl) _ _ _ _ (State.wrBit_on (hm.of rfl) _ _ _ _ h3))
  clear_value x4
  extract_lets +onlyGivenNames x6
  have h7 : Onward m s0 x6 := by
    unfold x6
    exact State.record_on (hm.of rfl) _ _ _ _ _ _ h5
  clear_value x6
  extract_lets +onlyGivenNames x8
  have h9 : Onward m s0 x8 := by
    unfold x8
    refine ite_ind (P := Onward _ _) ?_ ?_
    · exact State.portRecord_on (hm.of rfl) _ _ (State.portOut_on (hm.of rfl) _ _ _ _ h7)
    · refine foldl_ind (P := Onward _ _) ?_ _ _ ?_
      · intro x10 x11 h12
        exact State.moveLane_on (hm.of rfl) _ _ _ _ h12
      · exact State.portState_on (hm.of rfl) _ _ _ h7
  clear_value x8
  refine ite_ind (P := Onward _ _) ?_ ?_
  · exact State.optDone_on (hm.of rfl) _ _ h9
  · exact h9

theorem State.removalDue_on {m : Nat} (hm : Covers 0x1140000a m) {s0 : State} (s : State) (a2) (a3) (h : Onward m s0 s) :
    Onward m s0 (State.removalDue s a2 a3) := by
  unfold State.removalDue
  split
  · exact h
  · refine ite_ind (P := Onward _ _) ?_ ?_
    · exact h
    · exact State.removeLane_on (hm.of rfl) _ _ _ _ h

theorem State.removalsDue_on {m : Nat} (hm : Covers 0x1140000a m) {s0 : State} (s : State) (h : Onward m s0 s) :
    Onward m s0 (State.removalsDue s) := by
  unfold State.removalsDue
  refine eachUpTo_ind (P := Onward _ _) _ _ ?_ ?_
  · exact h
  · intro x1 x2 h3
    refine foldl_ind (P := Onward _ _) ?_ _ _ ?_
    · intro x4 x5 h6
      exact State.removalDue_on (hm.of rfl) _ _ _ h6
    · exact h3

theorem execLaneRemoval_on {m : Nat} (hm : Covers 0x1140000a m) {s0 : State} (a1) (a2) (s : State) (h : Onward m s0 s) :
    Onward.O m s0 (execLaneRemoval a1 a2 s) := by
  unfold execLaneRemoval
  exact State.removalDue_on (hm.of rfl) _ _ _ h

theorem execLaneJudge_on {m : Nat} (hm : Covers 0x1140000a m) {s0 : State} (a1) (a2) (a3) (a4) (s : State) (h : Onward m s0 s) :
    Onward.O m s0 (execLaneJudge a1 a2 a3 a4 s) := by
  unfold execLaneJudge
  extract_lets +onlyGivenNames x1 x2
  refine ite_ind (P := Onward.O _ _) ?_ ?_
  · exact h
  · extract_lets +onlyGivenNames x3 x4 x5
    have h6 : Onward m s0 x5 := by
      unfold x5
      exact State.wr_on (hm.of rfl) _ _ _ (State.setPort_on (hm.of rfl) _ _ _ h)
    clear_value x5
    refine ite_ind (P := Onward.O _ _) ?_ ?_
    · exact State.laneFail_on (hm.of rfl) _ _ _ _ (State.wrBit_on (hm.of rfl) _ _ _ _ h6)
    · refine ite_ind (P := Onward.O _ _) ?_ ?_
      · exact State.record_on (hm.of rfl) _ _ _ _ _ _ (State.wrBit_on (hm.of rfl) _ _ _ _ h6)
      · exact State.wrBit_on (hm.of rfl) _ _ _ _ h6

theorem execLaneLossOfSignal_on {m : Nat} (hm : Covers 0x10000000 m) {s0 : State} (a1) (a2) (s : State) (h : Onward m s0 s) :
    Onward.O m s0 (execLaneLossOfSignal a1 a2 s) := by
  unfold execLaneLossOfSignal
  exact State.laneFail_on (hm.of rfl) _ _ _ _ h

theorem execLaneNotice_on {m : Nat} (hm : Covers 0x10000004 m) {s0 : State} (a1) (a2) (a3) (a4) (s : State) (h : Onward m s0 s) :
    Onward.O m s0 (execLaneNotice a1 a2 a3 a4 s) := by
  unfold execLaneNotice
  extract_lets +onlyGivenNames x1
  refine ite_ind (P := Onward.O _ _) ?_ ?_
  · exact h
  · refine ite_ind (P := Onward.O _ _) ?_ ?_
    · refine ite_ind (P := Onward.O _ _) ?_ ?_
      · exact h
      · exact State.taken_on (hm.of rfl) _ (State.setPort_on (hm.of rfl) _ _ _ h)
    · refine ite_ind (P := Onward.O _ _) ?_ ?_
      · refine ite_ind (P := Onward.O _ _) ?_ ?_
        · exact h
        · exact State.setPort_on (hm.of rfl) _ _ _ h
      · exact h

theorem execLaneRetrainDone_on {m : Nat} (hm : Covers 0x11000008 m) {s0 : State} (a1) (a2) (a3) (s : State) (h : Onward m s0 s) :
    Onward.O m s0 (execLaneRetrainDone a1 a2 a3 s) := by
  unfold execLaneRetrainDone
  extract_lets +onlyGivenNames x1 x2 x3
  refine ite_ind (P := Onward.O _ _) ?_ ?_
  · exact h
  · extract_lets +onlyGivenNames x4
    have h5 : Onward m s0 x4 := by
      unfold x4
      exact State.setPort_on (hm.of rfl) _ _ _ h
    clear_value x4
    extract_lets +onlyGivenNames x6
    have h7 : Onward m s0 x6 := by
      unfold x6
      exact State.wrBit_on (hm.of rfl) _ _ _ _ h5
    clear_value x6
    extract_lets +onlyGivenNames x8
    have h9 : Onward m s0 x8 := by
      unfold x8
      refine ite_ind (P := Onward _ _) ?_ ?_
      · exact State.portState_on (hm.of rfl) _ _ _ h7
      · exact h5
    clear_value x8
    refine Onward.next ?_
    refine ite_ind (P := Onward _ _) ?_ ?_
    · exact State.optDone_on (hm.of rfl) _ _ h9
    · exact h9

theorem State.acquire_on {m : Nat} (hm : Covers 0x1150000a m) {s0 : State} (s : State) (a2) (a3) (h : Onward m s0 s) :
    Onward m s0 (State.acquire s a2 a3) := by
  unfold State.acquire
  extract_lets +onlyGivenNames x1 x2 x3
  have h4 : Onward m s0 x3 := by
    unfold x3
    exact State.wr_on (hm.of rfl) _ _ _ (State.wr_on (hm.of rfl) _ _ _ (State.wr_on (hm.of rfl) _ _ _ h))
  clear_value x3
  extract_lets +onlyGivenNames x5
  have h6 : Onward m s0 x5 := by
    unfold x5
    refine ite_ind (P := Onward _ _) ?_ ?_
    · exact State.sat_on (hm.of rfl) _ _ _ h4
    · exact h4
  clear_value x5
  refine ite_ind (P := Onward _ _) ?_ ?_
  · exact State.record_on (hm.of rfl) _ _ _ _ _ _ (State.portOut_on (hm.of rfl) _ _ _ _ h6)
  · extract_lets +onlyGivenNames x7 x8 x9 x10
    have h11 : Onward m s0 x10 := by
      unfold x10
      exact State.setPort_on (hm.of rfl) _ _ _ h6
    clear_value x10
    extract_lets +onlyGivenNames x12 x13
    have h14 : Onward m s0 x13 := by
      unfold x13
      exact Onward.trans h11 (Onward.frame hm rfl rfl rfl rfl rfl rfl (fun w => ⟨w.1, w.2, w.3, w.4, w.5, w.6, w.7, w.8, w.9, w.10, w.11, w.12, w.13, w.14, w.15, w.16, w.17, w.18, w.19, w.20, w.21, w.22, w.23, w.24⟩)
    (fun p e => by cases p <;> first | exact absurd e (by decide) | rfl))
    clear_value x13
    extract_lets +onlyGivenNames x15 x16
    have h17 : Onward m s0 x16 := by
      unfold x16
      exact State.wr_on (hm.of rfl) _ _ _ (State.wr_on (hm.of rfl) _ _ _ h14)
    clear_value x16
    extract_lets +onlyGivenNames x18
    have h19 : Onward m s0 x18 := by
      unfold x18
      refine ite_ind (P := Onward _ _) ?_ ?_
      · exact h17
      · exact State.record_on (hm.of rfl) _ _ _ _ _ _ h17
    clear_value x18
    extract_lets +onlyGivenNames x20
    have h21 : Onward m s0 x20 := by
      unfold x20
      exact State.wr_on (hm.of rfl) _ _ _ (State.wr_on (hm.of rfl) _ _ _ h19)
    clear_value x20
    extract_lets +onlyGivenNames x22
    have h23 : Onward m s0 x22 := by
      unfold x22
      exact State.portState_on (hm.of rfl) _ _ _ h21
    clear_value x22
    refine ite_ind (P := Onward _ _) ?_ ?_
    · exact State.portRecord_on (hm.of rfl) _ _ h23
    · exact h23

theorem State.trainingOver_on {m : Nat} (hm : Covers 0x1000008 m) {s0 : State} (s : State) (a2) (h : Onward m s0 s) :
    Onward m s0 (State.trainingOver s a2) := by
  unfold State.trainingOver
  refine ite_ind (P := Onward _ _) ?_ ?_
  · exact h
  · refine ite_ind (P := Onward _ _) ?_ ?_
    · exact State.optDone_on (hm.of rfl) _ _ h
    · refine ite_ind (P := Onward _ _) ?_ ?_
      · exact State.optDone_on (hm.of rfl) _ _ h
      · exact h

theorem execPortTrainingDone_on {m : Nat} (hm : Covers 0x1150000a m) {s0 : State} (a1) (a2) (s : State) (h : Onward m s0 s) :
    Onward.O m s0 (execPortTrainingDone a1 a2 s) := by
  unfold execPortTrainingDone
  extract_lets +onlyGivenNames x1 x2 x3 x4
  refine ite_ind (P := Onward.O _ _) ?_ ?_
  · exact h
  · extract_lets +onlyGivenNames x5
    have h6 : Onward m s0 x5 := by
      unfold x5
      exact State.wrBit_on (hm.of rfl) _ _ _ _ (State.wrBit_on (hm.of rfl) _ _ _ _ h)
    clear_value x5
    extract_lets +onlyGivenNames x7
    have h8 : Onward m s0 x7 := by
      unfold x7
      refine ite_ind (P := Onward _ _) ?_ ?_
      · exact State.acquire_on (hm.of rfl) _ _ _ h6
      · exact State.portRecord_on (hm.of rfl) _ _ (State.wr_on (hm.of rfl) _ _ _ (State.portOut_on (hm.of rfl) _ _ _ _ h6))
    clear_value x7
    exact State.trainingOver_on (hm.of rfl) _ _ h8

theorem execPortBufferStall_on {m : Nat} (hm : Covers 0x1140000a m) {s0 : State} (a1) (s : State) (h : Onward m s0 s) :
    Onward.O m s0 (execPortBufferStall a1 s) := by
  unfold execPortBufferStall
  refine ite_ind (P := Onward.O _ _) ?_ ?_
  · exact h
  · exact State.portRecord_on (hm.of rfl) _ _ (State.portOut_on (hm.of rfl) _ _ _ _ h)

theorem execNeighbourLossOfSignal_on {m : Nat} (hm : Covers 0x1140000a m) {s0 : State} (a1) (s : State) (h : Onward m s0 s) :
    Onward.O m s0 (execNeighbourLossOfSignal a1 s) := by
  unfold execNeighbourLossOfSignal
  refine ite_ind (P := Onward.O _ _) ?_ ?_
  · exact h
  · exact State.portRecord_on (hm.of rfl) _ _ (State.portOut_on (hm.of rfl) _ _ _ _ h)

theorem execNeighbourReacquire_on {m : Nat} (hm : Covers 0x1150000a m) {s0 : State} (a1) (a2) (s : State) (h : Onward m s0 s) :
    Onward.O m s0 (execNeighbourReacquire a1 a2 s) := by
  unfold execNeighbourReacquire
  extract_lets +onlyGivenNames x1
  refine ite_ind (P := Onward.O _ _) ?_ ?_
  · exact h
  · exact State.acquire_on (hm.of rfl) _ _ _ h

theorem execPortBroken_on {m : Nat} (hm : Covers 0x1140000e m) {s0 : State} (a1) (s : State) (h : Onward m s0 s) :
    Onward.O m s0 (execPortBroken a1 s) := by
  unfold execPortBroken
  extract_lets +onlyGivenNames x1
  refine ite_ind (P := Onward.O _ _) ?_ ?_
  · exact h
  · extract_lets +onlyGivenNames x2 x3 x4
    have h5 : Onward m s0 x4 := by
      unfold x4
      exact State.portRecord_on (hm.of rfl) _ _ (State.wr_on (hm.of rfl) _ _ _ (State.portOut_on (hm.of rfl) _ _ _ _ (State.taken_on (hm.of rfl) _ h)))
    clear_value x4
    extract_lets +onlyGivenNames x6
    refine Onward.next ?_
    refine eachUpTo_ind (P := Onward _ _) _ _ ?_ ?_
    · exact h5
    · intro x7 x8 h9
      refine ite_ind (P := Onward _ _) ?_ ?_
      · exact State.tellNeighbour_on (hm.of rfl) _ _ _ _ h9
      · exact h9

theorem execLaserPoll_on {m : Nat} (hm : Covers 0x1140000a m) {s0 : State} (a1) (a2) (s : State) (h : Onward m s0 s) :
    Onward.O m s0 (execLaserPoll a1 a2 s) := by
  unfold execLaserPoll
  extract_lets +onlyGivenNames x1 x2
  refine ite_ind (P := Onward.O _ _) ?_ ?_
  · exact h
  · extract_lets +onlyGivenNames x3 x4 x5 x6 x7
    have h8 : Onward m s0 x7 := by
      unfold x7
      exact State.wr_on (hm.of rfl) _ _ _ (State.wr_on (hm.of rfl) _ _ _ (State.wr_on (hm.of rfl) _ _ _ (State.wr_on (hm.of rfl) _ _ _ h)))
    clear_value x7
    extract_lets +onlyGivenNames x9 x10 x11
    have h12 : Onward m s0 x11 := by
      unfold x11
      exact State.laserState_on (hm.of rfl) _ _ _ h8
    clear_value x11
    refine ite_ind (P := Onward.O _ _) ?_ ?_
    · exact State.sourceOut_on (hm.of rfl) _ _ _ h12
    · refine Onward.next ?_
      refine foldl_ind (P := Onward _ _) ?_ _ _ ?_
      · intro x13 x14 h15
        refine eachUpTo_ind (P := Onward _ _) _ _ ?_ ?_
        · exact h15
        · intro x16 x17 h18
          exact State.laneFail_on (hm.of rfl) _ _ _ _ h18
      · exact h12

theorem execLaserPresenceChange_on {m : Nat} (hm : Covers 0x1140000a m) {s0 : State} (a1) (a2) (s : State) (h : Onward m s0 s) :
    Onward.O m s0 (execLaserPresenceChange a1 a2 s) := by
  unfold execLaserPresenceChange
  extract_lets +onlyGivenNames x1
  refine ite_ind (P := Onward.O _ _) ?_ ?_
  · refine Onward.next ?_
    refine ite_ind (P := Onward _ _) ?_ ?_
    · exact State.laserState_on (hm.of rfl) _ _ _ h
    · exact h
  · extract_lets +onlyGivenNames x2
    have h3 : Onward m s0 x2 := by
      unfold x2
      exact State.wr_on (hm.of rfl) _ _ _ (State.wr_on (hm.of rfl) _ _ _ (State.laserState_on (hm.of rfl) _ _ _ h))
    clear_value x2
    exact State.sourceOut_on (hm.of rfl) _ _ _ h3

theorem execOptRemoveLane_on {m : Nat} (hm : Covers 0x11000008 m) {s0 : State} (a1) (a2) (s : State) (h : Onward m s0 s) :
    Onward.O m s0 (execOptRemoveLane a1 a2 s) := by
  unfold execOptRemoveLane
  extract_lets +onlyGivenNames x1 x2
  refine Onward.next ?_
  refine State.optGo_on (hm.of rfl) _ _ _ _ _ _ _ ?_ ?_
  · exact h
  · intro x3 h4
    exact State.laneFail_on (hm.of rfl) _ _ _ _ h4

theorem execOptRetrainLane_on {m : Nat} (hm : Covers 0x11000008 m) {s0 : State} (a1) (a2) (s : State) (h : Onward m s0 s) :
    Onward.O m s0 (execOptRetrainLane a1 a2 s) := by
  unfold execOptRetrainLane
  extract_lets +onlyGivenNames x1
  refine Onward.next ?_
  refine State.optGo_on (hm.of rfl) _ _ _ _ _ _ _ ?_ ?_
  · exact h
  · intro x2 h3
    refine ite_ind (P := Onward _ _) ?_ ?_
    · exact State.optDone_on (hm.of rfl) _ _ h3
    · extract_lets +onlyGivenNames x4
      exact State.tellNeighbour_on (hm.of rfl) _ _ _ _ (State.setPort_on (hm.of rfl) _ _ _ h3)

theorem execOptPortDisable_on {m : Nat} (hm : Covers 0x11000008 m) {s0 : State} (a1) (s : State) (h : Onward m s0 s) :
    Onward.O m s0 (execOptPortDisable a1 s) := by
  unfold execOptPortDisable
  refine Onward.next ?_
  refine State.optGo_on (hm.of rfl) _ _ _ _ _ _ _ ?_ ?_
  · exact h
  · intro x1 h2
    exact State.tellNeighbour_on (hm.of rfl) _ _ _ _ (State.setPort_on (hm.of rfl) _ _ _ h2)

theorem execOptPortEnable_on {m : Nat} (hm : Covers 0x11000008 m) {s0 : State} (a1) (s : State) (h : Onward m s0 s) :
    Onward.O m s0 (execOptPortEnable a1 s) := by
  unfold execOptPortEnable
  extract_lets +onlyGivenNames x1 x2
  refine Onward.next ?_
  refine State.optGo_on (hm.of rfl) _ _ _ _ _ _ _ ?_ ?_
  · exact h
  · intro x3 h4
    exact State.trainPort_on (hm.of rfl) _ _ (State.setPort_on (hm.of rfl) _ _ _ h4)

theorem execOptLaserDisable_on {m : Nat} (hm : Covers 0x11000008 m) {s0 : State} (a1) (s : State) (h : Onward m s0 s) :
    Onward.O m s0 (execOptLaserDisable a1 s) := by
  unfold execOptLaserDisable
  refine Onward.next ?_
  refine State.optGo_on (hm.of rfl) _ _ _ _ _ _ _ ?_ ?_
  · exact h
  · intro x1 h2
    exact State.setFab_on (hm.of rfl) _ _ h2

theorem execOptLaserEnable_on {m : Nat} (hm : Covers 0x1140000a m) {s0 : State} (a1) (s : State) (h : Onward m s0 s) :
    Onward.O m s0 (execOptLaserEnable a1 s) := by
  unfold execOptLaserEnable
  extract_lets +onlyGivenNames x1
  refine Onward.next ?_
  refine State.optGo_on (hm.of rfl) _ _ _ _ _ _ _ ?_ ?_
  · exact h
  · intro x2 h3
    extract_lets +onlyGivenNames x4 x5
    have h6 : Onward m s0 x5 := by
      unfold x5
      exact State.setFab_on (hm.of rfl) _ _ h3
    clear_value x5
    extract_lets +onlyGivenNames x7
    have h8 : Onward m s0 x7 := by
      unfold x7
      refine eachUpTo_ind (P := Onward _ _) _ _ ?_ ?_
      · exact State.laserState_on (hm.of rfl) _ _ _ h6
      · intro x9 x10 h11
        exact State.trainPort_on (hm.of rfl) _ _ h11
    clear_value x7
    exact State.trainingOver_on (hm.of rfl) _ _ h8

theorem State.disables_on {m : Nat} (hm : Covers 0x1140000a m) {s0 : State} (s : State) (h : Onward m s0 s) :
    Onward m s0 (State.disables s) := by
  unfold State.disables
  extract_lets +onlyGivenNames x1
  have h2 : Onward m s0 x1 := by
    unfold x1
    refine eachUpTo_ind (P := Onward _ _) _ _ ?_ ?_
    · exact h
    · intro x3 x4 h5
      split
      · exact h5
      · refine ite_ind (P := Onward _ _) ?_ ?_
        · exact State.setPort_on (hm.of rfl) _ _ _ h5
        · extract_lets +onlyGivenNames x11 x12
          have h13 : Onward m s0 x12 := by
            unfold x12
            exact State.portOut_on (hm.of rfl) _ _ _ _ (State.setPort_on (hm.of rfl) _ _ _ h5)
          clear_value x12
          extract_lets +onlyGivenNames x14
          have h15 : Onward m s0 x14 := by
            unfold x14
            exact State.portRecord_on (hm.of rfl) _ _ h13
          clear_value x14
          refine ite_ind (P := Onward _ _) ?_ ?_
          · exact State.optDone_on (hm.of rfl) _ _ h15
          · exact h15
  clear_value x1
  refine eachUpTo_ind (P := Onward _ _) _ _ ?_ ?_
  · exact h2
  · intro x16 x17 h18
    extract_lets +onlyGivenNames x19
    refine ite_ind (P := Onward _ _) ?_ ?_
    · exact h18
    · extract_lets +onlyGivenNames x20 x21
      have h22 : Onward m s0 x21 := by
        unfold x21
        exact State.setFab_on (hm.of rfl) _ _ h18
      clear_value x21
      refine ite_ind (P := Onward _ _) ?_ ?_
      · exact h22
      · extract_lets +onlyGivenNames x23
        have h24 : Onward m s0 x23 := by
          unfold x23
          refine ite_ind (P := Onward _ _) ?_ ?_
          · exact h22
          · exact State.sourceOut_on (hm.of rfl) _ _ _ (State.laserState_on (hm.of rfl) _ _ _ h22)
        clear_value x23
        refine ite_ind (P := Onward _ _) ?_ ?_
        · exact State.optDone_on (hm.of rfl) _ _ h24
        · exact h24

theorem State.stilesArrive_on {m : Nat} (hm : Covers 0x8 m) {s0 : State} (s : State) (h : Onward m s0 s) :
    Onward m s0 (State.stilesArrive s) := by
  unfold State.stilesArrive
  extract_lets +onlyGivenNames x1
  refine foldl_ind (P := Onward _ _) ?_ _ _ ?_
  · intro x2 x3 h4
    exact State.wrBit_on (hm.of rfl) _ _ _ _ h4
  · exact State.wr_on (hm.of rfl) _ _ _ h

theorem State.forceThrough_on {m : Nat} (hm : Covers 0x1140000a m) {s0 : State} (s : State) (a2) (h : Onward m s0 s) :
    Onward m s0 (State.forceThrough s a2) := by
  unfold State.forceThrough
  refine eachUpTo_ind (P := Onward _ _) _ _ ?_ ?_
  · exact h
  · intro x1 x2 h3
    extract_lets +onlyGivenNames x4
    refine ite_ind (P := Onward _ _) ?_ ?_
    · exact h3
    · extract_lets +onlyGivenNames x5
      have h6 : Onward m s0 x5 := by
        unfold x5
        refine ite_ind (P := Onward _ _) ?_ ?_
        · exact h3
        · exact State.wrBit_on (hm.of rfl) _ _ _ _ h3
      clear_value x5
      refine eachUpTo_ind (P := Onward _ _) _ _ ?_ ?_
      · exact h6
      · intro x7 x8 h9
        extract_lets +onlyGivenNames x10
        refine ite_ind (P := Onward _ _) ?_ ?_
        · extract_lets +onlyGivenNames x11 x12
          have h13 : Onward m s0 x12 := by
            unfold x12
            exact State.portOut_on (hm.of rfl) _ _ _ _ h9
          clear_value x12
          refine ite_ind (P := Onward _ _) ?_ ?_
          · exact State.portRecord_on (hm.of rfl) _ _ h13
          · exact h13
        · exact State.trainPort_on (hm.of rfl) _ _ (State.setPort_on (hm.of rfl) _ _ _ h9)

theorem State.tellRelease_on {m : Nat} (hm : Covers 0x10000000 m) {s0 : State} (s : State) (a2) (a3) (h : Onward m s0 s) :
    Onward m s0 (State.tellRelease s a2 a3) := by
  unfold State.tellRelease
  refine eachUpTo_ind (P := Onward _ _) _ _ ?_ ?_
  · exact h
  · intro x1 x2 h3
    refine ite_ind (P := Onward _ _) ?_ ?_
    · exact State.tellNeighbour_on (hm.of rfl) _ _ _ _ h3
    · exact h3

theorem execFaultNotice_on {m : Nat} (hm : Covers 0x1140000a m) {s0 : State} (a1) (a2) (a3) (a4) (a5) (s : State) (h : Onward m s0 s) :
    Onward.O m s0 (execFaultNotice a1 a2 a3 a4 a5 s) := by
  unfold execFaultNotice
  extract_lets +onlyGivenNames x1
  refine ite_ind (P := Onward.O _ _) ?_ ?_
  · exact h
  · split
    · exact h
    · rename_i v5 e6
      have h7 : Onward m s0 v5 := Onward.eqM e6 (State.hear_on (hm.of rfl) _ _ _ h)
      exact State.record_on (hm.of rfl) _ _ _ _ _ _ h7

theorem execReleaseNotice_on {m : Nat} (hm : Covers 0x10000000 m) {s0 : State} (a1) (a2) (a3) (s : State) (h : Onward m s0 s) :
    Onward.O m s0 (execReleaseNotice a1 a2 a3 s) := by
  unfold execReleaseNotice
  refine ite_ind (P := Onward.O _ _) ?_ ?_
  · exact h
  · exact State.setPort_on (hm.of rfl) _ _ _ h

theorem State.setBellLogic_on {m : Nat} (hm : Covers 0x100000 m) {s0 : State} (s : State) (a2) (h : Onward m s0 s) :
    Onward m s0 (State.setBellLogic s a2) := by
  unfold State.setBellLogic
  exact Onward.trans h (Onward.frame hm rfl rfl rfl rfl rfl rfl (fun w => ⟨w.1, w.2, w.3, w.4, w.5, w.6, w.7, w.8, w.9, w.10, w.11, w.12, w.13, w.14, w.15, w.16, w.17, w.18, w.19, w.20, w.21, w.22, w.23, w.24⟩)
    (fun p e => by cases p <;> first | exact absurd e (by decide) | rfl))

theorem State.setLock_on {m : Nat} (hm : Covers 0x20150000a m) {s0 : State} (s : State) (a2) (h : Onward m s0 s) :
    Onward m s0 (State.setLock s a2) := by
  unfold State.setLock
  extract_lets +onlyGivenNames x1
  refine ite_ind (P := Onward _ _) ?_ ?_
  · exact h
  · extract_lets +onlyGivenNames x2
    have h3 : Onward m s0 x2 := by
      unfold x2
      exact State.irq_on (hm.of rfl) _ _ (State.wr_on (hm.of rfl) _ _ _ h)
    clear_value x2
    extract_lets +onlyGivenNames x4
    have h5 : Onward m s0 x4 := by
      unfold x4
      exact State.record_on (hm.of rfl) _ _ _ _ _ _ h3
    clear_value x4
    extract_lets +onlyGivenNames x6 x7 x8 x9
    have h10 : Onward m s0 x9 := by
      unfold x9
      exact State.setBellLogic_on (hm.of rfl) _ _ h5
    clear_value x9
    extract_lets +onlyGivenNames x11
    have h12 : Onward m s0 x11 := by
      unfold x11
      refine ite_ind (P := Onward _ _) ?_ ?_
      · exact State.wr_on (hm.of rfl) _ _ _ h10
      · refine ite_ind (P := Onward _ _) ?_ ?_
        · exact State.sat_on (hm.of rfl) _ _ _ h10
        · refine ite_ind (P := Onward _ _) ?_ ?_
          · exact State.wr_on (hm.of rfl) _ _ _ h10
          · exact State.wr_on (hm.of rfl) _ _ _ h10
    clear_value x11
    exact State.bellFrames_on (hm.of rfl) _ h12

theorem State.becomeBellwether_on {m : Nat} (hm : Covers 0x20150000a m) {s0 : State} (s : State) (h : Onward m s0 s) :
    Onward m s0 (State.becomeBellwether s) := by
  unfold State.becomeBellwether
  exact State.wr_on (hm.of rfl) _ _ _ (State.wr_on (hm.of rfl) _ _ _ (State.setLock_on (hm.of rfl) _ _ h))

theorem State.applyStaged_on {m : Nat} (hm : Covers 0x8 m) {s0 : State} (s : State) (a2) (h : Onward m s0 s) :
    Onward m s0 (State.applyStaged s a2) := by
  unfold State.applyStaged
  refine foldl_ind (P := Onward _ _) ?_ _ _ ?_
  · intro x1 x2 h3
    exact State.setReg_on (hm.of rfl) _ _ _ h3
  · exact h

theorem State.unstage_on {m : Nat} (hm : Covers 0x10 m) {s0 : State} (s : State) (a2) (h : Onward m s0 s) :
    Onward m s0 (State.unstage s a2) := by
  unfold State.unstage
  refine foldl_ind (P := Onward _ _) ?_ _ _ ?_
  · intro x1 x2 h3
    exact State.setStg_on (hm.of rfl) _ _ _ h3
  · exact h

theorem State.dropContext_on {m : Nat} (hm : Covers 0x20000 m) {s0 : State} (s : State) (a2) (h : Onward m s0 s) :
    Onward m s0 (State.dropContext s a2) := by
  unfold State.dropContext
  extract_lets +onlyGivenNames x1
  exact State.setXl_on (hm.of rfl) _ _ h

theorem State.flipL2_on {m : Nat} (hm : Covers 0x20000 m) {s0 : State} (s : State) (a2) (h : Onward m s0 s) :
    Onward m s0 (State.flipL2 s a2) := by
  unfold State.flipL2
  extract_lets +onlyGivenNames x1
  have h2 : Onward m s0 x1 := by
    unfold x1
    exact State.setShadow_on (hm.of rfl) _ _ _ (State.setL2_on (hm.of rfl) _ _ _ h)
  clear_value x1
  refine eachUpTo_ind (P := Onward _ _) _ _ ?_ ?_
  · exact h2
  · intro x3 x4 h5
    exact State.setL1_on (hm.of rfl) _ _ _ h5

theorem State.groupsCommitted_on {m : Nat} (hm : Covers 0x11000008 m) {s0 : State} (s : State) (a2 : State) (h : Onward m s0 s) :
    Onward m s0 (State.groupsCommitted s a2) := by
  unfold State.groupsCommitted
  refine eachUpTo_ind (P := Onward _ _) _ _ ?_ ?_
  · exact h
  · intro x1 x2 h3
    extract_lets +onlyGivenNames x4 x5 x6
    have h7 : Onward m s0 x6 := by
      unfold x6
      refine ite_ind (P := Onward _ _) ?_ ?_
      · exact State.wr_on (hm.of rfl) _ _ _ h3
      · exact h3
    clear_value x6
    refine ite_ind (P := Onward _ _) ?_ ?_
    · exact h7
    · extract_lets +onlyGivenNames x8
      refine State.setGroup_on (hm.of rfl) _ _ _ ?_
      unfold x8
      refine ite_ind (P := Onward _ _) ?_ ?_
      · exact State.irq_on (hm.of rfl) _ _ (State.wr_on (hm.of rfl) _ _ _ (State.wr_on (hm.of rfl) _ _ _ h7))
      · exact h7

theorem State.committed_on {m : Nat} (hm : Covers 0x21152098a m) {s0 : State} (s : State) (a2 : State) (a3) (a4) (h : Onward m s0 s) :
    Onward m s0 (State.committed s a2 a3 a4) := by
  unfold State.committed
  split
  · refine ite_ind (P := Onward _ _) ?_ ?_
    · exact State.clearLog_on (hm.of rfl) _ h
    · exact h
  · extract_lets +onlyGivenNames x3 x4
    refine ite_ind (P := Onward _ _) ?_ ?_
    · exact State.becomeBellwether_on (hm.of rfl) _ h
    · refine ite_ind (P := Onward _ _) ?_ ?_
      · exact State.setLock_on (hm.of rfl) _ _ h
      · exact h
  · exact State.forceThrough_on (hm.of rfl) _ _ h
  · exact State.irq_on (hm.of rfl) _ _ (State.wr_on (hm.of rfl) _ _ _ (State.wr_on (hm.of rfl) _ _ _ (State.setFab_on (hm.of rfl) _ _ h)))
  · exact State.groupsCommitted_on (hm.of rfl) _ _ h
  · exact State.wayCfgApplied_on (hm.of rfl) _ _ _ _ h
  · exact State.flipL2_on (hm.of rfl) _ _ h
  · exact State.dropContext_on (hm.of rfl) _ _ h
  · exact h

theorem State.applyGate_on {m : Nat} (hm : Covers 0x21152098a m) {s0 : State} (s : State) (a2) (a3) (a4) (h : Onward m s0 s) :
    Onward m s0 (State.applyGate s a2 a3 a4) := by
  unfold State.applyGate
  refine State.inc_on (hm.of rfl) _ _ _ ?_
  refine State.wr_on (hm.of rfl) _ _ _ ?_
  exact State.committed_on (hm.of rfl) _ _ _ _ (State.applyStaged_on (hm.of rfl) _ _ h)

theorem State.refuseGate_on {m : Nat} (hm : Covers 0x1000008 m) {s0 : State} (s : State) (a2) (a3) (a4) (h : Onward m s0 s) :
    Onward m s0 (State.refuseGate s a2 a3 a4) := by
  unfold State.refuseGate
  extract_lets +onlyGivenNames x1
  have h2 : Onward m s0 x1 := by
    unfold x1
    exact State.wr_on (hm.of rfl) _ _ _ h
  clear_value x1
  refine ite_ind (P := Onward _ _) ?_ ?_
  · exact h2
  · extract_lets +onlyGivenNames x3
    have h4 : Onward m s0 x3 := by
      unfold x3
      exact State.wr_on (hm.of rfl) _ _ _ h2
    clear_value x3
    refine ite_ind (P := Onward _ _) ?_ ?_
    · exact State.irq_on (hm.of rfl) _ _ h4
    · exact h4

theorem State.commitGate_on {m : Nat} (hm : Covers 0x21152098a m) {s0 : State} (s : State) (a2) (a3) (a4) (h : Onward m s0 s) :
    Onward m s0 (State.commitGate s a2 a3 a4) := by
  unfold State.commitGate
  extract_lets +onlyGivenNames x1 x2 x3 x4
  refine ite_ind (P := Onward _ _) ?_ ?_
  · exact State.refuseGate_on (hm.of rfl) _ _ _ _ h
  · refine ite_ind (P := Onward _ _) ?_ ?_
    · exact State.refuseGate_on (hm.of rfl) _ _ _ _ h
    · refine ite_ind (P := Onward _ _) ?_ ?_
      · exact State.refuseGate_on (hm.of rfl) _ _ _ _ h
      · refine ite_ind (P := Onward _ _) ?_ ?_
        · exact State.refuseGate_on (hm.of rfl) _ _ _ _ h
        · refine ite_ind (P := Onward _ _) ?_ ?_
          · exact State.refuseGate_on (hm.of rfl) _ _ _ _ h
          · refine ite_ind (P := Onward _ _) ?_ ?_
            · exact State.refuseGate_on (hm.of rfl) _ _ _ _ h
            · refine ite_ind (P := Onward _ _) ?_ ?_
              · extract_lets +onlyGivenNames x5
                have h6 : Onward m s0 x5 := by
                  unfold x5
                  exact State.wr_on (hm.of rfl) _ _ _ h
                clear_value x5
                refine ite_ind (P := Onward _ _) ?_ ?_
                · refine foldl_ind (P := Onward _ _) ?_ _ _ ?_
                  · intro x7 x8 h9
                    refine ite_ind (P := Onward _ _) ?_ ?_
                    · exact h9
                    · exact State.tellRelease_on (hm.of rfl) _ _ _ h9
                  · exact h6
                · exact h6
              · exact State.applyGate_on (hm.of rfl) _ _ _ _ h

theorem State.cancelGate_on {m : Nat} (hm : Covers 0x8 m) {s0 : State} (s : State) (a2) (a3) (h : Onward m s0 s) :
    Onward m s0 (State.cancelGate s a2 a3) := by
  unfold State.cancelGate
  exact State.wr_on (hm.of rfl) _ _ _ (State.wr_on (hm.of rfl) _ _ _ h)

theorem State.abortGate_on {m : Nat} (hm : Covers 0x1000018 m) {s0 : State} (s : State) (a2) (a3) (h : Onward m s0 s) :
    Onward m s0 (State.abortGate s a2 a3) := by
  unfold State.abortGate
  extract_lets +onlyGivenNames x1 x2
  have h3 : Onward m s0 x2 := by
    unfold x2
    exact State.unstage_on (hm.of rfl) _ _ h
  clear_value x2
  refine ite_ind (P := Onward _ _) ?_ ?_
  · extract_lets +onlyGivenNames x4
    have h5 : Onward m s0 x4 := by
      unfold x4
      exact State.cancelGate_on (hm.of rfl) _ _ _ h3
    clear_value x4
    refine ite_ind (P := Onward _ _) ?_ ?_
    · exact State.irq_on (hm.of rfl) _ _ h5
    · exact h5
  · exact h3

theorem State.cancelGates_on {m : Nat} (hm : Covers 0x1000008 m) {s0 : State} (s : State) (h : Onward m s0 s) :
    Onward m s0 (State.cancelGates s) := by
  unfold State.cancelGates
  refine foldl_ind (P := Onward _ _) ?_ _ _ ?_
  · intro x1 x2 h3
    extract_lets +onlyGivenNames x4
    refine ite_ind (P := Onward _ _) ?_ ?_
    · extract_lets +onlyGivenNames x5
      have h6 : Onward m s0 x5 := by
        unfold x5
        exact State.cancelGate_on (hm.of rfl) _ _ _ h3
      clear_value x5
      refine ite_ind (P := Onward _ _) ?_ ?_
      · exact State.irq_on (hm.of rfl) _ _ h6
      · exact h6
    · exact h3
  · exact h

theorem State.writeGateCtl_on {m : Nat} (hm : Covers 0x8 m) {s0 : State} (s : State) (a2) (a3) (h : Onward m s0 s) :
    Onward m s0 (State.writeGateCtl s a2 a3) := by
  unfold State.writeGateCtl
  extract_lets +onlyGivenNames x1
  have h2 : Onward m s0 x1 := by
    unfold x1
    exact State.wr_on (hm.of rfl) _ _ _ (State.wr_on (hm.of rfl) _ _ _ h)
  clear_value x1
  refine ite_ind (P := Onward _ _) ?_ ?_
  · exact State.wr_on (hm.of rfl) _ _ _ h2
  · exact h2

theorem State.gateCtl_on {m : Nat} (hm : Covers 0x10021152099a m) {s0 : State} (s : State) (a2) (a3) (a4) (a5) (a6) (a7) (h : Onward m s0 s) :
    Onward m s0 (State.gateCtl s a2 a3 a4 a5 a6 a7) := by
  unfold State.gateCtl
  extract_lets +onlyGivenNames x1
  refine ite_ind (P := Onward _ _) ?_ ?_
  · exact h
  · extract_lets +onlyGivenNames x2
    have h3 : Onward m s0 x2 := by
      unfold x2
      exact State.writeGateCtl_on (hm.of rfl) _ _ _ h
    clear_value x2
    extract_lets +onlyGivenNames x4 x5
    have h6 : Onward m s0 x5 := by
      unfold x5
      refine ite_ind (P := Onward _ _) ?_ ?_
      · exact Onward.trans h3 (Onward.frame hm rfl rfl rfl rfl rfl rfl (fun w => ⟨w.1, w.2, w.3, w.4, w.5, w.6, w.7, w.8, w.9, w.10, w.11, w.12, w.13, w.14, w.15, w.16, w.17, w.18, w.19, w.20, w.21, w.22, w.23, w.24⟩)
    (fun p e => by cases p <;> first | exact absurd e (by decide) | rfl))
      · exact h3
    clear_value x5
    refine ite_ind (P := Onward _ _) ?_ ?_
    · exact State.abortGate_on (hm.of rfl) _ _ _ h6
    · refine ite_ind (P := Onward _ _) ?_ ?_
      · exact State.commitGate_on (hm.of rfl) _ _ _ _ h6
      · exact h6

theorem execCommit_on {m : Nat} (hm : Covers 0x10021152099a m) {s0 : State} (a1) (a2) (a3) (s : State) (h : Onward m s0 s) :
    Onward.O m s0 (execCommit a1 a2 a3 s) := by
  unfold execCommit
  split
  · exact h
  · exact State.gateCtl_on (hm.of rfl) _ _ _ _ _ _ _ h

theorem execAbort_on {m : Nat} (hm : Covers 0x10021152099a m) {s0 : State} (a1) (a2) (a3) (s : State) (h : Onward m s0 s) :
    Onward.O m s0 (execAbort a1 a2 a3 s) := by
  unfold execAbort
  split
  · exact h
  · exact State.gateCtl_on (hm.of rfl) _ _ _ _ _ _ _ h

theorem State.commitDue_on {m : Nat} (hm : Covers 0x21152098a m) {s0 : State} (s : State) (a2) (a3) (h : Onward m s0 s) :
    Onward m s0 (State.commitDue s a2 a3) := by
  unfold State.commitDue
  extract_lets +onlyGivenNames x1
  refine ite_ind (P := Onward _ _) ?_ ?_
  · exact h
  · exact State.applyGate_on (hm.of rfl) _ _ _ _ h

theorem State.commitsDue_on {m : Nat} (hm : Covers 0x21152098a m) {s0 : State} (s : State) (h : Onward m s0 s) :
    Onward m s0 (State.commitsDue s) := by
  unfold State.commitsDue
  refine foldl_ind (P := Onward _ _) ?_ _ _ ?_
  · intro x1 x2 h3
    exact State.commitDue_on (hm.of rfl) _ _ _ h3
  · exact h

theorem execGateApplyAtBell_on {m : Nat} (hm : Covers 0x21152098a m) {s0 : State} (a1) (s : State) (h : Onward m s0 s) :
    Onward.O m s0 (execGateApplyAtBell a1 s) := by
  unfold execGateApplyAtBell
  split
  · exact h
  · exact State.commitDue_on (hm.of rfl) _ _ _ h

end Sys2Proof.Machine
end

