-- ==== Sys2Proof/Laws/OnXfer.lean ====
section
/-! SUPPORT. Laws/OnXfer.lean: what transfers and remote operations keep. -/
set_option maxRecDepth 4000
namespace Sys2Proof.Machine

theorem State.releaseSel_on {m : Nat} (hm : Covers 0x4000 m) {s0 : State} (s : State) (a2) (h : Onward m s0 s) :
    Onward m s0 (State.releaseSel s a2) := by
  unfold State.releaseSel
  refine ite_ind (P := Onward _ _) ?_ ?_
  · exact State.setDrv_on (hm.of rfl) _ _ _ h
  · exact h

theorem State.takeSel_on {m : Nat} (hm : Covers 0x4000 m) {s0 : State} (s : State) (a2) (h : Onward m s0 s) :
    Onward m s0 (State.takeSel s a2) := by
  unfold State.takeSel
  exact State.setDrv_on (hm.of rfl) _ _ _ h

theorem State.writeCursor_on {m : Nat} (hm : Covers 0x1cc07ea m) {s0 : State} (s : State) (a2) (a3) (a4) (a5) (a6) (h : Onward m s0 s) :
    Onward m s0 (State.writeCursor s a2 a3 a4 a5 a6) := by
  unfold State.writeCursor
  exact State.writeBytes_on (hm.of rfl) _ _ _ _ _ _ h

theorem State.finishXfer_on {m : Nat} (hm : Covers 0x2e008 m) {s0 : State} (s : State) (a2) (h : Onward m s0 s) :
    Onward m s0 (State.finishXfer s a2) := by
  unfold State.finishXfer
  extract_lets +onlyGivenNames x1
  exact State.finish_on (hm.of rfl) _ _ _ _ _ (State.releaseSel_on (hm.of rfl) _ _ h)

theorem State.failXfer_on {m : Nat} (hm : Covers 0x2c000 m) {s0 : State} (s : State) (a2) (a3) (h : Onward m s0 s) :
    Onward m s0 (State.failXfer s a2 a3) := by
  unfold State.failXfer
  exact State.pruneTickets_on (hm.of rfl) _ (State.setOp_on (hm.of rfl) _ _ (State.releaseSel_on (hm.of rfl) _ _ h))

theorem State.writeCount_on {m : Nat} (hm : Covers 0x209cc87ea m) {s0 : State} (s : State) (a2) (h : Onward m s0 s) :
    Onward.P m s0 (State.writeCount s a2) := by
  unfold State.writeCount
  refine ite_ind (P := Onward.P _ _) ?_ ?_
  · exact h
  · refine ite_ind (P := Onward.P _ _) ?_ ?_
    · refine ite_ind (P := Onward.P _ _) ?_ ?_
      · exact h
      · split
        · rename_i v2 e3
          have h4 : Onward m s0 v2 := Onward.eqM e3 (State.siteSpan_on (hm.of rfl) _ _ _ _ _ _ _ _ _ _ _ h)
          exact State.setOp_on (hm.of rfl) _ _ h4
        · exact h
    · split
      · exact State.writeBytes_on (hm.of rfl) _ _ _ _ _ _ h
      · exact h

theorem State.completeXfer_on {m : Nat} (hm : Covers 0x209cee7ea m) {s0 : State} (s : State) (a2) (h : Onward m s0 s) :
    Onward m s0 (State.completeXfer s a2) := by
  unfold State.completeXfer
  refine ite_ind (P := Onward _ _) ?_ ?_
  · exact h
  · extract_lets +onlyGivenNames x1
    split
    · exact h
    · exact State.finishXfer_on (hm.of rfl) _ _ h
    · split
      · rename_i v10 e11
        have h12 : Onward m s0 v10 := Onward.eqP e11 (State.writeCount_on (hm.of rfl) _ _ h)
        exact h12
      · rename_i v15 e16
        have h17 : Onward m s0 v15 := Onward.eqP e16 (State.writeCount_on (hm.of rfl) _ _ h)
        exact State.setOp_on (hm.of rfl) _ _ h17
      · rename_i v19 e20
        have h21 : Onward m s0 v19 := Onward.eqP e20 (State.writeCount_on (hm.of rfl) _ _ h)
        extract_lets +onlyGivenNames x22
        have h23 : Onward m s0 x22 := by
          unfold x22
          refine ite_ind (P := Onward _ _) ?_ ?_
          · exact State.writeCursor_on (hm.of rfl) _ _ _ _ _ _ h21
          · exact h21
        clear_value x22
        exact State.finishXfer_on (hm.of rfl) _ _ h23

theorem State.runXfer_on {m : Nat} (hm : Covers 0x1c000 m) {s0 : State} (s : State) (a2) (h : Onward m s0 s) :
    Onward m s0 (State.runXfer s a2) := by
  unfold State.runXfer
  extract_lets +onlyGivenNames x1 x2
  refine ite_ind (P := Onward _ _) ?_ ?_
  · exact State.putOp_on (hm.of rfl) _ _ h
  · refine ite_ind (P := Onward _ _) ?_ ?_
    · exact State.putOp_on (hm.of rfl) _ _ h
    · refine ite_ind (P := Onward _ _) ?_ ?_
      · exact State.putOp_on (hm.of rfl) _ _ h
      · exact State.takeSel_on (hm.of rfl) _ _ (State.putOp_on (hm.of rfl) _ _ h)

theorem State.reload_on {m : Nat} (hm : Covers 0x3e008 m) {s0 : State} (s : State) (a2) (h : Onward m s0 s) :
    Onward m s0 (State.reload s a2) := by
  unfold State.reload
  extract_lets +onlyGivenNames x1 x2 x3
  refine ite_ind (P := Onward _ _) ?_ ?_
  · exact State.finishXfer_on (hm.of rfl) _ _ h
  · exact State.runXfer_on (hm.of rfl) _ _ h

theorem State.cursorThen_on {m : Nat} (hm : Covers 0x143e02a m) {s0 : State} (s : State) (a2) (h : Onward m s0 s) :
    Onward m s0 (State.cursorThen s a2) := by
  unfold State.cursorThen
  extract_lets +onlyGivenNames x1 x2
  have h3 : ∀ u4, Onward m s0 u4 → ∀ u5, Onward m s0 (x2 u4 u5) := by
    intro x6 h7 x8
    unfold x2
    refine ite_ind (P := Onward _ _) ?_ ?_
    · exact State.finishXfer_on (hm.of rfl) _ _ h7
    · exact State.finish_on (hm.of rfl) _ _ _ _ _ h7
  clear_value x2
  refine ite_ind (P := Onward _ _) ?_ ?_
  · exact State.runXfer_on (hm.of rfl) _ _ h
  · extract_lets +onlyGivenNames x9 x10
    have h11 : Onward m s0 x10 := by
      unfold x10
      exact State.looked_on (hm.of rfl) _ _ _ h
    clear_value x10
    split
    · refine h3 _ ?_ _
      exact h11
    · split
      rename_i v20 e21
      have h22 : Onward m s0 v20 := Onward.eqP e21 (State.askTicket_on (hm.of rfl) _ _ _ _ _ h11)
      exact State.putOp_on (hm.of rfl) _ _ h22
    · refine ite_ind (P := Onward _ _) ?_ ?_
      · refine h3 _ ?_ _
        exact h11
      · refine ite_ind (P := Onward _ _) ?_ ?_
        · refine h3 _ ?_ _
          exact h11
        · extract_lets +onlyGivenNames x28
          refine ite_ind (P := Onward _ _) ?_ ?_
          · exact State.reload_on (hm.of rfl) _ _ (State.putOp_on (hm.of rfl) _ _ h11)
          · exact State.runXfer_on (hm.of rfl) _ _ h11

theorem State.beginXfer_on {m : Nat} (hm : Covers 0x143e02a m) {s0 : State} (s : State) (a2) (a3) (a4) (h : Onward m s0 s) :
    Onward m s0 (State.beginXfer s a2 a3 a4) := by
  unfold State.beginXfer
  extract_lets +onlyGivenNames x1 x2 x3 x4 x5 x6 x7 x8
  refine ite_ind (P := Onward _ _) ?_ ?_
  · exact State.finish_on (hm.of rfl) _ _ _ _ _ h
  · exact State.cursorThen_on (hm.of rfl) _ _ h

theorem State.chunkDone_on {m : Nat} (hm : Covers 0xe000 m) {s0 : State} (s : State) (a2) (a3) (a4) (a5) (a6) (h : Onward m s0 s) :
    Onward m s0 (State.chunkDone s a2 a3 a4 a5 a6) := by
  unfold State.chunkDone
  split
  extract_lets +onlyGivenNames x5 x6 x7 x8 x9
  have h10 : Onward m s0 x9 := by
    unfold x9
    refine State.setOp_on (hm.of rfl) _ _ ?_
    refine ite_ind (P := Onward _ _) ?_ ?_
    · exact State.releaseSel_on (hm.of rfl) _ _ h
    · exact h
  clear_value x9
  split
  · exact State.wake_on (hm.of rfl) _ _ _ (State.setStrand_on (hm.of rfl) _ _ _ _ h10)
  · exact h10

theorem State.applyPut_on {m : Nat} (hm : Covers 0x11cc27ea m) {s0 : State} (s : State) (a2) (a3) (h : Onward m s0 s) :
    Onward.P m s0 (State.applyPut s a2 a3) := by
  unfold State.applyPut
  extract_lets +onlyGivenNames x1 x2
  split
  · refine Onward.pair ?_
    refine ite_ind (P := Onward _ _) ?_ ?_
    · exact h
    · exact State.writeBytes_on (hm.of rfl) _ _ _ _ _ _ h
  · extract_lets +onlyGivenNames x12
    split
    rename_i v16 e17
    have h18 : Onward m s0 v16 := Onward.eqT e17 (State.update_on (hm.of rfl) _ _ _ _ _ _ _ _ _ _ h)
    exact h18
  · exact State.accumulate_on (hm.of rfl) _ _ _ _ _ _ _ _ h

theorem State.applyPuts_on {m : Nat} (hm : Covers 0x11cc27ee m) {s0 : State} (s : State) (a2) (a3) (h : Onward m s0 s) :
    Onward.P m s0 (State.applyPuts s a2 a3) := by
  unfold State.applyPuts
  extract_lets +onlyGivenNames x1
  have h2 : Onward m s0 x1 := by
    unfold x1
    refine ite_ind (P := Onward _ _) ?_ ?_
    · exact State.taken_on (hm.of rfl) _ h
    · exact h
  clear_value x1
  refine foldl_ind (P := Onward.P _ _) ?_ _ _ ?_
  · intro x3 x4 h5
    split
    rename_i v8 e9
    have h10 : Onward m s0 v8 := by
      refine Onward.eqP e9 ?_
      refine State.applyPut_on (hm.of rfl) _ _ _ ?_
      refine Onward.snd ?_
      exact h5
    exact h10
  · exact h2

theorem State.sendReads_on {m : Nat} (hm : Covers 0x208000002 m) {s0 : State} (s : State) (a2) (a3) (a4) (h : Onward m s0 s) :
    Onward.M m s0 (State.sendReads s a2 a3 a4) := by
  unfold State.sendReads
  extract_lets +onlyGivenNames x1 x2
  refine foldl_ind (P := Onward.M _ _) ?_ _ _ ?_
  · intro x3 x4 h5
    split
    · exact trivial
    · refine State.siteSpan_on (hm.of rfl) _ _ _ _ _ _ _ _ _ _ _ ?_
      exact ‹Onward.M m s0 (some _)›
  · exact h

theorem State.sendWrites_on {m : Nat} (hm : Covers 0x208000002 m) {s0 : State} (s : State) (a2) (a3) (a4) (h : Onward m s0 s) :
    Onward.M m s0 (State.sendWrites s a2 a3 a4) := by
  unfold State.sendWrites
  extract_lets +onlyGivenNames x1
  refine foldl_ind (P := Onward.M _ _) ?_ _ _ ?_
  · intro x2 x3 h4
    split
    · exact trivial
    · extract_lets +onlyGivenNames x10
      refine State.siteSpan_on (hm.of rfl) _ _ _ _ _ _ _ _ _ _ _ ?_
      exact ‹Onward.M m s0 (some _)›
  · exact h

theorem State.planReads_on {m : Nat} (hm : Covers 0x1ce47ea m) {s0 : State} (s : State) (a2) (a3) (h : Onward m s0 s) :
    Onward m s0 (State.planReads s a2 a3) := by
  unfold State.planReads
  extract_lets +onlyGivenNames x1
  have h2 : Onward m s0 x1 := by
    unfold x1
    refine foldl_ind (P := Onward _ _) ?_ _ _ ?_
    · intro x3 x4 h5
      exact State.looked_on (hm.of rfl) _ _ _ h5
    · exact h
  clear_value x1
  extract_lets +onlyGivenNames x6
  have h7 : Onward m s0 x6 := by
    unfold x6
    refine foldl_ind (P := Onward _ _) ?_ _ _ ?_
    · intro x8 x9 h10
      refine ite_ind (P := Onward _ _) ?_ ?_
      · exact State.ensure_on (hm.of rfl) _ _ _ _ _ _ _ h10
      · exact h10
    · exact h2
  clear_value x6
  extract_lets +onlyGivenNames x11
  exact State.setDrv_on (hm.of rfl) _ _ _ h7

theorem State.carryOut_on {m : Nat} (hm : Covers 0x219cee7ee m) {s0 : State} (s : State) (a2) (a3) (a4) (h : Onward m s0 s) :
    Onward m s0 (State.carryOut s a2 a3 a4) := by
  unfold State.carryOut
  extract_lets +onlyGivenNames x1 x2
  split
  · exact State.setOp_on (hm.of rfl) _ _ h
  · rename_i v6 e7
    have h8 : Onward m s0 v6 := Onward.eqM e7 (State.sendWrites_on (hm.of rfl) _ _ _ _ h)
    extract_lets +onlyGivenNames x9
    have h10 : Onward m s0 x9 := by
      unfold x9
      exact State.planReads_on (hm.of rfl) _ _ _ h8
    clear_value x9
    refine ite_ind (P := Onward _ _) ?_ ?_
    · split
      rename_i v13 e14
      have h15 : Onward m s0 v13 := Onward.eqP e14 (State.applyPuts_on (hm.of rfl) _ _ _ h10)
      exact State.chunkDone_on (hm.of rfl) _ _ _ _ _ _ h15
    · exact State.setOp_on (hm.of rfl) _ _ h10

theorem State.stopChunk_on {m : Nat} (hm : Covers 0x142c02a m) {s0 : State} (s : State) (a2) (a3) (a4) (h : Onward m s0 s) :
    Onward m s0 (State.stopChunk s a2 a3 a4) := by
  unfold State.stopChunk
  split
  · exact State.setOp_on (hm.of rfl) _ _ h
  · exact State.failXfer_on (hm.of rfl) _ _ _ h
  · refine ite_ind (P := Onward _ _) ?_ ?_
    · exact State.setOp_on (hm.of rfl) _ _ h
    · extract_lets +onlyGivenNames x9
      have h10 : Onward m s0 x9 := by
        unfold x9
        exact State.looked_on (hm.of rfl) _ _ _ h
      clear_value x9
      split
      rename_i v13 e14
      have h15 : Onward m s0 v13 := Onward.eqP e14 (State.askTicket_on (hm.of rfl) _ _ _ _ _ h10)
      split
      · exact State.setOp_on (hm.of rfl) _ _ h15
      · exact State.setOp_on (hm.of rfl) _ _ h15

theorem State.tryChunk_on {m : Nat} (hm : Covers 0x219cee7ee m) {s0 : State} (s : State) (a2) (a3) (h : Onward m s0 s) :
    Onward m s0 (State.tryChunk s a2 a3) := by
  unfold State.tryChunk
  extract_lets +onlyGivenNames x1 x2 x3
  have h4 : Onward m s0 x3 := by
    unfold x3
    refine ite_ind (P := Onward _ _) ?_ ?_
    · exact h
    · exact State.setDrv_on (hm.of rfl) _ _ _ h
  clear_value x3
  split
  · exact State.stopChunk_on (hm.of rfl) _ _ _ _ h4
  · refine ite_ind (P := Onward _ _) ?_ ?_
    · exact State.carryOut_on (hm.of rfl) _ _ _ _ h4
    · split
      · exact State.setOp_on (hm.of rfl) _ _ h4
      · rename_i v14 e15
        have h16 : Onward m s0 v14 := Onward.eqM e15 (State.sendReads_on (hm.of rfl) _ _ _ _ h4)
        exact State.setOp_on (hm.of rfl) _ _ h16

theorem State.retryChunk_on {m : Nat} (hm : Covers 0x142802a m) {s0 : State} (s : State) (a2) (a3) (h : Onward m s0 s) :
    Onward m s0 (State.retryChunk s a2 a3) := by
  unfold State.retryChunk
  extract_lets +onlyGivenNames x1
  split
  · split
    rename_i v10 e11
    have h12 : Onward m s0 v10 := Onward.eqP e11 (State.askTicket_on (hm.of rfl) _ _ _ _ _ h)
    split
    · exact State.setOp_on (hm.of rfl) _ _ h12
    · exact State.setOp_on (hm.of rfl) _ _ h12
  · exact State.setOp_on (hm.of rfl) _ _ h

theorem State.resumeXfer_on {m : Nat} (hm : Covers 0x143e02a m) {s0 : State} (s : State) (a2) (h : Onward m s0 s) :
    Onward m s0 (State.resumeXfer s a2) := by
  unfold State.resumeXfer
  exact State.cursorThen_on (hm.of rfl) _ _ h

theorem State.park_on {m : Nat} (hm : Covers 0x1cfe7ea m) {s0 : State} (s : State) (a2) (h : Onward m s0 s) :
    Onward m s0 (State.park s a2) := by
  unfold State.park
  split
  · exact h
  · extract_lets +onlyGivenNames x6 x7
    have h8 : ∀ u9, Onward m s0 u9 → Onward m s0 (x7 u9) := by
      intro x10 h11
      unfold x7
      extract_lets +onlyGivenNames x12
      have h13 : Onward m s0 x12 := by
        unfold x12
        exact State.setOp_on (hm.of rfl) _ _ (State.releaseSel_on (hm.of rfl) _ _ h11)
      clear_value x12
      extract_lets +onlyGivenNames x14 x15
      have h16 : Onward m s0 x15 := by
        unfold x15
        split
        · exact State.ringPut_on (hm.of rfl) _ _ h13
        · exact h13
      clear_value x15
      extract_lets +onlyGivenNames x22
      have h23 : Onward m s0 x22 := by
        unfold x22
        exact State.pruneTickets_on (hm.of rfl) _ h16
      clear_value x22
      refine ite_ind (P := Onward _ _) ?_ ?_
      · exact State.resumeXfer_on (hm.of rfl) _ _ h23
      · exact h23
    clear_value x7
    refine ite_ind (P := Onward _ _) ?_ ?_
    · refine h8 _ ?_
      exact h
    · split
      · exact h
      · exact State.failXfer_on (hm.of rfl) _ _ _ h
      · refine h8 _ ?_
        exact State.writeCursor_on (hm.of rfl) _ _ _ _ _ _ h

theorem State.sendRemote_on {m : Nat} (hm : Covers 0x1140000a m) {s0 : State} (s : State) (a2) (a3) (a4) (a5) (a6) (a7) (a8) (a9) (h : Onward m s0 s) :
    Onward m s0 (State.sendRemote s a2 a3 a4 a5 a6 a7 a8 a9) := by
  unfold State.sendRemote
  refine ite_ind (P := Onward _ _) ?_ ?_
  · extract_lets +onlyGivenNames x1
    exact State.setFab_on (hm.of rfl) _ _ h
  · exact State.sendPacket_on (hm.of rfl) _ _ _ _ _ _ _ _ _ h

theorem State.freshPacket_on {m : Nat} (hm : Covers 0x10000000 m) {s0 : State} (s : State) (h : Onward m s0 s) :
    Onward.P m s0 (State.freshPacket s) := by
  unfold State.freshPacket
  exact State.setFab_on (hm.of rfl) _ _ h

theorem State.sendChunk_on {m : Nat} (hm : Covers 0x1140800a m) {s0 : State} (s : State) (a2) (a3) (a4) (a5) (h : Onward m s0 s) :
    Onward m s0 (State.sendChunk s a2 a3 a4 a5) := by
  unfold State.sendChunk
  extract_lets +onlyGivenNames x1 x2 x3
  split
  rename_i v6 e7
  have h8 : Onward m s0 v6 := Onward.eqP e7 (State.freshPacket_on (hm.of rfl) _ h)
  extract_lets +onlyGivenNames x9 x10 x11 x12 x13 x14
  have h15 : Onward m s0 x14 := by
    unfold x14
    exact State.sendRemote_on (hm.of rfl) _ _ _ _ _ _ _ _ _ h8
  clear_value x14
  exact State.setOp_on (hm.of rfl) _ _ h15

theorem State.landChunk_on {m : Nat} (hm : Covers 0x219cee7ee m) {s0 : State} (s : State) (a2) (a3) (h : Onward m s0 s) :
    Onward m s0 (State.landChunk s a2 a3) := by
  unfold State.landChunk
  extract_lets +onlyGivenNames x1
  split
  · exact State.stopChunk_on (hm.of rfl) _ _ _ _ h
  · exact State.carryOut_on (hm.of rfl) _ _ _ _ h

theorem State.tryRemote_on {m : Nat} (hm : Covers 0x219cee7ee m) {s0 : State} (s : State) (a2) (a3) (h : Onward m s0 s) :
    Onward m s0 (State.tryRemote s a2 a3) := by
  unfold State.tryRemote
  extract_lets +onlyGivenNames x1
  refine ite_ind (P := Onward _ _) ?_ ?_
  · refine ite_ind (P := Onward _ _) ?_ ?_
    · exact State.landChunk_on (hm.of rfl) _ _ _ h
    · refine ite_ind (P := Onward _ _) ?_ ?_
      · exact State.setOp_on (hm.of rfl) _ _ h
      · split
        · exact State.stopChunk_on (hm.of rfl) _ _ _ _ h
        · exact State.sendChunk_on (hm.of rfl) _ _ _ _ _ (State.planReads_on (hm.of rfl) _ _ _ h)
  · split
    · exact State.stopChunk_on (hm.of rfl) _ _ _ _ h
    · refine ite_ind (P := Onward _ _) ?_ ?_
      · exact State.sendChunk_on (hm.of rfl) _ _ _ _ _ (State.planReads_on (hm.of rfl) _ _ _ h)
      · split
        · exact State.setOp_on (hm.of rfl) _ _ h
        · rename_i v20 e21
          have h22 : Onward m s0 v20 := Onward.eqM e21 (State.sendReads_on (hm.of rfl) _ _ _ _ h)
          exact State.setOp_on (hm.of rfl) _ _ h22

theorem State.beginRemote_on {m : Nat} (hm : Covers 0x1143e02a m) {s0 : State} (s : State) (a2) (a3) (h : Onward m s0 s) :
    Onward m s0 (State.beginRemote s a2 a3) := by
  unfold State.beginRemote
  extract_lets +onlyGivenNames x1 x2 x3 x4 x5 x6
  have h7 : ∀ u8, Onward m s0 u8 → ∀ u9, Onward m s0 (x6 u8 u9) := by
    intro x10 h11 x12
    unfold x6
    exact State.setStrand_on (hm.of rfl) _ _ _ _ h11
  clear_value x6
  extract_lets +onlyGivenNames x13
  refine ite_ind (P := Onward _ _) ?_ ?_
  · refine State.finish_on (hm.of rfl) _ _ _ _ _ ?_
    refine h7 _ ?_ _
    exact h
  · extract_lets +onlyGivenNames x14
    refine ite_ind (P := Onward _ _) ?_ ?_
    · refine State.cursorThen_on (hm.of rfl) _ _ ?_
      refine h7 _ ?_ _
      exact h
    · extract_lets +onlyGivenNames x15
      split
      rename_i v18 e19
      have h20 : Onward m s0 v18 := Onward.eqP e19 (State.admission_on (hm.of rfl) _ _ _ _ _ _ _ h)
      split
      · refine State.finishXfer_on (hm.of rfl) _ _ ?_
        refine h7 _ ?_ _
        exact h20
      · refine State.cursorThen_on (hm.of rfl) _ _ ?_
        refine h7 _ ?_ _
        exact h20

theorem State.sendSmall_on {m : Nat} (hm : Covers 0x1141800a m) {s0 : State} (s : State) (a2) (a3) (a4) (a5) (a6) (a7) (a8) (a9) (h : Onward m s0 s) :
    Onward m s0 (State.sendSmall s a2 a3 a4 a5 a6 a7 a8 a9) := by
  unfold State.sendSmall
  extract_lets +onlyGivenNames x1
  split
  rename_i v4 e5
  have h6 : Onward m s0 v4 := Onward.eqP e5 (State.freshPacket_on (hm.of rfl) _ h)
  extract_lets +onlyGivenNames x7
  exact State.putOp_on (hm.of rfl) _ _ (State.sendRemote_on (hm.of rfl) _ _ _ _ _ _ _ _ _ h6)

theorem State.beginRatom_on {m : Nat} (hm : Covers 0x1143a00a m) {s0 : State} (s : State) (a2) (a3) (h : Onward m s0 s) :
    Onward m s0 (State.beginRatom s a2 a3) := by
  unfold State.beginRatom
  extract_lets +onlyGivenNames x1 x2 x3
  refine ite_ind (P := Onward _ _) ?_ ?_
  · exact State.failOp_on (hm.of rfl) _ _ _ h
  · refine ite_ind (P := Onward _ _) ?_ ?_
    · exact State.failOp_on (hm.of rfl) _ _ _ h
    · exact State.sendSmall_on (hm.of rfl) _ _ _ _ _ _ _ _ _ h

theorem State.beginSignal_on {m : Nat} (hm : Covers 0x1143a00a m) {s0 : State} (s : State) (a2) (a3) (h : Onward m s0 s) :
    Onward m s0 (State.beginSignal s a2 a3) := by
  unfold State.beginSignal
  extract_lets +onlyGivenNames x1 x2 x3 x4 x5
  refine ite_ind (P := Onward _ _) ?_ ?_
  · exact State.finish_on (hm.of rfl) _ _ _ _ _ h
  · refine ite_ind (P := Onward _ _) ?_ ?_
    · refine ite_ind (P := Onward _ _) ?_ ?_
      · exact State.finish_on (hm.of rfl) _ _ _ _ _ h
      · split
        rename_i v8 e9
        have h10 : Onward m s0 v8 := Onward.eqP e9 (State.signalWord_on (hm.of rfl) _ _ _ (State.putOp_on (hm.of rfl) _ _ h))
        exact State.setOp_on (hm.of rfl) _ _ h10
    · exact State.sendSmall_on (hm.of rfl) _ _ _ _ _ _ _ _ _ h

theorem State.remoteOp_on {m : Nat} (hm : Covers 0x1143e02a m) {s0 : State} (s : State) (a2) (a3) (a4) (h : Onward m s0 s) :
    Onward m s0 (State.remoteOp s a2 a3 a4) := by
  unfold State.remoteOp
  refine State.issue_on (hm.of rfl) _ _ _ _ _ ?_ ?_
  · exact h
  · intro x1 h2
    exact State.beginRemote_on (hm.of rfl) _ _ _ (State.advance_on (hm.of rfl) _ _ _ _ h2)

theorem execKPut_on {m : Nat} (hm : Covers 0x1143e02a m) {s0 : State} (a1) (a2) (s : State) (h : Onward m s0 s) :
    Onward.O m s0 (execKPut a1 a2 s) := by
  unfold execKPut
  exact State.remoteOp_on (hm.of rfl) _ _ _ _ h

theorem execKGet_on {m : Nat} (hm : Covers 0x1143e02a m) {s0 : State} (a1) (a2) (s : State) (h : Onward m s0 s) :
    Onward.O m s0 (execKGet a1 a2 s) := by
  unfold execKGet
  exact State.remoteOp_on (hm.of rfl) _ _ _ _ h

theorem execKRacc_on {m : Nat} (hm : Covers 0x1143e02a m) {s0 : State} (a1) (a2) (s : State) (h : Onward m s0 s) :
    Onward.O m s0 (execKRacc a1 a2 s) := by
  unfold execKRacc
  exact State.remoteOp_on (hm.of rfl) _ _ _ _ h

theorem State.ratomOp_on {m : Nat} (hm : Covers 0x1143e00a m) {s0 : State} (s : State) (a2) (a3) (a4) (h : Onward m s0 s) :
    Onward m s0 (State.ratomOp s a2 a3 a4) := by
  unfold State.ratomOp
  extract_lets +onlyGivenNames x1
  refine State.issue_on (hm.of rfl) _ _ _ _ _ ?_ ?_
  · exact h
  · intro x2 h3
    exact State.beginRatom_on (hm.of rfl) _ _ _ (State.advance_on (hm.of rfl) _ _ _ _ h3)

theorem execKRatomAdd_on {m : Nat} (hm : Covers 0x1143e00a m) {s0 : State} (a1) (a2) (s : State) (h : Onward m s0 s) :
    Onward.O m s0 (execKRatomAdd a1 a2 s) := by
  unfold execKRatomAdd
  exact State.ratomOp_on (hm.of rfl) _ _ _ _ h

theorem execKRatomMin_on {m : Nat} (hm : Covers 0x1143e00a m) {s0 : State} (a1) (a2) (s : State) (h : Onward m s0 s) :
    Onward.O m s0 (execKRatomMin a1 a2 s) := by
  unfold execKRatomMin
  exact State.ratomOp_on (hm.of rfl) _ _ _ _ h

theorem execKRatomMax_on {m : Nat} (hm : Covers 0x1143e00a m) {s0 : State} (a1) (a2) (s : State) (h : Onward m s0 s) :
    Onward.O m s0 (execKRatomMax a1 a2 s) := by
  unfold execKRatomMax
  exact State.ratomOp_on (hm.of rfl) _ _ _ _ h

theorem execKRatomExchange_on {m : Nat} (hm : Covers 0x1143e00a m) {s0 : State} (a1) (a2) (s : State) (h : Onward m s0 s) :
    Onward.O m s0 (execKRatomExchange a1 a2 s) := by
  unfold execKRatomExchange
  exact State.ratomOp_on (hm.of rfl) _ _ _ _ h

theorem execKRatomCas_on {m : Nat} (hm : Covers 0x1143e00a m) {s0 : State} (a1) (a2) (s : State) (h : Onward m s0 s) :
    Onward.O m s0 (execKRatomCas a1 a2 s) := by
  unfold execKRatomCas
  exact State.ratomOp_on (hm.of rfl) _ _ _ _ h

theorem execKSignal_on {m : Nat} (hm : Covers 0x1143e00a m) {s0 : State} (a1) (a2) (s : State) (h : Onward m s0 s) :
    Onward.O m s0 (execKSignal a1 a2 s) := by
  unfold execKSignal
  refine Onward.next ?_
  refine State.issue_on (hm.of rfl) _ _ _ _ _ ?_ ?_
  · exact h
  · intro x1 h2
    exact State.beginSignal_on (hm.of rfl) _ _ _ (State.advance_on (hm.of rfl) _ _ _ _ h2)

theorem State.takeArrived_on {m : Nat} (hm : Covers 0x10000000 m) {s0 : State} (s : State) (a2) (a3) (h : Onward m s0 s) :
    Onward m s0 (State.takeArrived s a2 a3) := by
  unfold State.takeArrived
  exact State.setFab_on (hm.of rfl) _ _ h

theorem State.took_on {m : Nat} (hm : Covers 0x10000008 m) {s0 : State} (s : State) (a2) (a3) (a4) (h : Onward m s0 s) :
    Onward m s0 (State.took s a2 a3 a4) := by
  unfold State.took
  extract_lets +onlyGivenNames x1
  have h2 : Onward m s0 x1 := by
    unfold x1
    split
    · exact State.takeArrived_on (hm.of rfl) _ _ _ h
    · exact h
  clear_value x1
  refine ite_ind (P := Onward _ _) ?_ ?_
  · exact State.inc_on (hm.of rfl) _ _ _ h2
  · exact h2

theorem execRemoteAck_on {m : Nat} (hm : Covers 0x1002e008 m) {s0 : State} (a1) (a2) (a3) (a4) (s : State) (h : Onward m s0 s) :
    Onward.O m s0 (execRemoteAck a1 a2 a3 a4 s) := by
  unfold execRemoteAck
  split
  · exact h
  · refine ite_ind (P := Onward.O _ _) ?_ ?_
    · exact h
    · extract_lets +onlyGivenNames x6 x7
      have h8 : Onward m s0 x7 := by
        unfold x7
        exact State.took_on (hm.of rfl) _ _ _ _ h
      clear_value x7
      extract_lets +onlyGivenNames x9
      refine ite_ind (P := Onward.O _ _) ?_ ?_
      · extract_lets +onlyGivenNames x10
        exact State.chunkDone_on (hm.of rfl) _ _ _ _ _ _ h8
      · exact State.failXfer_on (hm.of rfl) _ _ _ h8

theorem execGetReply_on {m : Nat} (hm : Covers 0x219cee7ee m) {s0 : State} (a1) (a2) (a3) (a4) (a5) (s : State) (h : Onward m s0 s) :
    Onward.O m s0 (execGetReply a1 a2 a3 a4 a5 s) := by
  unfold execGetReply
  split
  · exact h
  · refine ite_ind (P := Onward.O _ _) ?_ ?_
    · exact h
    · extract_lets +onlyGivenNames x6 x7
      have h8 : Onward m s0 x7 := by
        unfold x7
        exact State.took_on (hm.of rfl) _ _ _ _ h
      clear_value x7
      extract_lets +onlyGivenNames x9
      refine ite_ind (P := Onward.O _ _) ?_ ?_
      · exact State.failXfer_on (hm.of rfl) _ _ _ h8
      · extract_lets +onlyGivenNames x10 x11 x12 x13 x14
        have h15 : Onward m s0 x14 := by
          unfold x14
          exact State.setOp_on (hm.of rfl) _ _ h8
        clear_value x14
        refine Onward.next ?_
        refine foldl_ind (P := Onward _ _) ?_ _ _ ?_
        · intro x16 x17 h18
          split
          · refine ite_ind (P := Onward _ _) ?_ ?_
            · exact State.landChunk_on (hm.of rfl) _ _ _ h18
            · exact h18
          · exact h18
        · exact h15

theorem State.answer_on {m : Nat} (hm : Covers 0x8000 m) {s0 : State} (s : State) (a2) (a3) (a4) (h : Onward m s0 s) :
    Onward m s0 (State.answer s a2 a3 a4) := by
  unfold State.answer
  exact State.setOp_on (hm.of rfl) _ _ h

theorem execRatomReply_on {m : Nat} (hm : Covers 0x1002a008 m) {s0 : State} (a1) (a2) (a3) (s : State) (h : Onward m s0 s) :
    Onward.O m s0 (execRatomReply a1 a2 a3 s) := by
  unfold execRatomReply
  split
  · exact h
  · refine ite_ind (P := Onward.O _ _) ?_ ?_
    · exact h
    · refine ite_ind (P := Onward.O _ _) ?_ ?_
      · exact State.answer_on (hm.of rfl) _ _ _ _ (State.took_on (hm.of rfl) _ _ _ _ h)
      · exact State.complete_on (hm.of rfl) _ _ (State.took_on (hm.of rfl) _ _ _ _ h)

theorem execSignalReply_on {m : Nat} (hm : Covers 0x1002a008 m) {s0 : State} (a1) (a2) (s : State) (h : Onward m s0 s) :
    Onward.O m s0 (execSignalReply a1 a2 s) := by
  unfold execSignalReply
  split
  · exact h
  · refine ite_ind (P := Onward.O _ _) ?_ ?_
    · exact h
    · refine ite_ind (P := Onward.O _ _) ?_ ?_
      · exact State.answer_on (hm.of rfl) _ _ _ _ (State.took_on (hm.of rfl) _ _ _ _ h)
      · exact State.finish_on (hm.of rfl) _ _ _ _ _ (State.took_on (hm.of rfl) _ _ _ _ h)

theorem execIssuerReplyTimeout_on {m : Nat} (hm : Covers 0x1002e008 m) {s0 : State} (a1) (a2) (s : State) (h : Onward m s0 s) :
    Onward.O m s0 (execIssuerReplyTimeout a1 a2 s) := by
  unfold execIssuerReplyTimeout
  split
  · exact h
  · split
    · exact h
    · split
      · exact h
      · refine ite_ind (P := Onward.O _ _) ?_ ?_
        · exact h
        · extract_lets +onlyGivenNames x16
          have h17 : Onward m s0 x16 := by
            unfold x16
            exact State.took_on (hm.of rfl) _ _ _ _ h
          clear_value x16
          refine ite_ind (P := Onward.O _ _) ?_ ?_
          · exact State.failXfer_on (hm.of rfl) _ _ _ h17
          · refine ite_ind (P := Onward.O _ _) ?_ ?_
            · exact State.answer_on (hm.of rfl) _ _ _ _ h17
            · exact State.failOp_on (hm.of rfl) _ _ _ h17

theorem State.pruneInbound_on {m : Nat} (hm : Covers 0x20000 m) {s0 : State} (s : State) (h : Onward m s0 s) :
    Onward m s0 (State.pruneInbound s) := by
  unfold State.pruneInbound
  exact State.setXl_on (hm.of rfl) _ _ h

theorem State.holdIn_on {m : Nat} (hm : Covers 0x10020000 m) {s0 : State} (s : State) (a2) (h : Onward m s0 s) :
    Onward m s0 (State.holdIn s a2) := by
  unfold State.holdIn
  extract_lets +onlyGivenNames x1 x2
  exact State.pruneInbound_on (hm.of rfl) _ (State.setFab_on (hm.of rfl) _ _ h)

theorem State.dropIn_on {m : Nat} (hm : Covers 0x10020000 m) {s0 : State} (s : State) (a2) (h : Onward m s0 s) :
    Onward m s0 (State.dropIn s a2) := by
  unfold State.dropIn
  exact State.pruneInbound_on (hm.of rfl) _ (State.setFab_on (hm.of rfl) _ _ h)

theorem State.answerIn_on {m : Nat} (hm : Covers 0x1142000a m) {s0 : State} (s : State) (a2) (a3) (a4) (a5) (a6) (h : Onward m s0 s) :
    Onward m s0 (State.answerIn s a2 a3 a4 a5 a6) := by
  unfold State.answerIn
  extract_lets +onlyGivenNames x1
  have h2 : Onward m s0 x1 := by
    unfold x1
    exact State.dropIn_on (hm.of rfl) _ _ h
  clear_value x1
  extract_lets +onlyGivenNames x3 x4 x5 x6
  exact State.sendRemote_on (hm.of rfl) _ _ _ _ _ _ _ _ _ h2

theorem State.notifyIn_on {m : Nat} (hm : Covers 0x2000 m) {s0 : State} (s : State) (a2) (a3) (h : Onward m s0 s) :
    Onward.P m s0 (State.notifyIn s a2 a3) := by
  unfold State.notifyIn
  refine ite_ind (P := Onward.P _ _) ?_ ?_
  · refine ite_ind (P := Onward.P _ _) ?_ ?_
    · exact h
    · split
      rename_i v3 e4
      have h5 : Onward m s0 v3 := Onward.eqP e4 (State.signalWord_on (hm.of rfl) _ _ _ h)
      exact h5
  · exact h

theorem State.appliedIn_on {m : Nat} (hm : Covers 0x1142200a m) {s0 : State} (s : State) (a2) (a3) (h : Onward m s0 s) :
    Onward m s0 (State.appliedIn s a2 a3) := by
  unfold State.appliedIn
  split
  rename_i v3 e4
  have h5 : Onward m s0 v3 := Onward.eqP e4 (State.notifyIn_on (hm.of rfl) _ _ _ h)
  exact State.answerIn_on (hm.of rfl) _ _ _ _ _ _ h5

theorem State.inToSites_on {m : Nat} (hm : Covers 0x208000002 m) {s0 : State} (s : State) (a2) (a3) (a4) (a5) (a6) (h : Onward m s0 s) :
    Onward.M m s0 (State.inToSites s a2 a3 a4 a5 a6) := by
  unfold State.inToSites
  extract_lets +onlyGivenNames x1 x2
  refine foldl_ind (P := Onward.M _ _) ?_ _ _ ?_
  · intro x3 x4 h5
    split
    · exact trivial
    · extract_lets +onlyGivenNames x11 x12
      refine ite_ind (P := Onward.M _ _) ?_ ?_
      · exact ‹Onward.M m s0 (some _)›
      · extract_lets +onlyGivenNames x13
        refine State.siteSpan_on (hm.of rfl) _ _ _ _ _ _ _ _ _ _ _ ?_
        exact ‹Onward.M m s0 (some _)›
  · exact h

theorem State.inWrite_on {m : Nat} (hm : Covers 0x1cc07ea m) {s0 : State} (s : State) (a2) (a3) (h : Onward m s0 s) :
    Onward.P m s0 (State.inWrite s a2 a3) := by
  unfold State.inWrite
  extract_lets +onlyGivenNames x1
  refine foldl_ind (P := Onward.P _ _) ?_ _ _ ?_
  · intro x2 x3 h4
    extract_lets +onlyGivenNames x5
    refine ite_ind (P := Onward.P _ _) ?_ ?_
    · exact h4
    · refine Onward.pair ?_
      refine State.writeBytes_on (hm.of rfl) _ _ _ _ _ _ ?_
      refine Onward.snd ?_
      exact h4
  · exact h

theorem State.inRead_on {m : Nat} (hm : Covers 0x1cc07ea m) {s0 : State} (s : State) (a2) (a3) (h : Onward m s0 s) :
    Onward.P m s0 (State.inRead s a2 a3) := by
  unfold State.inRead
  extract_lets +onlyGivenNames x1
  refine foldl_ind (P := Onward.P _ _) ?_ _ _ ?_
  · intro x2 x3 h4
    extract_lets +onlyGivenNames x5
    refine ite_ind (P := Onward.P _ _) ?_ ?_
    · exact h4
    · extract_lets +onlyGivenNames x6
      refine Onward.pair ?_
      refine State.touch_on (hm.of rfl) _ _ _ _ _ _ _ ?_
      refine Onward.snd ?_
      exact h4
  · exact h

theorem State.getDone_on {m : Nat} (hm : Covers 0x1142000a m) {s0 : State} (s : State) (a2) (h : Onward m s0 s) :
    Onward m s0 (State.getDone s a2) := by
  unfold State.getDone
  extract_lets +onlyGivenNames x1
  refine ite_ind (P := Onward _ _) ?_ ?_
  · exact State.answerIn_on (hm.of rfl) _ _ _ _ _ _ h
  · exact State.answerIn_on (hm.of rfl) _ _ _ _ _ _ h

theorem State.applyIn_on {m : Nat} (hm : Covers 0x219ce27ea m) {s0 : State} (s : State) (a2) (a3) (h : Onward m s0 s) :
    Onward m s0 (State.applyIn s a2 a3) := by
  unfold State.applyIn
  extract_lets +onlyGivenNames x1 x2 x3
  refine ite_ind (P := Onward _ _) ?_ ?_
  · split
    · exact State.holdIn_on (hm.of rfl) _ _ h
    · rename_i v7 e8
      have h9 : Onward m s0 v7 := by
        refine Onward.eqM e8 ?_
        refine ite_ind (P := Onward.M _ _) ?_ ?_
        · exact State.inToSites_on (hm.of rfl) _ _ _ _ _ _ h
        · exact h
      split
      rename_i v12 e13
      have h14 : Onward m s0 v12 := Onward.eqP e13 (State.inWrite_on (hm.of rfl) _ _ _ h9)
      extract_lets +onlyGivenNames x15
      refine ite_ind (P := Onward _ _) ?_ ?_
      · exact State.holdIn_on (hm.of rfl) _ _ h14
      · exact State.appliedIn_on (hm.of rfl) _ _ _ h14
  · refine ite_ind (P := Onward _ _) ?_ ?_
    · split
      · exact State.holdIn_on (hm.of rfl) _ _ h
      · rename_i v19 e20
        have h21 : Onward m s0 v19 := by
          refine Onward.eqM e20 ?_
          refine ite_ind (P := Onward.M _ _) ?_ ?_
          · exact State.inToSites_on (hm.of rfl) _ _ _ _ _ _ h
          · exact h
        split
        rename_i v24 e25
        have h26 : Onward m s0 v24 := Onward.eqP e25 (State.inRead_on (hm.of rfl) _ _ _ h21)
        refine ite_ind (P := Onward _ _) ?_ ?_
        · exact State.holdIn_on (hm.of rfl) _ _ h26
        · exact State.getDone_on (hm.of rfl) _ _ h26
    · refine ite_ind (P := Onward _ _) ?_ ?_
      · extract_lets +onlyGivenNames x27
        split
        rename_i v31 e32
        have h33 : Onward m s0 v31 := Onward.eqT e32 (State.update_on (hm.of rfl) _ _ _ _ _ _ _ _ _ _ h)
        exact State.answerIn_on (hm.of rfl) _ _ _ _ _ _ h33
      · extract_lets +onlyGivenNames x34 x35
        have h36 : ∀ u37, Onward.P m s0 u37 → ∀ u38, Onward.P m s0 (x35 u37 u38) := by
          intro x39 hh x40
          unfold x35
          split
          split
          rename_i v47 e48
          have h49 : Onward m s0 v47 := by
            refine Onward.eqP e48 ?_
            refine State.accumulate_on (hm.of rfl) _ _ _ _ _ _ _ _ ?_
            refine Onward.snd ?_
            exact hh
          exact h49
        clear_value x35
        split
        rename_i v52 e53
        have h54 : Onward m s0 v52 := by
          refine Onward.eqP e53 ?_
          refine foldl_ind (P := Onward.P _ _) ?_ _ _ ?_
          · intro x55 x56 h57
            exact h36 _ ‹Onward.P m s0 _› _
          · exact h
        exact State.appliedIn_on (hm.of rfl) _ _ _ h54

theorem State.serveIn_on {m : Nat} (hm : Covers 0x219ce27ea m) {s0 : State} (s : State) (a2) (h : Onward m s0 s) :
    Onward m s0 (State.serveIn s a2) := by
  unfold State.serveIn
  extract_lets +onlyGivenNames x1 x2
  refine ite_ind (P := Onward _ _) ?_ ?_
  · exact State.answerIn_on (hm.of rfl) _ _ _ _ _ _ h
  · extract_lets +onlyGivenNames x3 x4
    split
    · exact State.answerIn_on (hm.of rfl) _ _ _ _ _ _ h
    · extract_lets +onlyGivenNames x12
      split
      rename_i v15 e16
      have h17 : Onward m s0 v15 := Onward.eqP e16 (State.askTicket_on (hm.of rfl) _ _ _ _ _ h)
      exact State.holdIn_on (hm.of rfl) _ _ h17
    · extract_lets +onlyGivenNames x21
      have h22 : Onward m s0 x21 := by
        unfold x21
        refine foldl_ind (P := Onward _ _) ?_ _ _ ?_
        · intro x23 x24 h25
          exact State.setInbound_on (hm.of rfl) _ _ _ h25
        · exact h
      clear_value x21
      extract_lets +onlyGivenNames x26
      refine ite_ind (P := Onward _ _) ?_ ?_
      · exact State.answerIn_on (hm.of rfl) _ _ _ _ _ _ h22
      · split
        · exact State.answerIn_on (hm.of rfl) _ _ _ _ _ _ h22
        · exact State.holdIn_on (hm.of rfl) _ _ h22
        · exact State.applyIn_on (hm.of rfl) _ _ _ h22

theorem State.retryIn_on {m : Nat} (hm : Covers 0x219ce27ea m) {s0 : State} (s : State) (h : Onward m s0 s) :
    Onward m s0 (State.retryIn s) := by
  unfold State.retryIn
  refine foldl_ind (P := Onward _ _) ?_ _ _ ?_
  · intro x1 x2 h3
    exact State.serveIn_on (hm.of rfl) _ _ h3
  · exact h

theorem State.lookupIn_on {m : Nat} (hm : Covers 0x219ce27ea m) {s0 : State} (s : State) (a2) (h : Onward m s0 s) :
    Onward m s0 (State.lookupIn s a2) := by
  unfold State.lookupIn
  refine foldl_ind (P := Onward _ _) ?_ _ _ ?_
  · intro x1 x2 h3
    exact State.serveIn_on (hm.of rfl) _ _ h3
  · exact h

theorem State.failIn_on {m : Nat} (hm : Covers 0x1142000a m) {s0 : State} (s : State) (a2) (a3) (a4) (h : Onward m s0 s) :
    Onward m s0 (State.failIn s a2 a3 a4) := by
  unfold State.failIn
  refine foldl_ind (P := Onward _ _) ?_ _ _ ?_
  · intro x1 x2 h3
    exact State.answerIn_on (hm.of rfl) _ _ _ _ _ _ h3
  · exact h

theorem State.inboundReq_on {m : Nat} (hm : Covers 0x219ce27ea m) {s0 : State} (s : State) (a2) (a3) (h : Onward m s0 s) :
    Onward m s0 (State.inboundReq s a2 a3) := by
  unfold State.inboundReq
  extract_lets +onlyGivenNames x1
  have h2 : Onward m s0 x1 := by
    unfold x1
    exact State.takeArrived_on (hm.of rfl) _ _ _ h
  clear_value x1
  extract_lets +onlyGivenNames x3
  refine ite_ind (P := Onward _ _) ?_ ?_
  · exact h2
  · refine ite_ind (P := Onward _ _) ?_ ?_
    · exact State.answerIn_on (hm.of rfl) _ _ _ _ _ _ h2
    · refine ite_ind (P := Onward _ _) ?_ ?_
      · exact State.answerIn_on (hm.of rfl) _ _ _ _ _ _ h2
      · refine ite_ind (P := Onward _ _) ?_ ?_
        · exact State.answerIn_on (hm.of rfl) _ _ _ _ _ _ h2
        · refine ite_ind (P := Onward _ _) ?_ ?_
          · exact State.answerIn_on (hm.of rfl) _ _ _ _ _ _ h2
          · refine ite_ind (P := Onward _ _) ?_ ?_
            · refine ite_ind (P := Onward _ _) ?_ ?_
              · exact State.answerIn_on (hm.of rfl) _ _ _ _ _ _ h2
              · refine ite_ind (P := Onward _ _) ?_ ?_
                · exact State.answerIn_on (hm.of rfl) _ _ _ _ _ _ h2
                · split
                  rename_i v6 e7
                  have h8 : Onward m s0 v6 := Onward.eqP e7 (State.signalWord_on (hm.of rfl) _ _ _ h2)
                  exact State.answerIn_on (hm.of rfl) _ _ _ _ _ _ h8
            · split
              · exact State.answerIn_on (hm.of rfl) _ _ _ _ _ _ h2
              · exact State.serveIn_on (hm.of rfl) _ _ h2

theorem execInboundPut_on {m : Nat} (hm : Covers 0x219ce27ea m) {s0 : State} (a1) (s : State) (h : Onward m s0 s) :
    Onward.O m s0 (execInboundPut a1 s) := by
  unfold execInboundPut
  exact State.inboundReq_on (hm.of rfl) _ _ _ h

theorem execInboundGet_on {m : Nat} (hm : Covers 0x219ce27ea m) {s0 : State} (a1) (s : State) (h : Onward m s0 s) :
    Onward.O m s0 (execInboundGet a1 s) := by
  unfold execInboundGet
  exact State.inboundReq_on (hm.of rfl) _ _ _ h

theorem execInboundRacc_on {m : Nat} (hm : Covers 0x219ce27ea m) {s0 : State} (a1) (s : State) (h : Onward m s0 s) :
    Onward.O m s0 (execInboundRacc a1 s) := by
  unfold execInboundRacc
  exact State.inboundReq_on (hm.of rfl) _ _ _ h

theorem execInboundRatom_on {m : Nat} (hm : Covers 0x219ce27ea m) {s0 : State} (a1) (s : State) (h : Onward m s0 s) :
    Onward.O m s0 (execInboundRatom a1 s) := by
  unfold execInboundRatom
  exact State.inboundReq_on (hm.of rfl) _ _ _ h

theorem execInboundSignal_on {m : Nat} (hm : Covers 0x219ce27ea m) {s0 : State} (a1) (s : State) (h : Onward m s0 s) :
    Onward.O m s0 (execInboundSignal a1 s) := by
  unfold execInboundSignal
  exact State.inboundReq_on (hm.of rfl) _ _ _ h

theorem execRequestExpiry_on {m : Nat} (hm : Covers 0x1142000a m) {s0 : State} (a1) (a2) (s : State) (h : Onward m s0 s) :
    Onward.O m s0 (execRequestExpiry a1 a2 s) := by
  unfold execRequestExpiry
  split
  · exact h
  · refine ite_ind (P := Onward.O _ _) ?_ ?_
    · exact h
    · exact State.answerIn_on (hm.of rfl) _ _ _ _ _ _ h

theorem State.xferOp_on {m : Nat} (hm : Covers 0x143e02a m) {s0 : State} (s : State) (a2) (a3) (a4) (h : Onward m s0 s) :
    Onward m s0 (State.xferOp s a2 a3 a4) := by
  unfold State.xferOp
  refine State.issue_on (hm.of rfl) _ _ _ _ _ ?_ ?_
  · exact h
  · intro x1 h2
    exact State.beginXfer_on (hm.of rfl) _ _ _ _ (State.advance_on (hm.of rfl) _ _ _ _ h2)

theorem execKMove_on {m : Nat} (hm : Covers 0x143e02a m) {s0 : State} (a1) (a2) (s : State) (h : Onward m s0 s) :
    Onward.O m s0 (execKMove a1 a2 s) := by
  unfold execKMove
  exact State.xferOp_on (hm.of rfl) _ _ _ _ h

theorem execKGather_on {m : Nat} (hm : Covers 0x143e02a m) {s0 : State} (a1) (a2) (s : State) (h : Onward m s0 s) :
    Onward.O m s0 (execKGather a1 a2 s) := by
  unfold execKGather
  exact State.xferOp_on (hm.of rfl) _ _ _ _ h

theorem execKScatter_on {m : Nat} (hm : Covers 0x143e02a m) {s0 : State} (a1) (a2) (s : State) (h : Onward m s0 s) :
    Onward.O m s0 (execKScatter a1 a2 s) := by
  unfold execKScatter
  exact State.xferOp_on (hm.of rfl) _ _ _ _ h

theorem execKGraze_on {m : Nat} (hm : Covers 0x143e02a m) {s0 : State} (a1) (a2) (s : State) (h : Onward m s0 s) :
    Onward.O m s0 (execKGraze a1 a2 s) := by
  unfold execKGraze
  exact State.xferOp_on (hm.of rfl) _ _ _ _ h

theorem execKCompact_on {m : Nat} (hm : Covers 0x143e02a m) {s0 : State} (a1) (a2) (s : State) (h : Onward m s0 s) :
    Onward.O m s0 (execKCompact a1 a2 s) := by
  unfold execKCompact
  exact State.xferOp_on (hm.of rfl) _ _ _ _ h

theorem execKIsect_on {m : Nat} (hm : Covers 0x143e02a m) {s0 : State} (a1) (a2) (s : State) (h : Onward m s0 s) :
    Onward.O m s0 (execKIsect a1 a2 s) := by
  unfold execKIsect
  exact State.xferOp_on (hm.of rfl) _ _ _ _ h

theorem execKUnion_on {m : Nat} (hm : Covers 0x143e02a m) {s0 : State} (a1) (a2) (s : State) (h : Onward m s0 s) :
    Onward.O m s0 (execKUnion a1 a2 s) := by
  unfold execKUnion
  exact State.xferOp_on (hm.of rfl) _ _ _ _ h

theorem execKMerge_on {m : Nat} (hm : Covers 0x143e02a m) {s0 : State} (a1) (a2) (s : State) (h : Onward m s0 s) :
    Onward.O m s0 (execKMerge a1 a2 s) := by
  unfold execKMerge
  exact State.xferOp_on (hm.of rfl) _ _ _ _ h

theorem execKSegredSum_on {m : Nat} (hm : Covers 0x143e02a m) {s0 : State} (a1) (a2) (s : State) (h : Onward m s0 s) :
    Onward.O m s0 (execKSegredSum a1 a2 s) := by
  unfold execKSegredSum
  exact State.xferOp_on (hm.of rfl) _ _ _ _ h

theorem execKSegredMin_on {m : Nat} (hm : Covers 0x143e02a m) {s0 : State} (a1) (a2) (s : State) (h : Onward m s0 s) :
    Onward.O m s0 (execKSegredMin a1 a2 s) := by
  unfold execKSegredMin
  exact State.xferOp_on (hm.of rfl) _ _ _ _ h

theorem execKSegredMax_on {m : Nat} (hm : Covers 0x143e02a m) {s0 : State} (a1) (a2) (s : State) (h : Onward m s0 s) :
    Onward.O m s0 (execKSegredMax a1 a2 s) := by
  unfold execKSegredMax
  exact State.xferOp_on (hm.of rfl) _ _ _ _ h

theorem execKSegredMean_on {m : Nat} (hm : Covers 0x143e02a m) {s0 : State} (a1) (a2) (s : State) (h : Onward m s0 s) :
    Onward.O m s0 (execKSegredMean a1 a2 s) := by
  unfold execKSegredMean
  exact State.xferOp_on (hm.of rfl) _ _ _ _ h

theorem execKEbag_on {m : Nat} (hm : Covers 0x143e02a m) {s0 : State} (a1) (a2) (s : State) (h : Onward m s0 s) :
    Onward.O m s0 (execKEbag a1 a2 s) := by
  unfold execKEbag
  exact State.xferOp_on (hm.of rfl) _ _ _ _ h

theorem execKHist_on {m : Nat} (hm : Covers 0x143e02a m) {s0 : State} (a1) (a2) (s : State) (h : Onward m s0 s) :
    Onward.O m s0 (execKHist a1 a2 s) := by
  unfold execKHist
  exact State.xferOp_on (hm.of rfl) _ _ _ _ h

theorem execKTopkLargest_on {m : Nat} (hm : Covers 0x143e02a m) {s0 : State} (a1) (a2) (s : State) (h : Onward m s0 s) :
    Onward.O m s0 (execKTopkLargest a1 a2 s) := by
  unfold execKTopkLargest
  exact State.xferOp_on (hm.of rfl) _ _ _ _ h

theorem execKTopkSmallest_on {m : Nat} (hm : Covers 0x143e02a m) {s0 : State} (a1) (a2) (s : State) (h : Onward m s0 s) :
    Onward.O m s0 (execKTopkSmallest a1 a2 s) := by
  unfold execKTopkSmallest
  exact State.xferOp_on (hm.of rfl) _ _ _ _ h

theorem State.beginPair_on {m : Nat} (hm : Covers 0x21943f02a m) {s0 : State} (s : State) (a2) (a3) (h : Onward m s0 s) :
    Onward m s0 (State.beginPair s a2 a3) := by
  unfold State.beginPair
  extract_lets +onlyGivenNames x1
  split
  · exact h
  · refine ite_ind (P := Onward _ _) ?_ ?_
    · exact State.beginDesc_on (hm.of rfl) _ _ _ h
    · refine ite_ind (P := Onward _ _) ?_ ?_
      · exact State.beginRemote_on (hm.of rfl) _ _ _ h
      · exact State.beginXfer_on (hm.of rfl) _ _ _ _ h
  · refine ite_ind (P := Onward _ _) ?_ ?_
    · exact State.beginRatom_on (hm.of rfl) _ _ _ h
    · refine ite_ind (P := Onward _ _) ?_ ?_
      · exact State.beginSignal_on (hm.of rfl) _ _ _ h
      · exact State.beginMem_on (hm.of rfl) _ _ _ h

theorem execKAt_on {m : Nat} (hm : Covers 0x143e00a m) {s0 : State} (a1) (a2) (a3) (s : State) (h : Onward m s0 s) :
    Onward.O m s0 (execKAt a1 a2 a3 s) := by
  unfold execKAt
  extract_lets +onlyGivenNames x1 x2
  refine Onward.next ?_
  refine State.issue_on (hm.of rfl) _ _ _ _ _ ?_ ?_
  · exact h
  · intro x3 h4
    extract_lets +onlyGivenNames x5 x6 x7 x8
    have h9 : Onward m s0 x8 := by
      unfold x8
      exact State.advance_on (hm.of rfl) _ _ _ _ h4
    clear_value x8
    extract_lets +onlyGivenNames x10 x11
    refine ite_ind (P := Onward _ _) ?_ ?_
    · exact State.finish_on (hm.of rfl) _ _ _ _ _ h9
    · refine ite_ind (P := Onward _ _) ?_ ?_
      · exact State.finish_on (hm.of rfl) _ _ _ _ _ h9
      · refine ite_ind (P := Onward _ _) ?_ ?_
        · exact State.finish_on (hm.of rfl) _ _ _ _ _ h9
        · exact State.putOp_on (hm.of rfl) _ _ h9

theorem State.pairDue_on {m : Nat} (hm : Covers 0x21943f02a m) {s0 : State} (s : State) (a2) (h : Onward m s0 s) :
    Onward m s0 (State.pairDue s a2) := by
  unfold State.pairDue
  split
  · exact h
  · split
    · refine ite_ind (P := Onward _ _) ?_ ?_
      · exact h
      · exact State.wake_on (hm.of rfl) _ _ _ (State.beginPair_on (hm.of rfl) _ _ _ h)
    · exact h

theorem State.pairsDue_on {m : Nat} (hm : Covers 0x21943f02a m) {s0 : State} (s : State) (h : Onward m s0 s) :
    Onward m s0 (State.pairsDue s) := by
  unfold State.pairsDue
  refine foldl_ind (P := Onward _ _) ?_ _ _ ?_
  · intro x1 x2 h3
    exact State.pairDue_on (hm.of rfl) _ _ h3
  · exact h

theorem execAtIssue_on {m : Nat} (hm : Covers 0x21943f02a m) {s0 : State} (a1) (s : State) (h : Onward m s0 s) :
    Onward.O m s0 (execAtIssue a1 s) := by
  unfold execAtIssue
  exact State.pairDue_on (hm.of rfl) _ _ h

theorem State.giveTags_on {m : Nat} (hm : Covers 0x20943f02a m) {s0 : State} (s : State) (h : Onward m s0 s) :
    Onward m s0 (State.giveTags s) := by
  unfold State.giveTags
  refine foldl_ind (P := Onward _ _) ?_ _ _ ?_
  · intro x1 x2 h3
    refine ite_ind (P := Onward _ _) ?_ ?_
    · exact h3
    · extract_lets +onlyGivenNames x4
      refine ite_ind (P := Onward _ _) ?_ ?_
      · exact State.cursorThen_on (hm.of rfl) _ _ (State.setOp_on (hm.of rfl) _ _ h3)
      · exact State.wake_on (hm.of rfl) _ _ _ (State.translate_on (hm.of rfl) _ _ (State.setOp_on (hm.of rfl) _ _ h3))
  · exact h

theorem State.askAgain_on {m : Nat} (hm : Covers 0x20943f02a m) {s0 : State} (s : State) (h : Onward m s0 s) :
    Onward m s0 (State.askAgain s) := by
  unfold State.askAgain
  extract_lets +onlyGivenNames x1
  have h2 : Onward m s0 x1 := by
    unfold x1
    exact State.giveTags_on (hm.of rfl) _ h
  clear_value x1
  refine foldl_ind (P := Onward _ _) ?_ _ _ ?_
  · intro x3 x4 h5
    split
    · exact h5
    · refine ite_ind (P := Onward _ _) ?_ ?_
      · exact h5
      · refine ite_ind (P := Onward _ _) ?_ ?_
        · exact State.cursorThen_on (hm.of rfl) _ _ h5
        · refine ite_ind (P := Onward _ _) ?_ ?_
          · exact h5
          · exact State.translate_on (hm.of rfl) _ _ h5
  · exact h2

theorem State.serveOp_on {m : Nat} (hm : Covers 0x219cfb7ea m) {s0 : State} (s : State) (a2) (h : Onward m s0 s) :
    Onward m s0 (State.serveOp s a2) := by
  unfold State.serveOp
  refine ite_ind (P := Onward _ _) ?_ ?_
  · exact State.joinRange_on (hm.of rfl) _ _ h
  · refine ite_ind (P := Onward _ _) ?_ ?_
    · exact State.toSite_on (hm.of rfl) _ _ h
    · split
      · exact h
      · rename_i v4 e5
        have h6 : Onward m s0 v4 := Onward.eqM e5 (State.perform_on (hm.of rfl) _ _ h)
        split
        · exact State.complete_on (hm.of rfl) _ _ h6
        · exact h6

theorem execOperationComplete_on {m : Nat} (hm : Covers 0x219cff7ea m) {s0 : State} (a1) (s : State) (h : Onward m s0 s) :
    Onward.O m s0 (execOperationComplete a1 s) := by
  unfold execOperationComplete
  split
  · exact h
  · refine ite_ind (P := Onward.O _ _) ?_ ?_
    · exact h
    · split
      · exact State.slotFreed_on (hm.of rfl) _ _ _ (State.serveOp_on (hm.of rfl) _ _ h)
      · refine ite_ind (P := Onward.O _ _) ?_ ?_
        · exact State.completeXfer_on (hm.of rfl) _ _ h
        · refine ite_ind (P := Onward.O _ _) ?_ ?_
          · exact State.finish_on (hm.of rfl) _ _ _ _ _ h
          · exact State.slotFreed_on (hm.of rfl) _ _ _ (State.complete_on (hm.of rfl) _ _ h)
      · exact h

theorem execChunkCommit_on {m : Nat} (hm : Covers 0x219cee7ee m) {s0 : State} (a1) (a2) (s : State) (h : Onward m s0 s) :
    Onward.O m s0 (execChunkCommit a1 a2 s) := by
  unfold execChunkCommit
  split
  · exact h
  · extract_lets +onlyGivenNames x6
    refine ite_ind (P := Onward.O _ _) ?_ ?_
    · exact h
    · refine ite_ind (P := Onward.O _ _) ?_ ?_
      · exact State.tryRemote_on (hm.of rfl) _ _ _ h
      · exact State.tryChunk_on (hm.of rfl) _ _ _ h

theorem execTransferPark_on {m : Nat} (hm : Covers 0x1cfe7ea m) {s0 : State} (a1) (s : State) (h : Onward m s0 s) :
    Onward.O m s0 (execTransferPark a1 s) := by
  unfold execTransferPark
  split
  · exact h
  · refine ite_ind (P := Onward.O _ _) ?_ ?_
    · exact h
    · exact State.park_on (hm.of rfl) _ _ h

theorem execSelectionStoreGrant_on {m : Nat} (hm : Covers 0xc000 m) {s0 : State} (a1) (a2) (s : State) (h : Onward m s0 s) :
    Onward.O m s0 (execSelectionStoreGrant a1 a2 s) := by
  unfold execSelectionStoreGrant
  split
  · exact h
  · refine ite_ind (P := Onward.O _ _) ?_ ?_
    · exact h
    · exact State.takeSel_on (hm.of rfl) _ _ (State.setOp_on (hm.of rfl) _ _ h)

theorem execDetachedComplete_on {m : Nat} (hm : Covers 0x11cea7ea m) {s0 : State} (a1) (s : State) (h : Onward m s0 s) :
    Onward.O m s0 (execDetachedComplete a1 s) := by
  unfold execDetachedComplete
  split
  · exact h
  · refine ite_ind (P := Onward.O _ _) ?_ ?_
    · exact h
    · split
      · exact h
      · exact State.pruneTickets_on (hm.of rfl) _ (State.dropOp_on (hm.of rfl) _ _ h)
      · extract_lets +onlyGivenNames x13
        have h14 : Onward m s0 x13 := by
          unfold x13
          split
          · refine Onward.snd ?_
            refine Onward.sndT ?_
            exact State.update_on (hm.of rfl) _ _ _ _ _ _ _ _ _ _ h
          · exact h
        clear_value x13
        refine Onward.next ?_
        refine State.pruneTickets_on (hm.of rfl) _ ?_
        refine State.dropOp_on (hm.of rfl) _ _ ?_
        refine Onward.snd ?_
        refine Onward.sndT ?_
        exact State.update_on (hm.of rfl) _ _ _ _ _ _ _ _ _ _ h14

end Sys2Proof.Machine
end

