-- ==== Sys2Proof/Laws/OnFabric.lean ====
section
/-! SUPPORT. Laws/OnFabric.lean: what mailboxes, sites, Bells, Drovers and the fabric commands keep. -/
set_option maxRecDepth 4000
namespace Sys2Proof.Machine

theorem State.setMbox_on {m : Nat} (hm : Covers 0x800000000 m) {s0 : State} (s : State) (a2) (a3) (h : Onward m s0 s) :
    Onward m s0 (State.setMbox s a2 a3) := by
  unfold State.setMbox
  exact Onward.trans h (Onward.frame hm rfl rfl rfl rfl rfl rfl (fun w => ⟨w.1, w.2, w.3, w.4, w.5, w.6, w.7, w.8, w.9, w.10, w.11, w.12, w.13, w.14, Tab.wf_put _ _ _ _ w.15, w.16, w.17, w.18, w.19, w.20, w.21, w.22, w.23, w.24⟩)
    (fun p e => by cases p <;> first | exact absurd e (by decide) | rfl))

theorem State.setMboxRegs_on {m : Nat} (hm : Covers 0x8 m) {s0 : State} (s : State) (a2) (a3) (h : Onward m s0 s) :
    Onward m s0 (State.setMboxRegs s a2 a3) := by
  unfold State.setMboxRegs
  refine foldl_ind (P := Onward _ _) ?_ _ _ ?_
  · intro x1 x2 h3
    exact State.setReg_on (hm.of rfl) _ _ _ h3
  · exact h

theorem State.postEnds_on {m : Nat} (hm : Covers 0xa0000000a m) {s0 : State} (s : State) (a2) (a3) (h : Onward m s0 s) :
    Onward m s0 (State.postEnds s a2 a3) := by
  unfold State.postEnds
  extract_lets +onlyGivenNames x1 x2
  have h3 : Onward m s0 x2 := by
    unfold x2
    exact State.setMbox_on (hm.of rfl) _ _ _ (State.wr_on (hm.of rfl) _ _ _ h)
  clear_value x2
  split
  · exact State.siteDone_on (hm.of rfl) _ _ _ _ _ _ h3
  · exact h3

theorem State.postIn_on {m : Nat} (hm : Covers 0xa0100000a m) {s0 : State} (s : State) (a2) (a3) (a4) (a5) (h : Onward m s0 s) :
    Onward m s0 (State.postIn s a2 a3 a4 a5) := by
  unfold State.postIn
  extract_lets +onlyGivenNames x1
  have h2 : Onward m s0 x1 := by
    unfold x1
    refine ite_ind (P := Onward _ _) ?_ ?_
    · exact State.wr_on (hm.of rfl) _ _ _ (State.postEnds_on (hm.of rfl) _ _ _ h)
    · exact h
  clear_value x1
  extract_lets +onlyGivenNames x3
  have h4 : Onward m s0 x3 := by
    unfold x3
    exact State.wr_on (hm.of rfl) _ _ _ (State.wr_on (hm.of rfl) _ _ _ (State.wr_on (hm.of rfl) _ _ _ (State.setMboxRegs_on (hm.of rfl) _ _ _ h2)))
  clear_value x3
  exact State.irq_on (hm.of rfl) _ _ (State.setMbox_on (hm.of rfl) _ _ _ (State.inc_on (hm.of rfl) _ _ _ h4))

theorem execMboxAck_on {m : Nat} (hm : Covers 0xa0000000a m) {s0 : State} (a1) (s : State) (h : Onward m s0 s) :
    Onward.O m s0 (execMboxAck a1 s) := by
  unfold execMboxAck
  refine ite_ind (P := Onward.O _ _) ?_ ?_
  · exact State.wr_on (hm.of rfl) _ _ _ (State.postEnds_on (hm.of rfl) _ _ _ h)
  · exact h

theorem State.mboxSend_on {m : Nat} (hm : Covers 0x20800000a m) {s0 : State} (s : State) (a2) (a3) (h : Onward m s0 s) :
    Onward m s0 (State.mboxSend s a2 a3) := by
  unfold State.mboxSend
  split
  · extract_lets +onlyGivenNames x10 x11 x12
    exact State.sendSlp_on (hm.of rfl) _ _ _ _ (State.wr_on (hm.of rfl) _ _ _ (Onward.trans h (Onward.frame hm rfl rfl rfl rfl rfl rfl (fun w => ⟨w.1, w.2, w.3, w.4, w.5, w.6, w.7, w.8, w.9, w.10, w.11, w.12, w.13, w.14, w.15, w.16, w.17, w.18, w.19, w.20, w.21, w.22, w.23, w.24⟩)
    (fun p e => by cases p <;> first | exact absurd e (by decide) | rfl))))
  · exact State.wr_on (hm.of rfl) _ _ _ h
  · exact h

theorem State.mboxStart_on {m : Nat} (hm : Covers 0xa0800000a m) {s0 : State} (s : State) (a2) (a3) (a4) (h : Onward m s0 s) :
    Onward m s0 (State.mboxStart s a2 a3 a4) := by
  unfold State.mboxStart
  extract_lets +onlyGivenNames x1
  refine ite_ind (P := Onward _ _) ?_ ?_
  · exact State.wr_on (hm.of rfl) _ _ _ h
  · refine ite_ind (P := Onward _ _) ?_ ?_
    · refine ite_ind (P := Onward _ _) ?_ ?_
      · exact State.wr_on (hm.of rfl) _ _ _ (State.setMbox_on (hm.of rfl) _ _ _ h)
      · exact State.wr_on (hm.of rfl) _ _ _ h
    · refine ite_ind (P := Onward _ _) ?_ ?_
      · exact State.wr_on (hm.of rfl) _ _ _ h
      · exact State.mboxSend_on (hm.of rfl) _ _ _ (State.setMbox_on (hm.of rfl) _ _ _ h)

theorem State.mboxDone_on {m : Nat} (hm : Covers 0xa0800000a m) {s0 : State} (s : State) (a2) (a3) (a4) (h : Onward m s0 s) :
    Onward m s0 (State.mboxDone s a2 a3 a4) := by
  unfold State.mboxDone
  extract_lets +onlyGivenNames x1 x2
  have h3 : Onward m s0 x2 := by
    unfold x2
    exact State.wr_on (hm.of rfl) _ _ _ (State.wr_on (hm.of rfl) _ _ _ (State.setMbox_on (hm.of rfl) _ _ _ h))
  clear_value x2
  split
  · exact State.mboxStart_on (hm.of rfl) _ _ _ _ h3
  · exact h3

theorem State.mboxOut_on {m : Nat} (hm : Covers 0xa0800000a m) {s0 : State} (s : State) (a2) (a3) (a4) (a5) (h : Onward m s0 s) :
    Onward m s0 (State.mboxOut s a2 a3 a4 a5) := by
  unfold State.mboxOut
  extract_lets +onlyGivenNames x1 x2
  have h3 : Onward m s0 x2 := by
    unfold x2
    exact State.inc_on (hm.of rfl) _ _ _ (State.wr_on (hm.of rfl) _ _ _ (State.wr_on (hm.of rfl) _ _ _ h))
  clear_value x2
  extract_lets +onlyGivenNames x4
  refine ite_ind (P := Onward _ _) ?_ ?_
  · extract_lets +onlyGivenNames x5
    have h6 : Onward m s0 x5 := by
      unfold x5
      refine ite_ind (P := Onward _ _) ?_ ?_
      · exact State.wr_on (hm.of rfl) _ _ _ h3
      · exact h3
    clear_value x5
    exact State.wr_on (hm.of rfl) _ _ _ (State.setMbox_on (hm.of rfl) _ _ _ h6)
  · exact State.mboxStart_on (hm.of rfl) _ _ _ _ h3

theorem State.mboxReply_on {m : Nat} (hm : Covers 0xa0800000a m) {s0 : State} (s : State) (a2) (a3) (a4) (h : Onward m s0 s) :
    Onward m s0 (State.mboxReply s a2 a3 a4) := by
  unfold State.mboxReply
  refine ite_ind (P := Onward _ _) ?_ ?_
  · exact State.wr_on (hm.of rfl) _ _ _ h
  · exact State.mboxDone_on (hm.of rfl) _ _ _ _ h

theorem State.mboxRetry_on {m : Nat} (hm : Covers 0x20800000a m) {s0 : State} (s : State) (h : Onward m s0 s) :
    Onward m s0 (State.mboxRetry s) := by
  unfold State.mboxRetry
  refine foldl_ind (P := Onward _ _) ?_ _ _ ?_
  · intro x1 x2 h3
    split
    · exact h3
    · extract_lets +onlyGivenNames x9
      refine ite_ind (P := Onward _ _) ?_ ?_
      · exact State.mboxSend_on (hm.of rfl) _ _ _ h3
      · exact h3
  · exact h

theorem State.mboxClear_on {m : Nat} (hm : Covers 0xa0000000a m) {s0 : State} (s : State) (a2) (h : Onward m s0 s) :
    Onward m s0 (State.mboxClear s a2) := by
  unfold State.mboxClear
  extract_lets +onlyGivenNames x1 x2 x3
  have h4 : Onward m s0 x3 := by
    unfold x3
    refine ite_ind (P := Onward _ _) ?_ ?_
    · exact State.postEnds_on (hm.of rfl) _ _ _ h
    · exact h
  clear_value x3
  exact State.wr_on (hm.of rfl) _ _ _ (State.setMboxRegs_on (hm.of rfl) _ _ _ (State.setMbox_on (hm.of rfl) _ _ _ h4))

theorem State.mboxSiteDown_on {m : Nat} (hm : Covers 0xa0000000a m) {s0 : State} (s : State) (a2) (h : Onward m s0 s) :
    Onward m s0 (State.mboxSiteDown s a2) := by
  unfold State.mboxSiteDown
  refine foldl_ind (P := Onward _ _) ?_ _ _ ?_
  · intro x1 x2 h3
    refine ite_ind (P := Onward _ _) ?_ ?_
    · refine ite_ind (P := Onward _ _) ?_ ?_
      · exact State.wr_on (hm.of rfl) _ _ _ (State.setMbox_on (hm.of rfl) _ _ _ h3)
      · exact h3
    · exact State.mboxClear_on (hm.of rfl) _ _ h3
  · exact h

theorem State.mboxSiteUp_on {m : Nat} (hm : Covers 0xa0800000a m) {s0 : State} (s : State) (a2) (h : Onward m s0 s) :
    Onward m s0 (State.mboxSiteUp s a2) := by
  unfold State.mboxSiteUp
  refine foldl_ind (P := Onward _ _) ?_ _ _ ?_
  · intro x1 x2 h3
    refine ite_ind (P := Onward _ _) ?_ ?_
    · exact h3
    · refine ite_ind (P := Onward _ _) ?_ ?_
      · exact State.mboxSend_on (hm.of rfl) _ _ _ h3
      · exact State.mboxDone_on (hm.of rfl) _ _ _ _ h3
  · exact h

theorem State.mboxRestart_on {m : Nat} (hm : Covers 0xa0100000a m) {s0 : State} (s : State) (h : Onward m s0 s) :
    Onward m s0 (State.mboxRestart s) := by
  unfold State.mboxRestart
  refine foldl_ind (P := Onward _ _) ?_ _ _ ?_
  · intro x1 x2 h3
    refine ite_ind (P := Onward _ _) ?_ ?_
    · exact State.mboxClear_on (hm.of rfl) _ _ h3
    · refine ite_ind (P := Onward _ _) ?_ ?_
      · exact State.irq_on (hm.of rfl) _ _ h3
      · exact h3
  · exact h

theorem State.mboxModuleReset_on {m : Nat} (hm : Covers 0xa0000000a m) {s0 : State} (s : State) (h : Onward m s0 s) :
    Onward m s0 (State.mboxModuleReset s) := by
  unfold State.mboxModuleReset
  refine foldl_ind (P := Onward _ _) ?_ _ _ ?_
  · intro x1 x2 h3
    exact State.mboxClear_on (hm.of rfl) _ _ h3
  · exact h

theorem execMboxGo_on {m : Nat} (hm : Covers 0xa0900000a m) {s0 : State} (a1) (a2) (a3) (a4) (s : State) (h : Onward m s0 s) :
    Onward.O m s0 (execMboxGo a1 a2 a3 a4 s) := by
  unfold execMboxGo
  extract_lets +onlyGivenNames x1 x2 x3
  refine ite_ind (P := Onward.O _ _) ?_ ?_
  · exact h
  · refine ite_ind (P := Onward.O _ _) ?_ ?_
    · exact State.wr_on (hm.of rfl) _ _ _ h
    · split
      · exact State.mboxOut_on (hm.of rfl) _ _ _ _ _ h
      · exact State.postIn_on (hm.of rfl) _ _ _ _ _ h

theorem State.holdSite_on {m : Nat} (hm : Covers 0x400000000 m) {s0 : State} (s : State) (a2) (h : Onward m s0 s) :
    Onward m s0 (State.holdSite s a2) := by
  unfold State.holdSite
  exact Onward.trans h (Onward.frame hm rfl rfl rfl rfl rfl rfl (fun w => ⟨w.1, w.2, w.3, w.4, w.5, w.6, w.7, w.8, w.9, w.10, w.11, w.12, w.13, w.14, w.15, w.16, w.17, w.18, w.19, w.20, w.21, w.22, w.23, w.24⟩)
    (fun p e => by cases p <;> first | exact absurd e (by decide) | rfl))

theorem State.siteStore_on {m : Nat} (hm : Covers 0x1cc07ea m) {s0 : State} (s : State) (a2) (a3) (h : Onward m s0 s) :
    Onward m s0 (State.siteStore s a2 a3) := by
  unfold State.siteStore
  extract_lets +onlyGivenNames x1 x2
  refine ite_ind (P := Onward _ _) ?_ ?_
  · exact State.writeBytes_on (hm.of rfl) _ _ _ _ _ _ h
  · refine foldl_ind (P := Onward _ _) ?_ _ _ ?_
    · intro x3 x4 h5
      exact State.writeBytes_on (hm.of rfl) _ _ _ _ _ _ h5
    · exact h

theorem State.siteAccumulate_on {m : Nat} (hm : Covers 0x1cc07ea m) {s0 : State} (s : State) (a2) (a3) (a4) (h : Onward m s0 s) :
    Onward.P m s0 (State.siteAccumulate s a2 a3 a4) := by
  unfold State.siteAccumulate
  extract_lets +onlyGivenNames x1 x2 x3
  have h4 : ∀ u5, Onward.P m s0 u5 → ∀ u6, Onward.P m s0 (x3 u5 u6) := by
    intro x7 hh x8
    unfold x3
    split
    extract_lets +onlyGivenNames x13
    split
    rename_i v16 e17
    have h18 : Onward m s0 v16 := by
      refine Onward.eqP e17 ?_
      refine State.accumulate_on (hm.of rfl) _ _ _ _ _ _ _ _ ?_
      refine Onward.snd ?_
      exact hh
    exact h18
  clear_value x3
  refine foldl_ind (P := Onward.P _ _) ?_ _ _ ?_
  · intro x19 x20 h21
    exact h4 _ h21 _
  · exact h

theorem State.siteAccess_on {m : Nat} (hm : Covers 0x211cc27ea m) {s0 : State} (s : State) (a2) (h : Onward m s0 s) :
    Onward m s0 (State.siteAccess s a2) := by
  unfold State.siteAccess
  extract_lets +onlyGivenNames x1 x2 x3 x4 x5 x6
  refine ite_ind (P := Onward _ _) ?_ ?_
  · extract_lets +onlyGivenNames x7 x8 x9 x10
    exact State.siteReply_on (hm.of rfl) _ _ _ _ _ _ _ _ _ (State.touch_on (hm.of rfl) _ _ _ _ _ _ _ h)
  · refine ite_ind (P := Onward _ _) ?_ ?_
    · exact State.siteDone_on (hm.of rfl) _ _ _ _ _ _ (State.siteStore_on (hm.of rfl) _ _ _ h)
    · refine ite_ind (P := Onward _ _) ?_ ?_
      · extract_lets +onlyGivenNames x11 x12
        split
        rename_i v16 e17
        have h18 : Onward m s0 v16 := Onward.eqT e17 (State.update_on (hm.of rfl) _ _ _ _ _ _ _ _ _ _ h)
        exact State.siteReply_on (hm.of rfl) _ _ _ _ _ _ _ _ _ h18
      · split
        rename_i v21 e22
        have h23 : Onward m s0 v21 := Onward.eqP e22 (State.siteAccumulate_on (hm.of rfl) _ _ _ _ h)
        exact State.siteDone_on (hm.of rfl) _ _ _ _ _ _ h23

theorem State.siteServe_on {m : Nat} (hm : Covers 0x611cc37ea m) {s0 : State} (s : State) (a2) (h : Onward m s0 s) :
    Onward m s0 (State.siteServe s a2) := by
  unfold State.siteServe
  extract_lets +onlyGivenNames x1 x2 x3 x4
  refine ite_ind (P := Onward _ _) ?_ ?_
  · extract_lets +onlyGivenNames x5
    refine ite_ind (P := Onward _ _) ?_ ?_
    · exact State.siteDone_on (hm.of rfl) _ _ _ _ _ _ h
    · refine ite_ind (P := Onward _ _) ?_ ?_
      · exact State.holdSite_on (hm.of rfl) _ _ h
      · extract_lets +onlyGivenNames x6
        exact State.setRangeQ_on (hm.of rfl) _ _ _ h
  · split
    · exact State.holdSite_on (hm.of rfl) _ _ h
    · exact State.siteFails_on (hm.of rfl) _ _ _ _ _ _ _ h
    · exact State.siteAccess_on (hm.of rfl) _ _ h

theorem State.retrySites_on {m : Nat} (hm : Covers 0x611cc37ea m) {s0 : State} (s : State) (h : Onward m s0 s) :
    Onward m s0 (State.retrySites s) := by
  unfold State.retrySites
  refine foldl_ind (P := Onward _ _) ?_ _ _ ?_
  · intro x1 x2 h3
    exact State.siteServe_on (hm.of rfl) _ _ h3
  · exact Onward.trans h (Onward.frame hm rfl rfl rfl rfl rfl rfl (fun w => ⟨w.1, w.2, w.3, w.4, w.5, w.6, w.7, w.8, w.9, w.10, w.11, w.12, w.13, w.14, w.15, w.16, w.17, w.18, w.19, w.20, w.21, w.22, w.23, w.24⟩)
    (fun p e => by cases p <;> first | exact absurd e (by decide) | rfl))

theorem State.siteArrives_on {m : Nat} (hm : Covers 0x200000002 m) {s0 : State} (s : State) (a2) (a3) (a4) (a5) (a6) (h : Onward m s0 s) (ha6 : ∀ y1, Onward m s0 y1 → Onward m s0 (a6 y1)) :
    Onward m s0 (State.siteArrives s a2 a3 a4 a5 a6) := by
  unfold State.siteArrives
  extract_lets +onlyGivenNames x1
  refine ite_ind (P := Onward _ _) ?_ ?_
  · exact h
  · extract_lets +onlyGivenNames x2
    have h3 : Onward m s0 x2 := by
      unfold x2
      exact State.tookSlp_on (hm.of rfl) _ _ _ _ _ h
    clear_value x2
    refine ite_ind (P := Onward _ _) ?_ ?_
    · refine ha6 _ ?_
      exact h3
    · exact State.siteFails_on (hm.of rfl) _ _ _ _ _ _ _ h3

theorem State.siteRefuses_on {m : Nat} (hm : Covers 0x20000000a m) {s0 : State} (s : State) (a2) (a3) (a4) (h : Onward m s0 s) :
    Onward m s0 (State.siteRefuses s a2 a3 a4) := by
  unfold State.siteRefuses
  exact State.siteFails_on (hm.of rfl) _ _ _ _ _ _ _ (State.inc_on (hm.of rfl) _ _ _ h)

theorem State.siteMem_on {m : Nat} (hm : Covers 0x611cc37ea m) {s0 : State} (s : State) (a2) (a3) (h : Onward m s0 s) :
    Onward m s0 (State.siteMem s a2 a3) := by
  unfold State.siteMem
  extract_lets +onlyGivenNames x1
  split
  · exact State.siteRefuses_on (hm.of rfl) _ _ _ _ h
  · extract_lets +onlyGivenNames x7 x8
    refine ite_ind (P := Onward _ _) ?_ ?_
    · exact State.siteRefuses_on (hm.of rfl) _ _ _ _ h
    · refine ite_ind (P := Onward _ _) ?_ ?_
      · exact State.siteFails_on (hm.of rfl) _ _ _ _ _ _ _ h
      · exact State.siteServe_on (hm.of rfl) _ _ h

theorem execSiteRead_on {m : Nat} (hm : Covers 0x611cc37ea m) {s0 : State} (a1) (s : State) (h : Onward m s0 s) :
    Onward.O m s0 (execSiteRead a1 s) := by
  unfold execSiteRead
  refine Onward.next ?_
  refine State.siteArrives_on (hm.of rfl) _ _ _ _ _ _ ?_ ?_
  · exact h
  · intro x1 h2
    exact State.siteMem_on (hm.of rfl) _ _ _ h2

theorem execSiteWrite_on {m : Nat} (hm : Covers 0x611cc37ea m) {s0 : State} (a1) (s : State) (h : Onward m s0 s) :
    Onward.O m s0 (execSiteWrite a1 s) := by
  unfold execSiteWrite
  refine Onward.next ?_
  refine State.siteArrives_on (hm.of rfl) _ _ _ _ _ _ ?_ ?_
  · exact h
  · intro x1 h2
    exact State.siteMem_on (hm.of rfl) _ _ _ h2

theorem execSiteAtomic_on {m : Nat} (hm : Covers 0x611cc37ea m) {s0 : State} (a1) (s : State) (h : Onward m s0 s) :
    Onward.O m s0 (execSiteAtomic a1 s) := by
  unfold execSiteAtomic
  refine Onward.next ?_
  refine State.siteArrives_on (hm.of rfl) _ _ _ _ _ _ ?_ ?_
  · exact h
  · intro x1 h2
    exact State.siteMem_on (hm.of rfl) _ _ _ h2

theorem execSiteAccum_on {m : Nat} (hm : Covers 0x611cc37ea m) {s0 : State} (a1) (s : State) (h : Onward m s0 s) :
    Onward.O m s0 (execSiteAccum a1 s) := by
  unfold execSiteAccum
  refine Onward.next ?_
  refine State.siteArrives_on (hm.of rfl) _ _ _ _ _ _ ?_ ?_
  · exact h
  · intro x1 h2
    exact State.siteMem_on (hm.of rfl) _ _ _ h2

theorem execSiteSettle_on {m : Nat} (hm : Covers 0x611cc37ea m) {s0 : State} (a1) (s : State) (h : Onward m s0 s) :
    Onward.O m s0 (execSiteSettle a1 s) := by
  unfold execSiteSettle
  refine Onward.next ?_
  refine State.siteArrives_on (hm.of rfl) _ _ _ _ _ _ ?_ ?_
  · exact h
  · intro x1 h2
    exact State.siteMem_on (hm.of rfl) _ _ _ h2

theorem execSiteRange_on {m : Nat} (hm : Covers 0x611cc37ea m) {s0 : State} (a1) (s : State) (h : Onward m s0 s) :
    Onward.O m s0 (execSiteRange a1 s) := by
  unfold execSiteRange
  refine Onward.next ?_
  refine State.siteArrives_on (hm.of rfl) _ _ _ _ _ _ ?_ ?_
  · exact h
  · intro x1 h2
    exact State.siteMem_on (hm.of rfl) _ _ _ h2

theorem execBellMarker_on {m : Nat} (hm : Covers 0x100008 m) {s0 : State} (a1) (a2) (s : State) (h : Onward m s0 s) :
    Onward.O m s0 (execBellMarker a1 a2 s) := by
  unfold execBellMarker
  extract_lets +onlyGivenNames x1
  refine ite_ind (P := Onward.O _ _) ?_ ?_
  · exact h
  · extract_lets +onlyGivenNames x2 x3 x4
    have h5 : Onward m s0 x4 := by
      unfold x4
      exact State.setBellLogic_on (hm.of rfl) _ _ h
    clear_value x4
    refine ite_ind (P := Onward.O _ _) ?_ ?_
    · exact State.sat_on (hm.of rfl) _ _ _ (State.setBellLogic_on (hm.of rfl) _ _ h)
    · refine ite_ind (P := Onward.O _ _) ?_ ?_
      · exact State.sat_on (hm.of rfl) _ _ _ h5
      · refine ite_ind (P := Onward.O _ _) ?_ ?_
        · exact h5
        · extract_lets +onlyGivenNames x6 x7
          have h8 : Onward m s0 x7 := by
            unfold x7
            exact State.setBellLogic_on (hm.of rfl) _ _ h
          clear_value x7
          refine Onward.next ?_
          refine ite_ind (P := Onward _ _) ?_ ?_
          · exact State.wr_on (hm.of rfl) _ _ _ h8
          · exact h8

theorem State.follow_on {m : Nat} (hm : Covers 0x8 m) {s0 : State} (s : State) (a2) (h : Onward m s0 s) :
    Onward m s0 (State.follow s a2) := by
  unfold State.follow
  extract_lets +onlyGivenNames x1
  exact State.wr_on (hm.of rfl) _ _ _ (State.wr_on (hm.of rfl) _ _ _ (State.wr_on (hm.of rfl) _ _ _ (State.wr_on (hm.of rfl) _ _ _ h)))

theorem State.countMarkers_on {m : Nat} (hm : Covers 0x100008 m) {s0 : State} (s : State) (h : Onward m s0 s) :
    Onward m s0 (State.countMarkers s) := by
  unfold State.countMarkers
  extract_lets +onlyGivenNames x1
  have h2 : Onward m s0 x1 := by
    unfold x1
    refine eachUpTo_ind (P := Onward _ _) _ _ ?_ ?_
    · exact h
    · intro x3 x4 h5
      extract_lets +onlyGivenNames x6
      refine ite_ind (P := Onward _ _) ?_ ?_
      · extract_lets +onlyGivenNames x7
        exact State.setBellLogic_on (hm.of rfl) _ _ h5
      · extract_lets +onlyGivenNames x8 x9
        have h10 : Onward m s0 x9 := by
          unfold x9
          exact State.setBellLogic_on (hm.of rfl) _ _ h5
        clear_value x9
        refine ite_ind (P := Onward _ _) ?_ ?_
        · exact State.sat_on (hm.of rfl) _ _ _ h10
        · exact h10
  clear_value x1
  exact State.setBellLogic_on (hm.of rfl) _ _ h2

theorem State.enterUnlocked_on {m : Nat} (hm : Covers 0x21152a00a m) {s0 : State} (s : State) (h : Onward m s0 s) :
    Onward m s0 (State.enterUnlocked s) := by
  unfold State.enterUnlocked
  extract_lets +onlyGivenNames x1
  have h2 : Onward m s0 x1 := by
    unfold x1
    exact State.cancelGates_on (hm.of rfl) _ (State.setLock_on (hm.of rfl) _ _ h)
  clear_value x1
  extract_lets +onlyGivenNames x3
  have h4 : Onward m s0 x3 := by
    unfold x3
    refine foldl_ind (P := Onward _ _) ?_ _ _ ?_
    · intro x5 x6 h7
      exact State.finish_on (hm.of rfl) _ _ _ _ _ h7
    · exact h2
  clear_value x3
  extract_lets +onlyGivenNames x8
  have h9 : Onward m s0 x8 := by
    unfold x8
    exact Onward.trans h4 (Onward.frame hm rfl rfl rfl rfl rfl rfl (fun w => ⟨w.1, w.2, w.3, w.4, w.5, w.6, w.7, w.8, w.9, w.10, w.11, w.12, w.13, w.14, w.15, w.16, w.17, w.18, w.19, w.20, w.21, w.22, w.23, w.24⟩)
    (fun p e => by cases p <;> first | exact absurd e (by decide) | rfl))
  clear_value x8
  extract_lets +onlyGivenNames x10
  have h11 : Onward m s0 x10 := by
    unfold x10
    refine eachUpTo_ind (P := Onward _ _) _ _ ?_ ?_
    · exact h9
    · intro x12 x13 h14
      exact State.setPort_on (hm.of rfl) _ _ _ h14
  clear_value x10
  exact State.wakeAll_on (hm.of rfl) _ h11

theorem State.holdoverDue_on {m : Nat} (hm : Covers 0x21152a00a m) {s0 : State} (s : State) (h : Onward m s0 s) :
    Onward m s0 (State.holdoverDue s) := by
  unfold State.holdoverDue
  refine ite_ind (P := Onward _ _) ?_ ?_
  · exact State.enterUnlocked_on (hm.of rfl) _ h
  · exact h

theorem State.takeoverDue_on {m : Nat} (hm : Covers 0x20150000a m) {s0 : State} (s : State) (h : Onward m s0 s) :
    Onward m s0 (State.takeoverDue s) := by
  unfold State.takeoverDue
  refine ite_ind (P := Onward _ _) ?_ ?_
  · exact State.becomeBellwether_on (hm.of rfl) _ h
  · exact h

theorem State.qualifyDue_on {m : Nat} (hm : Covers 0x8 m) {s0 : State} (s : State) (h : Onward m s0 s) :
    Onward m s0 (State.qualifyDue s) := by
  unfold State.qualifyDue
  refine ite_ind (P := Onward _ _) ?_ ?_
  · exact State.wr_on (hm.of rfl) _ _ _ h
  · exact h

theorem execHoldoverExpiry_on {m : Nat} (hm : Covers 0x21152a00a m) {s0 : State} (s : State) (h : Onward m s0 s) :
    Onward.O m s0 (execHoldoverExpiry s) := by
  unfold execHoldoverExpiry
  exact State.holdoverDue_on (hm.of rfl) _ h

theorem execStandbyTakeover_on {m : Nat} (hm : Covers 0x20150000a m) {s0 : State} (s : State) (h : Onward m s0 s) :
    Onward.O m s0 (execStandbyTakeover s) := by
  unfold execStandbyTakeover
  exact State.takeoverDue_on (hm.of rfl) _ h

theorem execAcquireTimeout_on {m : Nat} (hm : Covers 0x21152a00a m) {s0 : State} (s : State) (h : Onward m s0 s) :
    Onward.O m s0 (execAcquireTimeout s) := by
  unfold execAcquireTimeout
  refine ite_ind (P := Onward.O _ _) ?_ ?_
  · exact State.enterUnlocked_on (hm.of rfl) _ h
  · exact h

theorem execSchedOkQualify_on {m : Nat} (hm : Covers 0x8 m) {s0 : State} (s : State) (h : Onward m s0 s) :
    Onward.O m s0 (execSchedOkQualify s) := by
  unfold execSchedOkQualify
  exact State.qualifyDue_on (hm.of rfl) _ h

theorem State.setCount_on {m : Nat} (hm : Covers 0x8 m) {s0 : State} (s : State) (a2) (h : Onward m s0 s) :
    Onward m s0 (State.setCount s a2) := by
  unfold State.setCount
  exact State.setReg_on (hm.of rfl) _ _ _ h

theorem State.slew_on {m : Nat} (hm : Covers 0x100000 m) {s0 : State} (s : State) (h : Onward m s0 s) :
    Onward m s0 (State.slew s) := by
  unfold State.slew
  extract_lets +onlyGivenNames x1
  exact State.setBellLogic_on (hm.of rfl) _ _ h

theorem State.tickLock_on {m : Nat} (hm : Covers 0x20150000a m) {s0 : State} (s : State) (h : Onward m s0 s) :
    Onward m s0 (State.tickLock s) := by
  unfold State.tickLock
  extract_lets +onlyGivenNames x1
  have h2 : Onward m s0 x1 := by
    unfold x1
    exact State.countMarkers_on (hm.of rfl) _ h
  clear_value x1
  extract_lets +onlyGivenNames x3 x4 x5
  have h6 : Onward m s0 x5 := by
    unfold x5
    exact State.setCount_on (hm.of rfl) _ _ h2
  clear_value x5
  refine ite_ind (P := Onward _ _) ?_ ?_
  · exact h6
  · refine ite_ind (P := Onward _ _) ?_ ?_
    · extract_lets +onlyGivenNames x7 x8
      have h9 : Onward m s0 x8 := by
        unfold x8
        exact State.setBellLogic_on (hm.of rfl) _ _ h6
      clear_value x8
      refine ite_ind (P := Onward _ _) ?_ ?_
      · refine State.slew_on (hm.of rfl) _ ?_
        refine ite_ind (P := Onward _ _) ?_ ?_
        · exact State.wr_on (hm.of rfl) _ _ _ h9
        · exact h9
      · split
        · exact State.sat_on (hm.of rfl) _ _ _ (State.follow_on (hm.of rfl) _ _ h9)
        · exact State.setLock_on (hm.of rfl) _ _ h9
    · refine ite_ind (P := Onward _ _) ?_ ?_
      · split
        · exact State.setLock_on (hm.of rfl) _ _ (State.follow_on (hm.of rfl) _ _ (State.setBellLogic_on (hm.of rfl) _ _ h6))
        · exact State.setBellLogic_on (hm.of rfl) _ _ h6
      · refine ite_ind (P := Onward _ _) ?_ ?_
        · split
          · extract_lets +onlyGivenNames x23 x24 x25
            have h26 : Onward m s0 x25 := by
              unfold x25
              exact State.setLock_on (hm.of rfl) _ _ (State.follow_on (hm.of rfl) _ _ (State.setCount_on (hm.of rfl) _ _ h2))
            clear_value x25
            exact State.record_on (hm.of rfl) _ _ _ _ _ _ (State.setBellLogic_on (hm.of rfl) _ _ h26)
          · exact h6
        · refine ite_ind (P := Onward _ _) ?_ ?_
          · refine ite_ind (P := Onward _ _) ?_ ?_
            · exact State.becomeBellwether_on (hm.of rfl) _ (State.setCount_on (hm.of rfl) _ _ h2)
            · exact h2
          · split
            · exact State.setLock_on (hm.of rfl) _ _ (State.follow_on (hm.of rfl) _ _ (State.setCount_on (hm.of rfl) _ _ h2))
            · exact h2

theorem State.bellMessages_on {m : Nat} (hm : Covers 0x10000000 m) {s0 : State} (s : State) (a2) (h : Onward m s0 s) :
    Onward m s0 (State.bellMessages s a2) := by
  unfold State.bellMessages
  refine ite_ind (P := Onward _ _) ?_ ?_
  · exact h
  · extract_lets +onlyGivenNames x1 x2 x3 x4 x5 x6 x7 x8 x9
    exact State.setPort_on (hm.of rfl) _ _ _ h

theorem State.meshFlips_on {m : Nat} (hm : Covers 0x10000000 m) {s0 : State} (s : State) (h : Onward m s0 s) :
    Onward m s0 (State.meshFlips s) := by
  unfold State.meshFlips
  exact State.setFab_on (hm.of rfl) _ _ h

theorem State.repeatNotices_on {m : Nat} (hm : Covers 0x1140000a m) {s0 : State} (s : State) (h : Onward m s0 s) :
    Onward m s0 (State.repeatNotices s) := by
  unfold State.repeatNotices
  refine ite_ind (P := Onward _ _) ?_ ?_
  · exact h
  · refine eachUpTo_ind (P := Onward _ _) _ _ ?_ ?_
    · exact h
    · intro x1 x2 h3
      refine ite_ind (P := Onward _ _) ?_ ?_
      · exact State.thermalNotice_on (hm.of rfl) _ _ _ h3
      · exact h3

theorem State.holdSlot_on {m : Nat} (hm : Covers 0x2000 m) {s0 : State} (s : State) (a2) (h : Onward m s0 s) :
    Onward m s0 (State.holdSlot s a2) := by
  unfold State.holdSlot
  split
  · refine ite_ind (P := Onward _ _) ?_ ?_
    · exact State.setStrand_on (hm.of rfl) _ _ _ _ h
    · exact h
  · exact h

theorem State.reissue_on {m : Nat} (hm : Covers 0x20943b02a m) {s0 : State} (s : State) (a2) (a3) (a4) (a5) (a6) (a7) (h : Onward m s0 s) :
    Onward m s0 (State.reissue s a2 a3 a4 a5 a6 a7) := by
  unfold State.reissue
  split
  · exact h
  · extract_lets +onlyGivenNames x6 x7 x8
    have h9 : ∀ u10, Onward m s0 (x8 u10) := by
      intro x11
      unfold x8
      refine State.holdSlot_on (hm.of rfl) _ _ ?_
      refine ite_ind (P := Onward _ _) ?_ ?_
      · exact State.translate_on (hm.of rfl) _ _ h
      · exact State.putOp_on (hm.of rfl) _ _ h
    clear_value x8
    refine ite_ind (P := Onward _ _) ?_ ?_
    · extract_lets +onlyGivenNames x12
      refine h9 _
    · refine ite_ind (P := Onward _ _) ?_ ?_
      · extract_lets +onlyGivenNames x13
        refine h9 _
      · exact h

theorem State.begin_on {m : Nat} (hm : Covers 0x2000 m) {s0 : State} (s : State) (a2) (a3) (a4) (h : Onward m s0 s) :
    Onward m s0 (State.begin s a2 a3 a4) := by
  unfold State.begin
  extract_lets +onlyGivenNames x1
  exact State.setStrand_on (hm.of rfl) _ _ _ _ h

theorem State.rejoin_on {m : Nat} (hm : Covers 0x143e02a m) {s0 : State} (s : State) (a2) (a3) (a4) (a5) (a6) (h : Onward m s0 s) :
    Onward m s0 (State.rejoin s a2 a3 a4 a5 a6) := by
  unfold State.rejoin
  split
  · exact h
  · extract_lets +onlyGivenNames x6
    refine ite_ind (P := Onward _ _) ?_ ?_
    · exact State.cursorThen_on (hm.of rfl) _ _ h
    · exact State.putOp_on (hm.of rfl) _ _ h

theorem State.restoreCtx_on {m : Nat} (hm : Covers 0x20943f02a m) {s0 : State} (s : State) (a2) (a3) (a4) (h : Onward m s0 s) :
    Onward m s0 (State.restoreCtx s a2 a3 a4) := by
  unfold State.restoreCtx
  extract_lets +onlyGivenNames x1 x2 x3 x4 x5 x6 x7 x8 x9
  have h10 : Onward m s0 x9 := by
    unfold x9
    exact State.setStrand_on (hm.of rfl) _ _ _ _ h
  clear_value x9
  extract_lets +onlyGivenNames x11 x12
  have h13 : Onward m s0 x12 := by
    unfold x12
    refine ite_ind (P := Onward _ _) ?_ ?_
    · exact State.reissue_on (hm.of rfl) _ _ _ _ _ _ _ h10
    · exact h10
  clear_value x12
  extract_lets +onlyGivenNames x14
  have h15 : Onward m s0 x14 := by
    unfold x14
    refine foldl_ind (P := Onward _ _) ?_ _ _ ?_
    · intro x16 x17 h18
      exact State.rejoin_on (hm.of rfl) _ _ _ _ _ _ h18
    · exact h13
  clear_value x14
  extract_lets +onlyGivenNames x19
  have h20 : Onward m s0 x19 := by
    unfold x19
    refine foldl_ind (P := Onward _ _) ?_ _ _ ?_
    · intro x21 x22 h23
      exact State.rejoin_on (hm.of rfl) _ _ _ _ _ _ h23
    · exact h15
  clear_value x19
  refine ite_ind (P := Onward _ _) ?_ ?_
  · exact h20
  · exact State.strandFault_on (hm.of rfl) _ _ _ _ _ h20

theorem State.startRecord_on {m : Nat} (hm : Covers 0x24943f02e m) {s0 : State} (s : State) (a2) (a3) (a4) (h : Onward m s0 s) :
    Onward.P m s0 (State.startRecord s a2 a3 a4) := by
  unfold State.startRecord
  split
  extract_lets +onlyGivenNames x5
  have h6 : Onward m s0 x5 := by
    unfold x5
    exact State.taken_on (hm.of rfl) _ h
  clear_value x5
  refine ite_ind (P := Onward.P _ _) ?_ ?_
  · exact h6
  · extract_lets +onlyGivenNames x7 x8
    have h9 : Onward m s0 x8 := by
      unfold x8
      exact State.ungate_on (hm.of rfl) _ _ (State.setDrv_on (hm.of rfl) _ _ _ h6)
    clear_value x8
    refine Onward.pair ?_
    refine ite_ind (P := Onward _ _) ?_ ?_
    · exact State.restoreCtx_on (hm.of rfl) _ _ _ _ h9
    · exact State.begin_on (hm.of rfl) _ _ _ _ h9

theorem execDoorbellWindowSubmit_on {m : Nat} (hm : Covers 0x24943f02e m) {s0 : State} (a1) (a2) (a3) (s : State) (h : Onward m s0 s) :
    Onward.O m s0 (execDoorbellWindowSubmit a1 a2 a3 s) := by
  unfold execDoorbellWindowSubmit
  extract_lets +onlyGivenNames x1 x2
  refine ite_ind (P := Onward.O _ _) ?_ ?_
  · exact h
  · extract_lets +onlyGivenNames x3
    split
    rename_i v6 e7
    have h8 : Onward m s0 v6 := Onward.eqP e7 (State.startRecord_on (hm.of rfl) _ _ _ _ h)
    extract_lets +onlyGivenNames x9
    have h10 : Onward m s0 x9 := by
      unfold x9
      refine eachUpTo_ind (P := Onward _ _) _ _ ?_ ?_
      · exact h8
      · intro x11 x12 h13
        exact State.setReg_on (hm.of rfl) _ _ _ h13
    clear_value x9
    exact State.wr_on (hm.of rfl) _ _ _ (State.wr_on (hm.of rfl) _ _ _ (State.wr_on (hm.of rfl) _ _ _ h10))

theorem execPreempt_on {m : Nat} (hm : Covers 0x2008 m) {s0 : State} (a1) (a2) (a3) (s : State) (h : Onward m s0 s) :
    Onward.O m s0 (execPreempt a1 a2 a3 s) := by
  unfold execPreempt
  extract_lets +onlyGivenNames x1
  refine ite_ind (P := Onward.O _ _) ?_ ?_
  · exact h
  · refine Onward.next ?_
    refine foldl_ind (P := Onward _ _) ?_ _ _ ?_
    · intro x2 x3 h4
      extract_lets +onlyGivenNames x5
      refine ite_ind (P := Onward _ _) ?_ ?_
      · exact h4
      · refine ite_ind (P := Onward _ _) ?_ ?_
        · exact State.wrBit_on (hm.of rfl) _ _ _ _ h4
        · exact State.setStrand_on (hm.of rfl) _ _ _ _ h4
    · exact h

theorem State.yield_on {m : Nat} (hm : Covers 0x1cee7ea m) {s0 : State} (s : State) (a2) (h : Onward m s0 s) :
    Onward m s0 (State.yield s a2) := by
  unfold State.yield
  split
  · exact h
  · exact State.finishXfer_on (hm.of rfl) _ _ h
  · exact State.setOp_on (hm.of rfl) _ _ (State.writeCursor_on (hm.of rfl) _ _ _ _ _ _ (State.releaseSel_on (hm.of rfl) _ _ h))

theorem State.saveCtx_on {m : Nat} (hm : Covers 0x81cec7ea m) {s0 : State} (s : State) (a2) (a3) (a4) (a5) (a6) (h : Onward m s0 s) :
    Onward.P m s0 (State.saveCtx s a2 a3 a4 a5 a6) := by
  unfold State.saveCtx
  extract_lets +onlyGivenNames x1 x2 x3 x4 x5 x6 x7 x8 x9 x10 x11 x12
  have h13 : Onward m s0 x12 := by
    unfold x12
    refine ite_ind (P := Onward _ _) ?_ ?_
    · exact State.writeBytes_on (hm.of rfl) _ _ _ _ _ _ h
    · exact h
  clear_value x12
  extract_lets +onlyGivenNames x14 x15 x16
  refine Onward.pair ?_
  refine State.pruneTickets_on (hm.of rfl) _ ?_
  extract_lets +onlyGivenNames x17
  have h18 : Onward m s0 x17 := by
    unfold x17
    refine foldl_ind (P := Onward _ _) ?_ _ _ ?_
    · intro x19 x20 h21
      exact State.releaseSel_on (hm.of rfl) _ _ h21
    · exact h13
  clear_value x17
  exact Onward.trans h18 (Onward.frame hm rfl rfl rfl rfl rfl rfl (fun w => ⟨w.1, w.2, w.3, w.4, w.5, w.6, w.7, w.8, w.9, w.10, w.11, w.12, w.13, w.14, w.15, w.16, w.17, w.18, w.19, w.20, w.21, w.22, w.23, w.24⟩)
    (fun p e => by cases p <;> first | exact absurd e (by decide) | rfl))

theorem execContextSave_on {m : Nat} (hm : Covers 0x81cee7ea m) {s0 : State} (a1) (a2) (s : State) (h : Onward m s0 s) :
    Onward.O m s0 (execContextSave a1 a2 s) := by
  unfold execContextSave
  extract_lets +onlyGivenNames x1 x2 x3 x4
  refine ite_ind (P := Onward.O _ _) ?_ ?_
  · exact h
  · extract_lets +onlyGivenNames x5
    have h6 : Onward m s0 x5 := by
      unfold x5
      refine foldl_ind (P := Onward _ _) ?_ _ _ ?_
      · intro x7 x8 h9
        exact State.yield_on (hm.of rfl) _ _ h9
      · exact h
    clear_value x5
    refine ite_ind (P := Onward.O _ _) ?_ ?_
    · exact h6
    · split
      rename_i v12 e13
      have h14 : Onward m s0 v12 := Onward.eqP e13 (State.saveCtx_on (hm.of rfl) _ _ _ _ _ _ h6)
      extract_lets +onlyGivenNames x15
      have h16 : Onward m s0 x15 := by
        unfold x15
        exact State.setStrand_on (hm.of rfl) _ _ _ _ h14
      clear_value x15
      refine Onward.next ?_
      refine ite_ind (P := Onward _ _) ?_ ?_
      · exact State.irq_on (hm.of rfl) _ _ (State.wrBit_on (hm.of rfl) _ _ _ _ h16)
      · exact h16

theorem State.fenceRecord_on {m : Nat} (hm : Covers 0x140000a m) {s0 : State} (s : State) (a2) (h : Onward m s0 s) :
    Onward m s0 (State.fenceRecord s a2) := by
  unfold State.fenceRecord
  extract_lets +onlyGivenNames x1 x2
  exact State.record_on (hm.of rfl) _ _ _ _ _ _ h

theorem State.tallyCounts_on {m : Nat} (hm : Covers 0x8 m) {s0 : State} (s : State) (h : Onward m s0 s) :
    Onward m s0 (State.tallyCounts s) := by
  unfold State.tallyCounts
  extract_lets +onlyGivenNames x1 x2 x3 x4
  exact State.wr_on (hm.of rfl) _ _ _ (State.wr_on (hm.of rfl) _ _ _ (State.wr_on (hm.of rfl) _ _ _ (State.wr_on (hm.of rfl) _ _ _ h)))

theorem State.tallyFenced_on {m : Nat} (hm : Covers 0x1200008 m) {s0 : State} (s : State) (a2) (h : Onward m s0 s) :
    Onward m s0 (State.tallyFenced s a2) := by
  unfold State.tallyFenced
  extract_lets +onlyGivenNames x1 x2
  have h3 : Onward m s0 x2 := by
    unfold x2
    exact State.inc_on (hm.of rfl) _ _ _ h
  clear_value x2
  extract_lets +onlyGivenNames x4
  have h5 : Onward m s0 x4 := by
    unfold x4
    exact State.wr_on (hm.of rfl) _ _ _ (State.wr_on (hm.of rfl) _ _ _ h3)
  clear_value x4
  extract_lets +onlyGivenNames x6 x7
  have h8 : Onward m s0 x7 := by
    unfold x7
    refine ite_ind (P := Onward _ _) ?_ ?_
    · exact Onward.trans h5 (Onward.frame hm rfl rfl rfl rfl rfl rfl (fun w => ⟨w.1, w.2, w.3, w.4, w.5, w.6, w.7, w.8, w.9, w.10, w.11, w.12, w.13, w.14, w.15, w.16, w.17, w.18, w.19, w.20, w.21, w.22, w.23, w.24⟩)
    (fun p e => by cases p <;> first | exact absurd e (by decide) | rfl))
    · exact State.wr_on (hm.of rfl) _ _ _ h
  clear_value x7
  exact State.irq_on (hm.of rfl) _ _ (State.irq_on (hm.of rfl) _ _ (State.tallyCounts_on (hm.of rfl) _ h8))

theorem State.fenceDrover_on {m : Nat} (hm : Covers 0x162e00a m) {s0 : State} (s : State) (a2) (a3) (h : Onward m s0 s) :
    Onward m s0 (State.fenceDrover s a2 a3) := by
  unfold State.fenceDrover
  extract_lets +onlyGivenNames x1 x2
  refine ite_ind (P := Onward _ _) ?_ ?_
  · exact h
  · extract_lets +onlyGivenNames x3 x4 x5 x6 x7 x8 x9
    have h10 : Onward m s0 x9 := by
      unfold x9
      exact State.setDrv_on (hm.of rfl) _ _ _ (State.wr_on (hm.of rfl) _ _ _ (State.wr_on (hm.of rfl) _ _ _ h))
    clear_value x9
    extract_lets +onlyGivenNames x11
    have h12 : Onward m s0 x11 := by
      unfold x11
      refine eachUpTo_ind (P := Onward _ _) _ _ ?_ ?_
      · exact h10
      · intro x13 x14 h15
        exact State.setStrand_on (hm.of rfl) _ _ _ _ h15
    clear_value x11
    extract_lets +onlyGivenNames x16 x17 x18
    have h19 : Onward m s0 x18 := by
      unfold x18
      exact State.pruneTickets_on (hm.of rfl) _ (Onward.trans h12 (Onward.frame hm rfl rfl rfl rfl rfl rfl (fun w => ⟨w.1, w.2, w.3, w.4, w.5, w.6, w.7, w.8, w.9, w.10, w.11, w.12, w.13, w.14, w.15, w.16, w.17, w.18, w.19, w.20, w.21, w.22, w.23, w.24⟩)
    (fun p e => by cases p <;> first | exact absurd e (by decide) | rfl)))
    clear_value x18
    extract_lets +onlyGivenNames x20
    have h21 : Onward m s0 x20 := by
      unfold x20
      exact State.tallyFenced_on (hm.of rfl) _ _ h19
    clear_value x20
    refine ite_ind (P := Onward _ _) ?_ ?_
    · exact State.fenceRecord_on (hm.of rfl) _ _ h21
    · exact h21

theorem execDroverFence_on {m : Nat} (hm : Covers 0x162e00a m) {s0 : State} (a1) (a2) (s : State) (h : Onward m s0 s) :
    Onward.O m s0 (execDroverFence a1 a2 s) := by
  unfold execDroverFence
  extract_lets +onlyGivenNames x1
  refine Onward.next ?_
  refine ite_ind (P := Onward _ _) ?_ ?_
  · exact State.fenceDrover_on (hm.of rfl) _ _ _ h
  · exact h

theorem execWatchdogExpiry_on {m : Nat} (hm : Covers 0x162e00a m) {s0 : State} (a1) (s : State) (h : Onward m s0 s) :
    Onward.O m s0 (execWatchdogExpiry a1 s) := by
  unfold execWatchdogExpiry
  extract_lets +onlyGivenNames x1
  refine ite_ind (P := Onward.O _ _) ?_ ?_
  · exact State.fenceDrover_on (hm.of rfl) _ _ _ h
  · exact h

theorem execFencedContextSave_on {m : Nat} (hm : Covers 0x81cee7ea m) {s0 : State} (a1) (a2) (a3) (s : State) (h : Onward m s0 s) :
    Onward.O m s0 (execFencedContextSave a1 a2 a3 s) := by
  unfold execFencedContextSave
  extract_lets +onlyGivenNames x1 x2 x3
  refine ite_ind (P := Onward.O _ _) ?_ ?_
  · exact h
  · refine ite_ind (P := Onward.O _ _) ?_ ?_
    · exact h
    · split
      rename_i v6 e7
      have h8 : Onward m s0 v6 := by
        refine Onward.eqP e7 ?_
        refine foldl_ind (P := Onward.P _ _) ?_ _ _ ?_
        · intro x9 x10 h11
          refine ite_ind (P := Onward.P _ _) ?_ ?_
          · exact h11
          · split
            · refine Onward.pair ?_
              refine State.setOp_on (hm.of rfl) _ _ ?_
              refine State.writeCursor_on (hm.of rfl) _ _ _ _ _ _ ?_
              refine Onward.snd ?_
              exact h11
            · refine Onward.pair ?_
              refine Onward.snd ?_
              exact h11
        · exact h
      split
      rename_i v18 e19
      have h20 : Onward m s0 v18 := Onward.eqP e19 (State.saveCtx_on (hm.of rfl) _ _ _ _ _ _ h8)
      extract_lets +onlyGivenNames x21 x22 x23
      have h24 : Onward m s0 x23 := by
        unfold x23
        exact State.setDrv_on (hm.of rfl) _ _ _ h20
      clear_value x23
      extract_lets +onlyGivenNames x25 x26
      have h27 : Onward m s0 x26 := by
        unfold x26
        exact State.setStrand_on (hm.of rfl) _ _ _ _ h24
      clear_value x26
      extract_lets +onlyGivenNames x28
      have h29 : Onward m s0 x28 := by
        unfold x28
        refine State.irq_on (hm.of rfl) _ _ ?_
        refine ite_ind (P := Onward _ _) ?_ ?_
        · exact State.wrBit_on (hm.of rfl) _ _ _ _ h27
        · exact h27
      clear_value x28
      refine Onward.next ?_
      refine ite_ind (P := Onward _ _) ?_ ?_
      · exact State.fenceRecord_on (hm.of rfl) _ _ h29
      · exact h29

theorem State.copyTally_on {m : Nat} (hm : Covers 0x200000 m) {s0 : State} (s : State) (h : Onward m s0 s) :
    Onward m s0 (State.copyTally s) := by
  unfold State.copyTally
  extract_lets +onlyGivenNames x1
  exact Onward.trans h (Onward.frame hm rfl rfl rfl rfl rfl rfl (fun w => ⟨w.1, w.2, w.3, w.4, w.5, w.6, w.7, w.8, w.9, w.10, w.11, w.12, w.13, w.14, w.15, w.16, w.17, w.18, w.19, w.20, w.21, w.22, w.23, w.24⟩)
    (fun p e => by cases p <;> first | exact absurd e (by decide) | rfl))

theorem State.copyDue_on {m : Nat} (hm : Covers 0x200000 m) {s0 : State} (s : State) (h : Onward m s0 s) :
    Onward m s0 (State.copyDue s) := by
  unfold State.copyDue
  refine ite_ind (P := Onward _ _) ?_ ?_
  · exact State.copyTally_on (hm.of rfl) _ h
  · exact h

theorem execTallyCopyUpdate_on {m : Nat} (hm : Covers 0x200000 m) {s0 : State} (s : State) (h : Onward m s0 s) :
    Onward.O m s0 (execTallyCopyUpdate s) := by
  unfold execTallyCopyUpdate
  exact State.copyDue_on (hm.of rfl) _ h

theorem State.tallyEnd_on {m : Nat} (hm : Covers 0x1000008 m) {s0 : State} (s : State) (a2) (a3) (h : Onward m s0 s) :
    Onward m s0 (State.tallyEnd s a2 a3) := by
  unfold State.tallyEnd
  exact State.irq_on (hm.of rfl) _ _ (State.wr_on (hm.of rfl) _ _ _ (State.wr_on (hm.of rfl) _ _ _ h))

theorem State.tallyGo_on {m : Nat} (hm : Covers 0x8 m) {s0 : State} (s : State) (a2) (a3) (a4) (a5) (a6) (a7) (h : Onward m s0 s) (ha7 : ∀ y1, Onward m s0 y1 → Onward m s0 (a7 y1)) :
    Onward m s0 (State.tallyGo s a2 a3 a4 a5 a6 a7) := by
  unfold State.tallyGo
  refine ite_ind (P := Onward _ _) ?_ ?_
  · exact h
  · refine ite_ind (P := Onward _ _) ?_ ?_
    · exact State.wr_on (hm.of rfl) _ _ _ h
    · refine ha7 _ ?_
      exact State.wrSome_on (hm.of rfl) _ _ _ (State.wrSome_on (hm.of rfl) _ _ _ (State.wrSome_on (hm.of rfl) _ _ _ (State.wr_on (hm.of rfl) _ _ _ (State.wr_on (hm.of rfl) _ _ _ h))))

theorem execRebind_on {m : Nat} (hm : Covers 0x1200008 m) {s0 : State} (a1) (a2) (a3) (a4) (s : State) (h : Onward m s0 s) :
    Onward.O m s0 (execRebind a1 a2 a3 a4 s) := by
  unfold execRebind
  extract_lets +onlyGivenNames x1 x2
  refine Onward.next ?_
  refine State.tallyGo_on (hm.of rfl) _ _ _ _ _ _ _ ?_ ?_
  · exact h
  · intro x3 h4
    extract_lets +onlyGivenNames x5
    refine ite_ind (P := Onward _ _) ?_ ?_
    · exact State.tallyEnd_on (hm.of rfl) _ _ _ h4
    · refine ite_ind (P := Onward _ _) ?_ ?_
      · exact State.tallyEnd_on (hm.of rfl) _ _ _ h4
      · refine ite_ind (P := Onward _ _) ?_ ?_
        · exact State.tallyEnd_on (hm.of rfl) _ _ _ h4
        · split
          · exact State.tallyEnd_on (hm.of rfl) _ _ _ h4
          · extract_lets +onlyGivenNames x11
            have h12 : Onward m s0 x11 := by
              unfold x11
              exact State.wr_on (hm.of rfl) _ _ _ (State.wr_on (hm.of rfl) _ _ _ h4)
            clear_value x11
            exact Onward.trans h12 (Onward.frame hm rfl rfl rfl rfl rfl rfl (fun w => ⟨w.1, w.2, w.3, w.4, w.5, w.6, w.7, w.8, w.9, w.10, w.11, w.12, w.13, w.14, w.15, w.16, w.17, w.18, w.19, w.20, w.21, w.22, w.23, w.24⟩)
    (fun p e => by cases p <;> first | exact absurd e (by decide) | rfl))

theorem State.bindReserve_on {m : Nat} (hm : Covers 0x160000a m) {s0 : State} (s : State) (a2) (a3) (h : Onward m s0 s) :
    Onward m s0 (State.bindReserve s a2 a3) := by
  unfold State.bindReserve
  extract_lets +onlyGivenNames x1
  have h2 : Onward m s0 x1 := by
    unfold x1
    exact State.inc_on (hm.of rfl) _ _ _ h
  clear_value x1
  extract_lets +onlyGivenNames x3 x4
  have h5 : Onward m s0 x4 := by
    unfold x4
    exact State.wr_on (hm.of rfl) _ _ _ (State.wr_on (hm.of rfl) _ _ _ (State.wr_on (hm.of rfl) _ _ _ (State.wr_on (hm.of rfl) _ _ _ h2)))
  clear_value x4
  extract_lets +onlyGivenNames x6
  have h7 : Onward m s0 x6 := by
    unfold x6
    exact State.copyTally_on (hm.of rfl) _ (State.tallyCounts_on (hm.of rfl) _ (State.wr_on (hm.of rfl) _ _ _ h5))
  clear_value x6
  exact State.record_on (hm.of rfl) _ _ _ _ _ _ (State.tallyEnd_on (hm.of rfl) _ _ _ h7)

theorem State.rebindDue_on {m : Nat} (hm : Covers 0x160000a m) {s0 : State} (s : State) (h : Onward m s0 s) :
    Onward m s0 (State.rebindDue s) := by
  unfold State.rebindDue
  split
  · exact h
  · refine ite_ind (P := Onward _ _) ?_ ?_
    · exact h
    · extract_lets +onlyGivenNames x6 x7
      have h8 : Onward m s0 x7 := by
        unfold x7
        exact Onward.trans h (Onward.frame hm rfl rfl rfl rfl rfl rfl (fun w => ⟨w.1, w.2, w.3, w.4, w.5, w.6, w.7, w.8, w.9, w.10, w.11, w.12, w.13, w.14, w.15, w.16, w.17, w.18, w.19, w.20, w.21, w.22, w.23, w.24⟩)
    (fun p e => by cases p <;> first | exact absurd e (by decide) | rfl))
      clear_value x7
      refine ite_ind (P := Onward _ _) ?_ ?_
      · exact State.bindReserve_on (hm.of rfl) _ _ _ h8
      · refine ite_ind (P := Onward _ _) ?_ ?_
        · exact State.tallyEnd_on (hm.of rfl) _ _ _ h8
        · split
          · exact State.bindReserve_on (hm.of rfl) _ _ _ h8
          · exact State.tallyEnd_on (hm.of rfl) _ _ _ h8

theorem State.rebindNearer_on {m : Nat} (hm : Covers 0x160000a m) {s0 : State} (s : State) (h : Onward m s0 s) :
    Onward m s0 (State.rebindNearer s) := by
  unfold State.rebindNearer
  exact State.rebindDue_on (hm.of rfl) _ (Onward.trans h (Onward.frame hm rfl rfl rfl rfl rfl rfl (fun w => ⟨w.1, w.2, w.3, w.4, w.5, w.6, w.7, w.8, w.9, w.10, w.11, w.12, w.13, w.14, w.15, w.16, w.17, w.18, w.19, w.20, w.21, w.22, w.23, w.24⟩)
    (fun p e => by cases p <;> first | exact absurd e (by decide) | rfl)))

theorem execRebindTakeEffect_on {m : Nat} (hm : Covers 0x160000a m) {s0 : State} (s : State) (h : Onward m s0 s) :
    Onward.O m s0 (execRebindTakeEffect s) := by
  unfold execRebindTakeEffect
  exact State.rebindDue_on (hm.of rfl) _ h

theorem execTallyFence_on {m : Nat} (hm : Covers 0x162e00a m) {s0 : State} (a1) (s : State) (h : Onward m s0 s) :
    Onward.O m s0 (execTallyFence a1 s) := by
  unfold execTallyFence
  extract_lets +onlyGivenNames x1
  refine Onward.next ?_
  refine State.tallyGo_on (hm.of rfl) _ _ _ _ _ _ _ ?_ ?_
  · exact h
  · intro x2 h3
    refine ite_ind (P := Onward _ _) ?_ ?_
    · exact State.tallyEnd_on (hm.of rfl) _ _ _ h3
    · exact State.tallyEnd_on (hm.of rfl) _ _ _ (State.fenceDrover_on (hm.of rfl) _ _ _ h3)

theorem State.sendCtl_on {m : Nat} (hm : Covers 0x10000002 m) {s0 : State} (s : State) (a2) (a3) (a4) (a5) (h : Onward m s0 s) :
    Onward m s0 (State.sendCtl s a2 a3 a4 a5) := by
  unfold State.sendCtl
  extract_lets +onlyGivenNames x1 x2 x3 x4
  split
  exact State.emit_on (hm.of rfl) _ _ (State.setPort_on (hm.of rfl) _ _ _ h)

theorem State.sendFlit_on {m : Nat} (hm : Covers 0x10000002 m) {s0 : State} (s : State) (a2) (a3) (a4) (a5) (h : Onward m s0 s) :
    Onward m s0 (State.sendFlit s a2 a3 a4 a5) := by
  unfold State.sendFlit
  extract_lets +onlyGivenNames x1 x2 x3
  exact State.emit_on (hm.of rfl) _ _ (State.setPort_on (hm.of rfl) _ _ _ h)

theorem State.sendAgain_on {m : Nat} (hm : Covers 0x1000000a m) {s0 : State} (s : State) (a2) (a3) (a4) (a5) (h : Onward m s0 s) :
    Onward m s0 (State.sendAgain s a2 a3 a4 a5) := by
  unfold State.sendAgain
  extract_lets +onlyGivenNames x1 x2
  have h3 : Onward m s0 x2 := by
    unfold x2
    exact State.setPort_on (hm.of rfl) _ _ _ h
  clear_value x2
  split
  · exact h3
  · extract_lets +onlyGivenNames x9 x10 x11 x12
    exact State.emit_on (hm.of rfl) _ _ (State.inc_on (hm.of rfl) _ _ _ (State.setPort_on (hm.of rfl) _ _ _ h3))

theorem State.dataSlot_on {m : Nat} (hm : Covers 0x1000000a m) {s0 : State} (s : State) (a2) (a3) (a4) (h : Onward m s0 s) :
    Onward m s0 (State.dataSlot s a2 a3 a4) := by
  unfold State.dataSlot
  extract_lets +onlyGivenNames x new mine bulk
  clear_value new mine bulk
  have rest : Onward m s0 (if x.ctl.any (fun c => c.mayGo a3 s.bellCount) then s.sendCtl a2 a3 a4 false
      else match x.resend with
      | q :: _ => s.sendAgain a2 a3 a4 q
      | [] => match new, x.orphans, bulk with
        | true, f :: t, _ => ((s.setPort a2 { x with orphans := t }).inc Fd.fabOrphans 1).sendFlit a2 a3 a4 f
        | true, [], some f =>
          (s.setPort a2 { x with
            bulk := x.bulk.erase f,
            used := Tab.put (fun _ => 0) x.used f.chan (Tab.get (fun _ => 0) x.used f.chan + 1) }).sendFlit a2 a3 a4 f
        | _, _, _ => s.emit (.flit a2 a3 a4 idleFlit)) := by
    refine ite_ind (P := Onward _ _) (State.sendCtl_on (hm.of rfl) _ _ _ _ _ h) ?_
    split
    · exact State.sendAgain_on (hm.of rfl) _ _ _ _ _ h
    · split
      · exact State.sendFlit_on (hm.of rfl) _ _ _ _ _ (State.inc_on (hm.of rfl) _ _ _ (State.setPort_on (hm.of rfl) _ _ _ h))
      · exact State.sendFlit_on (hm.of rfl) _ _ _ _ _ (State.setPort_on (hm.of rfl) _ _ _ h)
      · exact State.emit_on (hm.of rfl) _ _ h
  cases new with
  | false => exact rest
  | true =>
    cases mine with
    | none => exact rest
    | some f => exact State.sendFlit_on (hm.of rfl) _ _ _ _ _ (State.setPort_on (hm.of rfl) _ _ _ h)

theorem execFlitSlot_on {m : Nat} (hm : Covers 0x1000000a m) {s0 : State} (a1) (a2) (a3) (s : State) (h : Onward m s0 s) :
    Onward.O m s0 (execFlitSlot a1 a2 a3 s) := by
  unfold execFlitSlot
  extract_lets +onlyGivenNames x1
  refine ite_ind (P := Onward.O _ _) ?_ ?_
  · exact h
  · refine ite_ind (P := Onward.O _ _) ?_ ?_
    · exact State.sendCtl_on (hm.of rfl) _ _ _ _ _ h
    · exact State.dataSlot_on (hm.of rfl) _ _ _ _ h

theorem State.noteReply_on {m : Nat} (hm : Covers 0x10000000 m) {s0 : State} (s : State) (a2) (h : Onward m s0 s) :
    Onward m s0 (State.noteReply s a2) := by
  unfold State.noteReply
  extract_lets +onlyGivenNames x1 x2 x3
  exact State.setFab_on (hm.of rfl) _ _ h

theorem State.assemble_on {m : Nat} (hm : Covers 0x10000000 m) {s0 : State} (s : State) (a2) (h : Onward m s0 s) :
    Onward m s0 (State.assemble s a2) := by
  unfold State.assemble
  extract_lets +onlyGivenNames x1 x2 x3 x4 x5 x6
  exact State.setFab_on (hm.of rfl) _ _ h

theorem State.passPort_on {m : Nat} (hm : Covers 0x10000000 m) {s0 : State} (s : State) (a2) (a3) (a4) (h : Onward m s0 s) :
    Onward.P m s0 (State.passPort s a2 a3 a4) := by
  unfold State.passPort
  refine ite_ind (P := Onward.P _ _) ?_ ?_
  · exact State.bulkPort_on (hm.of rfl) _ _ _ h
  · extract_lets +onlyGivenNames x1
    exact h

theorem State.passOut_on {m : Nat} (hm : Covers 0x1140000a m) {s0 : State} (s : State) (a2) (a3) (a4) (a5) (a6) (a7) (h : Onward m s0 s) :
    Onward m s0 (State.passOut s a2 a3 a4 a5 a6 a7) := by
  unfold State.passOut
  refine ite_ind (P := Onward _ _) ?_ ?_
  · exact State.noRoute_on (hm.of rfl) _ _ _ h
  · exact State.queueFlits_on (hm.of rfl) _ _ _ _ _ _ _ h

theorem State.passOn_on {m : Nat} (hm : Covers 0x1140000a m) {s0 : State} (s : State) (a2) (a3) (h : Onward m s0 s) :
    Onward m s0 (State.passOn s a2 a3) := by
  unfold State.passOn
  extract_lets +onlyGivenNames x1 x2
  have h3 : ∀ u4, Onward m s0 u4 → ∀ u5, ∀ u6, Onward m s0 (x2 u4 u5 u6) := by
    intro x7 h8 x9 x10
    unfold x2
    split
    · exact State.noRoute_on (hm.of rfl) _ _ _ h8
    · split
      rename_i v19 e20
      have h21 : Onward m s0 v19 := Onward.eqP e20 (State.passPort_on (hm.of rfl) _ _ _ _ h8)
      extract_lets +onlyGivenNames x22
      exact State.passOut_on (hm.of rfl) _ _ _ _ _ _ _ h21
  clear_value x2
  refine ite_ind (P := Onward _ _) ?_ ?_
  · refine h3 _ ?_ _ _
    exact h
  · refine ite_ind (P := Onward _ _) ?_ ?_
    · refine h3 _ ?_ _ _
      exact h
    · split
      · refine h3 _ ?_ _ _
        exact h
      · extract_lets +onlyGivenNames x28 x29
        refine ite_ind (P := Onward _ _) ?_ ?_
        · exact State.passOut_on (hm.of rfl) _ _ _ _ _ _ _ h
        · refine h3 _ ?_ _ _
          exact h

theorem execDataFlit_on {m : Nat} (hm : Covers 0x1140000a m) {s0 : State} (a1) (a2) (a3) (a4) (s : State) (h : Onward m s0 s) :
    Onward.O m s0 (execDataFlit a1 a2 a3 a4 s) := by
  unfold execDataFlit
  extract_lets +onlyGivenNames x1
  refine ite_ind (P := Onward.O _ _) ?_ ?_
  · exact h
  · refine ite_ind (P := Onward.O _ _) ?_ ?_
    · exact State.sat_on (hm.of rfl) _ _ _ h
    · refine ite_ind (P := Onward.O _ _) ?_ ?_
      · exact h
      · extract_lets +onlyGivenNames x2 x3 x4 x5
        have h6 : Onward m s0 x5 := by
          unfold x5
          exact State.setPort_on (hm.of rfl) _ _ _ h
        clear_value x5
        refine ite_ind (P := Onward.O _ _) ?_ ?_
        · exact State.assemble_on (hm.of rfl) _ _ h6
        · exact State.noteReply_on (hm.of rfl) _ _ (State.passOn_on (hm.of rfl) _ _ _ h6)

theorem execAcknowledge_on {m : Nat} (hm : Covers 0x10000000 m) {s0 : State} (a1) (a2) (a3) (s : State) (h : Onward m s0 s) :
    Onward.O m s0 (execAcknowledge a1 a2 a3 s) := by
  unfold execAcknowledge
  extract_lets +onlyGivenNames x1
  refine ite_ind (P := Onward.O _ _) ?_ ?_
  · exact h
  · extract_lets +onlyGivenNames x2 x3 x4 x5 x6
    exact State.setPort_on (hm.of rfl) _ _ _ h

theorem execFlitResendTimeout_on {m : Nat} (hm : Covers 0x10000000 m) {s0 : State} (a1) (a2) (s : State) (h : Onward m s0 s) :
    Onward.O m s0 (execFlitResendTimeout a1 a2 s) := by
  unfold execFlitResendTimeout
  extract_lets +onlyGivenNames x1 x2
  split
  · exact h
  · refine ite_ind (P := Onward.O _ _) ?_ ?_
    · exact h
    · exact State.setPort_on (hm.of rfl) _ _ _ h

theorem execCredit_on {m : Nat} (hm : Covers 0x10000000 m) {s0 : State} (a1) (a2) (a3) (a4) (a5) (s : State) (h : Onward m s0 s) :
    Onward.O m s0 (execCredit a1 a2 a3 a4 a5 s) := by
  unfold execCredit
  extract_lets +onlyGivenNames x1 x2
  refine ite_ind (P := Onward.O _ _) ?_ ?_
  · exact h
  · split
    · exact h
    · rename_i v6 e7
      have h8 : Onward m s0 v6 := Onward.eqM e7 (State.hear_on (hm.of rfl) _ _ _ h)
      extract_lets +onlyGivenNames x9 x10
      exact State.setPort_on (hm.of rfl) _ _ _ h8

theorem State.hearRouted_on {m : Nat} (hm : Covers 0x1140000a m) {s0 : State} (s : State) (a2) (a3) (a4) (h : Onward m s0 s) (ha4 : ∀ y1, Onward m s0 y1 → Onward m s0 (a4 y1)) :
    Onward m s0 (State.hearRouted s a2 a3 a4) := by
  unfold State.hearRouted
  refine ite_ind (P := Onward _ _) ?_ ?_
  · exact h
  · split
    · exact h
    · rename_i v4 e5
      have h6 : Onward m s0 v4 := Onward.eqM e5 (State.hear_on (hm.of rfl) _ _ _ h)
      refine ite_ind (P := Onward _ _) ?_ ?_
      · refine ha4 _ ?_
        exact h6
      · exact State.routeCtl_on (hm.of rfl) _ _ h6

theorem execWindowAnnouncement_on {m : Nat} (hm : Covers 0x1150000a m) {s0 : State} (a1) (a2) (a3) (s : State) (h : Onward m s0 s) :
    Onward.O m s0 (execWindowAnnouncement a1 a2 a3 s) := by
  unfold execWindowAnnouncement
  refine Onward.next ?_
  refine State.hearRouted_on (hm.of rfl) _ _ _ _ ?_ ?_
  · exact h
  · intro x1 h2
    exact State.holdWindow_on (hm.of rfl) _ _ h2

theorem execThermalNotice_on {m : Nat} (hm : Covers 0x1140000a m) {s0 : State} (a1) (a2) (a3) (a4) (a5) (a6) (s : State) (h : Onward m s0 s) :
    Onward.O m s0 (execThermalNotice a1 a2 a3 a4 a5 a6 s) := by
  unfold execThermalNotice
  extract_lets +onlyGivenNames x1
  refine Onward.next ?_
  refine State.hearRouted_on (hm.of rfl) _ _ _ _ ?_ ?_
  · exact h
  · intro x2 h3
    exact State.setFab_on (hm.of rfl) _ _ h3

theorem execMusterMessage_on {m : Nat} (hm : Covers 0x11cc27ea m) {s0 : State} (a1) (a2) (a3) (s : State) (h : Onward m s0 s) :
    Onward.O m s0 (execMusterMessage a1 a2 a3 s) := by
  unfold execMusterMessage
  extract_lets +onlyGivenNames x1
  refine Onward.next ?_
  refine State.hearRouted_on (hm.of rfl) _ _ _ _ ?_ ?_
  · exact h
  · intro x2 h3
    split
    rename_i v5 _ e7
    have h8 : Onward m s0 v5 := Onward.eqL e7 (State.musterApply_on (hm.of rfl) _ _ h3)
    exact State.musterOut_on (hm.of rfl) _ _ _ h8

theorem State.setRouter_on {m : Nat} (hm : Covers 0x10000000 m) {s0 : State} (s : State) (a2) (a3) (h : Onward m s0 s) :
    Onward m s0 (State.setRouter s a2 a3) := by
  unfold State.setRouter
  exact State.setFab_on (hm.of rfl) _ _ h

theorem State.setLink_on {m : Nat} (hm : Covers 0x10000000 m) {s0 : State} (s : State) (a2) (a3) (a4) (h : Onward m s0 s) :
    Onward m s0 (State.setLink s a2 a3 a4) := by
  unfold State.setLink
  exact State.setFab_on (hm.of rfl) _ _ h

theorem State.poisonOp_on {m : Nat} (hm : Covers 0x8000 m) {s0 : State} (s : State) (a2) (h : Onward m s0 s) :
    Onward m s0 (State.poisonOp s a2) := by
  unfold State.poisonOp
  split
  · exact h
  · exact Onward.trans h (Onward.frame hm rfl rfl rfl rfl rfl rfl (fun w => ⟨w.1, w.2, w.3, w.4, w.5, w.6, w.7, w.8, w.9, w.10, w.11, w.12, w.13, w.14, w.15, w.16, w.17, w.18, w.19, w.20, w.21, w.22, w.23, w.24⟩)
    (fun p e => by cases p <;> first | exact absurd e (by decide) | rfl))

theorem State.loseOp_on {m : Nat} (hm : Covers 0x8000 m) {s0 : State} (s : State) (a2) (h : Onward m s0 s) :
    Onward m s0 (State.loseOp s a2) := by
  unfold State.loseOp
  split
  · exact h
  · exact Onward.trans h (Onward.frame hm rfl rfl rfl rfl rfl rfl (fun w => ⟨w.1, w.2, w.3, w.4, w.5, w.6, w.7, w.8, w.9, w.10, w.11, w.12, w.13, w.14, w.15, w.16, w.17, w.18, w.19, w.20, w.21, w.22, w.23, w.24⟩)
    (fun p e => by cases p <;> first | exact absurd e (by decide) | rfl))

theorem State.serveRouter_on {m : Nat} (hm : Covers 0x10008002 m) {s0 : State} (s : State) (a2) (h : Onward m s0 s) :
    Onward m s0 (State.serveRouter s a2) := by
  unfold State.serveRouter
  split
  · exact h
  · extract_lets +onlyGivenNames x6
    have h7 : Onward m s0 x6 := by
      unfold x6
      exact State.setRouter_on (hm.of rfl) _ _ _ h
    clear_value x6
    refine ite_ind (P := Onward _ _) ?_ ?_
    · exact State.emit_on (hm.of rfl) _ _ h7
    · split
      · exact State.setLink_on (hm.of rfl) _ _ _ _ h7
      · exact State.poisonOp_on (hm.of rfl) _ _ h7

theorem State.serveMany_on {m : Nat} (hm : Covers 0x10008002 m) {s0 : State} (s : State) (a2) (a3) (h : Onward m s0 s) :
    Onward m s0 (State.serveMany s a2 a3) := by
  induction a3 generalizing s with
  | zero => exact h
  | succ n ih =>
    unfold State.serveMany
    exact ih _ (State.serveRouter_on (hm.of rfl) _ _ h)

theorem State.meshTake_on {m : Nat} (hm : Covers 0x10000000 m) {s0 : State} (s : State) (a2) (a3) (h : Onward m s0 s) :
    Onward.P m s0 (State.meshTake s a2 a3) := by
  unfold State.meshTake
  split
  · exact h
  · split
    · exact h
    · exact State.setLink_on (hm.of rfl) _ _ _ _ h

theorem State.seamError_on {m : Nat} (hm : Covers 0x8 m) {s0 : State} (s : State) (a2) (a3) (h : Onward m s0 s) :
    Onward m s0 (State.seamError s a2 a3) := by
  unfold State.seamError
  extract_lets +onlyGivenNames x1
  have h2 : Onward m s0 x1 := by
    unfold x1
    exact State.wrBit_on (hm.of rfl) _ _ _ _ h
  clear_value x1
  refine ite_ind (P := Onward _ _) ?_ ?_
  · exact State.sat_on (hm.of rfl) _ _ _ h2
  · exact h2

theorem State.meshError_on {m : Nat} (hm : Covers 0x140800a m) {s0 : State} (s : State) (a2) (a3) (a4) (h : Onward m s0 s) :
    Onward.P m s0 (State.meshError s a2 a3 a4) := by
  unfold State.meshError
  split
  · exact h
  · exact State.record_on (hm.of rfl) _ _ _ _ _ _ h
  · exact State.record_on (hm.of rfl) _ _ _ _ _ _ (State.poisonOp_on (hm.of rfl) _ _ h)
  · exact State.record_on (hm.of rfl) _ _ _ _ _ _ (State.loseOp_on (hm.of rfl) _ _ h)

theorem State.meshCheck_on {m : Nat} (hm : Covers 0x140800a m) {s0 : State} (s : State) (a2) (a3) (a4) (a5) (h : Onward m s0 s) :
    Onward.P m s0 (State.meshCheck s a2 a3 a4 a5) := by
  unfold State.meshCheck
  refine ite_ind (P := Onward.P _ _) ?_ ?_
  · exact h
  · split
    · refine ite_ind (P := Onward.P _ _) ?_ ?_
      · exact Onward.pair (State.seamError_on (hm.of rfl) _ _ _ h)
      · exact State.meshError_on (hm.of rfl) _ _ _ _ (State.seamError_on (hm.of rfl) _ _ _ h)
    · exact State.meshError_on (hm.of rfl) _ _ _ _ h

theorem execMeshPacket_on {m : Nat} (hm : Covers 0x1140800a m) {s0 : State} (a1) (a2) (s : State) (h : Onward m s0 s) :
    Onward.O m s0 (execMeshPacket a1 a2 s) := by
  unfold execMeshPacket
  extract_lets +onlyGivenNames x1
  refine ite_ind (P := Onward.O _ _) ?_ ?_
  · exact h
  · extract_lets +onlyGivenNames x2
    split
    rename_i v5 e6
    have h7 : Onward m s0 v5 := Onward.eqP e6 (State.meshTake_on (hm.of rfl) _ _ _ h)
    extract_lets +onlyGivenNames x8
    have h9 : Onward m s0 x8 := by
      unfold x8
      split
      · exact h7
      · split
        rename_i v19 e20
        have h21 : Onward m s0 v19 := Onward.eqP e20 (State.meshCheck_on (hm.of rfl) _ _ _ _ _ h7)
        refine ite_ind (P := Onward _ _) ?_ ?_
        · exact State.setRouter_on (hm.of rfl) _ _ _ h21
        · exact h21
    clear_value x8
    exact State.serveMany_on (hm.of rfl) _ _ _ h9

theorem State.routerFaulty_on {m : Nat} (hm : Covers 0x1162e00a m) {s0 : State} (s : State) (a2) (a3) (h : Onward m s0 s) :
    Onward m s0 (State.routerFaulty s a2 a3) := by
  unfold State.routerFaulty
  refine ite_ind (P := Onward _ _) ?_ ?_
  · exact h
  · extract_lets +onlyGivenNames x1 x2
    have h3 : Onward m s0 x2 := by
      unfold x2
      exact State.setFab_on (hm.of rfl) _ _ h
    clear_value x2
    extract_lets +onlyGivenNames x4
    have h5 : Onward m s0 x4 := by
      unfold x4
      exact State.record_on (hm.of rfl) _ _ _ _ _ _ h3
    clear_value x4
    refine eachUpTo_ind (P := Onward _ _) _ _ ?_ ?_
    · exact h5
    · intro x6 x7 h8
      exact State.fenceDrover_on (hm.of rfl) _ _ _ h8

theorem execRouterFault_on {m : Nat} (hm : Covers 0x1162e00a m) {s0 : State} (a1) (a2) (s : State) (h : Onward m s0 s) :
    Onward.O m s0 (execRouterFault a1 a2 s) := by
  unfold execRouterFault
  refine ite_ind (P := Onward.O _ _) ?_ ?_
  · exact h
  · exact State.routerFaulty_on (hm.of rfl) _ _ _ h

theorem execStuckPacket_on {m : Nat} (hm : Covers 0x1162e00a m) {s0 : State} (a1) (s : State) (h : Onward m s0 s) :
    Onward.O m s0 (execStuckPacket a1 s) := by
  unfold execStuckPacket
  refine ite_ind (P := Onward.O _ _) ?_ ?_
  · exact h
  · exact State.routerFaulty_on (hm.of rfl) _ _ _ h

theorem execSeamBundleLost_on {m : Nat} (hm : Covers 0x140000a m) {s0 : State} (a1) (a2) (s : State) (h : Onward m s0 s) :
    Onward.O m s0 (execSeamBundleLost a1 a2 s) := by
  unfold execSeamBundleLost
  extract_lets +onlyGivenNames x1
  refine ite_ind (P := Onward.O _ _) ?_ ?_
  · exact h
  · extract_lets +onlyGivenNames x2
    have h3 : Onward m s0 x2 := by
      unfold x2
      refine ite_ind (P := Onward _ _) ?_ ?_
      · exact State.seamError_on (hm.of rfl) _ _ _ h
      · exact h
    clear_value x2
    extract_lets +onlyGivenNames x4
    have h5 : Onward m s0 x4 := by
      unfold x4
      exact State.wr_on (hm.of rfl) _ _ _ h3
    clear_value x4
    refine ite_ind (P := Onward.O _ _) ?_ ?_
    · exact h5
    · extract_lets +onlyGivenNames x6
      have h7 : Onward m s0 x6 := by
        unfold x6
        exact State.wrBit_on (hm.of rfl) _ _ _ _ h5
      clear_value x6
      extract_lets +onlyGivenNames x8
      have h9 : Onward m s0 x8 := by
        unfold x8
        refine ite_ind (P := Onward _ _) ?_ ?_
        · exact State.wr_on (hm.of rfl) _ _ _ h7
        · exact h7
      clear_value x8
      exact State.record_on (hm.of rfl) _ _ _ _ _ _ h9

theorem execSiteDoorbell_on {m : Nat} (hm : Covers 0x24943f02e m) {s0 : State} (a1) (s : State) (h : Onward m s0 s) :
    Onward.O m s0 (execSiteDoorbell a1 s) := by
  unfold execSiteDoorbell
  refine Onward.next ?_
  refine State.siteArrives_on (hm.of rfl) _ _ _ _ _ _ ?_ ?_
  · exact h
  · intro x1 h2
    extract_lets +onlyGivenNames x3 x4 x5
    refine ite_ind (P := Onward _ _) ?_ ?_
    · exact State.siteRefuses_on (hm.of rfl) _ _ _ _ h2
    · refine ite_ind (P := Onward _ _) ?_ ?_
      · exact State.siteDone_on (hm.of rfl) _ _ _ _ _ _ h2
      · extract_lets +onlyGivenNames x6
        split
        rename_i v9 e10
        have h11 : Onward m s0 v9 := Onward.eqP e10 (State.startRecord_on (hm.of rfl) _ _ _ _ h2)
        exact State.siteDone_on (hm.of rfl) _ _ _ _ _ _ h11

theorem execSiteMailbox_on {m : Nat} (hm : Covers 0xa0100000a m) {s0 : State} (a1) (s : State) (h : Onward m s0 s) :
    Onward.O m s0 (execSiteMailbox a1 s) := by
  unfold execSiteMailbox
  refine Onward.next ?_
  refine State.siteArrives_on (hm.of rfl) _ _ _ _ _ _ ?_ ?_
  · exact h
  · intro x1 h2
    extract_lets +onlyGivenNames x3 x4
    refine ite_ind (P := Onward _ _) ?_ ?_
    · exact State.siteRefuses_on (hm.of rfl) _ _ _ _ h2
    · refine ite_ind (P := Onward _ _) ?_ ?_
      · exact State.siteDone_on (hm.of rfl) _ _ _ _ _ _ h2
      · extract_lets +onlyGivenNames x5 x6
        exact State.postIn_on (hm.of rfl) _ _ _ _ _ h2

theorem State.chunkAnswer_on {m : Nat} (hm : Covers 0x11cee7ee m) {s0 : State} (s : State) (a2) (a3) (a4) (a5) (a6) (h : Onward m s0 s) :
    Onward m s0 (State.chunkAnswer s a2 a3 a4 a5 a6) := by
  unfold State.chunkAnswer
  extract_lets +onlyGivenNames x1
  split
  · exact h
  · extract_lets +onlyGivenNames x7 x8 x9 x10 x11 x12
    have h13 : Onward m s0 x12 := by
      unfold x12
      exact State.setOp_on (hm.of rfl) _ _ h
    clear_value x12
    extract_lets +onlyGivenNames x14 x15
    have h16 : Onward m s0 x15 := by
      unfold x15
      refine ite_ind (P := Onward _ _) ?_ ?_
      · exact h13
      · exact State.failXfer_on (hm.of rfl) _ _ _ h13
    clear_value x15
    refine ite_ind (P := Onward _ _) ?_ ?_
    · exact h16
    · split
      · exact h16
      · refine ite_ind (P := Onward _ _) ?_ ?_
        · exact State.setOp_on (hm.of rfl) _ _ h16
        · refine ite_ind (P := Onward _ _) ?_ ?_
          · exact State.setOp_on (hm.of rfl) _ _ h16
          · split
            rename_i v24 e25
            have h26 : Onward m s0 v24 := Onward.eqP e25 (State.applyPuts_on (hm.of rfl) _ _ _ h16)
            exact State.chunkDone_on (hm.of rfl) _ _ _ _ _ _ h26

theorem State.memAnswer_on {m : Nat} (hm : Covers 0x8000 m) {s0 : State} (s : State) (a2) (a3) (a4) (a5) (a6) (h : Onward m s0 s) :
    Onward m s0 (State.memAnswer s a2 a3 a4 a5 a6) := by
  unfold State.memAnswer
  refine ite_ind (P := Onward _ _) ?_ ?_
  · exact h
  · refine ite_ind (P := Onward _ _) ?_ ?_
    · exact State.setServed_on (hm.of rfl) _ _ _ _ _ h
    · extract_lets +onlyGivenNames x1 x2 x3
      refine ite_ind (P := Onward _ _) ?_ ?_
      · exact State.setServed_on (hm.of rfl) _ _ _ _ _ h
      · exact State.setServed_on (hm.of rfl) _ _ _ _ _ h

theorem State.inAnswer_on {m : Nat} (hm : Covers 0x1142200a m) {s0 : State} (s : State) (a2) (a3) (a4) (a5) (a6) (a7) (h : Onward m s0 s) :
    Onward m s0 (State.inAnswer s a2 a3 a4 a5 a6 a7) := by
  unfold State.inAnswer
  split
  · exact h
  · extract_lets +onlyGivenNames x6 x7 x8 x9
    refine ite_ind (P := Onward _ _) ?_ ?_
    · exact State.holdIn_on (hm.of rfl) _ _ h
    · refine ite_ind (P := Onward _ _) ?_ ?_
      · exact State.appliedIn_on (hm.of rfl) _ _ _ h
      · exact State.getDone_on (hm.of rfl) _ _ h

theorem State.siteAnswer_on {m : Nat} (hm : Covers 0xa19cee7ee m) {s0 : State} (s : State) (a2) (a3) (a4) (a5) (h : Onward m s0 s) :
    Onward m s0 (State.siteAnswer s a2 a3 a4 a5) := by
  unfold State.siteAnswer
  extract_lets +onlyGivenNames x1
  have h2 : Onward m s0 x1 := by
    unfold x1
    exact Onward.trans h (Onward.frame hm rfl rfl rfl rfl rfl rfl (fun w => ⟨w.1, w.2, w.3, w.4, w.5, w.6, w.7, w.8, w.9, w.10, w.11, w.12, w.13, w.14, w.15, w.16, w.17, w.18, w.19, w.20, w.21, w.22, w.23, w.24⟩)
    (fun p e => by cases p <;> first | exact absurd e (by decide) | rfl))
  clear_value x1
  split
  · exact State.mboxReply_on (hm.of rfl) _ _ _ _ h2
  · exact State.inAnswer_on (hm.of rfl) _ _ _ _ _ _ _ h2
  · split
    · exact h2
    · refine ite_ind (P := Onward _ _) ?_ ?_
      · exact State.chunkAnswer_on (hm.of rfl) _ _ _ _ _ _ h2
      · exact State.memAnswer_on (hm.of rfl) _ _ _ _ _ _ h2

theorem State.siteReplied_on {m : Nat} (hm : Covers 0xa19cee7ee m) {s0 : State} (s : State) (a2) (a3) (a4) (a5) (a6) (a7) (a8) (a9) (h : Onward m s0 s) :
    Onward m s0 (State.siteReplied s a2 a3 a4 a5 a6 a7 a8 a9) := by
  unfold State.siteReplied
  refine ite_ind (P := Onward _ _) ?_ ?_
  · exact h
  · extract_lets +onlyGivenNames x1
    have h2 : Onward m s0 x1 := by
      unfold x1
      exact State.tookSlp_on (hm.of rfl) _ _ _ _ _ h
    clear_value x1
    split
    · exact State.siteRecord_on (hm.of rfl) _ _ _ _ _ h2
    · refine ite_ind (P := Onward _ _) ?_ ?_
      · exact State.siteRecord_on (hm.of rfl) _ _ _ _ _ h2
      · exact State.siteAnswer_on (hm.of rfl) _ _ _ _ _ h2

theorem execSwData_on {m : Nat} (hm : Covers 0xa19cee7ee m) {s0 : State} (a1) (a2) (a3) (a4) (a5) (a6) (a7) (s : State) (h : Onward m s0 s) :
    Onward.O m s0 (execSwData a1 a2 a3 a4 a5 a6 a7 s) := by
  unfold execSwData
  exact State.siteReplied_on (hm.of rfl) _ _ _ _ _ _ _ _ _ h

theorem execSwDone_on {m : Nat} (hm : Covers 0xa19cee7ee m) {s0 : State} (a1) (a2) (a3) (a4) (a5) (s : State) (h : Onward m s0 s) :
    Onward.O m s0 (execSwDone a1 a2 a3 a4 a5 s) := by
  unfold execSwDone
  exact State.siteReplied_on (hm.of rfl) _ _ _ _ _ _ _ _ _ h

theorem execSiteReplyTimeout_on {m : Nat} (hm : Covers 0xa19cee7ee m) {s0 : State} (a1) (a2) (s : State) (h : Onward m s0 s) :
    Onward.O m s0 (execSiteReplyTimeout a1 a2 s) := by
  unfold execSiteReplyTimeout
  split
  · exact h
  · refine ite_ind (P := Onward.O _ _) ?_ ?_
    · exact h
    · exact State.siteAnswer_on (hm.of rfl) _ _ _ _ _ (State.siteRecord_on (hm.of rfl) _ _ _ _ _ h)

theorem State.siteStops_on {m : Nat} (hm : Covers 0xe19cef7ee m) {s0 : State} (s : State) (a2) (a3) (h : Onward m s0 s) :
    Onward m s0 (State.siteStops s a2 a3) := by
  unfold State.siteStops
  extract_lets +onlyGivenNames x1 x2
  have h3 : Onward m s0 x2 := by
    unfold x2
    exact State.siteState_on (hm.of rfl) _ _ _ (State.siteWires_on (hm.of rfl) _ _ _ _ _ h)
  clear_value x2
  extract_lets +onlyGivenNames x4
  have h5 : Onward m s0 x4 := by
    unfold x4
    exact Onward.trans h3 (Onward.frame hm rfl rfl rfl rfl rfl rfl (fun w => ⟨w.1, w.2, w.3, w.4, w.5, w.6, w.7, Tab.wf_mapv _ _ _ w.8, w.9, w.10, w.11, w.12, w.13, w.14, w.15, w.16, w.17, w.18, w.19, w.20, w.21, w.22, w.23, w.24⟩)
    (fun p e => by cases p <;> first | exact absurd e (by decide) | rfl))
  clear_value x4
  extract_lets +onlyGivenNames x6
  have h7 : Onward m s0 x6 := by
    unfold x6
    exact Onward.trans h5 (Onward.frame hm rfl rfl rfl rfl rfl rfl (fun w => ⟨w.1, w.2, w.3, w.4, w.5, w.6, w.7, w.8, w.9, w.10, w.11, w.12, w.13, w.14, Tab.wf_mapv _ _ _ w.15, w.16, w.17, w.18, w.19, w.20, w.21, w.22, w.23, w.24⟩)
    (fun p e => by cases p <;> first | exact absurd e (by decide) | rfl))
  clear_value x6
  extract_lets +onlyGivenNames x8
  have h9 : Onward m s0 x8 := by
    unfold x8
    refine foldl_ind (P := Onward _ _) ?_ _ _ ?_
    · intro x10 x11 h12
      refine ite_ind (P := Onward _ _) ?_ ?_
      · exact h12
      · exact State.siteAnswer_on (hm.of rfl) _ _ _ _ _ h12
    · exact h7
  clear_value x8
  exact State.mboxSiteDown_on (hm.of rfl) _ _ (Onward.trans h9 (Onward.frame hm rfl rfl rfl rfl rfl rfl (fun w => ⟨w.1, w.2, w.3, w.4, w.5, w.6, w.7, w.8, w.9, w.10, w.11, w.12, w.13, w.14, w.15, w.16, w.17, w.18, w.19, w.20, w.21, w.22, w.23, w.24⟩)
    (fun p e => by cases p <;> first | exact absurd e (by decide) | rfl)))

theorem State.siteOff_on {m : Nat} (hm : Covers 0xe19cef7ee m) {s0 : State} (s : State) (a2) (a3) (h : Onward m s0 s) :
    Onward m s0 (State.siteOff s a2 a3) := by
  unfold State.siteOff
  extract_lets +onlyGivenNames x1
  have h2 : Onward m s0 x1 := by
    unfold x1
    exact State.siteWires_on (hm.of rfl) _ _ _ _ _ (State.siteStops_on (hm.of rfl) _ _ _ h)
  clear_value x1
  extract_lets +onlyGivenNames x3 x4
  have h5 : Onward m s0 x4 := by
    unfold x4
    exact State.setSite_on (hm.of rfl) _ _ _ h2
  clear_value x4
  exact State.wr_on (hm.of rfl) _ _ _ (State.wr_on (hm.of rfl) _ _ _ h5)

theorem State.repairDue_on {m : Nat} (hm : Covers 0x200000000 m) {s0 : State} (s : State) (a2) (a3) (a4) (h : Onward m s0 s) :
    Onward m s0 (State.repairDue s a2 a3 a4) := by
  unfold State.repairDue
  refine ite_ind (P := Onward _ _) ?_ ?_
  · exact State.setUp_on (hm.of rfl) _ _ _ _ h
  · exact State.setDown_on (hm.of rfl) _ _ _ _ h

theorem State.bundleOut_on {m : Nat} (hm : Covers 0xe19cef7ee m) {s0 : State} (s : State) (a2) (a3) (a4) (h : Onward m s0 s) :
    Onward m s0 (State.bundleOut s a2 a3 a4) := by
  unfold State.bundleOut
  extract_lets +onlyGivenNames x1
  refine ite_ind (P := Onward _ _) ?_ ?_
  · exact h
  · extract_lets +onlyGivenNames x2
    have h3 : Onward m s0 x2 := by
      unfold x2
      refine ite_ind (P := Onward _ _) ?_ ?_
      · exact h
      · exact State.shutDown_on (hm.of rfl) _ _ _ (State.repairDue_on (hm.of rfl) _ _ _ _ h)
    clear_value x2
    extract_lets +onlyGivenNames x4
    have h5 : Onward m s0 x4 := by
      unfold x4
      exact State.wrBit_on (hm.of rfl) _ _ _ _ (State.wrBit_on (hm.of rfl) _ _ _ _ h3)
    clear_value x4
    extract_lets +onlyGivenNames x6
    have h7 : Onward m s0 x6 := by
      unfold x6
      refine ite_ind (P := Onward _ _) ?_ ?_
      · exact State.moveSlp_on (hm.of rfl) _ _ _ h5
      · exact h5
    clear_value x6
    extract_lets +onlyGivenNames x8 x9
    have h10 : Onward m s0 x9 := by
      unfold x9
      exact State.record_on (hm.of rfl) _ _ _ _ _ _ h7
    clear_value x9
    refine ite_ind (P := Onward _ _) ?_ ?_
    · exact h10
    · extract_lets +onlyGivenNames x11
      have h12 : Onward m s0 x11 := by
        unfold x11
        exact State.siteStops_on (hm.of rfl) _ _ _ h10
      clear_value x11
      exact State.setSite_on (hm.of rfl) _ _ _ h12

theorem State.noteC2_on {m : Nat} (hm : Covers 0x20140000a m) {s0 : State} (s : State) (a2) (a3) (a4) (a5) (h : Onward m s0 s) :
    Onward m s0 (State.noteC2 s a2 a3 a4 a5) := by
  unfold State.noteC2
  extract_lets +onlyGivenNames x1
  refine ite_ind (P := Onward _ _) ?_ ?_
  · exact h
  · exact State.record_on (hm.of rfl) _ _ _ _ _ _ (State.setSite_on (hm.of rfl) _ _ _ h)

theorem State.siteCmdEnds_on {m : Nat} (hm : Covers 0x8 m) {s0 : State} (s : State) (a2) (a3) (a4) (h : Onward m s0 s) :
    Onward m s0 (State.siteCmdEnds s a2 a3 a4) := by
  unfold State.siteCmdEnds
  exact State.wr_on (hm.of rfl) _ _ _ (State.wr_on (hm.of rfl) _ _ _ h)

theorem execBundleRepair_on {m : Nat} (hm : Covers 0xe19cef7ee m) {s0 : State} (a1) (a2) (a3) (a4) (s : State) (h : Onward m s0 s) :
    Onward.O m s0 (execBundleRepair a1 a2 a3 a4 s) := by
  unfold execBundleRepair
  extract_lets +onlyGivenNames x1 x2 x3 x4 x5
  refine ite_ind (P := Onward.O _ _) ?_ ?_
  · exact h
  · extract_lets +onlyGivenNames x6 x7
    have h8 : Onward m s0 x7 := by
      unfold x7
      refine ite_ind (P := Onward _ _) ?_ ?_
      · exact State.moveSlp_on (hm.of rfl) _ _ _ h
      · exact State.shutDown_on (hm.of rfl) _ _ _ h
    clear_value x7
    extract_lets +onlyGivenNames x9
    have h10 : Onward m s0 x9 := by
      unfold x9
      exact State.noteC2_on (hm.of rfl) _ _ _ _ _ (State.record_on (hm.of rfl) _ _ _ _ _ _ h8)
    clear_value x9
    extract_lets +onlyGivenNames x11
    have h12 : Onward m s0 x11 := by
      unfold x11
      exact State.wrBit_on (hm.of rfl) _ _ _ _ h10
    clear_value x11
    extract_lets +onlyGivenNames x13
    have h14 : Onward m s0 x13 := by
      unfold x13
      refine ite_ind (P := Onward _ _) ?_ ?_
      · exact State.bundleOut_on (hm.of rfl) _ _ _ _ h10
      · refine ite_ind (P := Onward _ _) ?_ ?_
        · exact State.setUp_on (hm.of rfl) _ _ _ _ h12
        · exact State.setDown_on (hm.of rfl) _ _ _ _ h12
    clear_value x13
    extract_lets +onlyGivenNames x15
    refine Onward.next ?_
    refine ite_ind (P := Onward _ _) ?_ ?_
    · exact State.siteCmdEnds_on (hm.of rfl) _ _ _ _ h14
    · exact h14

theorem State.siteGo_on {m : Nat} (hm : Covers 0x8 m) {s0 : State} (s : State) (a2) (a3) (a4) (a5) (a6) (h : Onward m s0 s) (ha6 : ∀ y1, Onward m s0 y1 → Onward m s0 (a6 y1)) :
    Onward m s0 (State.siteGo s a2 a3 a4 a5 a6) := by
  unfold State.siteGo
  refine ite_ind (P := Onward _ _) ?_ ?_
  · exact h
  · refine ite_ind (P := Onward _ _) ?_ ?_
    · exact State.wr_on (hm.of rfl) _ _ _ h
    · extract_lets +onlyGivenNames x1
      have h2 : Onward m s0 x1 := by
        unfold x1
        exact State.wr_on (hm.of rfl) _ _ _ (State.wr_on (hm.of rfl) _ _ _ (State.wr_on (hm.of rfl) _ _ _ h))
      clear_value x1
      refine ite_ind (P := Onward _ _) ?_ ?_
      · exact State.siteCmdEnds_on (hm.of rfl) _ _ _ _ h2
      · refine ite_ind (P := Onward _ _) ?_ ?_
        · exact State.siteCmdEnds_on (hm.of rfl) _ _ _ _ h2
        · refine ite_ind (P := Onward _ _) ?_ ?_
          · exact State.siteCmdEnds_on (hm.of rfl) _ _ _ _ h2
          · refine ha6 _ ?_
            exact State.siteCmdEnds_on (hm.of rfl) _ _ _ _ h2

theorem execSiteRepair_on {m : Nat} (hm : Covers 0x200000008 m) {s0 : State} (a1) (a2) (a3) (s : State) (h : Onward m s0 s) :
    Onward.O m s0 (execSiteRepair a1 a2 a3 s) := by
  unfold execSiteRepair
  refine Onward.next ?_
  refine State.siteGo_on (hm.of rfl) _ _ _ _ _ _ ?_ ?_
  · exact h
  · intro x1 h2
    exact State.repairDue_on (hm.of rfl) _ _ _ _ h2

theorem execSiteClose_on {m : Nat} (hm : Covers 0xe19cef7ee m) {s0 : State} (a1) (a2) (a3) (s : State) (h : Onward m s0 s) :
    Onward.O m s0 (execSiteClose a1 a2 a3 s) := by
  unfold execSiteClose
  refine Onward.next ?_
  refine State.siteGo_on (hm.of rfl) _ _ _ _ _ _ ?_ ?_
  · exact h
  · intro x1 h2
    exact State.siteCmdEnds_on (hm.of rfl) _ _ _ _ (State.bundleOut_on (hm.of rfl) _ _ _ _ h2)

theorem State.replaySlp_on {m : Nat} (hm : Covers 0xa m) {s0 : State} (s : State) (a2) (a3) (h : Onward m s0 s) :
    Onward m s0 (State.replaySlp s a2 a3) := by
  unfold State.replaySlp
  extract_lets +onlyGivenNames x1
  refine foldl_ind (P := Onward _ _) ?_ _ _ ?_
  · intro x2 x3 h4
    exact State.emit_on (hm.of rfl) _ _ h4
  · exact State.inc_on (hm.of rfl) _ _ _ h

theorem execLinkControl_on {m : Nat} (hm : Covers 0x20000000a m) {s0 : State} (a1) (a2) (a3) (s : State) (h : Onward m s0 s) :
    Onward.O m s0 (execLinkControl a1 a2 a3 s) := by
  unfold execLinkControl
  extract_lets +onlyGivenNames x1 x2
  refine ite_ind (P := Onward.O _ _) ?_ ?_
  · exact h
  · extract_lets +onlyGivenNames x3 x4 x5 x6 x7
    have h8 : Onward m s0 x7 := by
      unfold x7
      exact State.setUp_on (hm.of rfl) _ _ _ _ h
    clear_value x7
    extract_lets +onlyGivenNames x9
    have h10 : Onward m s0 x9 := by
      unfold x9
      refine ite_ind (P := Onward _ _) ?_ ?_
      · exact State.replaySlp_on (hm.of rfl) _ _ _ h8
      · exact h8
    clear_value x9
    refine Onward.next ?_
    refine ite_ind (P := Onward _ _) ?_ ?_
    · exact State.moveSlp_on (hm.of rfl) _ _ _ (State.repairDue_on (hm.of rfl) _ _ _ _ h10)
    · exact State.drainUp_on (hm.of rfl) _ _ _ h10

theorem execSlpRetryTimeout_on {m : Nat} (hm : Covers 0xa m) {s0 : State} (a1) (a2) (s : State) (h : Onward m s0 s) :
    Onward.O m s0 (execSlpRetryTimeout a1 a2 s) := by
  unfold execSlpRetryTimeout
  refine ite_ind (P := Onward.O _ _) ?_ ?_
  · exact State.replaySlp_on (hm.of rfl) _ _ _ h
  · exact h

theorem execLinkControlTimer_on {m : Nat} (hm : Covers 0x200000002 m) {s0 : State} (a1) (a2) (s : State) (h : Onward m s0 s) :
    Onward.O m s0 (execLinkControlTimer a1 a2 s) := by
  unfold execLinkControlTimer
  refine ite_ind (P := Onward.O _ _) ?_ ?_
  · exact State.sendLinkCtl_on (hm.of rfl) _ _ _ _ _ h
  · exact h

theorem execCheckPattern_on {m : Nat} (hm : Covers 0x200000000 m) {s0 : State} (a1) (a2) (a3) (s : State) (h : Onward m s0 s) :
    Onward.O m s0 (execCheckPattern a1 a2 a3 s) := by
  unfold execCheckPattern
  extract_lets +onlyGivenNames x1 x2
  refine ite_ind (P := Onward.O _ _) ?_ ?_
  · exact h
  · extract_lets +onlyGivenNames x3 x4
    exact State.setDown_on (hm.of rfl) _ _ _ _ h

theorem execSitePacket_on {m : Nat} (hm : Covers 0x20000000a m) {s0 : State} (a1) (a2) (a3) (s : State) (h : Onward m s0 s) :
    Onward.O m s0 (execSitePacket a1 a2 a3 s) := by
  unfold execSitePacket
  extract_lets +onlyGivenNames x1 x2
  refine ite_ind (P := Onward.O _ _) ?_ ?_
  · exact h
  · extract_lets +onlyGivenNames x3 x4
    exact State.sendLinkCtl_on (hm.of rfl) _ _ _ _ _ (State.setDown_on (hm.of rfl) _ _ _ _ (State.inc_on (hm.of rfl) _ _ _ h))

theorem State.siteRuns_on {m : Nat} (hm : Covers 0xa0900000a m) {s0 : State} (s : State) (a2) (h : Onward m s0 s) :
    Onward m s0 (State.siteRuns s a2) := by
  unfold State.siteRuns
  extract_lets +onlyGivenNames x1 x2
  have h3 : Onward m s0 x2 := by
    unfold x2
    exact State.siteWires_on (hm.of rfl) _ _ _ _ _ (State.setSite_on (hm.of rfl) _ _ _ h)
  clear_value x2
  exact State.mboxSiteUp_on (hm.of rfl) _ _ (State.siteState_on (hm.of rfl) _ _ _ h3)

theorem State.handshakeFails_on {m : Nat} (hm : Covers 0x20140000a m) {s0 : State} (s : State) (a2) (a3) (h : Onward m s0 s) :
    Onward m s0 (State.handshakeFails s a2 a3) := by
  unfold State.handshakeFails
  extract_lets +onlyGivenNames x1 x2
  have h3 : Onward m s0 x2 := by
    unfold x2
    exact State.setSite_on (hm.of rfl) _ _ _ h
  clear_value x2
  exact State.siteRecord_on (hm.of rfl) _ _ _ _ _ (State.siteState_on (hm.of rfl) _ _ _ (State.wr_on (hm.of rfl) _ _ _ h3))

theorem State.showLimit_on {m : Nat} (hm : Covers 0x8 m) {s0 : State} (s : State) (a2) (h : Onward m s0 s) :
    Onward m s0 (State.showLimit s a2) := by
  unfold State.showLimit
  exact State.wr_on (hm.of rfl) _ _ _ h

theorem execCapabilityFrame_on {m : Nat} (hm : Covers 0xe19cef7ee m) {s0 : State} (a1) (a2) (a3) (a4) (a5) (s : State) (h : Onward m s0 s) :
    Onward.O m s0 (execCapabilityFrame a1 a2 a3 a4 a5 s) := by
  unfold execCapabilityFrame
  extract_lets +onlyGivenNames x1
  refine ite_ind (P := Onward.O _ _) ?_ ?_
  · exact h
  · extract_lets +onlyGivenNames x2 x3 x4 x5
    have h6 : Onward m s0 x5 := by
      unfold x5
      exact State.wr_on (hm.of rfl) _ _ _ (State.wr_on (hm.of rfl) _ _ _ (State.wr_on (hm.of rfl) _ _ _ h))
    clear_value x5
    extract_lets +onlyGivenNames x7
    have h8 : Onward m s0 x7 := by
      unfold x7
      exact State.showLimit_on (hm.of rfl) _ _ (State.wr_on (hm.of rfl) _ _ _ (State.wr_on (hm.of rfl) _ _ _ h6))
    clear_value x7
    refine ite_ind (P := Onward.O _ _) ?_ ?_
    · exact State.sendFrame_on (hm.of rfl) _ _ _ _ (State.handshakeFails_on (hm.of rfl) _ _ _ h8)
    · refine ite_ind (P := Onward.O _ _) ?_ ?_
      · exact State.sendFrame_on (hm.of rfl) _ _ _ _ (State.handshakeFails_on (hm.of rfl) _ _ _ h8)
      · extract_lets +onlyGivenNames x9
        have h10 : Onward m s0 x9 := by
          unfold x9
          exact State.wr_on (hm.of rfl) _ _ _ (State.wr_on (hm.of rfl) _ _ _ (State.wr_on (hm.of rfl) _ _ _ h8))
        clear_value x9
        extract_lets +onlyGivenNames x11 x12
        have h13 : Onward m s0 x12 := by
          unfold x12
          exact State.setSite_on (hm.of rfl) _ _ _ h10
        clear_value x12
        extract_lets +onlyGivenNames x14
        have h15 : Onward m s0 x14 := by
          unfold x14
          exact State.sendFrame_on (hm.of rfl) _ _ _ _ h13
        clear_value x14
        extract_lets +onlyGivenNames x16
        have h17 : Onward m s0 x16 := by
          unfold x16
          refine ite_ind (P := Onward _ _) ?_ ?_
          · exact State.siteRecord_on (hm.of rfl) _ _ _ _ _ h15
          · exact h15
        clear_value x16
        extract_lets +onlyGivenNames x18
        have h19 : Onward m s0 x18 := by
          unfold x18
          exact State.siteState_on (hm.of rfl) _ _ _ h17
        clear_value x18
        extract_lets +onlyGivenNames x20
        refine Onward.next ?_
        refine foldl_ind (P := Onward _ _) ?_ _ _ ?_
        · intro x21 x22 h23
          exact State.bundleOut_on (hm.of rfl) _ _ _ _ h23
        · exact h19

theorem execHandshakeTimeout_on {m : Nat} (hm : Covers 0x20140000a m) {s0 : State} (a1) (s : State) (h : Onward m s0 s) :
    Onward.O m s0 (execHandshakeTimeout a1 s) := by
  unfold execHandshakeTimeout
  refine ite_ind (P := Onward.O _ _) ?_ ?_
  · exact State.handshakeFails_on (hm.of rfl) _ _ _ h
  · exact h

theorem execSiteRelease_on {m : Nat} (hm : Covers 0xa0900000a m) {s0 : State} (a1) (s : State) (h : Onward m s0 s) :
    Onward.O m s0 (execSiteRelease a1 s) := by
  unfold execSiteRelease
  extract_lets +onlyGivenNames x1 x2
  refine ite_ind (P := Onward.O _ _) ?_ ?_
  · exact h
  · refine Onward.next ?_
    refine ite_ind (P := Onward _ _) ?_ ?_
    · exact State.siteRuns_on (hm.of rfl) _ _ h
    · exact h

theorem State.noteTrained_on {m : Nat} (hm : Covers 0x20140000a m) {s0 : State} (s : State) (a2) (a3) (a4) (h : Onward m s0 s) :
    Onward m s0 (State.noteTrained s a2 a3 a4) := by
  unfold State.noteTrained
  extract_lets +onlyGivenNames x1 x2 x3 x4
  have h5 : Onward m s0 x4 := by
    unfold x4
    refine ite_ind (P := Onward _ _) ?_ ?_
    · exact h
    · exact State.record_on (hm.of rfl) _ _ _ _ _ _ h
  clear_value x4
  exact State.noteC2_on (hm.of rfl) _ _ _ _ _ h5

theorem State.siteTrained_on {m : Nat} (hm : Covers 0x20140000a m) {s0 : State} (s : State) (a2) (a3) (h : Onward m s0 s) :
    Onward m s0 (State.siteTrained s a2 a3) := by
  unfold State.siteTrained
  extract_lets +onlyGivenNames x1 x2 x3 x4 x5 x6
  have h7 : Onward m s0 x6 := by
    unfold x6
    exact State.siteWires_on (hm.of rfl) _ _ _ _ _ (State.setSite_on (hm.of rfl) _ _ _ h)
  clear_value x6
  extract_lets +onlyGivenNames x8
  have h9 : Onward m s0 x8 := by
    unfold x8
    refine foldl_ind (P := Onward _ _) ?_ _ _ ?_
    · intro x10 x11 h12
      exact State.noteTrained_on (hm.of rfl) _ _ _ _ h12
    · exact h7
  clear_value x8
  extract_lets +onlyGivenNames x13
  have h14 : Onward m s0 x13 := by
    unfold x13
    exact State.wr_on (hm.of rfl) _ _ _ (State.wr_on (hm.of rfl) _ _ _ (State.wr_on (hm.of rfl) _ _ _ h9))
  clear_value x13
  refine ite_ind (P := Onward _ _) ?_ ?_
  · exact State.siteState_on (hm.of rfl) _ _ _ (State.setSite_on (hm.of rfl) _ _ _ h14)
  · exact State.bellFrames_on (hm.of rfl) _ (State.siteState_on (hm.of rfl) _ _ _ h14)

theorem execSidebandRepeat_on {m : Nat} (hm : Covers 0x2 m) {s0 : State} (a1) (s : State) (h : Onward m s0 s) :
    Onward.O m s0 (execSidebandRepeat a1 s) := by
  unfold execSidebandRepeat
  refine ite_ind (P := Onward.O _ _) ?_ ?_
  · refine Onward.next ?_
    refine foldl_ind (P := Onward _ _) ?_ _ _ ?_
    · intro x1 x2 h3
      exact State.emitFrame_on (hm.of rfl) _ _ _ h3
    · exact h
  · exact h

theorem execTemperatureFrame_on {m : Nat} (hm : Covers 0x200000008 m) {s0 : State} (a1) (a2) (s : State) (h : Onward m s0 s) :
    Onward.O m s0 (execTemperatureFrame a1 a2 s) := by
  unfold execTemperatureFrame
  extract_lets +onlyGivenNames x1
  refine ite_ind (P := Onward.O _ _) ?_ ?_
  · exact h
  · extract_lets +onlyGivenNames x2 x3
    have h4 : Onward m s0 x3 := by
      unfold x3
      exact State.setSite_on (hm.of rfl) _ _ _ h
    clear_value x3
    exact State.wr_on (hm.of rfl) _ _ _ h4

theorem execSiteTempStale_on {m : Nat} (hm : Covers 0x20140000a m) {s0 : State} (a1) (s : State) (h : Onward m s0 s) :
    Onward.O m s0 (execSiteTempStale a1 s) := by
  unfold execSiteTempStale
  extract_lets +onlyGivenNames x1 x2
  refine ite_ind (P := Onward.O _ _) ?_ ?_
  · exact h
  · exact State.siteRecord_on (hm.of rfl) _ _ _ _ _ (State.setSite_on (hm.of rfl) _ _ _ h)

theorem execFaultFrame_on {m : Nat} (hm : Covers 0x200000000 m) {s0 : State} (a1) (a2) (s : State) (h : Onward m s0 s) :
    Onward.O m s0 (execFaultFrame a1 a2 s) := by
  unfold execFaultFrame
  refine ite_ind (P := Onward.O _ _) ?_ ?_
  · exact State.setSite_on (hm.of rfl) _ _ _ h
  · exact h

theorem execSiteAlert_on {m : Nat} (hm : Covers 0x140000a m) {s0 : State} (a1) (s : State) (h : Onward m s0 s) :
    Onward.O m s0 (execSiteAlert a1 s) := by
  unfold execSiteAlert
  extract_lets +onlyGivenNames x1
  refine ite_ind (P := Onward.O _ _) ?_ ?_
  · exact h
  · exact State.siteRecord_on (hm.of rfl) _ _ _ _ _ (State.irq_on (hm.of rfl) _ _ (State.wr_on (hm.of rfl) _ _ _ h))

end Sys2Proof.Machine
end

