-- ==== Sys2Proof/Laws/OnMgmt.lean ====
section
/-! SUPPORT. Laws/OnMgmt.lean: what translation commands, domains, the Crook, power and start keep. -/
set_option maxRecDepth 4000
namespace Sys2Proof.Machine

theorem State.ringDrain_on {m : Nat} (hm : Covers 0x1020028 m) {s0 : State} (a1) (s : State) (h : Onward m s0 s) :
    Onward m s0 (State.ringDrain a1 s) := by
  induction a1 generalizing s with
  | zero => exact h
  | succ n ih =>
    unfold State.ringDrain
    split
    · exact h
    · exact ite_ind (P := Onward _ _) h (ih _ (State.ringWrite_on (hm.of rfl) _ _ (State.setXl_on (hm.of rfl) _ _ h)))

theorem State.setTail_on {m : Nat} (hm : Covers 0x1020028 m) {s0 : State} (s : State) (a2) (h : Onward m s0 s) :
    Onward m s0 (State.setTail s a2) := by
  unfold State.setTail
  extract_lets +onlyGivenNames x1
  have h2 : Onward m s0 x1 := by
    unfold x1
    exact State.wr_on (hm.of rfl) _ _ _ h
  clear_value x1
  exact State.ringDrain_on (hm.of rfl) _ _ h2

theorem execWalkerRingResume_on {m : Nat} (hm : Covers 0x1020028 m) {s0 : State} (a1) (s : State) (h : Onward m s0 s) :
    Onward.O m s0 (execWalkerRingResume a1 s) := by
  unfold execWalkerRingResume
  refine ite_ind (P := Onward.O _ _) ?_ ?_
  · exact h
  · exact State.setTail_on (hm.of rfl) _ _ h

theorem State.retryOp_on {m : Nat} (hm : Covers 0x20943f02a m) {s0 : State} (s : State) (a2) (a3) (a4) (h : Onward m s0 s) :
    Onward m s0 (State.retryOp s a2 a3 a4) := by
  unfold State.retryOp
  refine ite_ind (P := Onward _ _) ?_ ?_
  · exact State.cursorThen_on (hm.of rfl) _ _ h
  · extract_lets +onlyGivenNames x1
    have h2 : Onward m s0 x1 := by
      unfold x1
      refine ite_ind (P := Onward _ _) ?_ ?_
      · exact h
      · refine ite_ind (P := Onward _ _) ?_ ?_
        · exact State.translate_on (hm.of rfl) _ _ h
        · refine ite_ind (P := Onward _ _) ?_ ?_
          · exact State.resumeXfer_on (hm.of rfl) _ _ h
          · refine ite_ind (P := Onward _ _) ?_ ?_
            · exact State.setOp_on (hm.of rfl) _ _ h
            · exact h
    clear_value x1
    refine foldl_ind (P := Onward _ _) ?_ _ _ ?_
    · intro x3 x4 h5
      split
      · exact State.retryChunk_on (hm.of rfl) _ _ _ h5
      · exact h5
    · exact h2

theorem State.retryTicket_on {m : Nat} (hm : Covers 0x219cff7ea m) {s0 : State} (s : State) (a2) (a3) (h : Onward m s0 s) :
    Onward m s0 (State.retryTicket s a2 a3) := by
  unfold State.retryTicket
  extract_lets +onlyGivenNames x1
  have h2 : Onward m s0 x1 := by
    unfold x1
    refine foldl_ind (P := Onward _ _) ?_ _ _ ?_
    · intro x3 x4 h5
      split
      · exact State.retryOp_on (hm.of rfl) _ _ _ _ h5
      · exact h5
    · exact h
  clear_value x1
  exact State.lookupIn_on (hm.of rfl) _ _ h2

theorem State.settleTickets_on {m : Nat} (hm : Covers 0x20943f02a m) {s0 : State} (s : State) (h : Onward m s0 s) :
    Onward m s0 (State.settleTickets s) := by
  unfold State.settleTickets
  exact State.askAgain_on (hm.of rfl) _ (State.pruneInbound_on (hm.of rfl) _ (State.pruneTickets_on (hm.of rfl) _ h))

theorem State.xlOutcome_on {m : Nat} (hm : Covers 0x8 m) {s0 : State} (s : State) (a2) (h : Onward m s0 s) :
    Onward m s0 (State.xlOutcome s a2) := by
  unfold State.xlOutcome
  exact State.wr_on (hm.of rfl) _ _ _ (State.wr_on (hm.of rfl) _ _ _ h)

theorem State.replyRegs_on {m : Nat} (hm : Covers 0x8 m) {s0 : State} (s : State) (a2) (a3) (a4) (a5) (h : Onward m s0 s) :
    Onward m s0 (State.replyRegs s a2 a3 a4 a5) := by
  unfold State.replyRegs
  exact State.wrSome_on (hm.of rfl) _ _ _ (State.wrSome_on (hm.of rfl) _ _ _ (State.wrSome_on (hm.of rfl) _ _ _ (State.wr_on (hm.of rfl) _ _ _ h)))

theorem execXlFill_on {m : Nat} (hm : Covers 0x219cff7ea m) {s0 : State} (a1) (s : State) (h : Onward m s0 s) :
    Onward.O m s0 (execXlFill a1 s) := by
  unfold execXlFill
  refine ite_ind (P := Onward.O _ _) ?_ ?_
  · exact h
  · extract_lets +onlyGivenNames x1 x2
    have h3 : Onward m s0 x2 := by
      unfold x2
      exact State.replyRegs_on (hm.of rfl) _ _ _ _ _ h
    clear_value x2
    split
    · exact State.xlOutcome_on (hm.of rfl) _ _ h3
    · extract_lets +onlyGivenNames x9
      refine ite_ind (P := Onward.O _ _) ?_ ?_
      · exact State.xlOutcome_on (hm.of rfl) _ _ h3
      · extract_lets +onlyGivenNames x10 x11 x12
        have h13 : Onward m s0 x12 := by
          unfold x12
          refine ite_ind (P := Onward _ _) ?_ ?_
          · exact State.setL2_on (hm.of rfl) _ _ _ h3
          · exact State.setInbound_on (hm.of rfl) _ _ _ h3
        clear_value x12
        extract_lets +onlyGivenNames x14
        have h15 : Onward m s0 x14 := by
          unfold x14
          refine foldl_ind (P := Onward _ _) ?_ _ _ ?_
          · intro x16 x17 h18
            exact State.setL1_on (hm.of rfl) _ _ _ h18
          · exact h13
        clear_value x14
        exact State.xlOutcome_on (hm.of rfl) _ _ (State.settleTickets_on (hm.of rfl) _ (State.retryTicket_on (hm.of rfl) _ _ _ h15))

theorem execXlDefer_on {m : Nat} (hm : Covers 0x21943f02a m) {s0 : State} (a1) (s : State) (h : Onward m s0 s) :
    Onward.O m s0 (execXlDefer a1 s) := by
  unfold execXlDefer
  refine ite_ind (P := Onward.O _ _) ?_ ?_
  · exact h
  · extract_lets +onlyGivenNames x1 x2
    have h3 : Onward m s0 x2 := by
      unfold x2
      exact State.replyRegs_on (hm.of rfl) _ _ _ _ _ h
    clear_value x2
    split
    · exact State.xlOutcome_on (hm.of rfl) _ _ h3
    · extract_lets +onlyGivenNames x9 x10
      have h11 : Onward m s0 x10 := by
        unfold x10
        exact Onward.trans h3 (Onward.frame hm rfl rfl rfl rfl rfl rfl (fun w => ⟨w.1, w.2, w.3, w.4, w.5, w.6, w.7, w.8, w.9, w.10, w.11, w.12, w.13, w.14, w.15, w.16, w.17, w.18, w.19, w.20, w.21, w.22, w.23, w.24⟩)
    (fun p e => by cases p <;> first | exact absurd e (by decide) | rfl))
      clear_value x10
      extract_lets +onlyGivenNames x12
      have h13 : Onward m s0 x12 := by
        unfold x12
        exact State.failIn_on (hm.of rfl) _ _ _ _ h11
      clear_value x12
      exact State.xlOutcome_on (hm.of rfl) _ _ (State.settleTickets_on (hm.of rfl) _ h13)

theorem execXlResume_on {m : Nat} (hm : Covers 0x219cff7ea m) {s0 : State} (a1) (s : State) (h : Onward m s0 s) :
    Onward.O m s0 (execXlResume a1 s) := by
  unfold execXlResume
  refine ite_ind (P := Onward.O _ _) ?_ ?_
  · exact h
  · extract_lets +onlyGivenNames x1 x2
    have h3 : Onward m s0 x2 := by
      unfold x2
      exact State.replyRegs_on (hm.of rfl) _ _ _ _ _ h
    clear_value x2
    split
    · exact State.xlOutcome_on (hm.of rfl) _ _ h3
    · extract_lets +onlyGivenNames x9
      have h10 : ∀ u11, Onward m s0 u11 → Onward m s0 (x9 u11) := by
        intro x12 h13
        unfold x9
        exact State.setXl_on (hm.of rfl) _ _ h13
      clear_value x9
      extract_lets +onlyGivenNames x14
      have h15 : Onward m s0 x14 := by
        unfold x14
        refine State.retryTicket_on (hm.of rfl) _ _ _ ?_
        refine h10 _ ?_
        exact h3
      clear_value x14
      extract_lets +onlyGivenNames x16 x17
      have h18 : Onward m s0 x17 := by
        unfold x17
        exact State.setXl_on (hm.of rfl) _ _ h15
      clear_value x17
      exact State.xlOutcome_on (hm.of rfl) _ _ (State.settleTickets_on (hm.of rfl) _ h18)

theorem State.failTicketOp_on {m : Nat} (hm : Covers 0x2e008 m) {s0 : State} (s : State) (a2) (a3) (a4) (h : Onward m s0 s) :
    Onward m s0 (State.failTicketOp s a2 a3 a4) := by
  unfold State.failTicketOp
  refine ite_ind (P := Onward _ _) ?_ ?_
  · refine ite_ind (P := Onward _ _) ?_ ?_
    · exact State.finishXfer_on (hm.of rfl) _ _ h
    · exact State.finish_on (hm.of rfl) _ _ _ _ _ h
  · refine ite_ind (P := Onward _ _) ?_ ?_
    · refine ite_ind (P := Onward _ _) ?_ ?_
      · exact State.failOp_on (hm.of rfl) _ _ _ h
      · split
        · exact State.failXfer_on (hm.of rfl) _ _ _ h
        · exact State.failXfer_on (hm.of rfl) _ _ _ h
    · split
      · exact State.failXfer_on (hm.of rfl) _ _ _ h
      · exact h

theorem execXlFail_on {m : Nat} (hm : Covers 0x21943f02a m) {s0 : State} (a1) (a2) (s : State) (h : Onward m s0 s) :
    Onward.O m s0 (execXlFail a1 a2 s) := by
  unfold execXlFail
  refine ite_ind (P := Onward.O _ _) ?_ ?_
  · exact h
  · extract_lets +onlyGivenNames x1 x2 x3
    have h4 : Onward m s0 x3 := by
      unfold x3
      exact State.replyRegs_on (hm.of rfl) _ _ _ _ _ h
    clear_value x3
    refine ite_ind (P := Onward.O _ _) ?_ ?_
    · exact State.xlOutcome_on (hm.of rfl) _ _ h4
    · split
      · exact State.xlOutcome_on (hm.of rfl) _ _ h4
      · extract_lets +onlyGivenNames x10
        have h11 : Onward m s0 x10 := by
          unfold x10
          refine foldl_ind (P := Onward _ _) ?_ _ _ ?_
          · intro x12 x13 h14
            split
            · exact State.slotFreed_on (hm.of rfl) _ _ _ (State.failTicketOp_on (hm.of rfl) _ _ _ _ h14)
            · exact h14
          · exact h4
        clear_value x10
        exact State.xlOutcome_on (hm.of rfl) _ _ (State.settleTickets_on (hm.of rfl) _ (State.failIn_on (hm.of rfl) _ _ _ _ h11))

theorem execXlShadowFill_on {m : Nat} (hm : Covers 0x20008 m) {s0 : State} (a1) (s : State) (h : Onward m s0 s) :
    Onward.O m s0 (execXlShadowFill a1 s) := by
  unfold execXlShadowFill
  refine ite_ind (P := Onward.O _ _) ?_ ?_
  · exact h
  · extract_lets +onlyGivenNames x1
    have h2 : Onward m s0 x1 := by
      unfold x1
      exact State.replyRegs_on (hm.of rfl) _ _ _ _ _ h
    clear_value x1
    extract_lets +onlyGivenNames x3
    refine ite_ind (P := Onward.O _ _) ?_ ?_
    · exact State.xlOutcome_on (hm.of rfl) _ _ h2
    · exact State.xlOutcome_on (hm.of rfl) _ _ (State.setShadow_on (hm.of rfl) _ _ _ h2)

theorem execXlShadowClear_on {m : Nat} (hm : Covers 0x20008 m) {s0 : State} (a1) (s : State) (h : Onward m s0 s) :
    Onward.O m s0 (execXlShadowClear a1 s) := by
  unfold execXlShadowClear
  refine ite_ind (P := Onward.O _ _) ?_ ?_
  · exact h
  · exact State.xlOutcome_on (hm.of rfl) _ _ (State.setShadow_on (hm.of rfl) _ _ _ (State.replyRegs_on (hm.of rfl) _ _ _ _ _ h))

theorem State.shootEntries_on {m : Nat} (hm : Covers 0x20000 m) {s0 : State} (s : State) (a2) (h : Onward m s0 s) :
    Onward m s0 (State.shootEntries s a2) := by
  unfold State.shootEntries
  extract_lets +onlyGivenNames x1
  exact State.setXl_on (hm.of rfl) _ _ h

theorem State.shootYield_on {m : Nat} (hm : Covers 0x1cfe7ea m) {s0 : State} (s : State) (a2) (a3) (h : Onward m s0 s) :
    Onward m s0 (State.shootYield s a2 a3) := by
  unfold State.shootYield
  refine ite_ind (P := Onward _ _) ?_ ?_
  · exact h
  · extract_lets +onlyGivenNames x1 x2
    have h3 : Onward m s0 x2 := by
      unfold x2
      exact State.setXl_on (hm.of rfl) _ _ h
    clear_value x2
    refine ite_ind (P := Onward _ _) ?_ ?_
    · exact State.cursorThen_on (hm.of rfl) _ _ h3
    · extract_lets +onlyGivenNames x4
      have h5 : Onward m s0 x4 := by
        unfold x4
        exact State.yield_on (hm.of rfl) _ _ h3
      clear_value x4
      split
      · refine ite_ind (P := Onward _ _) ?_ ?_
        · exact State.resumeXfer_on (hm.of rfl) _ _ h5
        · exact h5
      · exact h5

theorem State.shootYields_on {m : Nat} (hm : Covers 0x1cfe7ea m) {s0 : State} (s : State) (a2) (h : Onward m s0 s) :
    Onward m s0 (State.shootYields s a2) := by
  unfold State.shootYields
  refine State.pruneTickets_on (hm.of rfl) _ ?_
  refine foldl_ind (P := Onward _ _) ?_ _ _ ?_
  · intro x1 x2 h3
    split
    · exact State.shootYield_on (hm.of rfl) _ _ _ h3
    · exact h3
  · exact h

theorem State.shootGo_on {m : Nat} (hm : Covers 0x1cfe7ea m) {s0 : State} (s : State) (a2) (a3) (h : Onward m s0 s) :
    Onward m s0 (State.shootGo s a2 a3) := by
  unfold State.shootGo
  refine ite_ind (P := Onward _ _) ?_ ?_
  · exact h
  · refine ite_ind (P := Onward _ _) ?_ ?_
    · exact State.wr_on (hm.of rfl) _ _ _ h
    · extract_lets +onlyGivenNames x1
      have h2 : Onward m s0 x1 := by
        unfold x1
        exact State.wr_on (hm.of rfl) _ _ _ (State.wr_on (hm.of rfl) _ _ _ h)
      clear_value x1
      extract_lets +onlyGivenNames x3
      refine ite_ind (P := Onward _ _) ?_ ?_
      · exact State.wr_on (hm.of rfl) _ _ _ (State.wr_on (hm.of rfl) _ _ _ h2)
      · extract_lets +onlyGivenNames x4 x5
        have h6 : Onward m s0 x5 := by
          unfold x5
          exact State.wr_on (hm.of rfl) _ _ _ (State.wr_on (hm.of rfl) _ _ _ h2)
        clear_value x5
        exact State.shootYields_on (hm.of rfl) _ _ (State.shootEntries_on (hm.of rfl) _ _ (State.setXl_on (hm.of rfl) _ _ h6))

theorem execShootdown_on {m : Nat} (hm : Covers 0x1cfe7ea m) {s0 : State} (a1) (a2) (s : State) (h : Onward m s0 s) :
    Onward.O m s0 (execShootdown a1 a2 s) := by
  unfold execShootdown
  exact State.shootGo_on (hm.of rfl) _ _ _ h

theorem execShootdownDone_on {m : Nat} (hm : Covers 0x1cfe7ea m) {s0 : State} (s : State) (h : Onward m s0 s) :
    Onward.O m s0 (execShootdownDone s) := by
  unfold execShootdownDone
  split
  · exact h
  · extract_lets +onlyGivenNames x6
    have h7 : Onward m s0 x6 := by
      unfold x6
      exact State.shootYields_on (hm.of rfl) _ _ h
    clear_value x6
    extract_lets +onlyGivenNames x8 x9
    refine ite_ind (P := Onward.O _ _) ?_ ?_
    · exact h7
    · exact State.irq_on (hm.of rfl) _ _ (State.wr_on (hm.of rfl) _ _ _ (State.setXl_on (hm.of rfl) _ _ h7))

theorem State.migNextPiece_on {m : Nat} (hm : Covers 0x1cc07ea m) {s0 : State} (s : State) (a2) (a3) (h : Onward m s0 s) :
    Onward m s0 (State.migNextPiece s a2 a3) := by
  unfold State.migNextPiece
  split
  extract_lets +onlyGivenNames x5
  refine ite_ind (P := Onward _ _) ?_ ?_
  · exact State.emit_on (hm.of rfl) _ _ h
  · exact State.touch_on (hm.of rfl) _ _ _ _ _ _ _ (State.emit_on (hm.of rfl) _ _ h)

theorem State.migGo_on {m : Nat} (hm : Covers 0x1ce07ea m) {s0 : State} (s : State) (a2) (a3) (h : Onward m s0 s) :
    Onward m s0 (State.migGo s a2 a3) := by
  unfold State.migGo
  refine ite_ind (P := Onward _ _) ?_ ?_
  · exact h
  · refine ite_ind (P := Onward _ _) ?_ ?_
    · exact State.wr_on (hm.of rfl) _ _ _ h
    · extract_lets +onlyGivenNames x1
      have h2 : Onward m s0 x1 := by
        unfold x1
        exact State.wr_on (hm.of rfl) _ _ _ (State.wr_on (hm.of rfl) _ _ _ h)
      clear_value x1
      extract_lets +onlyGivenNames x3
      have h4 : ∀ u5, Onward m s0 (x3 u5) := by
        intro x6
        unfold x3
        exact State.wr_on (hm.of rfl) _ _ _ (State.wr_on (hm.of rfl) _ _ _ h2)
      clear_value x3
      extract_lets +onlyGivenNames x7 x8
      refine ite_ind (P := Onward _ _) ?_ ?_
      · refine h4 _
      · refine ite_ind (P := Onward _ _) ?_ ?_
        · refine h4 _
        · extract_lets +onlyGivenNames x9
          have h10 : Onward m s0 x9 := by
            unfold x9
            exact State.wr_on (hm.of rfl) _ _ _ (State.wr_on (hm.of rfl) _ _ _ h2)
          clear_value x9
          extract_lets +onlyGivenNames x11
          have h12 : Onward m s0 x11 := by
            unfold x11
            exact State.wr_on (hm.of rfl) _ _ _ (State.wr_on (hm.of rfl) _ _ _ h10)
          clear_value x11
          exact State.migNextPiece_on (hm.of rfl) _ _ _ (State.setXl_on (hm.of rfl) _ _ h12)

theorem execMigFetch_on {m : Nat} (hm : Covers 0x1ce07ea m) {s0 : State} (a1) (s : State) (h : Onward m s0 s) :
    Onward.O m s0 (execMigFetch a1 s) := by
  unfold execMigFetch
  exact State.migGo_on (hm.of rfl) _ _ _ h

theorem execMigEvict_on {m : Nat} (hm : Covers 0x1ce07ea m) {s0 : State} (a1) (s : State) (h : Onward m s0 s) :
    Onward.O m s0 (execMigEvict a1 s) := by
  unfold execMigEvict
  exact State.migGo_on (hm.of rfl) _ _ _ h

theorem State.migFail_on {m : Nat} (hm : Covers 0x1020008 m) {s0 : State} (s : State) (a2) (h : Onward m s0 s) :
    Onward m s0 (State.migFail s a2) := by
  unfold State.migFail
  exact State.irq_on (hm.of rfl) _ _ (State.wr_on (hm.of rfl) _ _ _ (State.wr_on (hm.of rfl) _ _ _ (State.setXl_on (hm.of rfl) _ _ h)))

theorem State.migStep_on {m : Nat} (hm : Covers 0x1ce07ea m) {s0 : State} (s : State) (a2) (a3) (a4) (h : Onward m s0 s) :
    Onward m s0 (State.migStep s a2 a3 a4) := by
  unfold State.migStep
  extract_lets +onlyGivenNames x1 x2 x3
  have h4 : Onward m s0 x3 := by
    unfold x3
    exact State.sat_on (hm.of rfl) _ _ _ (State.setXl_on (hm.of rfl) _ _ h)
  clear_value x3
  refine ite_ind (P := Onward _ _) ?_ ?_
  · exact State.migNextPiece_on (hm.of rfl) _ _ _ h4
  · exact h4

theorem execMigrationPiece_on {m : Nat} (hm : Covers 0x1ce07ea m) {s0 : State} (a1) (a2) (a3) (s : State) (h : Onward m s0 s) :
    Onward.O m s0 (execMigrationPiece a1 a2 a3 s) := by
  unfold execMigrationPiece
  split
  · exact h
  · extract_lets +onlyGivenNames x7 x8
    refine ite_ind (P := Onward.O _ _) ?_ ?_
    · exact h
    · refine ite_ind (P := Onward.O _ _) ?_ ?_
      · exact State.migFail_on (hm.of rfl) _ _ h
      · extract_lets +onlyGivenNames x9
        refine ite_ind (P := Onward.O _ _) ?_ ?_
        · exact State.migStep_on (hm.of rfl) _ _ _ _ h
        · split
          · exact h
          · exact State.migFail_on (hm.of rfl) _ _ h
          · extract_lets +onlyGivenNames x17 x18
            have h19 : Onward m s0 x18 := by
              unfold x18
              refine eachUpTo_ind (P := Onward _ _) _ _ ?_ ?_
              · exact h
              · intro x20 x21 h22
                exact State.writeBytes_on (hm.of rfl) _ _ _ _ _ _ h22
            clear_value x18
            exact State.migStep_on (hm.of rfl) _ _ _ _ h19

theorem execMigrationDone_on {m : Nat} (hm : Covers 0x1020008 m) {s0 : State} (s : State) (h : Onward m s0 s) :
    Onward.O m s0 (execMigrationDone s) := by
  unfold execMigrationDone
  split
  · exact h
  · refine ite_ind (P := Onward.O _ _) ?_ ?_
    · exact h
    · exact State.irq_on (hm.of rfl) _ _ (State.wr_on (hm.of rfl) _ _ _ (State.setXl_on (hm.of rfl) _ _ h))

theorem State.resetRegs_on {m : Nat} (hm : Covers 0x18 m) {s0 : State} (s : State) (a2) (h : Onward m s0 s) :
    Onward m s0 (State.resetRegs s a2) := by
  unfold State.resetRegs
  extract_lets +onlyGivenNames x1 x2
  have h3 : Onward m s0 x2 := by
    unfold x2
    exact Onward.trans h (Onward.frame hm rfl rfl rfl rfl rfl rfl (fun w => ⟨w.1, w.2, by dsimp only; exact Tab.wf_keep _ _ _ w.3, by dsimp only; exact Tab.wf_keep _ _ _ w.4, w.5, w.6, w.7, w.8, w.9, w.10, w.11, w.12, w.13, w.14, w.15, w.16, w.17, w.18, w.19, w.20, w.21, w.22, w.23, w.24⟩)
    (fun p e => by cases p <;> first | exact absurd e (by decide) | rfl))
  clear_value x2
  refine foldl_ind (P := Onward _ _) ?_ _ _ ?_
  · intro x4 x5 h6
    exact State.cancelGate_on (hm.of rfl) _ _ _ h6
  · exact h3

theorem State.loadMr_on {m : Nat} (hm : Covers 0x18 m) {s0 : State} (s : State) (a2) (h : Onward m s0 s) :
    Onward m s0 (State.loadMr s a2) := by
  unfold State.loadMr
  split
  · exact h
  · refine foldl_ind (P := Onward _ _) ?_ _ _ ?_
    · intro x6 x7 h8
      extract_lets +onlyGivenNames x9
      refine ite_ind (P := Onward _ _) ?_ ?_
      · exact h8
      · exact State.setStg_on (hm.of rfl) _ _ _ (State.setReg_on (hm.of rfl) _ _ _ h8)
    · exact h

theorem State.waysFromCfg_on {m : Nat} (hm : Covers 0x8 m) {s0 : State} (s : State) (a2) (h : Onward m s0 s) :
    Onward m s0 (State.waysFromCfg s a2) := by
  unfold State.waysFromCfg
  exact State.wr_on (hm.of rfl) _ _ _ (State.wr_on (hm.of rfl) _ _ _ (State.wr_on (hm.of rfl) _ _ _ h))

theorem State.resetDrover_on {m : Nat} (hm : Covers 0x2e00c m) {s0 : State} (s : State) (a2) (h : Onward m s0 s) :
    Onward m s0 (State.resetDrover s a2) := by
  unfold State.resetDrover
  refine ite_ind (P := Onward _ _) ?_ ?_
  · exact h
  · extract_lets +onlyGivenNames x1 x2
    have h3 : Onward m s0 x2 := by
      unfold x2
      exact Onward.trans h (Onward.frame hm rfl rfl rfl rfl rfl rfl (fun w => ⟨w.1, w.2, w.3, w.4, w.5, w.6, w.7, w.8, w.9, w.10, w.11, w.12, w.13, w.14, w.15, w.16, w.17, w.18, w.19, w.20, w.21, w.22, w.23, w.24⟩)
    (fun p e => by cases p <;> first | exact absurd e (by decide) | rfl))
    clear_value x2
    extract_lets +onlyGivenNames x4
    have h5 : Onward m s0 x4 := by
      unfold x4
      refine eachUpTo_ind (P := Onward _ _) _ _ ?_ ?_
      · exact h3
      · intro x6 x7 h8
        exact State.setStrand_on (hm.of rfl) _ _ _ _ h8
    clear_value x4
    extract_lets +onlyGivenNames x9
    have h10 : Onward m s0 x9 := by
      unfold x9
      exact State.pruneTickets_on (hm.of rfl) _ (State.setL1_on (hm.of rfl) _ _ _ (State.taken_on (hm.of rfl) _ (State.setDrv_on (hm.of rfl) _ _ _ h5)))
    clear_value x9
    exact State.wr_on (hm.of rfl) _ _ _ h10

theorem State.droverBack_on {m : Nat} (hm : Covers 0x8 m) {s0 : State} (s : State) (a2) (h : Onward m s0 s) :
    Onward m s0 (State.droverBack s a2) := by
  unfold State.droverBack
  refine ite_ind (P := Onward _ _) ?_ ?_
  · exact State.wr_on (hm.of rfl) _ _ _ h
  · exact h

theorem State.dropWaiting_on {m : Nat} (hm : Covers 0x402 m) {s0 : State} (s : State) (a2) (a3) (h : Onward m s0 s) :
    Onward m s0 (State.dropWaiting s a2 a3) := by
  unfold State.dropWaiting
  extract_lets +onlyGivenNames x1 x2
  refine foldl_ind (P := Onward _ _) ?_ _ _ ?_
  · intro x3 x4 h5
    split
    · exact h5
    · exact State.emit_on (hm.of rfl) _ _ h5
  · exact State.setBank_on (hm.of rfl) _ _ _ h

theorem State.discardPen_on {m : Nat} (hm : Covers 0x380 m) {s0 : State} (s : State) (a2) (h : Onward m s0 s) :
    Onward m s0 (State.discardPen s a2) := by
  unfold State.discardPen
  refine foldl_ind (P := Onward _ _) ?_ _ _ ?_
  · intro x1 x2 h3
    exact State.setLine_on (hm.of rfl) _ _ _ (State.eraseLine_on (hm.of rfl) _ _ h3)
  · exact h

theorem State.resetPen_on {m : Nat} (hm : Covers 0x53cefffe m) {s0 : State} (s : State) (a2) (a3) (h : Onward m s0 s) :
    Onward m s0 (State.resetPen s a2 a3) := by
  unfold State.resetPen
  extract_lets +onlyGivenNames x1
  have h2 : Onward m s0 x1 := by
    unfold x1
    refine eachUpTo_ind (P := Onward _ _) _ _ ?_ ?_
    · exact h
    · intro x3 x4 h5
      exact State.setL1_on (hm.of rfl) _ _ _ (State.resetDrover_on (hm.of rfl) _ _ h5)
  clear_value x1
  extract_lets +onlyGivenNames x6 x7
  have h8 : Onward m s0 x7 := by
    unfold x7
    refine ite_ind (P := Onward _ _) ?_ ?_
    · refine foldl_ind (P := Onward _ _) ?_ _ _ ?_
      · intro x9 x10 h11
        exact State.dropWaiting_on (hm.of rfl) _ _ _ h11
      · exact h2
    · refine foldl_ind (P := Onward _ _) ?_ _ _ ?_
      · intro x12 x13 h14
        refine foldl_ind (P := Onward _ _) ?_ _ _ ?_
        · intro x15 x16 h17
          exact State.endMiss_on (hm.of rfl) _ _ _ h17
        · exact h14
      · exact h2
  clear_value x7
  extract_lets +onlyGivenNames x18
  have h19 : Onward m s0 x18 := by
    unfold x18
    exact Onward.trans h8 (Onward.frame hm rfl rfl rfl rfl rfl rfl (fun w => ⟨w.1, w.2, w.3, w.4, w.5, w.6, w.7, w.8, w.9, w.10, w.11, w.12, w.13, w.14, w.15, w.16, w.17, w.18, w.19, w.20, Nats.wf_ins _ _ w.21, w.22, w.23, w.24⟩)
    (fun p e => by cases p <;> first | exact absurd e (by decide) | rfl))
  clear_value x18
  extract_lets +onlyGivenNames x20
  have h21 : Onward m s0 x20 := by
    unfold x20
    refine ite_ind (P := Onward _ _) ?_ ?_
    · exact State.discardPen_on (hm.of rfl) _ _ h19
    · exact State.emptyLines_on (hm.of rfl) _ _ _ h19
  clear_value x20
  extract_lets +onlyGivenNames x22
  have h23 : Onward m s0 x22 := by
    unfold x22
    refine foldl_ind (P := Onward _ _) ?_ _ _ ?_
    · intro x24 x25 h26
      exact State.setBank_on (hm.of rfl) _ _ _ h26
    · exact h21
  clear_value x22
  extract_lets +onlyGivenNames x27
  have h28 : Onward m s0 x27 := by
    unfold x27
    refine eachUpTo_ind (P := Onward _ _) _ _ ?_ ?_
    · exact h23
    · intro x29 x30 h31
      exact State.zeroSlot_on (hm.of rfl) _ _ _ h31
  clear_value x27
  extract_lets +onlyGivenNames x32
  have h33 : Onward m s0 x32 := by
    unfold x32
    exact State.resetRegs_on (hm.of rfl) _ _ h28
  clear_value x32
  extract_lets +onlyGivenNames x34
  have h35 : Onward m s0 x34 := by
    unfold x34
    exact State.waysFromCfg_on (hm.of rfl) _ _ (State.loadMr_on (hm.of rfl) _ _ h33)
  clear_value x34
  exact State.setShadow_on (hm.of rfl) _ _ _ (State.setL2_on (hm.of rfl) _ _ _ (State.setPenWays_on (hm.of rfl) _ _ _ h35))

theorem State.resetDrvBlk_on {m : Nat} (hm : Covers 0x18 m) {s0 : State} (s : State) (a2) (h : Onward m s0 s) :
    Onward m s0 (State.resetDrvBlk s a2) := by
  unfold State.resetDrvBlk
  extract_lets +onlyGivenNames x1
  refine eachUpTo_ind (P := Onward _ _) _ _ ?_ ?_
  · exact State.resetRegs_on (hm.of rfl) _ _ h
  · intro x2 x3 h4
    extract_lets +onlyGivenNames x5
    exact State.wr_on (hm.of rfl) _ _ _ (State.wr_on (hm.of rfl) _ _ _ h4)

theorem State.resetDoorbells_on {m : Nat} (hm : Covers 0x18 m) {s0 : State} (s : State) (a2) (h : Onward m s0 s) :
    Onward m s0 (State.resetDoorbells s a2) := by
  unfold State.resetDoorbells
  extract_lets +onlyGivenNames x1
  exact State.resetRegs_on (hm.of rfl) _ _ h

theorem State.stackSleeps_on {m : Nat} (hm : Covers 0x8 m) {s0 : State} (s : State) (a2) (h : Onward m s0 s) :
    Onward m s0 (State.stackSleeps s a2) := by
  unfold State.stackSleeps
  refine ite_ind (P := Onward _ _) ?_ ?_
  · exact State.wr_on (hm.of rfl) _ _ _ h
  · exact h

theorem State.stackWakes_on {m : Nat} (hm : Covers 0x1cc17ea m) {s0 : State} (s : State) (a2) (h : Onward m s0 s) :
    Onward m s0 (State.stackWakes s a2) := by
  unfold State.stackWakes
  refine ite_ind (P := Onward _ _) ?_ ?_
  · exact h
  · exact State.rangeAfterMiss_on (hm.of rfl) _ _ (State.wr_on (hm.of rfl) _ _ _ h)

theorem State.resetSiteBlk_on {m : Nat} (hm : Covers 0x18 m) {s0 : State} (s : State) (a2) (h : Onward m s0 s) :
    Onward m s0 (State.resetSiteBlk s a2) := by
  unfold State.resetSiteBlk
  extract_lets +onlyGivenNames x1 x2 x3 x4 x5
  have h6 : Onward m s0 x5 := by
    unfold x5
    exact State.loadMr_on (hm.of rfl) _ _ (State.resetRegs_on (hm.of rfl) _ _ h)
  clear_value x5
  exact State.wr_on (hm.of rfl) _ _ _ (State.wr_on (hm.of rfl) _ _ _ (State.wr_on (hm.of rfl) _ _ _ (State.wr_on (hm.of rfl) _ _ _ h6)))

theorem State.resetPaddock_on {m : Nat} (hm : Covers 0x20e5fcefffe m) {s0 : State} (s : State) (a2) (a3) (h : Onward m s0 s) :
    Onward m s0 (State.resetPaddock s a2 a3) := by
  unfold State.resetPaddock
  extract_lets +onlyGivenNames x1 x2 x3
  have h4 : Onward m s0 x3 := by
    unfold x3
    refine ite_ind (P := Onward _ _) ?_ ?_
    · exact State.siteStops_on (hm.of rfl) _ _ _ h
    · exact h
  clear_value x3
  extract_lets +onlyGivenNames x5
  have h6 : Onward m s0 x5 := by
    unfold x5
    exact Onward.trans h4 (Onward.frame hm rfl rfl rfl rfl rfl rfl (fun w => ⟨w.1, w.2, w.3, w.4, w.5, w.6, w.7, w.8, w.9, w.10, w.11, w.12, w.13, w.14, w.15, w.16, w.17, w.18, w.19, w.20, w.21, Nats.wf_ins _ _ w.22, (ite_ind (P := fun x => Nats.wf x = true) (Nats.wf_ins _ _ w.23) (w.23)), w.24⟩)
    (fun p e => by cases p <;> first | exact absurd e (by decide) | rfl))
  clear_value x5
  extract_lets +onlyGivenNames x7
  have h8 : Onward m s0 x7 := by
    unfold x7
    refine eachUpTo_ind (P := Onward _ _) _ _ ?_ ?_
    · exact h6
    · intro x9 x10 h11
      exact State.resetDrvBlk_on (hm.of rfl) _ _ (State.resetPen_on (hm.of rfl) _ _ _ h11)
  clear_value x7
  extract_lets +onlyGivenNames x12
  have h13 : Onward m s0 x12 := by
    unfold x12
    exact State.dropContext_on (hm.of rfl) _ _ (State.resetRegs_on (hm.of rfl) _ _ h8)
  clear_value x12
  extract_lets +onlyGivenNames x14
  have h15 : Onward m s0 x14 := by
    unfold x14
    exact State.resetDoorbells_on (hm.of rfl) _ _ (State.resetSiteBlk_on (hm.of rfl) _ _ h13)
  clear_value x14
  extract_lets +onlyGivenNames x16
  have h17 : Onward m s0 x16 := by
    unfold x16
    refine foldl_ind (P := Onward _ _) ?_ _ _ ?_
    · intro x18 x19 h20
      exact State.answerIn_on (hm.of rfl) _ _ _ _ _ _ h20
    · exact h15
  clear_value x16
  extract_lets +onlyGivenNames x21
  have h22 : Onward m s0 x21 := by
    unfold x21
    refine eachUpTo_ind (P := Onward _ _) _ _ ?_ ?_
    · exact h17
    · intro x23 x24 h25
      exact State.stackSleeps_on (hm.of rfl) _ _ h25
  clear_value x21
  refine ite_ind (P := Onward _ _) ?_ ?_
  · refine eachUpTo_ind (P := Onward _ _) _ _ ?_ ?_
    · exact h22
    · intro x26 x27 h28
      extract_lets +onlyGivenNames x29
      have h30 : Onward m s0 x29 := by
        unfold x29
        exact State.zeroStack_on (hm.of rfl) _ _ h28
      clear_value x29
      refine ite_ind (P := Onward _ _) ?_ ?_
      · exact h30
      · exact State.wr_on (hm.of rfl) _ _ _ h30
  · exact h22

theorem State.openPen_on {m : Nat} (hm : Covers 0x53ccb7ea m) {s0 : State} (s : State) (a2) (h : Onward m s0 s) :
    Onward m s0 (State.openPen s a2) := by
  unfold State.openPen
  extract_lets +onlyGivenNames x1
  have h2 : Onward m s0 x1 := by
    unfold x1
    refine eachUpTo_ind (P := Onward _ _) _ _ ?_ ?_
    · exact h
    · intro x3 x4 h5
      exact State.droverBack_on (hm.of rfl) _ _ h5
  clear_value x1
  extract_lets +onlyGivenNames x6
  have h7 : Onward m s0 x6 := by
    unfold x6
    exact Onward.trans h2 (Onward.frame hm rfl rfl rfl rfl rfl rfl (fun w => ⟨w.1, w.2, w.3, w.4, w.5, w.6, w.7, w.8, w.9, w.10, w.11, w.12, w.13, w.14, w.15, w.16, w.17, w.18, w.19, w.20, Nats.wf_del _ _ w.21, w.22, w.23, w.24⟩)
    (fun p e => by cases p <;> first | exact absurd e (by decide) | rfl))
  clear_value x6
  extract_lets +onlyGivenNames x8
  have h9 : Onward m s0 x8 := by
    unfold x8
    refine foldl_ind (P := Onward _ _) ?_ _ _ ?_
    · intro x10 x11 h12
      exact State.lookAgain_on (hm.of rfl) _ _ h12
    · exact h7
  clear_value x8
  exact State.rangeAfterMiss_on (hm.of rfl) _ _ h9

theorem State.heldAgain_on {m : Nat} (hm : Covers 0x619cff7ea m) {s0 : State} (s : State) (h : Onward m s0 s) :
    Onward m s0 (State.heldAgain s) := by
  unfold State.heldAgain
  exact State.retrySites_on (hm.of rfl) _ (State.retryIn_on (hm.of rfl) _ (State.askAgain_on (hm.of rfl) _ (State.heldArrivals_on (hm.of rfl) _ h)))

theorem State.openPaddock_on {m : Nat} (hm : Covers 0x20257ccb7ea m) {s0 : State} (s : State) (a2) (h : Onward m s0 s) :
    Onward m s0 (State.openPaddock s a2) := by
  unfold State.openPaddock
  extract_lets +onlyGivenNames x1
  have h2 : Onward m s0 x1 := by
    unfold x1
    exact Onward.trans h (Onward.frame hm rfl rfl rfl rfl rfl rfl (fun w => ⟨w.1, w.2, w.3, w.4, w.5, w.6, w.7, w.8, w.9, w.10, w.11, w.12, w.13, w.14, w.15, w.16, w.17, w.18, w.19, w.20, w.21, Nats.wf_del _ _ w.22, Nats.wf_del _ _ w.23, w.24⟩)
    (fun p e => by cases p <;> first | exact absurd e (by decide) | rfl))
  clear_value x1
  extract_lets +onlyGivenNames x3
  have h4 : Onward m s0 x3 := by
    unfold x3
    refine eachUpTo_ind (P := Onward _ _) _ _ ?_ ?_
    · exact h2
    · intro x5 x6 h7
      exact State.stackWakes_on (hm.of rfl) _ _ h7
  clear_value x3
  extract_lets +onlyGivenNames x8
  have h9 : Onward m s0 x8 := by
    unfold x8
    refine eachUpTo_ind (P := Onward _ _) _ _ ?_ ?_
    · exact h4
    · intro x10 x11 h12
      exact State.openPen_on (hm.of rfl) _ _ h12
  clear_value x8
  refine ite_ind (P := Onward _ _) ?_ ?_
  · exact State.setSite_on (hm.of rfl) _ _ _ h9
  · exact h9

theorem State.sitesOff_on {m : Nat} (hm : Covers 0xe19cef7ee m) {s0 : State} (s : State) (h : Onward m s0 s) :
    Onward m s0 (State.sitesOff s) := by
  unfold State.sitesOff
  refine eachUpTo_ind (P := Onward _ _) _ _ ?_ ?_
  · exact h
  · intro x1 x2 h3
    refine ite_ind (P := Onward _ _) ?_ ?_
    · exact h3
    · exact State.siteOff_on (hm.of rfl) _ _ _ h3

theorem State.unitsLost_on {m : Nat} (hm : Covers 0x4206febeffe0 m) {s0 : State} (s : State) (a2) (h : Onward m s0 s) :
    Onward m s0 (State.unitsLost s a2) := by
  unfold State.unitsLost
  extract_lets +onlyGivenNames x1
  have h2 : Onward m s0 x1 := by
    unfold x1
    exact Onward.trans h (Onward.frame hm rfl rfl rfl rfl rfl rfl (fun w => ⟨w.1, rfl, w.3, w.4, rfl, rfl, rfl, rfl, rfl, rfl, w.11, w.12, rfl, w.14, w.15, w.16, w.17, rfl, w.19, w.20, rfl, rfl, rfl, rfl⟩)
    (fun p e => by cases p <;> first | exact absurd e (by decide) | rfl))
  clear_value x1
  extract_lets +onlyGivenNames x3 x4
  have h5 : Onward m s0 x4 := by
    unfold x4
    exact Onward.trans h2 (Onward.frame hm rfl rfl rfl rfl rfl rfl (fun w => ⟨w.1, w.2, w.3, w.4, w.5, w.6, w.7, w.8, w.9, w.10, (ite_ind (P := fun x => Tab.wf _ x = true) (Tab.wf_mapv _ _ _ w.11) (rfl)), (ite_ind (P := fun x => Tab.wf _ x = true) (w.12) (rfl)), w.13, w.14, w.15, w.16, w.17, w.18, w.19, w.20, w.21, w.22, w.23, w.24⟩)
    (fun p e => by cases p <;> first | exact absurd e (by decide) | rfl))
  clear_value x4
  refine ite_ind (P := Onward _ _) ?_ ?_
  · exact h5
  · extract_lets +onlyGivenNames x6
    have h7 : Onward m s0 x6 := by
      unfold x6
      exact Onward.trans h5 (Onward.frame hm rfl rfl rfl rfl rfl rfl (fun w => ⟨w.1, w.2, w.3, w.4, w.5, w.6, w.7, w.8, w.9, w.10, w.11, w.12, w.13, Tab.wf_mapv _ _ _ w.14, w.15, w.16, w.17, w.18, w.19, w.20, w.21, w.22, w.23, w.24⟩)
    (fun p e => by cases p <;> first | exact absurd e (by decide) | rfl))
    clear_value x6
    exact Onward.trans h7 (Onward.frame hm rfl rfl rfl rfl rfl rfl (fun w => ⟨by dsimp only; exact Memory.wf_keep _ _ w.1, w.2, w.3, w.4, w.5, w.6, w.7, w.8, w.9, w.10, w.11, w.12, w.13, w.14, w.15, w.16, rfl, w.18, rfl, w.20, w.21, w.22, w.23, w.24⟩)
    (fun p e => by cases p <;> first | exact absurd e (by decide) | rfl))

theorem State.unitNotices_on {m : Nat} (hm : Covers 0x400000 m) {s0 : State} (s : State) (h : Onward m s0 s) :
    Onward m s0 (State.unitNotices s) := by
  unfold State.unitNotices
  extract_lets +onlyGivenNames x1
  exact State.setLog_on (hm.of rfl) _ _ h (Nat.le_refl _)

theorem State.momentOver_on {m : Nat} (hm : Covers 0x8 m) {s0 : State} (s : State) (h : Onward m s0 s) :
    Onward m s0 (State.momentOver s) := by
  unfold State.momentOver
  extract_lets +onlyGivenNames x1
  have h2 : Onward m s0 x1 := by
    unfold x1
    refine eachUpTo_ind (P := Onward _ _) _ _ ?_ ?_
    · exact h
    · intro x3 x4 h5
      exact State.showWindow_on (hm.of rfl) _ _ (State.wr_on (hm.of rfl) _ _ _ (State.wr_on (hm.of rfl) _ _ _ h5))
  clear_value x1
  extract_lets +onlyGivenNames x6
  have h7 : Onward m s0 x6 := by
    unfold x6
    refine eachUpTo_ind (P := Onward _ _) _ _ ?_ ?_
    · exact h2
    · intro x8 x9 h10
      exact State.wr_on (hm.of rfl) _ _ _ (State.wr_on (hm.of rfl) _ _ _ h10)
  clear_value x6
  refine eachUpTo_ind (P := Onward _ _) _ _ ?_ ?_
  · exact State.wr_on (hm.of rfl) _ _ _ h7
  · intro x11 x12 h13
    exact State.wr_on (hm.of rfl) _ _ _ h13

theorem State.resetDomains_on {m : Nat} (hm : Covers 0x420efffefffe m) {s0 : State} (s : State) (a2) (h : Onward m s0 s) :
    Onward m s0 (State.resetDomains s a2) := by
  unfold State.resetDomains
  extract_lets +onlyGivenNames x1
  have h2 : Onward m s0 x1 := by
    unfold x1
    exact State.unitNotices_on (hm.of rfl) _ (State.unitsLost_on (hm.of rfl) _ _ (State.sitesOff_on (hm.of rfl) _ h))
  clear_value x1
  extract_lets +onlyGivenNames x3
  have h4 : Onward m s0 x3 := by
    unfold x3
    exact State.resetRegs_on (hm.of rfl) _ _ h2
  clear_value x3
  refine ite_ind (P := Onward _ _) ?_ ?_
  · exact State.momentOver_on (hm.of rfl) _ h4
  · exact State.wr_on (hm.of rfl) _ _ _ (State.wr_on (hm.of rfl) _ _ _ h4)

theorem State.allLost_on {m : Nat} (hm : Covers 0x737ffffefff8 m) {s0 : State} (s : State) (h : Onward m s0 s) :
    Onward m s0 (State.allLost s) := by
  unfold State.allLost
  extract_lets +onlyGivenNames x1 x2 x3 x4
  have h5 : Onward m s0 x4 := by
    unfold x4
    exact Onward.trans h (Onward.frame hm rfl rfl rfl rfl rfl rfl (fun w => ⟨rfl, rfl, by dsimp only; exact Tab.wf_keep _ _ _ w.3, rfl, rfl, rfl, rfl, rfl, rfl, rfl, rfl, rfl, rfl, rfl, rfl, rfl, rfl, rfl, rfl, rfl, rfl, rfl, rfl, rfl⟩)
    (fun p e => by cases p <;> first | exact absurd e (by decide) | rfl))
  clear_value x4
  exact State.wr_on (hm.of rfl) _ _ _ (State.wr_on (hm.of rfl) _ _ _ h5)

theorem State.setCrook_on {m : Nat} (hm : Covers 0x100000000000 m) {s0 : State} (s : State) (a2) (h : Onward m s0 s) :
    Onward m s0 (State.setCrook s a2) := by
  unfold State.setCrook
  exact Onward.trans h (Onward.frame hm rfl rfl rfl rfl rfl rfl (fun w => ⟨w.1, w.2, w.3, w.4, w.5, w.6, w.7, w.8, w.9, w.10, w.11, w.12, w.13, w.14, w.15, w.16, w.17, w.18, w.19, w.20, w.21, w.22, w.23, w.24⟩)
    (fun p e => by cases p <;> first | exact absurd e (by decide) | rfl))

theorem State.setMram_on {m : Nat} (hm : Covers 0x40000000000 m) {s0 : State} (s : State) (r) (h : Onward m s0 s) (hle : s.mram.epoch ≤ r.epoch) (hlf : r.lifecycle = s.mram.lifecycle ∨ s.mram.epoch < r.epoch) : Onward m s0 (s.setMram r) :=
  h.trans ⟨rfl, List.prefix_refl _, Nat.le_refl _, Nat.le_refl _, Nat.le_refl _, hle, .inr (hlf), fun w => ⟨w.1, w.2, w.3, w.4, w.5, w.6, w.7, w.8, w.9, w.10, w.11, w.12, w.13, w.14, w.15, w.16, w.17, w.18, w.19, w.20, w.21, w.22, w.23, w.24⟩,
    Within.up hm (fun p e => by cases p <;> first | exact absurd e (by decide) | rfl)⟩

theorem State.setFlash_on {m : Nat} (hm : Covers 0x80000000000 m) {s0 : State} (s : State) (a2) (h : Onward m s0 s) :
    Onward m s0 (State.setFlash s a2) := by
  unfold State.setFlash
  exact Onward.trans h (Onward.frame hm rfl rfl rfl rfl rfl rfl (fun w => ⟨w.1, w.2, w.3, w.4, w.5, w.6, w.7, w.8, w.9, w.10, w.11, w.12, w.13, w.14, w.15, w.16, w.17, w.18, w.19, w.20, w.21, w.22, w.23, w.24⟩)
    (fun p e => by cases p <;> first | exact absurd e (by decide) | rfl))

theorem State.measured_on {m : Nat} (hm : Covers 0x8 m) {s0 : State} (s : State) (a2) (a3) (a4) (h : Onward m s0 s) :
    Onward m s0 (State.measured s a2 a3 a4) := by
  unfold State.measured
  exact State.wr_on (hm.of rfl) _ _ _ (State.wr_on (hm.of rfl) _ _ _ (State.wr_on (hm.of rfl) _ _ _ (State.wr_on (hm.of rfl) _ _ _ h)))

theorem State.mayCommit_on {m : Nat} (hm : Covers 0x140000a m) {s0 : State} (s : State) (a2) (a3) (h : Onward m s0 s) :
    Onward.P m s0 (State.mayCommit s a2 a3) := by
  unfold State.mayCommit
  extract_lets +onlyGivenNames x1
  have h2 : Onward m s0 x1 := by
    unfold x1
    exact State.measured_on (hm.of rfl) _ _ _ _ h
  clear_value x1
  refine ite_ind (P := Onward.P _ _) ?_ ?_
  · exact h2
  · exact State.record_on (hm.of rfl) _ _ _ _ _ _ (State.sat_on (hm.of rfl) _ _ _ h2)

theorem State.showMram_on {m : Nat} (hm : Covers 0x8 m) {s0 : State} (s : State) (h : Onward m s0 s) :
    Onward m s0 (State.showMram s) := by
  unfold State.showMram
  extract_lets +onlyGivenNames x1
  have h2 : Onward m s0 x1 := by
    unfold x1
    exact State.wr_on (hm.of rfl) _ _ _ (State.wr_on (hm.of rfl) _ _ _ h)
  clear_value x1
  extract_lets +onlyGivenNames x3
  have h4 : Onward m s0 x3 := by
    unfold x3
    exact State.setReg_on (hm.of rfl) _ _ _ h2
  clear_value x3
  refine eachUpTo_ind (P := Onward _ _) _ _ ?_ ?_
  · exact h4
  · intro x5 x6 h7
    exact State.setReg_on (hm.of rfl) _ _ _ h7

theorem State.setCounter_on {m : Nat} (hm : Covers 0x40000000008 m) {s0 : State} (s : State) (a2) (a3) (h : Onward m s0 s) :
    Onward m s0 (State.setCounter s a2 a3) := by
  unfold State.setCounter
  extract_lets +onlyGivenNames x1
  exact State.showMram_on (hm.of rfl) _ (State.setMram_on (hm.of rfl) _ _ h (Nat.le_refl _) (.inl rfl))

theorem State.useSealed_on {m : Nat} (hm : Covers 0x10000040000000008 m) {s0 : State} (s : State) (a2) (a3) (h : Onward m s0 s) :
    Onward m s0 (State.useSealed s a2 a3) := by
  unfold State.useSealed
  refine State.showMram_on (hm.of rfl) _ (h.trans ⟨rfl, List.prefix_refl _, Nat.le_refl _, Nat.le_refl _, Nat.le_refl _, ?_,
    .inl (hm.bit rfl), fun w => ⟨w.1, w.2, w.3, w.4, w.5, w.6, w.7, w.8, w.9, w.10, w.11, w.12, w.13, w.14, w.15, w.16, w.17, w.18,
      w.19, w.20, w.21, w.22, w.23, w.24⟩, Within.up hm (fun p e => by cases p <;> first | exact absurd e (by decide) | rfl)⟩)
  dsimp only [State.setMram]
  split <;> split <;> exact Nat.le_refl _

theorem State.loadImage_on {m : Nat} (hm : Covers 0x10000140000a m) {s0 : State} (s : State) (a2) (h : Onward m s0 s) :
    Onward.P m s0 (State.loadImage s a2) := by
  unfold State.loadImage
  extract_lets +onlyGivenNames x1 x2
  have h3 : ∀ u4, Onward.P m s0 u4 → ∀ u5, Onward.P m s0 (x2 u4 u5) := by
    intro x6 hh x7
    unfold x2
    refine ite_ind (P := Onward.P _ _) ?_ ?_
    · exact hh
    · extract_lets +onlyGivenNames x8
      have h9 : Onward m s0 x8 := by
        unfold x8
        refine Onward.snd ?_
        exact hh
      clear_value x8
      extract_lets +onlyGivenNames x10 x11
      refine ite_ind (P := Onward.P _ _) ?_ ?_
      · exact State.setCrook_on (hm.of rfl) _ _ h9
      · exact State.record_on (hm.of rfl) _ _ _ _ _ _ h9
  clear_value x2
  refine foldl_ind (P := Onward.P _ _) ?_ _ _ ?_
  · intro x12 x13 h14
    exact h3 _ h14 _
  · exact h

theorem State.setLevel_on {m : Nat} (hm : Covers 0x10000140000a m) {s0 : State} (s : State) (a2) (a3) (a4) (a5) (h : Onward m s0 s) :
    Onward m s0 (State.setLevel s a2 a3 a4 a5) := by
  unfold State.setLevel
  extract_lets +onlyGivenNames x1 x2
  have h3 : Onward m s0 x2 := by
    unfold x2
    exact State.setCrook_on (hm.of rfl) _ _ h
  clear_value x2
  refine ite_ind (P := Onward _ _) ?_ ?_
  · exact h3
  · exact State.record_on (hm.of rfl) _ _ _ _ _ _ (State.wr_on (hm.of rfl) _ _ _ (State.wr_on (hm.of rfl) _ _ _ (State.wr_on (hm.of rfl) _ _ _ h3)))

theorem State.closeLevel_on {m : Nat} (hm : Covers 0x10000140000a m) {s0 : State} (s : State) (h : Onward m s0 s) :
    Onward m s0 (State.closeLevel s) := by
  unfold State.closeLevel
  exact State.setLevel_on (hm.of rfl) _ _ _ _ _ h

theorem State.closeSessions_on {m : Nat} (hm : Covers 0x100000000000 m) {s0 : State} (s : State) (h : Onward m s0 s) :
    Onward m s0 (State.closeSessions s) := by
  unfold State.closeSessions
  exact State.setCrook_on (hm.of rfl) _ _ h

theorem State.mgmtRestart_on {m : Nat} (hm : Covers 0x100a0140000a m) {s0 : State} (s : State) (a2) (h : Onward m s0 s) :
    Onward m s0 (State.mgmtRestart s a2) := by
  unfold State.mgmtRestart
  extract_lets +onlyGivenNames x1
  have h2 : Onward m s0 x1 := by
    unfold x1
    exact State.mboxRestart_on (hm.of rfl) _ (State.closeSessions_on (hm.of rfl) _ (State.record_on (hm.of rfl) _ _ _ _ _ _ h))
  clear_value x1
  split
  rename_i v5 e6
  have h7 : Onward m s0 v5 := Onward.eqP e6 (State.loadImage_on (hm.of rfl) _ _ h2)
  split
  rename_i v10 e11
  have h12 : Onward m s0 v10 := Onward.eqP e11 (State.loadImage_on (hm.of rfl) _ _ h7)
  exact State.setCrook_on (hm.of rfl) _ _ h12

theorem State.zeroised_on {m : Nat} (hm : Covers 0x14000140000e m) {s0 : State} (s : State) (h : Onward m s0 s) :
    Onward m s0 (State.zeroised s) := by
  unfold State.zeroised
  extract_lets +onlyGivenNames x1 x2 x3
  have h4 : Onward m s0 x3 := by
    unfold x3
    exact State.taken_on (hm.of rfl) _ (State.showMram_on (hm.of rfl) _ (State.setMram_on (hm.of rfl) _ _ h (Nat.le_refl _) (.inl rfl)))
  clear_value x3
  exact State.record_on (hm.of rfl) _ _ _ _ _ _ (State.setCrook_on (hm.of rfl) _ _ h4)

theorem execMgmtMemUe_on {m : Nat} (hm : Covers 0x100a0140000a m) {s0 : State} (a1) (a2) (s : State) (h : Onward m s0 s) :
    Onward.O m s0 (execMgmtMemUe a1 a2 s) := by
  unfold execMgmtMemUe
  refine ite_ind (P := Onward.O _ _) ?_ ?_
  · exact h
  · exact State.mgmtRestart_on (hm.of rfl) _ _ (State.record_on (hm.of rfl) _ _ _ _ _ _ h)

theorem execRuntimeCheckFailed_on {m : Nat} (hm : Covers 0x100a0140000a m) {s0 : State} (s : State) (h : Onward m s0 s) :
    Onward.O m s0 (execRuntimeCheckFailed s) := by
  unfold execRuntimeCheckFailed
  refine ite_ind (P := Onward.O _ _) ?_ ?_
  · exact State.mgmtRestart_on (hm.of rfl) _ _ h
  · exact h

theorem State.levelDue_on {m : Nat} (hm : Covers 0x20000000a m) {s0 : State} (s : State) (a2) (h : Onward m s0 s) :
    Onward m s0 (State.levelDue s a2) := by
  unfold State.levelDue
  extract_lets +onlyGivenNames x1 x2
  refine ite_ind (P := Onward _ _) ?_ ?_
  · exact h
  · extract_lets +onlyGivenNames x3
    have h4 : Onward m s0 x3 := by
      unfold x3
      exact State.showLimit_on (hm.of rfl) _ _ (State.wr_on (hm.of rfl) _ _ _ (State.wr_on (hm.of rfl) _ _ _ h))
    clear_value x3
    extract_lets +onlyGivenNames x5 x6
    have h7 : Onward m s0 x6 := by
      unfold x6
      refine ite_ind (P := Onward _ _) ?_ ?_
      · exact State.setSite_on (hm.of rfl) _ _ _ h4
      · exact State.setSite_on (hm.of rfl) _ _ _ h4
    clear_value x6
    exact State.emit_on (hm.of rfl) _ _ h7

theorem execSiteLevelUpdate_on {m : Nat} (hm : Covers 0x20000000a m) {s0 : State} (a1) (s : State) (h : Onward m s0 s) :
    Onward.O m s0 (execSiteLevelUpdate a1 s) := by
  unfold execSiteLevelUpdate
  exact State.levelDue_on (hm.of rfl) _ _ h

theorem execSitePowerSample_on {m : Nat} (hm : Covers 0x8 m) {s0 : State} (a1) (a2) (s : State) (h : Onward m s0 s) :
    Onward.O m s0 (execSitePowerSample a1 a2 s) := by
  unfold execSitePowerSample
  extract_lets +onlyGivenNames x1
  refine ite_ind (P := Onward.O _ _) ?_ ?_
  · exact h
  · extract_lets +onlyGivenNames x2 x3 x4
    have h5 : Onward m s0 x4 := by
      unfold x4
      refine ite_ind (P := Onward _ _) ?_ ?_
      · exact State.wr_on (hm.of rfl) _ _ _ h
      · exact h
    clear_value x4
    exact State.wr_on (hm.of rfl) _ _ _ (State.wr_on (hm.of rfl) _ _ _ h5)

theorem execSiteRailFault_on {m : Nat} (hm : Covers 0xe19cef7ee m) {s0 : State} (a1) (a2) (a3) (s : State) (h : Onward m s0 s) :
    Onward.O m s0 (execSiteRailFault a1 a2 a3 s) := by
  unfold execSiteRailFault
  extract_lets +onlyGivenNames x1
  refine ite_ind (P := Onward.O _ _) ?_ ?_
  · exact h
  · extract_lets +onlyGivenNames x2
    have h3 : Onward m s0 x2 := by
      unfold x2
      exact State.siteStops_on (hm.of rfl) _ _ _ h
    clear_value x2
    extract_lets +onlyGivenNames x4
    have h5 : Onward m s0 x4 := by
      unfold x4
      exact State.siteWires_on (hm.of rfl) _ _ _ _ _ h3
    clear_value x4
    extract_lets +onlyGivenNames x6 x7
    have h8 : Onward m s0 x7 := by
      unfold x7
      exact State.setSite_on (hm.of rfl) _ _ _ h5
    clear_value x7
    exact State.siteRecord_on (hm.of rfl) _ _ _ _ _ (State.wr_on (hm.of rfl) _ _ _ h8)

theorem State.setZone_on {m : Nat} (hm : Covers 0x1000000000 m) {s0 : State} (s : State) (a2) (a3) (h : Onward m s0 s) :
    Onward m s0 (State.setZone s a2 a3) := by
  unfold State.setZone
  exact Onward.trans h (Onward.frame hm rfl rfl rfl rfl rfl rfl (fun w => ⟨w.1, w.2, w.3, w.4, w.5, w.6, w.7, w.8, w.9, w.10, w.11, w.12, w.13, w.14, w.15, Tab.wf_put _ _ _ _ w.16, w.17, w.18, w.19, w.20, w.21, w.22, w.23, w.24⟩)
    (fun p e => by cases p <;> first | exact absurd e (by decide) | rfl))

theorem State.badSensor_on {m : Nat} (hm : Covers 0x140000a m) {s0 : State} (s : State) (a2) (a3) (a4) (h : Onward m s0 s) :
    Onward m s0 (State.badSensor s a2 a3 a4) := by
  unfold State.badSensor
  exact State.record_on (hm.of rfl) _ _ _ _ _ _ h

theorem State.pretrip_on {m : Nat} (hm : Covers 0x100140000a m) {s0 : State} (s : State) (a2) (a3) (h : Onward m s0 s) :
    Onward m s0 (State.pretrip s a2 a3) := by
  unfold State.pretrip
  extract_lets +onlyGivenNames x1
  have h2 : Onward m s0 x1 := by
    unfold x1
    exact State.wr_on (hm.of rfl) _ _ _ h
  clear_value x1
  extract_lets +onlyGivenNames x3
  refine ite_ind (P := Onward _ _) ?_ ?_
  · exact State.setZone_on (hm.of rfl) _ _ _ h2
  · refine ite_ind (P := Onward _ _) ?_ ?_
    · exact h2
    · exact State.record_on (hm.of rfl) _ _ _ _ _ _ (State.setZone_on (hm.of rfl) _ _ _ h2)

theorem State.judgeZone_on {m : Nat} (hm : Covers 0x1000000000 m) {s0 : State} (s : State) (a2) (a3) (h : Onward m s0 s) :
    Onward m s0 (State.judgeZone s a2 a3) := by
  unfold State.judgeZone
  extract_lets +onlyGivenNames x1 x2 x3 x4 x5 x6
  refine ite_ind (P := Onward _ _) ?_ ?_
  · exact State.setZone_on (hm.of rfl) _ _ _ h
  · refine ite_ind (P := Onward _ _) ?_ ?_
    · exact State.setZone_on (hm.of rfl) _ _ _ h
    · exact State.setZone_on (hm.of rfl) _ _ _ h

theorem execZoneSample_on {m : Nat} (hm : Covers 0x100140000a m) {s0 : State} (a1) (a2) (a3) (s : State) (h : Onward m s0 s) :
    Onward.O m s0 (execZoneSample a1 a2 a3 s) := by
  unfold execZoneSample
  extract_lets +onlyGivenNames x1
  refine ite_ind (P := Onward.O _ _) ?_ ?_
  · exact h
  · extract_lets +onlyGivenNames x2 x3 x4
    have h5 : Onward m s0 x4 := by
      unfold x4
      refine foldl_ind (P := Onward _ _) ?_ _ _ ?_
      · intro x6 x7 h8
        exact State.badSensor_on (hm.of rfl) _ _ _ _ h8
      · exact h
    clear_value x4
    extract_lets +onlyGivenNames x9
    have h10 : Onward m s0 x9 := by
      unfold x9
      split
      · exact State.badSensor_on (hm.of rfl) _ _ _ _ h5
      · exact h5
    clear_value x9
    extract_lets +onlyGivenNames x17
    have h18 : Onward m s0 x17 := by
      unfold x17
      exact State.wr_on (hm.of rfl) _ _ _ h10
    clear_value x17
    extract_lets +onlyGivenNames x19
    split
    · extract_lets +onlyGivenNames x22
      refine Onward.next ?_
      refine ite_ind (P := Onward _ _) ?_ ?_
      · exact h18
      · exact State.setZone_on (hm.of rfl) _ _ _ h18
    · extract_lets +onlyGivenNames x27 x28 x29
      have h30 : Onward m s0 x29 := by
        unfold x29
        exact State.wr_on (hm.of rfl) _ _ _ h18
      clear_value x29
      extract_lets +onlyGivenNames x31
      have h32 : Onward m s0 x31 := by
        unfold x31
        refine ite_ind (P := Onward _ _) ?_ ?_
        · exact State.wr_on (hm.of rfl) _ _ _ h30
        · exact h30
      clear_value x31
      exact State.judgeZone_on (hm.of rfl) _ _ _ (State.pretrip_on (hm.of rfl) _ _ _ h32)

theorem State.heatNotice_on {m : Nat} (hm : Covers 0x1140000a m) {s0 : State} (s : State) (a2) (a3) (h : Onward m s0 s) :
    Onward m s0 (State.heatNotice s a2 a3) := by
  unfold State.heatNotice
  extract_lets +onlyGivenNames x1
  refine ite_ind (P := Onward _ _) ?_ ?_
  · exact State.thermalNotice_on (hm.of rfl) _ _ _ h
  · exact h

theorem State.stackZone_on {m : Nat} (hm : Covers 0x11cc17ea m) {s0 : State} (s : State) (a2) (a3) (a4) (a5) (h : Onward m s0 s) :
    Onward m s0 (State.stackZone s a2 a3 a4 a5) := by
  unfold State.stackZone
  extract_lets +onlyGivenNames x1
  have h2 : Onward m s0 x1 := by
    unfold x1
    exact State.wr_on (hm.of rfl) _ _ _ (State.wr_on (hm.of rfl) _ _ _ h)
  clear_value x1
  extract_lets +onlyGivenNames x3
  have h4 : Onward m s0 x3 := by
    unfold x3
    exact State.heatNotice_on (hm.of rfl) _ _ _ h2
  clear_value x3
  refine ite_ind (P := Onward _ _) ?_ ?_
  · exact State.stackSleeps_on (hm.of rfl) _ _ h4
  · refine ite_ind (P := Onward _ _) ?_ ?_
    · exact State.stackWakes_on (hm.of rfl) _ _ h4
    · exact h4

theorem State.zoneDue_on {m : Nat} (hm : Covers 0x1e19cef7ee m) {s0 : State} (s : State) (a2) (h : Onward m s0 s) :
    Onward m s0 (State.zoneDue s a2) := by
  unfold State.zoneDue
  extract_lets +onlyGivenNames x1 x2
  split
  · exact h
  · extract_lets +onlyGivenNames x8
    have h9 : Onward m s0 x8 := by
      unfold x8
      exact State.setZone_on (hm.of rfl) _ _ _ h
    clear_value x8
    refine ite_ind (P := Onward _ _) ?_ ?_
    · exact h9
    · extract_lets +onlyGivenNames x10 x11 x12 x13
      have h14 : Onward m s0 x13 := by
        unfold x13
        exact State.irq_on (hm.of rfl) _ _ (State.sat_on (hm.of rfl) _ _ _ (State.wr_on (hm.of rfl) _ _ _ h9))
      clear_value x13
      extract_lets +onlyGivenNames x15
      have h16 : Onward m s0 x15 := by
        unfold x15
        exact State.record_on (hm.of rfl) _ _ _ _ _ _ h14
      clear_value x15
      extract_lets +onlyGivenNames x17
      have h18 : Onward m s0 x17 := by
        unfold x17
        refine ite_ind (P := Onward _ _) ?_ ?_
        · exact State.record_on (hm.of rfl) _ _ _ _ _ _ h16
        · exact h16
      clear_value x17
      refine ite_ind (P := Onward _ _) ?_ ?_
      · exact State.stackZone_on (hm.of rfl) _ _ _ _ _ h18
      · refine ite_ind (P := Onward _ _) ?_ ?_
        · refine ite_ind (P := Onward _ _) ?_ ?_
          · exact State.siteOff_on (hm.of rfl) _ _ _ h18
          · exact h18
        · refine foldl_ind (P := Onward _ _) ?_ _ _ ?_
          · intro x19 x20 h21
            exact State.heatNotice_on (hm.of rfl) _ _ _ h21
          · exact h18

theorem execZoneStateChange_on {m : Nat} (hm : Covers 0x1e19cef7ee m) {s0 : State} (a1) (s : State) (h : Onward m s0 s) :
    Onward.O m s0 (execZoneStateChange a1 s) := by
  unfold execZoneStateChange
  exact State.zoneDue_on (hm.of rfl) _ _ h

theorem State.clockDue_on {m : Nat} (hm : Covers 0x20000000 m) {s0 : State} (s : State) (a2) (h : Onward m s0 s) :
    Onward m s0 (State.clockDue s a2) := by
  unfold State.clockDue
  exact Onward.trans h (Onward.frame hm rfl rfl rfl rfl rfl rfl (fun w => ⟨w.1, w.2, w.3, w.4, w.5, w.6, w.7, w.8, w.9, w.10, w.11, w.12, Tab.wf_put _ _ _ _ w.13, w.14, w.15, w.16, w.17, w.18, w.19, w.20, w.21, w.22, w.23, w.24⟩)
    (fun p e => by cases p <;> first | exact absurd e (by decide) | rfl))

theorem State.thermalDue_on {m : Nat} (hm : Covers 0x1e39cef7ee m) {s0 : State} (s : State) (h : Onward m s0 s) :
    Onward m s0 (State.thermalDue s) := by
  unfold State.thermalDue
  refine eachUpTo_ind (P := Onward _ _) _ _ ?_ ?_
  · refine eachUpTo_ind (P := Onward _ _) _ _ ?_ ?_
    · refine eachUpTo_ind (P := Onward _ _) _ _ ?_ ?_
      · exact h
      · intro x1 x2 h3
        exact State.zoneDue_on (hm.of rfl) _ _ h3
    · intro x4 x5 h6
      exact State.levelDue_on (hm.of rfl) _ _ h6
  · intro x7 x8 h9
    exact State.clockDue_on (hm.of rfl) _ _ h9

theorem execPenClockDown_on {m : Nat} (hm : Covers 0x20000000 m) {s0 : State} (a1) (s : State) (h : Onward m s0 s) :
    Onward.O m s0 (execPenClockDown a1 s) := by
  unfold execPenClockDown
  exact State.clockDue_on (hm.of rfl) _ _ h

theorem execPenClockGate_on {m : Nat} (hm : Covers 0x40000000 m) {s0 : State} (a1) (s : State) (h : Onward m s0 s) :
    Onward.O m s0 (execPenClockGate a1 s) := by
  unfold execPenClockGate
  extract_lets +onlyGivenNames x1 x2 x3 x4
  refine ite_ind (P := Onward.O _ _) ?_ ?_
  · exact h
  · exact Onward.trans h (Onward.frame hm rfl rfl rfl rfl rfl rfl (fun w => ⟨w.1, w.2, w.3, w.4, w.5, w.6, w.7, w.8, w.9, w.10, w.11, w.12, w.13, w.14, w.15, w.16, w.17, w.18, w.19, w.20, w.21, w.22, w.23, Nats.wf_ins _ _ w.24⟩)
    (fun p e => by cases p <;> first | exact absurd e (by decide) | rfl))

theorem State.powerLost_on {m : Nat} (hm : Covers 0x77fffffefffe m) {s0 : State} (s : State) (a2) (a3) (a4) (a5) (h : Onward m s0 s) :
    Onward m s0 (State.powerLost s a2 a3 a4 a5) := by
  unfold State.powerLost
  extract_lets +onlyGivenNames x1
  have h2 : Onward m s0 x1 := by
    unfold x1
    exact State.wr_on (hm.of rfl) _ _ _ (State.sitesOff_on (hm.of rfl) _ h)
  clear_value x1
  extract_lets +onlyGivenNames x3
  have h4 : Onward m s0 x3 := by
    unfold x3
    exact State.flushPf_on (hm.of rfl) _ (State.closeAll_on (hm.of rfl) _ (State.record_on (hm.of rfl) _ _ _ _ _ _ h2))
  clear_value x3
  extract_lets +onlyGivenNames x5 x6
  have h7 : Onward m s0 x6 := by
    unfold x6
    exact State.setMram_on (hm.of rfl) _ _ h4 (Nat.le_refl _) (.inl rfl)
  clear_value x6
  exact State.wr_on (hm.of rfl) _ _ _ (State.allLost_on (hm.of rfl) _ (Onward.trans h7 (Onward.frame hm rfl rfl rfl rfl rfl rfl (fun w => ⟨w.1, w.2, w.3, w.4, w.5, w.6, w.7, w.8, w.9, w.10, w.11, w.12, w.13, w.14, w.15, w.16, w.17, w.18, w.19, w.20, w.21, w.22, w.23, w.24⟩)
    (fun p e => by cases p <;> first | exact absurd e (by decide) | rfl))))

theorem execPowerFail_on {m : Nat} (hm : Covers 0x77fffffefffe m) {s0 : State} (a1) (s : State) (h : Onward m s0 s) :
    Onward.O m s0 (execPowerFail a1 s) := by
  unfold execPowerFail
  refine ite_ind (P := Onward.O _ _) ?_ ?_
  · exact h
  · exact State.powerLost_on (hm.of rfl) _ _ _ _ _ h

theorem execInputOvervoltage_on {m : Nat} (hm : Covers 0x77fffffefffe m) {s0 : State} (a1) (s : State) (h : Onward m s0 s) :
    Onward.O m s0 (execInputOvervoltage a1 s) := by
  unfold execInputOvervoltage
  refine ite_ind (P := Onward.O _ _) ?_ ?_
  · exact h
  · exact State.powerLost_on (hm.of rfl) _ _ _ _ _ h

theorem execThermalShutdown_on {m : Nat} (hm : Covers 0x77fffffefffe m) {s0 : State} (a1) (a2) (a3) (s : State) (h : Onward m s0 s) :
    Onward.O m s0 (execThermalShutdown a1 a2 a3 s) := by
  unfold execThermalShutdown
  refine ite_ind (P := Onward.O _ _) ?_ ?_
  · exact h
  · exact State.powerLost_on (hm.of rfl) _ _ _ _ _ (State.record_on (hm.of rfl) _ _ _ _ _ _ h)

theorem execInputRemoval_on {m : Nat} (hm : Covers 0x8000000000 m) {s0 : State} (s : State) (h : Onward m s0 s) :
    Onward.O m s0 (execInputRemoval s) := by
  unfold execInputRemoval
  split
  · exact Onward.trans h (Onward.frame hm rfl rfl rfl rfl rfl rfl (fun w => ⟨w.1, w.2, w.3, w.4, w.5, w.6, w.7, w.8, w.9, w.10, w.11, w.12, w.13, w.14, w.15, w.16, w.17, w.18, w.19, w.20, w.21, w.22, w.23, w.24⟩)
    (fun p e => by cases p <;> first | exact absurd e (by decide) | rfl))
  · exact h

theorem execAuxPowerGood_on {m : Nat} (hm : Covers 0x8000400008 m) {s0 : State} (s : State) (h : Onward m s0 s) :
    Onward.O m s0 (execAuxPowerGood s) := by
  unfold execAuxPowerGood
  extract_lets +onlyGivenNames x1 x2
  have h3 : Onward m s0 x2 := by
    unfold x2
    exact State.wr_on (hm.of rfl) _ _ _ (State.setLog_on (hm.of rfl) _ _ (Onward.trans h (Onward.frame hm rfl rfl rfl rfl rfl rfl (fun w => ⟨w.1, w.2, w.3, w.4, w.5, w.6, w.7, w.8, w.9, w.10, w.11, w.12, w.13, w.14, w.15, w.16, w.17, w.18, w.19, w.20, w.21, w.22, w.23, w.24⟩)
    (fun p e => by cases p <;> first | exact absurd e (by decide) | rfl))) (Nat.le_refl _))
  clear_value x2
  split
  · exact h
  · exact h
  · exact h3

theorem State.pwrGo_on {m : Nat} (hm : Covers 0x2010000008 m) {s0 : State} (s : State) (a2) (a3) (h : Onward m s0 s) :
    Onward m s0 (State.pwrGo s a2 a3) := by
  unfold State.pwrGo
  refine ite_ind (P := Onward _ _) ?_ ?_
  · exact h
  · refine ite_ind (P := Onward _ _) ?_ ?_
    · exact State.wr_on (hm.of rfl) _ _ _ h
    · extract_lets +onlyGivenNames x1
      have h2 : Onward m s0 x1 := by
        unfold x1
        exact State.wr_on (hm.of rfl) _ _ _ (State.wr_on (hm.of rfl) _ _ _ h)
      clear_value x1
      extract_lets +onlyGivenNames x3
      refine ite_ind (P := Onward _ _) ?_ ?_
      · exact State.wr_on (hm.of rfl) _ _ _ (State.wr_on (hm.of rfl) _ _ _ h2)
      · extract_lets +onlyGivenNames x4 x5
        have h6 : Onward m s0 x5 := by
          unfold x5
          exact Onward.trans h2 (Onward.frame hm rfl rfl rfl rfl rfl rfl (fun w => ⟨w.1, w.2, w.3, w.4, w.5, w.6, w.7, w.8, w.9, w.10, w.11, w.12, w.13, w.14, w.15, w.16, w.17, w.18, w.19, w.20, w.21, w.22, w.23, w.24⟩)
    (fun p e => by cases p <;> first | exact absurd e (by decide) | rfl))
        clear_value x5
        extract_lets +onlyGivenNames x7
        have h8 : Onward m s0 x7 := by
          unfold x7
          exact State.wr_on (hm.of rfl) _ _ _ (State.wr_on (hm.of rfl) _ _ _ h6)
        clear_value x7
        extract_lets +onlyGivenNames x9
        have h10 : Onward m s0 x9 := by
          unfold x9
          exact State.wr_on (hm.of rfl) _ _ _ (State.wr_on (hm.of rfl) _ _ _ h8)
        clear_value x9
        refine ite_ind (P := Onward _ _) ?_ ?_
        · refine eachUpTo_ind (P := Onward _ _) _ _ ?_ ?_
          · exact h10
          · intro x11 x12 h13
            exact State.tellRelease_on (hm.of rfl) _ _ _ h13
        · exact h10

theorem execPwrCmdP0_on {m : Nat} (hm : Covers 0x2010000008 m) {s0 : State} (a1) (s : State) (h : Onward m s0 s) :
    Onward.O m s0 (execPwrCmdP0 a1 s) := by
  unfold execPwrCmdP0
  exact State.pwrGo_on (hm.of rfl) _ _ _ h

theorem execPwrCmdP1_on {m : Nat} (hm : Covers 0x2010000008 m) {s0 : State} (a1) (s : State) (h : Onward m s0 s) :
    Onward.O m s0 (execPwrCmdP1 a1 s) := by
  unfold execPwrCmdP1
  exact State.pwrGo_on (hm.of rfl) _ _ _ h

theorem execPwrCmdP2_on {m : Nat} (hm : Covers 0x2010000008 m) {s0 : State} (a1) (s : State) (h : Onward m s0 s) :
    Onward.O m s0 (execPwrCmdP2 a1 s) := by
  unfold execPwrCmdP2
  exact State.pwrGo_on (hm.of rfl) _ _ _ h

theorem execPwrCmdP3_on {m : Nat} (hm : Covers 0x2010000008 m) {s0 : State} (a1) (s : State) (h : Onward m s0 s) :
    Onward.O m s0 (execPwrCmdP3 a1 s) := by
  unfold execPwrCmdP3
  exact State.pwrGo_on (hm.of rfl) _ _ _ h

theorem execPwrCmdP4_on {m : Nat} (hm : Covers 0x2010000008 m) {s0 : State} (a1) (s : State) (h : Onward m s0 s) :
    Onward.O m s0 (execPwrCmdP4 a1 s) := by
  unfold execPwrCmdP4
  exact State.pwrGo_on (hm.of rfl) _ _ _ h

theorem State.startSites_on {m : Nat} (hm : Covers 0x20140000a m) {s0 : State} (s : State) (a2) (a3) (h : Onward m s0 s) :
    Onward m s0 (State.startSites s a2 a3) := by
  unfold State.startSites
  refine eachUpTo_ind (P := Onward _ _) _ _ ?_ ?_
  · exact h
  · intro x1 x2 h3
    refine ite_ind (P := Onward _ _) ?_ ?_
    · exact h3
    · extract_lets +onlyGivenNames x4 x5
      have h6 : Onward m s0 x5 := by
        unfold x5
        exact State.setSite_on (hm.of rfl) _ _ _ h3
      clear_value x5
      exact State.siteTrained_on (hm.of rfl) _ _ _ h6

theorem State.emptyXl_on {m : Nat} (hm : Covers 0x20000 m) {s0 : State} (s : State) (h : Onward m s0 s) :
    Onward m s0 (State.emptyXl s) := by
  unfold State.emptyXl
  exact State.setXl_on (hm.of rfl) _ _ h

theorem State.endMisses_on {m : Nat} (hm : Covers 0x51ccb7ea m) {s0 : State} (s : State) (h : Onward m s0 s) :
    Onward m s0 (State.endMisses s) := by
  unfold State.endMisses
  refine foldl_ind (P := Onward _ _) ?_ _ _ ?_
  · intro x1 x2 h3
    refine foldl_ind (P := Onward _ _) ?_ _ _ ?_
    · intro x4 x5 h6
      exact State.endMiss_on (hm.of rfl) _ _ _ h6
    · exact h3
  · exact h

theorem State.putToSleep_on {m : Nat} (hm : Covers 0x41142040a m) {s0 : State} (s : State) (h : Onward m s0 s) :
    Onward m s0 (State.putToSleep s) := by
  unfold State.putToSleep
  extract_lets +onlyGivenNames x1
  have h2 : Onward m s0 x1 := by
    unfold x1
    refine foldl_ind (P := Onward _ _) ?_ _ _ ?_
    · intro x3 x4 h5
      exact State.answerIn_on (hm.of rfl) _ _ _ _ _ _ h5
    · exact h
  clear_value x1
  extract_lets +onlyGivenNames x6
  have h7 : Onward m s0 x6 := by
    unfold x6
    refine foldl_ind (P := Onward _ _) ?_ _ _ ?_
    · intro x8 x9 h10
      exact State.dropWaiting_on (hm.of rfl) _ _ _ h10
    · exact h2
  clear_value x6
  exact Onward.trans h7 (Onward.frame hm rfl rfl rfl rfl rfl rfl (fun w => ⟨w.1, w.2, w.3, w.4, w.5, w.6, w.7, w.8, w.9, w.10, w.11, w.12, w.13, w.14, w.15, w.16, w.17, w.18, w.19, w.20, w.21, w.22, w.23, w.24⟩)
    (fun p e => by cases p <;> first | exact absurd e (by decide) | rfl))

theorem State.enterP2_on {m : Nat} (hm : Covers 0xe59cef7ee m) {s0 : State} (s : State) (h : Onward m s0 s) :
    Onward m s0 (State.enterP2 s) := by
  unfold State.enterP2
  extract_lets +onlyGivenNames x1
  have h2 : Onward m s0 x1 := by
    unfold x1
    exact State.endMisses_on (hm.of rfl) _ (State.sitesOff_on (hm.of rfl) _ h)
  clear_value x1
  extract_lets +onlyGivenNames x3
  have h4 : Onward m s0 x3 := by
    unfold x3
    exact State.pruneTickets_on (hm.of rfl) _ (State.emptyXl_on (hm.of rfl) _ (State.putToSleep_on (hm.of rfl) _ h2))
  clear_value x3
  refine eachUpTo_ind (P := Onward _ _) _ _ ?_ ?_
  · exact Onward.trans h4 (Onward.frame hm rfl rfl rfl rfl rfl rfl (fun w => ⟨w.1, w.2, w.3, w.4, w.5, w.6, w.7, w.8, w.9, w.10, w.11, w.12, w.13, w.14, w.15, w.16, w.17, w.18, w.19, w.20, w.21, w.22, w.23, rfl⟩)
    (fun p e => by cases p <;> first | exact absurd e (by decide) | rfl))
  · intro x5 x6 h7
    exact State.stackSleeps_on (hm.of rfl) _ _ h7

theorem State.leaveP2_on {m : Nat} (hm : Covers 0x201cc17ea m) {s0 : State} (s : State) (a2) (a3) (h : Onward m s0 s) :
    Onward m s0 (State.leaveP2 s a2 a3) := by
  unfold State.leaveP2
  extract_lets +onlyGivenNames x1
  have h2 : Onward m s0 x1 := by
    unfold x1
    refine eachUpTo_ind (P := Onward _ _) _ _ ?_ ?_
    · exact h
    · intro x3 x4 h5
      exact State.stackWakes_on (hm.of rfl) _ _ h5
  clear_value x1
  refine ite_ind (P := Onward _ _) ?_ ?_
  · exact State.startSites_on (hm.of rfl) _ _ _ h2
  · exact h2

theorem State.enterP3_on {m : Nat} (hm : Covers 0x420efffefffe m) {s0 : State} (s : State) (h : Onward m s0 s) :
    Onward m s0 (State.enterP3 s) := by
  unfold State.enterP3
  extract_lets +onlyGivenNames x1
  have h2 : Onward m s0 x1 := by
    unfold x1
    exact State.endMisses_on (hm.of rfl) _ (State.sitesOff_on (hm.of rfl) _ h)
  clear_value x1
  extract_lets +onlyGivenNames x3
  have h4 : Onward m s0 x3 := by
    unfold x3
    exact State.putToSleep_on (hm.of rfl) _ h2
  clear_value x3
  extract_lets +onlyGivenNames x5
  have h6 : Onward m s0 x5 := by
    unfold x5
    refine eachUpTo_ind (P := Onward _ _) _ _ ?_ ?_
    · exact h4
    · intro x7 x8 h9
      exact State.emptyLines_on (hm.of rfl) _ _ _ h9
  clear_value x5
  extract_lets +onlyGivenNames x10
  have h11 : Onward m s0 x10 := by
    unfold x10
    refine eachUpTo_ind (P := Onward _ _) _ _ ?_ ?_
    · exact h6
    · intro x12 x13 h14
      exact State.stackSleeps_on (hm.of rfl) _ _ h14
  clear_value x10
  exact State.resetDomains_on (hm.of rfl) _ _ h11

theorem State.trainOptics_on {m : Nat} (hm : Covers 0x1140000a m) {s0 : State} (s : State) (a2) (h : Onward m s0 s) :
    Onward m s0 (State.trainOptics s a2) := by
  unfold State.trainOptics
  extract_lets +onlyGivenNames x1
  have h2 : Onward m s0 x1 := by
    unfold x1
    refine eachUpTo_ind (P := Onward _ _) _ _ ?_ ?_
    · exact h
    · intro x3 x4 h5
      exact State.laserState_on (hm.of rfl) _ _ _ h5
  clear_value x1
  extract_lets +onlyGivenNames x6
  have h7 : Onward m s0 x6 := by
    unfold x6
    refine eachUpTo_ind (P := Onward _ _) _ _ ?_ ?_
    · exact h2
    · intro x8 x9 h10
      refine ite_ind (P := Onward _ _) ?_ ?_
      · exact State.sourceOut_on (hm.of rfl) _ _ _ h10
      · exact h10
  clear_value x6
  extract_lets +onlyGivenNames x11
  have h12 : Onward m s0 x11 := by
    unfold x11
    refine eachUpTo_ind (P := Onward _ _) _ _ ?_ ?_
    · exact h7
    · intro x13 x14 h15
      refine ite_ind (P := Onward _ _) ?_ ?_
      · exact State.laserState_on (hm.of rfl) _ _ _ h15
      · exact h15
  clear_value x11
  extract_lets +onlyGivenNames x16
  have h17 : Onward m s0 x16 := by
    unfold x16
    exact State.wr_on (hm.of rfl) _ _ _ h12
  clear_value x16
  refine ite_ind (P := Onward _ _) ?_ ?_
  · refine eachUpTo_ind (P := Onward _ _) _ _ ?_ ?_
    · exact h17
    · intro x18 x19 h20
      exact State.trainPort_on (hm.of rfl) _ _ h20
  · exact h17

theorem State.setRoute_on {m : Nat} (hm : Covers 0x18 m) {s0 : State} (s : State) (a2) (a3) (h : Onward m s0 s) :
    Onward m s0 (State.setRoute s a2 a3) := by
  unfold State.setRoute
  exact State.wrS_on (hm.of rfl) _ _ _ (State.wr_on (hm.of rfl) _ _ _ h)

theorem State.defaultRoutes_on {m : Nat} (hm : Covers 0x18 m) {s0 : State} (s : State) (h : Onward m s0 s) :
    Onward m s0 (State.defaultRoutes s) := by
  unfold State.defaultRoutes
  extract_lets +onlyGivenNames x1
  refine ite_ind (P := Onward _ _) ?_ ?_
  · exact h
  · refine foldl_ind (P := Onward _ _) ?_ _ _ ?_
    · intro x2 x3 h4
      extract_lets +onlyGivenNames x5
      refine ite_ind (P := Onward _ _) ?_ ?_
      · exact h4
      · exact State.setRoute_on (hm.of rfl) _ _ _ h4
    · exact h

theorem State.checkCoords_on {m : Nat} (hm : Covers 0x140000a m) {s0 : State} (s : State) (h : Onward m s0 s) :
    Onward m s0 (State.checkCoords s) := by
  unfold State.checkCoords
  refine ite_ind (P := Onward _ _) ?_ ?_
  · exact h
  · exact State.record_on (hm.of rfl) _ _ _ _ _ _ h

theorem State.leaveP3_on {m : Nat} (hm : Covers 0x4011fc17fa m) {s0 : State} (s : State) (a2) (h : Onward m s0 s) :
    Onward m s0 (State.leaveP3 s a2) := by
  unfold State.leaveP3
  extract_lets +onlyGivenNames x1
  have h2 : Onward m s0 x1 := by
    unfold x1
    exact State.loadMr_on (hm.of rfl) _ _ (Onward.trans h (Onward.frame hm rfl rfl rfl rfl rfl rfl (fun w => ⟨w.1, w.2, w.3, w.4, w.5, w.6, w.7, w.8, w.9, w.10, w.11, w.12, w.13, w.14, w.15, w.16, w.17, w.18, w.19, w.20, w.21, w.22, w.23, w.24⟩)
    (fun p e => by cases p <;> first | exact absurd e (by decide) | rfl)))
  clear_value x1
  extract_lets +onlyGivenNames x3
  have h4 : Onward m s0 x3 := by
    unfold x3
    refine eachUpTo_ind (P := Onward _ _) _ _ ?_ ?_
    · exact h2
    · intro x5 x6 h7
      exact State.waysFromCfg_on (hm.of rfl) _ _ h7
  clear_value x3
  extract_lets +onlyGivenNames x8
  have h9 : Onward m s0 x8 := by
    unfold x8
    refine eachUpTo_ind (P := Onward _ _) _ _ ?_ ?_
    · exact h4
    · intro x10 x11 h12
      refine ite_ind (P := Onward _ _) ?_ ?_
      · exact State.wr_on (hm.of rfl) _ _ _ h12
      · exact h12
  clear_value x8
  extract_lets +onlyGivenNames x13 x14
  have h15 : Onward m s0 x14 := by
    unfold x14
    exact State.checkCoords_on (hm.of rfl) _ (State.defaultRoutes_on (hm.of rfl) _ (State.trainOptics_on (hm.of rfl) _ _ (State.setBellLogic_on (hm.of rfl) _ _ h9)))
  clear_value x14
  refine eachUpTo_ind (P := Onward _ _) _ _ ?_ ?_
  · exact State.copyTally_on (hm.of rfl) _ h15
  · intro x16 x17 h18
    exact State.stackWakes_on (hm.of rfl) _ _ h18

theorem State.changePower_on {m : Nat} (hm : Covers 0x426efffefffe m) {s0 : State} (s : State) (a2) (a3) (a4) (h : Onward m s0 s) :
    Onward m s0 (State.changePower s a2 a3 a4) := by
  unfold State.changePower
  extract_lets +onlyGivenNames x1 x2
  have h3 : Onward m s0 x2 := by
    unfold x2
    refine ite_ind (P := Onward _ _) ?_ ?_
    · exact State.enterP3_on (hm.of rfl) _ h
    · refine ite_ind (P := Onward _ _) ?_ ?_
      · refine ite_ind (P := Onward _ _) ?_ ?_
        · exact State.enterP2_on (hm.of rfl) _ h
        · refine ite_ind (P := Onward _ _) ?_ ?_
          · exact State.startSites_on (hm.of rfl) _ _ _ h
          · exact h
      · refine ite_ind (P := Onward _ _) ?_ ?_
        · exact State.enterP2_on (hm.of rfl) _ h
        · refine ite_ind (P := Onward _ _) ?_ ?_
          · exact State.leaveP2_on (hm.of rfl) _ _ _ (State.wr_on (hm.of rfl) _ _ _ h)
          · refine ite_ind (P := Onward _ _) ?_ ?_
            · exact State.startSites_on (hm.of rfl) _ _ _ (Onward.trans h (Onward.frame hm rfl rfl rfl rfl rfl rfl (fun w => ⟨w.1, w.2, w.3, w.4, w.5, w.6, w.7, w.8, w.9, w.10, w.11, w.12, w.13, w.14, w.15, w.16, w.17, w.18, w.19, w.20, w.21, w.22, w.23, rfl⟩)
    (fun p e => by cases p <;> first | exact absurd e (by decide) | rfl)))
            · exact h
  clear_value x2
  extract_lets +onlyGivenNames x4
  have h5 : Onward m s0 x4 := by
    unfold x4
    exact Onward.trans h3 (Onward.frame hm rfl rfl rfl rfl rfl rfl (fun w => ⟨w.1, w.2, w.3, w.4, w.5, w.6, w.7, w.8, w.9, w.10, w.11, w.12, w.13, w.14, w.15, w.16, w.17, w.18, w.19, w.20, w.21, w.22, w.23, w.24⟩)
    (fun p e => by cases p <;> first | exact absurd e (by decide) | rfl))
  clear_value x4
  exact State.record_on (hm.of rfl) _ _ _ _ _ _ (State.irq_on (hm.of rfl) _ _ (State.wr_on (hm.of rfl) _ _ _ (State.wr_on (hm.of rfl) _ _ _ (State.wr_on (hm.of rfl) _ _ _ h5))))

theorem State.transit_on {m : Nat} (hm : Covers 0x77fffffefffe m) {s0 : State} (s : State) (a2) (a3) (a4) (h : Onward m s0 s) :
    Onward m s0 (State.transit s a2 a3 a4) := by
  unfold State.transit
  refine ite_ind (P := Onward _ _) ?_ ?_
  · exact State.powerLost_on (hm.of rfl) _ _ _ _ _ h
  · extract_lets +onlyGivenNames x1
    have h2 : Onward m s0 x1 := by
      unfold x1
      refine ite_ind (P := Onward _ _) ?_ ?_
      · exact State.leaveP3_on (hm.of rfl) _ _ h
      · exact h
    clear_value x1
    refine ite_ind (P := Onward _ _) ?_ ?_
    · exact h2
    · exact State.wr_on (hm.of rfl) _ _ _ (State.wr_on (hm.of rfl) _ _ _ (State.changePower_on (hm.of rfl) _ _ _ _ h2))

theorem execPowerTransition_on {m : Nat} (hm : Covers 0x77fffffefffe m) {s0 : State} (a1) (s : State) (h : Onward m s0 s) :
    Onward.O m s0 (execPowerTransition a1 s) := by
  unfold execPowerTransition
  split
  · exact h
  · exact State.transit_on (hm.of rfl) _ _ _ _ h

theorem State.powerAtBell_on {m : Nat} (hm : Covers 0x77fffffefffe m) {s0 : State} (s : State) (h : Onward m s0 s) :
    Onward m s0 (State.powerAtBell s) := by
  unfold State.powerAtBell
  split
  · extract_lets +onlyGivenNames x4
    refine ite_ind (P := Onward _ _) ?_ ?_
    · exact State.transit_on (hm.of rfl) _ _ _ _ h
    · exact h
  · exact h

theorem State.sinceStart_on {m : Nat} (hm : Covers 0x1000400008 m) {s0 : State} (s : State) (h : Onward m s0 s) :
    Onward m s0 (State.sinceStart s) := by
  unfold State.sinceStart
  extract_lets +onlyGivenNames x1 x2 x3
  have h4 : Onward m s0 x3 := by
    unfold x3
    exact State.wr_on (hm.of rfl) _ _ _ (State.setLog_on (hm.of rfl) _ _ h (Nat.le_refl _))
  clear_value x3
  extract_lets +onlyGivenNames x5
  have h6 : Onward m s0 x5 := by
    unfold x5
    refine eachUpTo_ind (P := Onward _ _) _ _ ?_ ?_
    · exact h4
    · intro x7 x8 h9
      exact State.setZone_on (hm.of rfl) _ _ _ (State.wr_on (hm.of rfl) _ _ _ (State.wr_on (hm.of rfl) _ _ _ h9))
  clear_value x5
  refine State.wr_on (hm.of rfl) _ _ _ ?_
  refine eachUpTo_ind (P := Onward _ _) _ _ ?_ ?_
  · exact h6
  · intro x10 x11 h12
    exact State.wr_on (hm.of rfl) _ _ _ h12

theorem State.beginStart_on {m : Nat} (hm : Covers 0x537ffffefffe m) {s0 : State} (s : State) (a2) (h : Onward m s0 s) :
    Onward m s0 (State.beginStart s a2) := by
  unfold State.beginStart
  extract_lets +onlyGivenNames x1
  have h2 : Onward m s0 x1 := by
    unfold x1
    exact State.mboxRestart_on (hm.of rfl) _ (State.closeLevel_on (hm.of rfl) _ h)
  clear_value x1
  extract_lets +onlyGivenNames x3
  have h4 : Onward m s0 x3 := by
    unfold x3
    exact State.setCrook_on (hm.of rfl) _ _ h2
  clear_value x3
  extract_lets +onlyGivenNames x5
  have h6 : Onward m s0 x5 := by
    unfold x5
    exact State.resetDomains_on (hm.of rfl) _ _ h4
  clear_value x5
  extract_lets +onlyGivenNames x7
  have h8 : Onward m s0 x7 := by
    unfold x7
    exact Onward.trans h6 (Onward.frame hm rfl rfl rfl rfl rfl rfl (fun w => ⟨w.1, w.2, w.3, w.4, w.5, w.6, w.7, w.8, w.9, w.10, w.11, w.12, w.13, w.14, w.15, w.16, w.17, w.18, w.19, rfl, w.21, w.22, w.23, w.24⟩)
    (fun p e => by cases p <;> first | exact absurd e (by decide) | rfl))
  clear_value x7
  extract_lets +onlyGivenNames x9
  have h10 : Onward m s0 x9 := by
    unfold x9
    exact State.wr_on (hm.of rfl) _ _ _ (State.wr_on (hm.of rfl) _ _ _ (State.sinceStart_on (hm.of rfl) _ h8))
  clear_value x9
  exact State.wr_on (hm.of rfl) _ _ _ (State.setReg_on (hm.of rfl) _ _ _ h10)

theorem State.showFail_on {m : Nat} (hm : Covers 0x8 m) {s0 : State} (s : State) (a2) (a3) (a4) (h : Onward m s0 s) :
    Onward m s0 (State.showFail s a2 a3 a4) := by
  unfold State.showFail
  exact State.wr_on (hm.of rfl) _ _ _ (State.wr_on (hm.of rfl) _ _ _ (State.wr_on (hm.of rfl) _ _ _ h))

theorem State.enterFallow_on {m : Nat} (hm : Covers 0x536efffefffe m) {s0 : State} (s : State) (a2) (a3) (a4) (h : Onward m s0 s) :
    Onward m s0 (State.enterFallow s a2 a3 a4) := by
  unfold State.enterFallow
  extract_lets +onlyGivenNames x1
  have h2 : Onward m s0 x1 := by
    unfold x1
    exact State.showFail_on (hm.of rfl) _ _ _ _ (State.record_on (hm.of rfl) _ _ _ _ _ _ h)
  clear_value x1
  extract_lets +onlyGivenNames x3
  have h4 : Onward m s0 x3 := by
    unfold x3
    exact State.resetDomains_on (hm.of rfl) _ _ h2
  clear_value x3
  extract_lets +onlyGivenNames x5
  have h6 : Onward m s0 x5 := by
    unfold x5
    exact Onward.trans h4 (Onward.frame hm rfl rfl rfl rfl rfl rfl (fun w => ⟨w.1, w.2, w.3, w.4, w.5, w.6, w.7, w.8, w.9, w.10, w.11, w.12, w.13, w.14, w.15, w.16, w.17, w.18, w.19, w.20, w.21, w.22, w.23, w.24⟩)
    (fun p e => by cases p <;> first | exact absurd e (by decide) | rfl))
  clear_value x5
  extract_lets +onlyGivenNames x7
  have h8 : Onward m s0 x7 := by
    unfold x7
    exact State.wr_on (hm.of rfl) _ _ _ (State.wr_on (hm.of rfl) _ _ _ (State.wr_on (hm.of rfl) _ _ _ (State.wr_on (hm.of rfl) _ _ _ h6)))
  clear_value x7
  extract_lets +onlyGivenNames x9
  have h10 : Onward m s0 x9 := by
    unfold x9
    refine foldl_ind (P := Onward _ _) ?_ _ _ ?_
    · intro x11 x12 h13
      refine ite_ind (P := Onward _ _) ?_ ?_
      · exact h13
      · refine Onward.snd ?_
        exact State.loadImage_on (hm.of rfl) _ _ h13
    · exact h8
  clear_value x9
  exact State.setCrook_on (hm.of rfl) _ _ h10

theorem State.failStart_on {m : Nat} (hm : Covers 0x576efffefffe m) {s0 : State} (s : State) (a2) (a3) (a4) (h : Onward m s0 s) :
    Onward m s0 (State.failStart s a2 a3 a4) := by
  unfold State.failStart
  extract_lets +onlyGivenNames x1
  have h2 : Onward m s0 x1 := by
    unfold x1
    exact State.record_on (hm.of rfl) _ _ _ _ _ _ h
  clear_value x1
  extract_lets +onlyGivenNames x3 x4
  have h5 : Onward m s0 x4 := by
    unfold x4
    exact State.showFail_on (hm.of rfl) _ _ _ _ (State.setMram_on (hm.of rfl) _ _ h2 (Nat.le_refl _) (.inl rfl))
  clear_value x4
  extract_lets +onlyGivenNames x6
  have h7 : Onward m s0 x6 := by
    unfold x6
    exact State.taken_on (hm.of rfl) _ (State.wr_on (hm.of rfl) _ _ _ (State.wr_on (hm.of rfl) _ _ _ h5))
  clear_value x6
  refine ite_ind (P := Onward _ _) ?_ ?_
  · exact State.enterFallow_on (hm.of rfl) _ _ _ _ h7
  · exact State.setCrook_on (hm.of rfl) _ _ h7

theorem State.countAttempt_on {m : Nat} (hm : Covers 0x576efffefffe m) {s0 : State} (s : State) (a2) (a3) (h : Onward m s0 s) :
    Onward.P m s0 (State.countAttempt s a2 a3) := by
  unfold State.countAttempt
  extract_lets +onlyGivenNames x1 x2
  have h3 : Onward m s0 x2 := by
    unfold x2
    exact State.wr_on (hm.of rfl) _ _ _ (State.measured_on (hm.of rfl) _ _ _ _ h)
  clear_value x2
  extract_lets +onlyGivenNames x4
  have h5 : ∀ u6, Onward m s0 u6 → ∀ u7, Onward m s0 (x4 u6 u7) := by
    intro x8 h9 x10
    unfold x4
    exact State.record_on (hm.of rfl) _ _ _ _ _ _ h9
  clear_value x4
  refine ite_ind (P := Onward.P _ _) ?_ ?_
  · refine Onward.pair ?_
    refine State.enterFallow_on (hm.of rfl) _ _ _ _ ?_
    refine h5 _ ?_ _
    exact h3
  · extract_lets +onlyGivenNames x11 x12 x13
    have h14 : Onward m s0 x13 := by
      unfold x13
      refine h5 _ ?_ _
      exact State.showFail_on (hm.of rfl) _ _ _ _ (State.wr_on (hm.of rfl) _ _ _ h3)
    clear_value x13
    refine ite_ind (P := Onward.P _ _) ?_ ?_
    · split
      · exact State.enterFallow_on (hm.of rfl) _ _ _ _ h14
      · exact State.enterFallow_on (hm.of rfl) _ _ _ _ h14
    · extract_lets +onlyGivenNames x19 x20
      have h21 : Onward m s0 x20 := by
        unfold x20
        exact State.setMram_on (hm.of rfl) _ _ h14 (Nat.le_refl _) (.inl rfl)
      clear_value x20
      split
      · exact State.failStart_on (hm.of rfl) _ _ _ _ h21
      · exact h21

theorem State.chooseRecord_on {m : Nat} (hm : Covers 0x10140000a m) {s0 : State} (s : State) (a2) (h : Onward m s0 s) :
    Onward m s0 (State.chooseRecord s a2) := by
  unfold State.chooseRecord
  split
  · exact Onward.trans h (Onward.frame hm rfl rfl rfl rfl rfl rfl (fun w => ⟨w.1, w.2, w.3, w.4, w.5, w.6, w.7, w.8, w.9, w.10, w.11, w.12, w.13, w.14, w.15, w.16, w.17, w.18, w.19, w.20, w.21, w.22, w.23, w.24⟩)
    (fun p e => by cases p <;> first | exact absurd e (by decide) | rfl))
  · extract_lets +onlyGivenNames x10
    have h11 : Onward m s0 x10 := by
      unfold x10
      exact State.record_on (hm.of rfl) _ _ _ _ _ _ h
    clear_value x10
    exact Onward.trans h11 (Onward.frame hm rfl rfl rfl rfl rfl rfl (fun w => ⟨w.1, w.2, w.3, w.4, w.5, w.6, w.7, w.8, w.9, w.10, w.11, w.12, w.13, w.14, w.15, w.16, w.17, w.18, w.19, w.20, w.21, w.22, w.23, w.24⟩)
    (fun p e => by cases p <;> first | exact absurd e (by decide) | rfl))
  · exact h

theorem State.rebuildCounters_on {m : Nat} (hm : Covers 0x4000140000a m) {s0 : State} (s : State) (h : Onward m s0 s) :
    Onward m s0 (State.rebuildCounters s) := by
  unfold State.rebuildCounters
  extract_lets +onlyGivenNames x1
  exact State.record_on (hm.of rfl) _ _ _ _ _ _ (State.showMram_on (hm.of rfl) _ (State.wr_on (hm.of rfl) _ _ _ (State.setMram_on (hm.of rfl) _ _ h (Nat.le_refl _) (.inl rfl))))

theorem State.s0Keys_on {m : Nat} (hm : Covers 0x1000014010140000a m) {s0 : State} (s : State) (a2) (h : Onward m s0 s) :
    Onward.P m s0 (State.s0Keys s a2) := by
  unfold State.s0Keys
  refine ite_ind (P := Onward.P _ _) ?_ ?_
  · exact State.setCrook_on (hm.of rfl) _ _ h
  · extract_lets +onlyGivenNames x1 x2
    have h3 : Onward m s0 x2 := by
      unfold x2
      exact State.wr_on (hm.of rfl) _ _ _ (State.setCrook_on (hm.of rfl) _ _ h)
    clear_value x2
    extract_lets +onlyGivenNames x4
    have h5 : ∀ u6, Onward m s0 u6 → Onward m s0 (x4 u6) := by
      intro x7 h8
      unfold x4
      exact State.setCrook_on (hm.of rfl) _ _ h8
    clear_value x4
    extract_lets +onlyGivenNames x9
    have h10 : Onward m s0 x9 := by
      unfold x9
      exact State.chooseRecord_on (hm.of rfl) _ _ h3
    clear_value x9
    split
    · refine Onward.pair ?_
      refine h5 _ ?_
      exact h10
    · refine ite_ind (P := Onward.P _ _) ?_ ?_
      · refine Onward.pair ?_
        refine h5 _ ?_
        exact h10
      · extract_lets +onlyGivenNames x16 x17
        have h18 : Onward m s0 x17 := by
          unfold x17
          exact State.setCrook_on (hm.of rfl) _ _ h10
        clear_value x17
        extract_lets +onlyGivenNames x19
        have h20 : Onward m s0 x19 := by
          unfold x19
          refine foldl_ind (P := Onward _ _) ?_ _ _ ?_
          · intro x21 x22 h23
            exact State.record_on (hm.of rfl) _ _ _ _ _ _ h23
          · exact h18
        clear_value x19
        extract_lets +onlyGivenNames x24
        have h25 : Onward m s0 x24 := by
          unfold x24
          exact State.useSealed_on (hm.of rfl) _ _ _ h20
        clear_value x24
        extract_lets +onlyGivenNames x26
        have h27 : Onward m s0 x26 := by
          unfold x26
          refine ite_ind (P := Onward _ _) ?_ ?_
          · exact h25
          · exact State.rebuildCounters_on (hm.of rfl) _ h25
        clear_value x26
        refine ite_ind (P := Onward.P _ _) ?_ ?_
        · exact h27
        · refine Onward.pair ?_
          refine h5 _ ?_
          exact h27

theorem State.enrol_on {m : Nat} (hm : Covers 0x8010140000a m) {s0 : State} (s : State) (a2) (h : Onward m s0 s) :
    Onward m s0 (State.enrol s a2) := by
  unfold State.enrol
  refine ite_ind (P := Onward _ _) ?_ ?_
  · exact h
  · split
    · rename_i v2 e3
      have h4 : Onward m s0 v2 := Onward.eqP e3 (State.mayCommit_on (hm.of rfl) _ _ _ h)
      extract_lets +onlyGivenNames x5 x6 x7
      have h8 : Onward m s0 x7 := by
        unfold x7
        exact State.setFlash_on (hm.of rfl) _ _ h4
      clear_value x7
      exact Onward.trans h8 (Onward.frame hm rfl rfl rfl rfl rfl rfl (fun w => ⟨w.1, w.2, w.3, w.4, w.5, w.6, w.7, w.8, w.9, w.10, w.11, w.12, w.13, w.14, w.15, w.16, w.17, w.18, w.19, w.20, w.21, w.22, w.23, w.24⟩)
    (fun p e => by cases p <;> first | exact absurd e (by decide) | rfl))
    · rename_i v10 e11
      have h12 : Onward m s0 v10 := Onward.eqP e11 (State.mayCommit_on (hm.of rfl) _ _ _ h)
      exact h12

theorem State.giveKey_on {m : Nat} (hm : Covers 0x20 m) {s0 : State} (s : State) (a2) (h : Onward m s0 s) :
    Onward m s0 (State.giveKey s a2) := by
  unfold State.giveKey
  exact State.mgmtWrite_on (hm.of rfl) _ _ _ h

theorem State.s0Images_on {m : Nat} (hm : Covers 0x576efffefffe m) {s0 : State} (s : State) (a2) (h : Onward m s0 s) :
    Onward m s0 (State.s0Images s a2) := by
  unfold State.s0Images
  split
  · rename_i v2 e3
    have h4 : Onward m s0 v2 := Onward.eqP e3 (State.loadImage_on (hm.of rfl) _ _ h)
    exact State.failStart_on (hm.of rfl) _ _ _ _ h4
  · rename_i v6 e7
    have h8 : Onward m s0 v6 := Onward.eqP e7 (State.loadImage_on (hm.of rfl) _ _ h)
    split
    · rename_i v10 e11
      have h12 : Onward m s0 v10 := Onward.eqP e11 (State.loadImage_on (hm.of rfl) _ _ h8)
      exact State.failStart_on (hm.of rfl) _ _ _ _ h12
    · rename_i v14 e15
      have h16 : Onward m s0 v14 := Onward.eqP e15 (State.loadImage_on (hm.of rfl) _ _ h8)
      split
      · rename_i v18 e19
        have h20 : Onward m s0 v18 := Onward.eqP e19 (State.loadImage_on (hm.of rfl) _ _ h16)
        exact State.failStart_on (hm.of rfl) _ _ _ _ h20
      · rename_i v22 e23
        have h24 : Onward m s0 v22 := Onward.eqP e23 (State.loadImage_on (hm.of rfl) _ _ h16)
        extract_lets +onlyGivenNames x25 x26
        have h27 : Onward m s0 x26 := by
          unfold x26
          exact State.setCrook_on (hm.of rfl) _ _ (State.giveKey_on (hm.of rfl) _ _ h24)
        clear_value x26
        exact State.wr_on (hm.of rfl) _ _ _ (State.wr_on (hm.of rfl) _ _ _ h27)

theorem State.showStored_on {m : Nat} (hm : Covers 0x8 m) {s0 : State} (s : State) (h : Onward m s0 s) :
    Onward m s0 (State.showStored s) := by
  unfold State.showStored
  extract_lets +onlyGivenNames x1
  have h2 : Onward m s0 x1 := by
    unfold x1
    exact State.wr_on (hm.of rfl) _ _ _ (State.showMram_on (hm.of rfl) _ h)
  clear_value x1
  extract_lets +onlyGivenNames x3
  exact State.wr_on (hm.of rfl) _ _ _ (State.wr_on (hm.of rfl) _ _ _ (State.wr_on (hm.of rfl) _ _ _ h2))

theorem execStageS0_on {m : Nat} (hm : Covers 0x100005f6ffffefffe m) {s0 : State} (a1) (s : State) (h : Onward m s0 s) :
    Onward.O m s0 (execStageS0 a1 s) := by
  unfold execStageS0
  refine ite_ind (P := Onward.O _ _) ?_ ?_
  · exact h
  · refine ite_ind (P := Onward.O _ _) ?_ ?_
    · extract_lets +onlyGivenNames x1 x2
      have h3 : Onward m s0 x2 := by
        unfold x2
        exact State.chooseRecord_on (hm.of rfl) _ _ (State.setCrook_on (hm.of rfl) _ _ h)
      clear_value x2
      split
      · rename_i v5 e6
        have h7 : Onward m s0 v5 := Onward.eqP e6 (State.countAttempt_on (hm.of rfl) _ _ _ (State.wr_on (hm.of rfl) _ _ _ (State.showStored_on (hm.of rfl) _ h3)))
        exact State.wr_on (hm.of rfl) _ _ _ (State.wr_on (hm.of rfl) _ _ _ h7)
      · rename_i v9 e10
        have h11 : Onward m s0 v9 := Onward.eqP e10 (State.countAttempt_on (hm.of rfl) _ _ _ (State.wr_on (hm.of rfl) _ _ _ (State.showStored_on (hm.of rfl) _ h3)))
        exact h11
    · extract_lets +onlyGivenNames x12
      have h13 : Onward m s0 x12 := by
        unfold x12
        exact State.wr_on (hm.of rfl) _ _ _ h
      clear_value x12
      split
      rename_i v16 e17
      have h18 : Onward m s0 v16 := Onward.eqP e17 (State.s0Keys_on (hm.of rfl) _ _ h13)
      split
      · rename_i v20 e21
        have h22 : Onward m s0 v20 := Onward.eqP e21 (State.countAttempt_on (hm.of rfl) _ _ _ (State.showStored_on (hm.of rfl) _ h18))
        exact State.s0Images_on (hm.of rfl) _ _ (State.enrol_on (hm.of rfl) _ _ h22)
      · rename_i v24 e25
        have h26 : Onward m s0 v24 := Onward.eqP e25 (State.countAttempt_on (hm.of rfl) _ _ _ (State.showStored_on (hm.of rfl) _ h18))
        refine Onward.next ?_
        refine ite_ind (P := Onward _ _) ?_ ?_
        · refine ite_ind (P := Onward _ _) ?_ ?_
          · exact State.giveKey_on (hm.of rfl) _ _ h26
          · exact h26
        · exact h26

theorem execStageS1_on {m : Nat} (hm : Covers 0x576efffefffe m) {s0 : State} (a1) (s : State) (h : Onward m s0 s) :
    Onward.O m s0 (execStageS1 a1 s) := by
  unfold execStageS1
  refine ite_ind (P := Onward.O _ _) ?_ ?_
  · exact h
  · refine ite_ind (P := Onward.O _ _) ?_ ?_
    · exact State.failStart_on (hm.of rfl) _ _ _ _ h
    · refine ite_ind (P := Onward.O _ _) ?_ ?_
      · exact State.failStart_on (hm.of rfl) _ _ _ _ h
      · extract_lets +onlyGivenNames x1 x2 x3
        refine ite_ind (P := Onward.O _ _) ?_ ?_
        · exact State.failStart_on (hm.of rfl) _ _ _ _ h
        · extract_lets +onlyGivenNames x4
          have h5 : Onward m s0 x4 := by
            unfold x4
            exact State.wr_on (hm.of rfl) _ _ _ (State.wr_on (hm.of rfl) _ _ _ (State.wr_on (hm.of rfl) _ _ _ (State.wr_on (hm.of rfl) _ _ _ h)))
          clear_value x4
          extract_lets +onlyGivenNames x6
          have h7 : Onward m s0 x6 := by
            unfold x6
            refine ite_ind (P := Onward _ _) ?_ ?_
            · refine eachUpTo_ind (P := Onward _ _) _ _ ?_ ?_
              · exact h5
              · intro x8 x9 h10
                exact State.wr_on (hm.of rfl) _ _ _ h10
            · exact h5
          clear_value x6
          extract_lets +onlyGivenNames x11
          have h12 : Onward m s0 x11 := by
            unfold x11
            refine ite_ind (P := Onward _ _) ?_ ?_
            · exact State.record_on (hm.of rfl) _ _ _ _ _ _ h7
            · exact h7
          clear_value x11
          extract_lets +onlyGivenNames x13
          have h14 : Onward m s0 x13 := by
            unfold x13
            exact State.loadMr_on (hm.of rfl) _ _ h12
          clear_value x13
          exact State.wr_on (hm.of rfl) _ _ _ (State.wr_on (hm.of rfl) _ _ _ h14)

theorem State.recordRows_on {m : Nat} (hm : Covers 0x140000a m) {s0 : State} (s : State) (a2) (h : Onward m s0 s) :
    Onward m s0 (State.recordRows s a2) := by
  unfold State.recordRows
  refine foldl_ind (P := Onward _ _) ?_ _ _ ?_
  · intro x1 x2 h3
    refine foldl_ind (P := Onward _ _) ?_ _ _ ?_
    · intro x4 x5 h6
      exact State.record_on (hm.of rfl) _ _ _ _ _ _ h6
    · exact h3
  · exact h

theorem State.trainStack_on {m : Nat} (hm : Covers 0x1cc066e m) {s0 : State} (s : State) (a2) (a3) (h : Onward m s0 s) :
    Onward m s0 (State.trainStack s a2 a3) := by
  unfold State.trainStack
  extract_lets +onlyGivenNames x1 x2
  have h3 : Onward m s0 x2 := by
    unfold x2
    exact State.wr_on (hm.of rfl) _ _ _ (State.wr_on (hm.of rfl) _ _ _ (State.wr_on (hm.of rfl) _ _ _ (State.wr_on (hm.of rfl) _ _ _ (State.wr_on (hm.of rfl) _ _ _ h))))
  clear_value x2
  extract_lets +onlyGivenNames x4
  have h5 : Onward m s0 x4 := by
    unfold x4
    exact State.wr_on (hm.of rfl) _ _ _ (State.wr_on (hm.of rfl) _ _ _ h3)
  clear_value x4
  extract_lets +onlyGivenNames x6 x7
  have h8 : Onward m s0 x7 := by
    unfold x7
    refine foldl_ind (P := Onward _ _) ?_ _ _ ?_
    · intro x9 x10 h11
      exact State.spareWires_on (hm.of rfl) _ _ _ _ h11
    · exact h5
  clear_value x7
  extract_lets +onlyGivenNames x12 x13
  have h14 : Onward m s0 x13 := by
    unfold x13
    refine foldl_ind (P := Onward _ _) ?_ _ _ ?_
    · intro x15 x16 h17
      exact State.spareRecord_on (hm.of rfl) _ _ _ _ _ _ h17
    · exact h8
  clear_value x13
  extract_lets +onlyGivenNames x18 x19
  have h20 : Onward m s0 x19 := by
    unfold x19
    refine foldl_ind (P := Onward _ _) ?_ _ _ ?_
    · intro x21 x22 h23
      exact State.retireChan_on (hm.of rfl) _ _ _ _ h23
    · exact State.taken_on (hm.of rfl) _ h14
  clear_value x19
  exact State.wr_on (hm.of rfl) _ _ _ (State.setStack_on (hm.of rfl) _ _ _ h20)

theorem State.zeroiseAtStart_on {m : Nat} (hm : Covers 0x140a0140002e m) {s0 : State} (s : State) (h : Onward m s0 s) :
    Onward m s0 (State.zeroiseAtStart s) := by
  unfold State.zeroiseAtStart
  extract_lets +onlyGivenNames x1 x2
  have h3 : Onward m s0 x2 := by
    unfold x2
    exact State.setCrook_on (hm.of rfl) _ _ (State.closeLevel_on (hm.of rfl) _ (State.closeSessions_on (hm.of rfl) _ h))
  clear_value x2
  exact State.wr_on (hm.of rfl) _ _ _ (State.zeroised_on (hm.of rfl) _ (State.mgmtRestart_on (hm.of rfl) _ _ (Onward.trans h3 (Onward.frame hm rfl rfl rfl rfl rfl rfl (fun w => ⟨rfl, w.2, w.3, w.4, w.5, w.6, w.7, w.8, w.9, w.10, w.11, w.12, w.13, w.14, w.15, w.16, w.17, w.18, w.19, w.20, w.21, w.22, w.23, w.24⟩)
    (fun p e => by cases p <;> first | exact absurd e (by decide) | rfl)))))

theorem State.memTest_on {m : Nat} (hm : Covers 0x4000140000a m) {s0 : State} (s : State) (a2) (h : Onward m s0 s) :
    Onward m s0 (State.memTest s a2) := by
  unfold State.memTest
  extract_lets +onlyGivenNames x1 x2 x3 x4
  have h5 : Onward m s0 x4 := by
    unfold x4
    exact State.wr_on (hm.of rfl) _ _ _ (State.wr_on (hm.of rfl) _ _ _ (State.wr_on (hm.of rfl) _ _ _ h))
  clear_value x4
  refine ite_ind (P := Onward _ _) ?_ ?_
  · exact h5
  · split
    · rename_i v7 e8
      have h9 : Onward m s0 v7 := Onward.eqP e8 (State.mayCommit_on (hm.of rfl) _ _ _ h5)
      exact State.setMram_on (hm.of rfl) _ _ h9 (Nat.le_refl _) (.inl rfl)
    · rename_i v11 e12
      have h13 : Onward m s0 v11 := Onward.eqP e12 (State.mayCommit_on (hm.of rfl) _ _ _ h5)
      exact h13

theorem execStageS2_on {m : Nat} (hm : Covers 0x576efffefffe m) {s0 : State} (a1) (s : State) (h : Onward m s0 s) :
    Onward.O m s0 (execStageS2 a1 s) := by
  unfold execStageS2
  refine ite_ind (P := Onward.O _ _) ?_ ?_
  · exact h
  · refine ite_ind (P := Onward.O _ _) ?_ ?_
    · exact State.failStart_on (hm.of rfl) _ _ _ _ h
    · refine ite_ind (P := Onward.O _ _) ?_ ?_
      · exact State.failStart_on (hm.of rfl) _ _ _ _ (State.recordRows_on (hm.of rfl) _ _ h)
      · split
        · extract_lets +onlyGivenNames x5
          exact State.failStart_on (hm.of rfl) _ _ _ _ (State.recordRows_on (hm.of rfl) _ _ h)
        · exact State.failStart_on (hm.of rfl) _ _ _ _ (State.recordRows_on (hm.of rfl) _ _ h)
        · extract_lets +onlyGivenNames x15
          have h16 : Onward m s0 x15 := by
            unfold x15
            refine eachUpTo_ind (P := Onward _ _) _ _ ?_ ?_
            · exact State.recordRows_on (hm.of rfl) _ _ h
            · intro x17 x18 h19
              exact State.trainStack_on (hm.of rfl) _ _ _ h19
          clear_value x15
          extract_lets +onlyGivenNames x20
          have h21 : Onward m s0 x20 := by
            unfold x20
            refine ite_ind (P := Onward _ _) ?_ ?_
            · exact State.zeroiseAtStart_on (hm.of rfl) _ h16
            · exact State.memTest_on (hm.of rfl) _ _ h16
          clear_value x20
          extract_lets +onlyGivenNames x22
          have h23 : Onward m s0 x22 := by
            unfold x22
            exact Onward.trans h21 (Onward.frame hm rfl rfl rfl rfl rfl rfl (fun w => ⟨by dsimp only; exact Memory.wf_keep _ _ w.1, rfl, w.3, w.4, rfl, w.6, w.7, w.8, w.9, w.10, w.11, w.12, w.13, w.14, w.15, w.16, rfl, rfl, rfl, w.20, w.21, w.22, w.23, w.24⟩)
    (fun p e => by cases p <;> first | exact absurd e (by decide) | rfl))
          clear_value x22
          extract_lets +onlyGivenNames x24
          have h25 : Onward m s0 x24 := by
            unfold x24
            refine eachUpTo_ind (P := Onward _ _) _ _ ?_ ?_
            · exact State.loadMr_on (hm.of rfl) _ _ h23
            · intro x26 x27 h28
              exact State.waysFromCfg_on (hm.of rfl) _ _ h28
          clear_value x24
          exact State.wr_on (hm.of rfl) _ _ _ (State.wr_on (hm.of rfl) _ _ _ h25)

theorem execStageS3_on {m : Nat} (hm : Covers 0x576efffefffe m) {s0 : State} (a1) (s : State) (h : Onward m s0 s) :
    Onward.O m s0 (execStageS3 a1 s) := by
  unfold execStageS3
  refine ite_ind (P := Onward.O _ _) ?_ ?_
  · exact h
  · extract_lets +onlyGivenNames x1
    have h2 : Onward m s0 x1 := by
      unfold x1
      refine eachUpTo_ind (P := Onward _ _) _ _ ?_ ?_
      · exact h
      · intro x3 x4 h5
        refine ite_ind (P := Onward _ _) ?_ ?_
        · exact State.wr_on (hm.of rfl) _ _ _ h5
        · exact h5
    clear_value x1
    extract_lets +onlyGivenNames x6
    have h7 : Onward m s0 x6 := by
      unfold x6
      exact State.startSites_on (hm.of rfl) _ _ _ h2
    clear_value x6
    refine ite_ind (P := Onward.O _ _) ?_ ?_
    · exact State.failStart_on (hm.of rfl) _ _ _ _ h7
    · extract_lets +onlyGivenNames x8
      have h9 : Onward m s0 x8 := by
        unfold x8
        exact State.checkCoords_on (hm.of rfl) _ (State.defaultRoutes_on (hm.of rfl) _ (State.trainOptics_on (hm.of rfl) _ _ h7))
      clear_value x8
      extract_lets +onlyGivenNames x10 x11
      have h12 : Onward m s0 x11 := by
        unfold x11
        exact State.setBellLogic_on (hm.of rfl) _ _ h9
      clear_value x11
      exact State.wr_on (hm.of rfl) _ _ _ h12

theorem State.buildTally_on {m : Nat} (hm : Covers 0x160001a m) {s0 : State} (s : State) (a2) (h : Onward m s0 s) :
    Onward m s0 (State.buildTally s a2) := by
  unfold State.buildTally
  extract_lets +onlyGivenNames x1 x2 x3 x4
  have h5 : Onward m s0 x4 := by
    unfold x4
    exact State.resetRegs_on (hm.of rfl) _ _ h
  clear_value x4
  extract_lets +onlyGivenNames x6
  have h7 : Onward m s0 x6 := by
    unfold x6
    refine eachUpTo_ind (P := Onward _ _) _ _ ?_ ?_
    · exact h5
    · intro x8 x9 h10
      exact State.wr_on (hm.of rfl) _ _ _ h10
  clear_value x6
  extract_lets +onlyGivenNames x11
  have h12 : Onward m s0 x11 := by
    unfold x11
    refine foldl_ind (P := Onward _ _) ?_ _ _ ?_
    · intro x13 x14 h15
      exact State.wr_on (hm.of rfl) _ _ _ h15
    · exact h7
  clear_value x11
  extract_lets +onlyGivenNames x16
  have h17 : Onward m s0 x16 := by
    unfold x16
    refine foldl_ind (P := Onward _ _) ?_ _ _ ?_
    · intro x18 x19 h20
      exact State.wr_on (hm.of rfl) _ _ _ (State.wr_on (hm.of rfl) _ _ _ h20)
    · exact h12
  clear_value x16
  extract_lets +onlyGivenNames x21
  have h22 : Onward m s0 x21 := by
    unfold x21
    refine foldl_ind (P := Onward _ _) ?_ _ _ ?_
    · intro x23 x24 h25
      exact State.wr_on (hm.of rfl) _ _ _ h25
    · exact h17
  clear_value x21
  extract_lets +onlyGivenNames x26
  have h27 : Onward m s0 x26 := by
    unfold x26
    exact State.copyTally_on (hm.of rfl) _ (State.tallyCounts_on (hm.of rfl) _ (State.wr_on (hm.of rfl) _ _ _ h22))
  clear_value x26
  refine ite_ind (P := Onward _ _) ?_ ?_
  · exact State.record_on (hm.of rfl) _ _ _ _ _ _ h27
  · exact h27

theorem State.becomeReady_on {m : Nat} (hm : Covers 0x4000140000a m) {s0 : State} (s : State) (a2) (h : Onward m s0 s) :
    Onward m s0 (State.becomeReady s a2) := by
  unfold State.becomeReady
  extract_lets +onlyGivenNames x1
  have h2 : Onward m s0 x1 := by
    unfold x1
    exact State.wr_on (hm.of rfl) _ _ _ (State.wr_on (hm.of rfl) _ _ _ (State.wr_on (hm.of rfl) _ _ _ h))
  clear_value x1
  extract_lets +onlyGivenNames x3
  have h4 : Onward m s0 x3 := by
    unfold x3
    exact State.record_on (hm.of rfl) _ _ _ _ _ _ h2
  clear_value x3
  split
  · rename_i v6 e7
    have h8 : Onward m s0 v6 := Onward.eqP e7 (State.mayCommit_on (hm.of rfl) _ _ _ h4)
    exact State.setMram_on (hm.of rfl) _ _ h8 (Nat.le_refl _) (.inl rfl)
  · rename_i v10 e11
    have h12 : Onward m s0 v10 := Onward.eqP e11 (State.mayCommit_on (hm.of rfl) _ _ _ h4)
    exact h12

theorem execStageS4_on {m : Nat} (hm : Covers 0x576efffefffe m) {s0 : State} (a1) (s : State) (h : Onward m s0 s) :
    Onward.O m s0 (execStageS4 a1 s) := by
  unfold execStageS4
  refine ite_ind (P := Onward.O _ _) ?_ ?_
  · exact h
  · extract_lets +onlyGivenNames x1
    have h2 : Onward m s0 x1 := by
      unfold x1
      exact State.wr_on (hm.of rfl) _ _ _ (State.wr_on (hm.of rfl) _ _ _ h)
    clear_value x1
    extract_lets +onlyGivenNames x3
    refine ite_ind (P := Onward.O _ _) ?_ ?_
    · exact State.failStart_on (hm.of rfl) _ _ _ _ h2
    · extract_lets +onlyGivenNames x4
      have h5 : Onward m s0 x4 := by
        unfold x4
        exact State.buildTally_on (hm.of rfl) _ _ h2
      clear_value x4
      extract_lets +onlyGivenNames x6
      have h7 : Onward m s0 x6 := by
        unfold x6
        exact State.loadMr_on (hm.of rfl) _ _ h5
      clear_value x6
      extract_lets +onlyGivenNames x8
      have h9 : Onward m s0 x8 := by
        unfold x8
        refine eachUpTo_ind (P := Onward _ _) _ _ ?_ ?_
        · exact h7
        · intro x10 x11 h12
          refine ite_ind (P := Onward _ _) ?_ ?_
          · exact State.siteRuns_on (hm.of rfl) _ _ h12
          · refine ite_ind (P := Onward _ _) ?_ ?_
            · exact State.setSite_on (hm.of rfl) _ _ _ h12
            · exact h12
      clear_value x8
      exact State.becomeReady_on (hm.of rfl) _ _ h9

theorem execStartRetry_on {m : Nat} (hm : Covers 0x537ffffefffe m) {s0 : State} (s : State) (h : Onward m s0 s) :
    Onward.O m s0 (execStartRetry s) := by
  unfold execStartRetry
  refine ite_ind (P := Onward.O _ _) ?_ ?_
  · exact State.beginStart_on (hm.of rfl) _ _ h
  · exact h

theorem State.resetEnds_on {m : Nat} (hm : Covers 0x140000a m) {s0 : State} (s : State) (a2) (a3) (a4) (a5) (a6) (a7) (h : Onward m s0 s) :
    Onward m s0 (State.resetEnds s a2 a3 a4 a5 a6 a7) := by
  unfold State.resetEnds
  exact State.record_on (hm.of rfl) _ _ _ _ _ _ (State.irq_on (hm.of rfl) _ _ (State.wr_on (hm.of rfl) _ _ _ (State.wr_on (hm.of rfl) _ _ _ h)))

theorem State.moduleReset_on {m : Nat} (hm : Covers 0x537efffefffe m) {s0 : State} (s : State) (h : Onward m s0 s) :
    Onward m s0 (State.moduleReset s) := by
  unfold State.moduleReset
  extract_lets +onlyGivenNames x1
  have h2 : Onward m s0 x1 := by
    unfold x1
    exact State.closeLevel_on (hm.of rfl) _ (State.mboxModuleReset_on (hm.of rfl) _ (State.resetDomains_on (hm.of rfl) _ _ h))
  clear_value x1
  extract_lets +onlyGivenNames x3
  have h4 : Onward m s0 x3 := by
    unfold x3
    exact State.sinceStart_on (hm.of rfl) _ h2
  clear_value x3
  extract_lets +onlyGivenNames x5
  have h6 : Onward m s0 x5 := by
    unfold x5
    exact Onward.trans h4 (Onward.frame hm rfl rfl rfl rfl rfl rfl (fun w => ⟨w.1, w.2, w.3, w.4, w.5, w.6, w.7, w.8, w.9, w.10, w.11, w.12, w.13, w.14, w.15, w.16, w.17, w.18, w.19, w.20, w.21, w.22, w.23, w.24⟩)
    (fun p e => by cases p <;> first | exact absurd e (by decide) | rfl))
  clear_value x5
  extract_lets +onlyGivenNames x7
  have h8 : Onward m s0 x7 := by
    unfold x7
    exact State.wr_on (hm.of rfl) _ _ _ (State.wr_on (hm.of rfl) _ _ _ (State.wr_on (hm.of rfl) _ _ _ h6))
  clear_value x7
  extract_lets +onlyGivenNames x9
  have h10 : Onward m s0 x9 := by
    unfold x9
    exact State.wr_on (hm.of rfl) _ _ _ (State.setReg_on (hm.of rfl) _ _ _ h8)
  clear_value x9
  exact State.setCrook_on (hm.of rfl) _ _ h10

theorem State.resetGo_on {m : Nat} (hm : Covers 0x537efffefffe m) {s0 : State} (s : State) (a2) (a3) (a4) (a5) (h : Onward m s0 s) :
    Onward m s0 (State.resetGo s a2 a3 a4 a5) := by
  unfold State.resetGo
  refine ite_ind (P := Onward _ _) ?_ ?_
  · exact h
  · refine ite_ind (P := Onward _ _) ?_ ?_
    · exact State.wr_on (hm.of rfl) _ _ _ h
    · extract_lets +onlyGivenNames x1
      have h2 : Onward m s0 x1 := by
        unfold x1
        exact State.wr_on (hm.of rfl) _ _ _ (State.wr_on (hm.of rfl) _ _ _ (State.wr_on (hm.of rfl) _ _ _ (State.wr_on (hm.of rfl) _ _ _ h)))
      clear_value x1
      extract_lets +onlyGivenNames x3 x4
      refine ite_ind (P := Onward _ _) ?_ ?_
      · exact State.resetEnds_on (hm.of rfl) _ _ _ _ _ _ _ h2
      · refine ite_ind (P := Onward _ _) ?_ ?_
        · exact State.resetEnds_on (hm.of rfl) _ _ _ _ _ _ _ (State.moduleReset_on (hm.of rfl) _ h2)
        · refine ite_ind (P := Onward _ _) ?_ ?_
          · exact State.resetEnds_on (hm.of rfl) _ _ _ _ _ _ _ h2
          · extract_lets +onlyGivenNames x5
            have h6 : Onward m s0 x5 := by
              unfold x5
              exact Onward.trans h2 (Onward.frame hm rfl rfl rfl rfl rfl rfl (fun w => ⟨w.1, w.2, w.3, w.4, w.5, w.6, w.7, w.8, w.9, w.10, w.11, w.12, w.13, w.14, w.15, w.16, w.17, w.18, w.19, w.20, w.21, w.22, w.23, w.24⟩)
    (fun p e => by cases p <;> first | exact absurd e (by decide) | rfl))
            clear_value x5
            extract_lets +onlyGivenNames x7
            have h8 : Onward m s0 x7 := by
              unfold x7
              exact State.wr_on (hm.of rfl) _ _ _ (State.wr_on (hm.of rfl) _ _ _ h6)
            clear_value x7
            refine ite_ind (P := Onward _ _) ?_ ?_
            · exact State.resetDrover_on (hm.of rfl) _ _ h8
            · refine ite_ind (P := Onward _ _) ?_ ?_
              · exact State.resetPen_on (hm.of rfl) _ _ _ h8
              · exact State.resetPaddock_on (hm.of rfl) _ _ _ h8

theorem execDroverReset_on {m : Nat} (hm : Covers 0x537efffefffe m) {s0 : State} (a1) (s : State) (h : Onward m s0 s) :
    Onward.O m s0 (execDroverReset a1 s) := by
  unfold execDroverReset
  exact State.resetGo_on (hm.of rfl) _ _ _ _ _ h

theorem execPenReset_on {m : Nat} (hm : Covers 0x537efffefffe m) {s0 : State} (a1) (s : State) (h : Onward m s0 s) :
    Onward.O m s0 (execPenReset a1 s) := by
  unfold execPenReset
  exact State.resetGo_on (hm.of rfl) _ _ _ _ _ h

theorem execPaddockReset_on {m : Nat} (hm : Covers 0x537efffefffe m) {s0 : State} (a1) (a2) (s : State) (h : Onward m s0 s) :
    Onward.O m s0 (execPaddockReset a1 a2 s) := by
  unfold execPaddockReset
  exact State.resetGo_on (hm.of rfl) _ _ _ _ _ h

theorem execPaddockResetZeroise_on {m : Nat} (hm : Covers 0x537efffefffe m) {s0 : State} (a1) (a2) (s : State) (h : Onward m s0 s) :
    Onward.O m s0 (execPaddockResetZeroise a1 a2 s) := by
  unfold execPaddockResetZeroise
  exact State.resetGo_on (hm.of rfl) _ _ _ _ _ h

theorem execModuleReset_on {m : Nat} (hm : Covers 0x537efffefffe m) {s0 : State} (s : State) (h : Onward m s0 s) :
    Onward.O m s0 (execModuleReset s) := by
  unfold execModuleReset
  exact State.resetGo_on (hm.of rfl) _ _ _ _ _ h

theorem execResetRelease_on {m : Nat} (hm : Covers 0x3065fcff7ea m) {s0 : State} (s : State) (h : Onward m s0 s) :
    Onward.O m s0 (execResetRelease s) := by
  unfold execResetRelease
  split
  · exact h
  · extract_lets +onlyGivenNames x9
    refine ite_ind (P := Onward.O _ _) ?_ ?_
    · exact h
    · extract_lets +onlyGivenNames x10
      have h11 : Onward m s0 x10 := by
        unfold x10
        exact Onward.trans h (Onward.frame hm rfl rfl rfl rfl rfl rfl (fun w => ⟨w.1, w.2, w.3, w.4, w.5, w.6, w.7, w.8, w.9, w.10, w.11, w.12, w.13, w.14, w.15, w.16, w.17, w.18, w.19, w.20, w.21, w.22, w.23, w.24⟩)
    (fun p e => by cases p <;> first | exact absurd e (by decide) | rfl))
      clear_value x10
      extract_lets +onlyGivenNames x12
      have h13 : Onward m s0 x12 := by
        unfold x12
        refine ite_ind (P := Onward _ _) ?_ ?_
        · exact State.droverBack_on (hm.of rfl) _ _ h11
        · refine ite_ind (P := Onward _ _) ?_ ?_
          · exact State.openPen_on (hm.of rfl) _ _ h11
          · exact State.openPaddock_on (hm.of rfl) _ _ h11
      clear_value x12
      exact State.resetEnds_on (hm.of rfl) _ _ _ _ _ _ _ (State.heldAgain_on (hm.of rfl) _ h13)

theorem State.countAtBell_on {m : Nat} (hm : Covers 0x21152a00a m) {s0 : State} (s : State) (h : Onward m s0 s) :
    Onward m s0 (State.countAtBell s) := by
  unfold State.countAtBell
  extract_lets +onlyGivenNames x1 x2
  have h3 : Onward m s0 x2 := by
    unfold x2
    exact State.setBellLogic_on (hm.of rfl) _ _ h
  clear_value x2
  exact State.qualifyDue_on (hm.of rfl) _ (State.holdoverDue_on (hm.of rfl) _ (State.takeoverDue_on (hm.of rfl) _ (State.tickLock_on (hm.of rfl) _ h3)))

theorem State.commitsAtBell_on {m : Nat} (hm : Covers 0x21172098a m) {s0 : State} (s : State) (h : Onward m s0 s) :
    Onward m s0 (State.commitsAtBell s) := by
  unfold State.commitsAtBell
  extract_lets +onlyGivenNames x1
  have h2 : Onward m s0 x1 := by
    unfold x1
    exact State.stilesArrive_on (hm.of rfl) _ (State.disables_on (hm.of rfl) _ (State.removalsDue_on (hm.of rfl) _ (State.commitsDue_on (hm.of rfl) _ h)))
  clear_value x1
  refine State.meshFlips_on (hm.of rfl) _ ?_
  refine State.rebindNearer_on (hm.of rfl) _ ?_
  refine State.copyDue_on (hm.of rfl) _ ?_
  refine State.substitute_on (hm.of rfl) _ ?_
  refine eachUpTo_ind (P := Onward _ _) _ _ ?_ ?_
  · exact h2
  · intro x3 x4 h5
    exact State.movePort_on (hm.of rfl) _ _ h5

theorem State.windowsAtBell_on {m : Nat} (hm : Covers 0x51dcafee m) {s0 : State} (s : State) (h : Onward m s0 s) :
    Onward m s0 (State.windowsAtBell s) := by
  unfold State.windowsAtBell
  extract_lets +onlyGivenNames x1
  have h2 : Onward m s0 x1 := by
    unfold x1
    exact State.waysDue_on (hm.of rfl) _ (State.cadence_on (hm.of rfl) _ (State.newRound_on (hm.of rfl) _ (State.openWindows_on (hm.of rfl) _ (State.openScrubs_on (hm.of rfl) _ (State.startRetrains_on (hm.of rfl) _ (State.closeWindows_on (hm.of rfl) _ (State.closeScrubs_on (hm.of rfl) _ h)))))))
  clear_value x1
  refine foldl_ind (P := Onward _ _) ?_ _ _ ?_
  · intro x3 x4 h5
    exact State.drainWrites_on (hm.of rfl) _ _ _ h5
  · exact h2

theorem State.issuesAtBell_on {m : Nat} (hm : Covers 0x219cff7ea m) {s0 : State} (s : State) (h : Onward m s0 s) :
    Onward m s0 (State.issuesAtBell s) := by
  unfold State.issuesAtBell
  refine eachUpTo_ind (P := Onward _ _) _ _ ?_ ?_
  · exact State.wakeAll_on (hm.of rfl) _ (State.pairsDue_on (hm.of rfl) _ h)
  · intro x1 x2 h3
    exact State.releaseDue_on (hm.of rfl) _ _ h3

theorem State.messagesAtBell_on {m : Nat} (hm : Covers 0x619cff7ea m) {s0 : State} (s : State) (h : Onward m s0 s) :
    Onward m s0 (State.messagesAtBell s) := by
  unfold State.messagesAtBell
  extract_lets +onlyGivenNames x1
  have h2 : Onward m s0 x1 := by
    unfold x1
    refine State.mboxRetry_on (hm.of rfl) _ ?_
    refine State.siteBell_on (hm.of rfl) _ ?_
    refine eachUpTo_ind (P := Onward _ _) _ _ ?_ ?_
    · exact State.repeatNotices_on (hm.of rfl) _ h
    · intro x3 x4 h5
      exact State.bellMessages_on (hm.of rfl) _ _ h5
  clear_value x1
  refine ite_ind (P := Onward _ _) ?_ ?_
  · exact State.retrySites_on (hm.of rfl) _ (State.retryIn_on (hm.of rfl) _ (State.askAgain_on (hm.of rfl) _ h2))
  · exact h2

theorem State.boundary_on {m : Nat} (hm : Covers 0x77fffffffffe m) {s0 : State} (s : State) (h : Onward m s0 s) :
    Onward m s0 (State.boundary s) := by
  unfold State.boundary
  extract_lets +onlyGivenNames x1
  have h2 : Onward m s0 x1 := by
    unfold x1
    exact State.powerAtBell_on (hm.of rfl) _ (State.issuesAtBell_on (hm.of rfl) _ (State.windowsAtBell_on (hm.of rfl) _ (State.commitsAtBell_on (hm.of rfl) _ (State.countAtBell_on (hm.of rfl) _ h))))
  clear_value x1
  refine ite_ind (P := Onward _ _) ?_ ?_
  · exact h2
  · exact State.messagesAtBell_on (hm.of rfl) _ (State.thermalDue_on (hm.of rfl) _ h2)

theorem execBellBoundary_on {m : Nat} (hm : Covers 0x77fffffffffe m) {s0 : State} (a1) (a2) (s : State) (h : Onward m s0 s) :
    Onward.O m s0 (execBellBoundary a1 a2 s) := by
  unfold execBellBoundary
  refine ite_ind (P := Onward.O _ _) ?_ ?_
  · exact h
  · extract_lets +onlyGivenNames x1
    have h2 : Onward m s0 x1 := by
      unfold x1
      exact State.wr_on (hm.of rfl) _ _ _ (State.wr_on (hm.of rfl) _ _ _ h)
    clear_value x1
    extract_lets +onlyGivenNames x3 x4
    have h5 : Onward m s0 x4 := by
      unfold x4
      exact State.setLog_on (hm.of rfl) _ _ h2 (Nat.le_add_right _ _)
    clear_value x4
    refine Onward.next ?_
    refine ite_ind (P := Onward _ _) ?_ ?_
    · exact h5
    · exact State.boundary_on (hm.of rfl) _ h5

end Sys2Proof.Machine
end

