-- ==== Sys2Proof/Laws/OnIface.lean ====
section
/-! SUPPORT. Laws/OnIface.lean: what register accesses, the management requests, debug and the KEIS instructions keep. -/
set_option maxRecDepth 4000
namespace Sys2Proof.Machine

theorem State.then_on {m : Nat} (hm : Covers 0x0 m) {s0 : State} (s : State) (a2) (h : Onward m s0 s) (ha2 : ∀ y1, Onward m s0 y1 → Onward.O m s0 (a2 y1)) :
    Onward m s0 (State.then s a2) := by
  unfold State.then
  split
  · rename_i e
    exact Onward.eqO e (ha2 _ h)
  · exact h

theorem State.writeTally_on {m : Nat} (hm : Covers 0x162e00a m) {s0 : State} (s : State) (a2) (h : Onward m s0 s) :
    Onward m s0 (State.writeTally s a2) := by
  unfold State.writeTally
  extract_lets +onlyGivenNames x1 x2 x3
  have h4 : Onward m s0 x3 := by
    unfold x3
    refine ite_ind (P := Onward _ _) ?_ ?_
    · exact h
    · exact State.wr_on (hm.of rfl) _ _ _ (State.wr_on (hm.of rfl) _ _ _ (State.wr_on (hm.of rfl) _ _ _ h))
  clear_value x3
  refine ite_ind (P := Onward _ _) ?_ ?_
  · refine State.then_on (hm.of rfl) _ _ ?_ ?_
    · exact h4
    · intro x5 h6
      exact execRebind_on (hm.of rfl) _ _ _ _ _ h6
  · refine ite_ind (P := Onward _ _) ?_ ?_
    · refine State.then_on (hm.of rfl) _ _ ?_ ?_
      · exact h4
      · intro x7 h8
        exact execTallyFence_on (hm.of rfl) _ _ h8
    · refine State.tallyGo_on (hm.of rfl) _ _ _ _ _ _ _ ?_ ?_
      · exact h4
      · intro x9 h10
        exact State.tallyEnd_on (hm.of rfl) _ _ _ h10

theorem State.writeReply_on {m : Nat} (hm : Covers 0x219cff7ea m) {s0 : State} (s : State) (a2) (h : Onward m s0 s) :
    Onward m s0 (State.writeReply s a2) := by
  unfold State.writeReply
  extract_lets +onlyGivenNames x1 x2 x3
  have h4 : Onward m s0 x3 := by
    unfold x3
    exact State.replyRegs_on (hm.of rfl) _ _ _ _ _ h
  clear_value x3
  split
  · refine State.then_on (hm.of rfl) _ _ ?_ ?_
    · exact h4
    · intro x7 h8
      exact execXlFill_on (hm.of rfl) _ _ h8
  · refine State.then_on (hm.of rfl) _ _ ?_ ?_
    · exact h4
    · intro x11 h12
      exact execXlDefer_on (hm.of rfl) _ _ h12
  · refine State.then_on (hm.of rfl) _ _ ?_ ?_
    · exact h4
    · intro x15 h16
      exact execXlResume_on (hm.of rfl) _ _ h16
  · refine State.then_on (hm.of rfl) _ _ ?_ ?_
    · exact h4
    · intro x19 h20
      exact execXlFail_on (hm.of rfl) _ _ _ h20
  · refine State.then_on (hm.of rfl) _ _ ?_ ?_
    · exact h4
    · intro x23 h24
      exact execXlShadowFill_on (hm.of rfl) _ _ h24
  · refine State.then_on (hm.of rfl) _ _ ?_ ?_
    · exact h4
    · intro x27 h28
      exact execXlShadowClear_on (hm.of rfl) _ _ h28
  · exact State.xlOutcome_on (hm.of rfl) _ _ h4

theorem State.writeMig_on {m : Nat} (hm : Covers 0x1ce07ea m) {s0 : State} (s : State) (a2) (h : Onward m s0 s) :
    Onward m s0 (State.writeMig s a2) := by
  unfold State.writeMig
  extract_lets +onlyGivenNames x1
  refine ite_ind (P := Onward _ _) ?_ ?_
  · exact State.migGo_on (hm.of rfl) _ _ _ h
  · refine ite_ind (P := Onward _ _) ?_ ?_
    · exact State.wr_on (hm.of rfl) _ _ _ h
    · exact State.wr_on (hm.of rfl) _ _ _ (State.wr_on (hm.of rfl) _ _ _ (State.wr_on (hm.of rfl) _ _ _ (State.wr_on (hm.of rfl) _ _ _ h)))

theorem State.writeOpt_on {m : Nat} (hm : Covers 0x1140000a m) {s0 : State} (s : State) (a2) (h : Onward m s0 s) :
    Onward m s0 (State.writeOpt s a2) := by
  unfold State.writeOpt
  extract_lets +onlyGivenNames x1 x2 x3 x4
  have h5 : Onward m s0 x4 := by
    unfold x4
    refine ite_ind (P := Onward _ _) ?_ ?_
    · exact h
    · exact State.wr_on (hm.of rfl) _ _ _ (State.wr_on (hm.of rfl) _ _ _ (State.wr_on (hm.of rfl) _ _ _ h))
  clear_value x4
  split
  · refine State.then_on (hm.of rfl) _ _ ?_ ?_
    · exact h5
    · intro x8 h9
      exact execOptRemoveLane_on (hm.of rfl) _ _ _ h9
  · refine State.then_on (hm.of rfl) _ _ ?_ ?_
    · exact h5
    · intro x12 h13
      exact execOptRetrainLane_on (hm.of rfl) _ _ _ h13
  · refine State.then_on (hm.of rfl) _ _ ?_ ?_
    · exact h5
    · intro x16 h17
      exact execOptPortDisable_on (hm.of rfl) _ _ h17
  · refine State.then_on (hm.of rfl) _ _ ?_ ?_
    · exact h5
    · intro x20 h21
      exact execOptPortEnable_on (hm.of rfl) _ _ h21
  · refine State.then_on (hm.of rfl) _ _ ?_ ?_
    · exact h5
    · intro x24 h25
      exact execOptLaserDisable_on (hm.of rfl) _ _ h25
  · refine State.then_on (hm.of rfl) _ _ ?_ ?_
    · exact h5
    · intro x28 h29
      exact execOptLaserEnable_on (hm.of rfl) _ _ h29
  · refine State.optGo_on (hm.of rfl) _ _ _ _ _ _ _ ?_ ?_
    · exact h5
    · intro x37 h38
      unfold id
      exact h38

theorem State.writeMuster_on {m : Nat} (hm : Covers 0x11000008 m) {s0 : State} (s : State) (a2) (h : Onward m s0 s) :
    Onward m s0 (State.writeMuster s a2) := by
  unfold State.writeMuster
  extract_lets +onlyGivenNames x1
  refine ite_ind (P := Onward _ _) ?_ ?_
  · refine State.then_on (hm.of rfl) _ _ ?_ ?_
    · exact h
    · intro x2 h3
      exact execMusterForceRelease_on (hm.of rfl) _ _ h3
  · refine ite_ind (P := Onward _ _) ?_ ?_
    · exact State.wr_on (hm.of rfl) _ _ _ h
    · exact State.irq_on (hm.of rfl) _ _ (State.wr_on (hm.of rfl) _ _ _ (State.wr_on (hm.of rfl) _ _ _ (State.wr_on (hm.of rfl) _ _ _ (State.wr_on (hm.of rfl) _ _ _ h))))

theorem State.writeChan_on {m : Nat} (hm : Covers 0x1cc066a m) {s0 : State} (s : State) (a2) (a3) (h : Onward m s0 s) :
    Onward m s0 (State.writeChan s a2 a3) := by
  unfold State.writeChan
  extract_lets +onlyGivenNames x1 x2
  split
  · refine State.then_on (hm.of rfl) _ _ ?_ ?_
    · exact h
    · intro x5 h6
      exact execChanRetrain_on (hm.of rfl) _ _ _ h6
  · refine State.then_on (hm.of rfl) _ _ ?_ ?_
    · exact h
    · intro x9 h10
      exact execChanRetire_on (hm.of rfl) _ _ _ h10
  · refine ite_ind (P := Onward _ _) ?_ ?_
    · exact State.wr_on (hm.of rfl) _ _ _ h
    · exact State.chanDone_on (hm.of rfl) _ _ _ _ (State.wr_on (hm.of rfl) _ _ _ (State.wr_on (hm.of rfl) _ _ _ h))

theorem State.writeSite_on {m : Nat} (hm : Covers 0xe19cef7ee m) {s0 : State} (s : State) (a2) (a3) (h : Onward m s0 s) :
    Onward m s0 (State.writeSite s a2 a3) := by
  unfold State.writeSite
  extract_lets +onlyGivenNames x1 x2
  split
  · refine State.siteGo_on (hm.of rfl) _ _ _ _ _ _ ?_ ?_
    · exact h
    · intro x5 h6
      exact State.repairDue_on (hm.of rfl) _ _ _ _ h6
  · refine State.siteGo_on (hm.of rfl) _ _ _ _ _ _ ?_ ?_
    · exact h
    · intro x9 h10
      exact State.siteCmdEnds_on (hm.of rfl) _ _ _ _ (State.bundleOut_on (hm.of rfl) _ _ _ _ h10)
  · refine State.siteGo_on (hm.of rfl) _ _ _ _ _ _ ?_ ?_
    · exact h
    · intro x14 h15
      unfold id
      exact h15

theorem State.writeTrace_on {m : Nat} (hm : Covers 0x500000000008 m) {s0 : State} (s : State) (a2) (h : Onward m s0 s) :
    Onward m s0 (State.writeTrace s a2) := by
  unfold State.writeTrace
  extract_lets +onlyGivenNames x1 x2
  have h3 : Onward m s0 x2 := by
    unfold x2
    exact State.setReg_on (hm.of rfl) _ _ _ h
  clear_value x2
  refine ite_ind (P := Onward _ _) ?_ ?_
  · extract_lets +onlyGivenNames x4
    have h5 : Onward m s0 x4 := by
      unfold x4
      exact State.setReg_on (hm.of rfl) _ _ _ h3
    clear_value x4
    exact Onward.trans h5 (Onward.frame hm rfl rfl rfl rfl rfl rfl (fun w => ⟨w.1, w.2, w.3, w.4, w.5, w.6, w.7, w.8, w.9, w.10, w.11, w.12, w.13, w.14, w.15, w.16, w.17, w.18, w.19, w.20, w.21, w.22, w.23, w.24⟩)
    (fun p e => by cases p <;> first | exact absurd e (by decide) | rfl))
  · exact h3

theorem State.writeMbox_on {m : Nat} (hm : Covers 0xa0900000e m) {s0 : State} (s : State) (a2) (a3) (a4) (h : Onward m s0 s) :
    Onward.P m s0 (State.writeMbox s a2 a3 a4) := by
  unfold State.writeMbox
  extract_lets +onlyGivenNames go crook may
  clear_value go crook may
  refine ite_ind (P := Onward.P _ _) ?_ ?_
  · exact Onward.pair h
  · extract_lets +onlyGivenNames x
    have hx : Onward m s0 x := by
      unfold x
      exact ite_ind (P := Onward _ _) (State.wr_on (hm.of rfl) _ _ _ h) h
    extract_lets +onlyGivenNames y
    have hy : Onward m s0 y := by
      unfold y
      refine ite_ind (P := Onward _ _) ?_ hx
      exact State.then_on (hm.of rfl) _ _ hx fun _ k => execMboxAck_on (hm.of rfl) _ _ k
    refine ite_ind (P := Onward.P _ _) ?_ ?_
    · exact Onward.pair (State.wr_on (hm.of rfl) _ _ _ hy)
    · exact Onward.pair (State.then_on (hm.of rfl) _ _ (State.taken_on (hm.of rfl) _ hy) fun _ k => execMboxGo_on (hm.of rfl) _ _ _ _ _ k)

theorem State.writeCmd_on {m : Nat} (hm : Covers 0x537efffffffe m) {s0 : State} (s : State) (a2) (a3) (a4) (a5) (a6) (h : Onward m s0 s) :
    Onward.MP m s0 (State.writeCmd s a2 a3 a4 a5 a6) := by
  unfold State.writeCmd
  extract_lets +onlyGivenNames x1
  have h2 : ∀ u3, Onward m s0 u3 → Onward.MP m s0 (x1 u3) := by
    intro x4 h5
    unfold x1
    refine ite_ind (P := Onward.MP _ _) ?_ ?_
    · exact h5
    · exact trivial
  clear_value x1
  split
  · refine h2 _ ?_
    exact State.resetGo_on (hm.of rfl) _ _ _ _ _ h
  · exact State.setRateCfg_on (hm.of rfl) _ _ h
  · refine Onward.justP ?_
    refine Onward.pair ?_
    refine State.then_on (hm.of rfl) _ _ ?_ ?_
    · exact h
    · intro x15 h16
      exact execLogFwWrite_on (hm.of rfl) _ _ h16
  · refine Onward.justP ?_
    refine Onward.pair ?_
    refine State.then_on (hm.of rfl) _ _ ?_ ?_
    · exact h
    · intro x20 h21
      exact execErrAck_on (hm.of rfl) _ _ _ h21
  · refine h2 _ ?_
    exact State.pwrGo_on (hm.of rfl) _ _ _ h
  · refine h2 _ ?_
    exact State.writeTally_on (hm.of rfl) _ _ h
  · refine ite_ind (P := Onward.MP _ _) ?_ ?_
    · exact trivial
    · exact h
  · refine Onward.justP ?_
    refine ite_ind (P := Onward.P _ _) ?_ ?_
    · exact h
    · exact State.setTail_on (hm.of rfl) _ _ (State.wr_on (hm.of rfl) _ _ _ h)
  · refine h2 _ ?_
    exact State.writeReply_on (hm.of rfl) _ _ h
  · refine h2 _ ?_
    exact State.shootGo_on (hm.of rfl) _ _ _ h
  · refine h2 _ ?_
    exact State.writeMig_on (hm.of rfl) _ _ h
  · refine ite_ind (P := Onward.MP _ _) ?_ ?_
    · exact State.writeMbox_on (hm.of rfl) _ _ _ _ h
    · exact trivial
  · refine h2 _ ?_
    exact State.writeOpt_on (hm.of rfl) _ _ h
  · refine h2 _ ?_
    exact State.writeMuster_on (hm.of rfl) _ _ h
  · refine h2 _ ?_
    exact State.frangeGo_on (hm.of rfl) _ _ _ h
  · refine h2 _ ?_
    exact State.writeChan_on (hm.of rfl) _ _ _ h
  · refine ite_ind (P := Onward.MP _ _) ?_ ?_
    · refine Onward.justP ?_
      refine Onward.pair ?_
      refine State.then_on (hm.of rfl) _ _ ?_ ?_
      · exact h
      · intro x63 h64
        exact execPreempt_on (hm.of rfl) _ _ _ _ h64
    · exact trivial
  · refine h2 _ ?_
    exact State.writeSite_on (hm.of rfl) _ _ _ h
  · exact State.writeTrace_on (hm.of rfl) _ _ h
  · exact trivial

theorem State.writeStaged_on {m : Nat} (hm : Covers 0x100000000018 m) {s0 : State} (s : State) (a2) (a3) (a4) (a5) (h : Onward m s0 s) :
    Onward m s0 (State.writeStaged s a2 a3 a4 a5) := by
  unfold State.writeStaged
  extract_lets +onlyGivenNames x1
  refine ite_ind (P := Onward _ _) ?_ ?_
  · exact h
  · refine ite_ind (P := Onward _ _) ?_ ?_
    · exact State.wr_on (hm.of rfl) _ _ _ h
    · extract_lets +onlyGivenNames x2
      have h3 : Onward m s0 x2 := by
        unfold x2
        exact State.setStg_on (hm.of rfl) _ _ _ h
      clear_value x2
      refine ite_ind (P := Onward _ _) ?_ ?_
      · exact Onward.trans h3 (Onward.frame hm rfl rfl rfl rfl rfl rfl (fun w => ⟨w.1, w.2, w.3, w.4, w.5, w.6, w.7, w.8, w.9, w.10, w.11, w.12, w.13, w.14, w.15, w.16, w.17, w.18, w.19, w.20, w.21, w.22, w.23, w.24⟩)
    (fun p e => by cases p <;> first | exact absurd e (by decide) | rfl))
      · exact h3

theorem State.writeFields_on {m : Nat} (hm : Covers 0x100000000018 m) {s0 : State} (s : State) (a2) (a3) (a4) (a5) (a6) (h : Onward m s0 s) :
    Onward m s0 (State.writeFields s a2 a3 a4 a5 a6) := by
  unfold State.writeFields
  split
  · exact h
  · extract_lets +onlyGivenNames x6 x7
    exact State.writeStaged_on (hm.of rfl) _ _ _ _ _ (State.setReg_on (hm.of rfl) _ _ _ h)

theorem State.writeBlock_on {m : Nat} (hm : Covers 0x537efffffffe m) {s0 : State} (s : State) (a2) (a3) (a4) (a5) (a6) (h : Onward m s0 s) :
    Onward.P m s0 (State.writeBlock s a2 a3 a4 a5 a6) := by
  unfold State.writeBlock
  extract_lets +onlyGivenNames x1 x2
  refine ite_ind (P := Onward.P _ _) ?_ ?_
  · exact h
  · refine ite_ind (P := Onward.P _ _) ?_ ?_
    · refine Onward.pair ?_
      refine ite_ind (P := Onward _ _) ?_ ?_
      · exact State.gateCtl_on (hm.of rfl) _ _ _ _ _ _ _ h
      · exact State.writeGateCtl_on (hm.of rfl) _ _ _ h
    · refine ite_ind (P := Onward.P _ _) ?_ ?_
      · refine Onward.pair ?_
        refine ite_ind (P := Onward _ _) ?_ ?_
        · exact h
        · exact State.setReg_on (hm.of rfl) _ _ _ h
      · refine ite_ind (P := Onward.P _ _) ?_ ?_
        · extract_lets +onlyGivenNames x3 x4
          refine Onward.pair ?_
          refine ite_ind (P := Onward _ _) ?_ ?_
          · refine State.then_on (hm.of rfl) _ _ ?_ ?_
            · exact h
            · intro x5 h6
              exact execDoorbellWindowSubmit_on (hm.of rfl) _ _ _ _ h6
          · exact State.setReg_on (hm.of rfl) _ _ _ h
        · split
          · rename_i v8 e9
            have h10 : Onward.P m s0 v8 := Onward.eqMP' e9 (State.writeCmd_on (hm.of rfl) _ _ _ _ _ _ h)
            exact h10
          · exact State.writeFields_on (hm.of rfl) _ _ _ _ _ _ h

theorem State.writeReg_on {m : Nat} (hm : Covers 0x537efffffffe m) {s0 : State} (s : State) (a2) (a3) (a4) (a5) (h : Onward m s0 s) :
    Onward.P m s0 (State.writeReg s a2 a3 a4 a5) := by
  unfold State.writeReg
  extract_lets +onlyGivenNames x1
  refine ite_ind (P := Onward.P _ _) ?_ ?_
  · exact h
  · split
    · exact h
    · exact State.writeBlock_on (hm.of rfl) _ _ _ _ _ _ h

theorem execRegisterWrite_on {m : Nat} (hm : Covers 0x537efffffffe m) {s0 : State} (a1) (a2) (a3) (a4) (s : State) (h : Onward m s0 s) :
    Onward.O m s0 (execRegisterWrite a1 a2 a3 a4 s) := by
  unfold execRegisterWrite
  refine ite_ind (P := Onward.O _ _) ?_ ?_
  · exact h
  · split
    rename_i v3 e4
    have h5 : Onward m s0 v3 := Onward.eqP e4 (State.writeReg_on (hm.of rfl) _ _ _ _ _ h)
    exact State.emit_on (hm.of rfl) _ _ h5

theorem execTraceCtlWrite_on {m : Nat} (hm : Covers 0x500000000008 m) {s0 : State} (a1) (s : State) (h : Onward m s0 s) :
    Onward.O m s0 (execTraceCtlWrite a1 s) := by
  unfold execTraceCtlWrite
  refine ite_ind (P := Onward.O _ _) ?_ ?_
  · exact h
  · exact State.writeTrace_on (hm.of rfl) _ _ h

theorem State.respond_on {m : Nat} (hm : Covers 0x2 m) {s0 : State} (s : State) (a2) (a3) (a4) (a5) (h : Onward m s0 s) :
    Onward m s0 (State.respond s a2 a3 a4 a5) := by
  unfold State.respond
  exact State.emit_on (hm.of rfl) _ _ h

theorem State.dfpOpen_on {m : Nat} (hm : Covers 0x2 m) {s0 : State} (s : State) (a2) (a3) (a4) (h : Onward m s0 s) (ha4 : ∀ y1, Onward m s0 y1 → Onward.T m s0 (a4 y1)) :
    Onward m s0 (State.dfpOpen s a2 a3 a4) := by
  unfold State.dfpOpen
  refine ite_ind (P := Onward _ _) ?_ ?_
  · exact h
  · split
    · exact State.respond_on (hm.of rfl) _ _ _ _ _ h
    · split
      rename_i v9 e10
      have h11 : Onward m s0 v9 := by
        refine Onward.eqT e10 ?_
        refine ha4 _ ?_
        exact h
      exact State.respond_on (hm.of rfl) _ _ _ _ _ h11

theorem State.setSession_on {m : Nat} (hm : Covers 0x100000000000 m) {s0 : State} (s : State) (a2) (h : Onward m s0 s) :
    Onward m s0 (State.setSession s a2) := by
  unfold State.setSession
  exact State.setCrook_on (hm.of rfl) _ _ h

theorem State.dfpSession_on {m : Nat} (hm : Covers 0x100000000002 m) {s0 : State} (s : State) (a2) (a3) (a4) (a5) (h : Onward m s0 s) (ha5 : ∀ y1, Onward m s0 y1 → Onward.T m s0 (a5 y1)) :
    Onward m s0 (State.dfpSession s a2 a3 a4 a5) := by
  unfold State.dfpSession
  refine ite_ind (P := Onward _ _) ?_ ?_
  · exact h
  · split
    · exact State.respond_on (hm.of rfl) _ _ _ _ _ h
    · split
      · exact State.respond_on (hm.of rfl) _ _ _ _ _ h
      · refine ite_ind (P := Onward _ _) ?_ ?_
        · exact State.respond_on (hm.of rfl) _ _ _ _ _ h
        · extract_lets +onlyGivenNames x11
          split
          · exact State.emit_on (hm.of rfl) _ _ (State.setSession_on (hm.of rfl) _ _ h)
          · refine ite_ind (P := Onward _ _) ?_ ?_
            · exact h
            · split
              rename_i v20 e21
              have h22 : Onward m s0 v20 := by
                refine Onward.eqT e21 ?_
                refine ha5 _ ?_
                exact h
              extract_lets +onlyGivenNames x23
              exact State.emit_on (hm.of rfl) _ _ (State.setSession_on (hm.of rfl) _ _ h22)

theorem State.useNonce_on {m : Nat} (hm : Covers 0x100000000000 m) {s0 : State} (s : State) (a2) (h : Onward m s0 s) :
    Onward m s0 (State.useNonce s a2) := by
  unfold State.useNonce
  exact State.setCrook_on (hm.of rfl) _ _ h

theorem State.refusedCmd_on {m : Nat} (hm : Covers 0x8 m) {s0 : State} (s : State) (a2) (a3) (h : Onward m s0 s) :
    Onward m s0 (State.refusedCmd s a2 a3) := by
  unfold State.refusedCmd
  refine ite_ind (P := Onward _ _) ?_ ?_
  · exact h
  · exact State.wr_on (hm.of rfl) _ _ _ (State.wr_on (hm.of rfl) _ _ _ h)

theorem State.dfpSigned_on {m : Nat} (hm : Covers 0x10000000000a m) {s0 : State} (s : State) (a2) (a3) (a4) (a5) (a6) (h : Onward m s0 s) (ha6 : ∀ y1, Onward m s0 y1 → Onward.T m s0 (a6 y1)) :
    Onward m s0 (State.dfpSigned s a2 a3 a4 a5 a6) := by
  unfold State.dfpSigned
  refine ite_ind (P := Onward _ _) ?_ ?_
  · exact h
  · split
    · exact State.respond_on (hm.of rfl) _ _ _ _ _ h
    · refine ite_ind (P := Onward _ _) ?_ ?_
      · exact State.respond_on (hm.of rfl) _ _ _ _ _ (State.refusedCmd_on (hm.of rfl) _ _ _ h)
      · refine ite_ind (P := Onward _ _) ?_ ?_
        · exact State.respond_on (hm.of rfl) _ _ _ _ _ (State.refusedCmd_on (hm.of rfl) _ _ _ h)
        · split
          rename_i v9 e10
          have h11 : Onward m s0 v9 := by
            refine Onward.eqT e10 ?_
            refine ha6 _ ?_
            exact State.useNonce_on (hm.of rfl) _ _ h
          exact State.respond_on (hm.of rfl) _ _ _ _ _ (State.refusedCmd_on (hm.of rfl) _ _ _ h11)

theorem State.nvCommit_on {m : Nat} (hm : Covers 0x140000a m) {s0 : State} (s : State) (a2) (a3) (a4) (h : Onward m s0 s) (ha4 : ∀ y1, Onward m s0 y1 → Onward m s0 (a4 y1)) :
    Onward.T m s0 (State.nvCommit s a2 a3 a4) := by
  unfold State.nvCommit
  split
  · rename_i v2 e3
    have h4 : Onward m s0 v2 := Onward.eqP e3 (State.mayCommit_on (hm.of rfl) _ _ _ h)
    refine Onward.triple ?_
    refine ha4 _ ?_
    exact h4
  · rename_i v6 e7
    have h8 : Onward m s0 v6 := Onward.eqP e7 (State.mayCommit_on (hm.of rfl) _ _ _ h)
    exact h8

theorem execDfpIdentify_on {m : Nat} (hm : Covers 0x2 m) {s0 : State} (a1) (s : State) (h : Onward m s0 s) :
    Onward.O m s0 (execDfpIdentify a1 s) := by
  unfold execDfpIdentify
  refine Onward.next ?_
  refine State.dfpOpen_on (hm.of rfl) _ _ _ _ ?_ ?_
  · exact h
  · intro x1 h2
    exact h2

theorem execDfpStatus_on {m : Nat} (hm : Covers 0x2 m) {s0 : State} (a1) (s : State) (h : Onward m s0 s) :
    Onward.O m s0 (execDfpStatus a1 s) := by
  unfold execDfpStatus
  refine Onward.next ?_
  refine State.dfpOpen_on (hm.of rfl) _ _ _ _ ?_ ?_
  · exact h
  · intro x1 h2
    exact h2

theorem execDfpSessionOpen_on {m : Nat} (hm : Covers 0x100000000006 m) {s0 : State} (a1) (a2) (a3) (a4) (s : State) (h : Onward m s0 s) :
    Onward.O m s0 (execDfpSessionOpen a1 a2 a3 a4 s) := by
  unfold execDfpSessionOpen
  refine Onward.next ?_
  refine State.dfpOpen_on (hm.of rfl) _ _ _ _ ?_ ?_
  · exact h
  · intro x1 h2
    refine ite_ind (P := Onward.T _ _) ?_ ?_
    · exact h2
    · refine ite_ind (P := Onward.T _ _) ?_ ?_
      · exact h2
      · extract_lets +onlyGivenNames x3 x4 x5
        exact State.setCrook_on (hm.of rfl) _ _ (State.taken_on (hm.of rfl) _ h2)

theorem State.endSession_on {m : Nat} (hm : Covers 0x100000000000 m) {s0 : State} (s : State) (a2) (h : Onward m s0 s) :
    Onward m s0 (State.endSession s a2) := by
  unfold State.endSession
  exact State.setCrook_on (hm.of rfl) _ _ h

theorem execDfpSessionClose_on {m : Nat} (hm : Covers 0x100000000002 m) {s0 : State} (a1) (s : State) (h : Onward m s0 s) :
    Onward.O m s0 (execDfpSessionClose a1 s) := by
  unfold execDfpSessionClose
  refine Onward.next ?_
  refine State.dfpSession_on (hm.of rfl) _ _ _ _ _ ?_ ?_
  · exact h
  · intro x1 h2
    exact State.endSession_on (hm.of rfl) _ _ h2

theorem execSessionTimeout_on {m : Nat} (hm : Covers 0x100000000000 m) {s0 : State} (a1) (s : State) (h : Onward m s0 s) :
    Onward.O m s0 (execSessionTimeout a1 s) := by
  unfold execSessionTimeout
  refine ite_ind (P := Onward.O _ _) ?_ ?_
  · exact State.endSession_on (hm.of rfl) _ _ h
  · exact h

theorem State.newNonce_on {m : Nat} (hm : Covers 0x100000000004 m) {s0 : State} (s : State) (h : Onward m s0 s) :
    Onward.P m s0 (State.newNonce s) := by
  unfold State.newNonce
  extract_lets +onlyGivenNames x1
  exact State.setCrook_on (hm.of rfl) _ _ (State.taken_on (hm.of rfl) _ (State.taken_on (hm.of rfl) _ h))

theorem execDfpGetNonce_on {m : Nat} (hm : Covers 0x100000000006 m) {s0 : State} (a1) (s : State) (h : Onward m s0 s) :
    Onward.O m s0 (execDfpGetNonce a1 s) := by
  unfold execDfpGetNonce
  refine Onward.next ?_
  refine State.dfpSession_on (hm.of rfl) _ _ _ _ _ ?_ ?_
  · exact h
  · intro x1 h2
    split
    rename_i v5 e6
    have h7 : Onward m s0 v5 := Onward.eqP e6 (State.newNonce_on (hm.of rfl) _ h2)
    exact h7

theorem execNonceExpiry_on {m : Nat} (hm : Covers 0x100000000000 m) {s0 : State} (a1) (s : State) (h : Onward m s0 s) :
    Onward.O m s0 (execNonceExpiry a1 s) := by
  unfold execNonceExpiry
  exact State.setCrook_on (hm.of rfl) _ _ h

theorem execDfpRegRead_on {m : Nat} (hm : Covers 0x100000000006 m) {s0 : State} (a1) (a2) (s : State) (h : Onward m s0 s) :
    Onward.O m s0 (execDfpRegRead a1 a2 s) := by
  unfold execDfpRegRead
  refine Onward.next ?_
  refine State.dfpSession_on (hm.of rfl) _ _ _ _ _ ?_ ?_
  · exact h
  · intro x1 h2
    refine ite_ind (P := Onward.T _ _) ?_ ?_
    · exact h2
    · split
      rename_i v5 e6
      have h7 : Onward m s0 v5 := by
        refine Onward.eqP e6 ?_
        refine foldl_ind (P := Onward.P _ _) ?_ _ _ ?_
        · intro x8 x9 h10
          refine Onward.pair ?_
          refine State.taken_on (hm.of rfl) _ ?_
          refine Onward.snd ?_
          exact h10
        · exact h2
      exact h7

theorem execDfpRegWrite_on {m : Nat} (hm : Covers 0x537efffffffe m) {s0 : State} (a1) (a2) (s : State) (h : Onward m s0 s) :
    Onward.O m s0 (execDfpRegWrite a1 a2 s) := by
  unfold execDfpRegWrite
  refine Onward.next ?_
  refine State.dfpSession_on (hm.of rfl) _ _ _ _ _ ?_ ?_
  · exact h
  · intro x1 h2
    refine ite_ind (P := Onward.T _ _) ?_ ?_
    · exact h2
    · split
      rename_i v5 e6
      have h7 : Onward m s0 v5 := by
        refine Onward.eqP e6 ?_
        refine foldl_ind (P := Onward.P _ _) ?_ _ _ ?_
        · intro x8 x9 h10
          split
          rename_i v13 e14
          have h15 : Onward m s0 v13 := by
            refine Onward.eqP e14 ?_
            refine State.writeReg_on (hm.of rfl) _ _ _ _ _ ?_
            refine Onward.snd ?_
            exact h10
          exact h15
        · exact h2
      exact h7

theorem execDfpLogRead_on {m : Nat} (hm : Covers 0x100000000002 m) {s0 : State} (a1) (a2) (a3) (s : State) (h : Onward m s0 s) :
    Onward.O m s0 (execDfpLogRead a1 a2 a3 s) := by
  unfold execDfpLogRead
  refine Onward.next ?_
  refine State.dfpSession_on (hm.of rfl) _ _ _ _ _ ?_ ?_
  · exact h
  · intro x1 h2
    extract_lets +onlyGivenNames x3
    exact h2

theorem execDfpEventSubscribe_on {m : Nat} (hm : Covers 0x100000000002 m) {s0 : State} (a1) (s : State) (h : Onward m s0 s) :
    Onward.O m s0 (execDfpEventSubscribe a1 s) := by
  unfold execDfpEventSubscribe
  refine Onward.next ?_
  refine State.dfpSession_on (hm.of rfl) _ _ _ _ _ ?_ ?_
  · exact h
  · intro x1 h2
    extract_lets +onlyGivenNames x3
    refine ite_ind (P := Onward.T _ _) ?_ ?_
    · exact h2
    · refine ite_ind (P := Onward.T _ _) ?_ ?_
      · exact h2
      · exact State.setCrook_on (hm.of rfl) _ _ h2

theorem execDfpMboxPost_on {m : Nat} (hm : Covers 0x100a0900000a m) {s0 : State} (a1) (a2) (a3) (s : State) (h : Onward m s0 s) :
    Onward.O m s0 (execDfpMboxPost a1 a2 a3 s) := by
  unfold execDfpMboxPost
  refine Onward.next ?_
  refine State.dfpSession_on (hm.of rfl) _ _ _ _ _ ?_ ?_
  · exact h
  · intro x1 h2
    extract_lets +onlyGivenNames x3
    refine ite_ind (P := Onward.T _ _) ?_ ?_
    · exact h2
    · refine ite_ind (P := Onward.T _ _) ?_ ?_
      · exact State.wr_on (hm.of rfl) _ _ _ h2
      · extract_lets +onlyGivenNames x4
        split
        · exact State.mboxOut_on (hm.of rfl) _ _ _ _ _ (State.setMboxRegs_on (hm.of rfl) _ _ _ h2)
        · exact State.postIn_on (hm.of rfl) _ _ _ _ _ h2

theorem execDfpImageWrite_on {m : Nat} (hm : Covers 0x180000000002 m) {s0 : State} (a1) (a2) (a3) (s : State) (h : Onward m s0 s) :
    Onward.O m s0 (execDfpImageWrite a1 a2 a3 s) := by
  unfold execDfpImageWrite
  refine Onward.next ?_
  refine State.dfpSession_on (hm.of rfl) _ _ _ _ _ ?_ ?_
  · exact h
  · intro x1 h2
    extract_lets +onlyGivenNames x3 x4
    exact State.setFlash_on (hm.of rfl) _ _ h2

theorem execDfpAttest_on {m : Nat} (hm : Covers 0x100000000006 m) {s0 : State} (a1) (a2) (s : State) (h : Onward m s0 s) :
    Onward.O m s0 (execDfpAttest a1 a2 s) := by
  unfold execDfpAttest
  refine Onward.next ?_
  refine State.dfpSession_on (hm.of rfl) _ _ _ _ _ ?_ ?_
  · exact h
  · intro x1 h2
    extract_lets +onlyGivenNames x3
    exact State.taken_on (hm.of rfl) _ h2

theorem execDfpConfigCommit_on {m : Nat} (hm : Covers 0x10021152099a m) {s0 : State} (a1) (a2) (a3) (a4) (a5) (s : State) (h : Onward m s0 s) :
    Onward.O m s0 (execDfpConfigCommit a1 a2 a3 a4 a5 s) := by
  unfold execDfpConfigCommit
  refine Onward.next ?_
  refine State.dfpSigned_on (hm.of rfl) _ _ _ _ _ _ ?_ ?_
  · exact h
  · intro x1 h2
    split
    · exact h2
    · extract_lets +onlyGivenNames x9
      refine ite_ind (P := Onward.T _ _) ?_ ?_
      · exact h2
      · refine ite_ind (P := Onward.T _ _) ?_ ?_
        · exact h2
        · extract_lets +onlyGivenNames x10 x11
          have h12 : Onward m s0 x11 := by
            unfold x11
            refine foldl_ind (P := Onward _ _) ?_ _ _ ?_
            · intro x13 x14 h15
              exact State.writeStaged_on (hm.of rfl) _ _ _ _ _ h15
            · exact h2
          clear_value x11
          extract_lets +onlyGivenNames x16
          have h17 : Onward m s0 x16 := by
            unfold x16
            refine ite_ind (P := Onward _ _) ?_ ?_
            · exact h12
            · exact State.setReg_on (hm.of rfl) _ _ _ h12
          clear_value x16
          extract_lets +onlyGivenNames x18
          have h19 : Onward m s0 x18 := by
            unfold x18
            exact State.gateCtl_on (hm.of rfl) _ _ _ _ _ _ _ h17
          clear_value x18
          extract_lets +onlyGivenNames x20
          exact h19

theorem execDfpRecordWrite_on {m : Nat} (hm : Covers 0x1c000140000a m) {s0 : State} (a1) (a2) (a3) (a4) (s : State) (h : Onward m s0 s) :
    Onward.O m s0 (execDfpRecordWrite a1 a2 a3 a4 s) := by
  unfold execDfpRecordWrite
  refine Onward.next ?_
  refine State.dfpSigned_on (hm.of rfl) _ _ _ _ _ _ ?_ ?_
  · exact h
  · intro x1 h2
    extract_lets +onlyGivenNames x3 x4 x5 x6
    refine ite_ind (P := Onward.T _ _) ?_ ?_
    · exact h2
    · refine ite_ind (P := Onward.T _ _) ?_ ?_
      · exact h2
      · refine ite_ind (P := Onward.T _ _) ?_ ?_
        · exact h2
        · refine ite_ind (P := Onward.T _ _) ?_ ?_
          · exact h2
          · refine ite_ind (P := Onward.T _ _) ?_ ?_
            · exact h2
            · refine State.nvCommit_on (hm.of rfl) _ _ _ _ ?_ ?_
              · exact h2
              · intro x7 h8
                extract_lets +onlyGivenNames x9
                have h10 : Onward m s0 x9 := by
                  unfold x9
                  exact State.setFlash_on (hm.of rfl) _ _ h8
                clear_value x9
                refine ite_ind (P := Onward _ _) ?_ ?_
                · exact State.setCounter_on (hm.of rfl) _ _ _ h10
                · exact h10

theorem execDfpImageCommit_on {m : Nat} (hm : Covers 0x1c000140000a m) {s0 : State} (a1) (a2) (a3) (a4) (a5) (s : State) (h : Onward m s0 s) :
    Onward.O m s0 (execDfpImageCommit a1 a2 a3 a4 a5 s) := by
  unfold execDfpImageCommit
  refine Onward.next ?_
  refine State.dfpSigned_on (hm.of rfl) _ _ _ _ _ _ ?_ ?_
  · exact h
  · intro x1 h2
    extract_lets +onlyGivenNames x3 x4 x5 x6 x7
    have h8 : ∀ u9, Onward.T m s0 (x7 u9) := by
      intro x10
      unfold x7
      exact h2
    clear_value x7
    refine ite_ind (P := Onward.T _ _) ?_ ?_
    · refine ite_ind (P := Onward.T _ _) ?_ ?_
      · refine h8 _
      · refine ite_ind (P := Onward.T _ _) ?_ ?_
        · refine h8 _
        · refine State.nvCommit_on (hm.of rfl) _ _ _ _ ?_ ?_
          · exact h2
          · intro x11 h12
            exact State.setFlash_on (hm.of rfl) _ _ h12
    · clear_value x6
      cases x6 with
      | none => exact h8 _
      | some r =>
        refine ite_ind (P := Onward.T _ _) (h8 _) ?_
        refine ite_ind (P := Onward.T _ _) (Onward.triple h2) ?_
        refine ite_ind (P := Onward.T _ _) (Onward.triple h2) ?_
        exact State.nvCommit_on (hm.of rfl) _ _ _ _ h2 fun _ k => State.setCounter_on (hm.of rfl) _ _ _ k

theorem execDfpCounterClear_on {m : Nat} (hm : Covers 0x14000140000a m) {s0 : State} (a1) (a2) (s : State) (h : Onward m s0 s) :
    Onward.O m s0 (execDfpCounterClear a1 a2 s) := by
  unfold execDfpCounterClear
  refine Onward.next ?_
  refine State.dfpSigned_on (hm.of rfl) _ _ _ _ _ _ ?_ ?_
  · exact h
  · intro x1 h2
    refine ite_ind (P := Onward.T _ _) ?_ ?_
    · exact h2
    · refine State.nvCommit_on (hm.of rfl) _ _ _ _ ?_ ?_
      · exact h2
      · intro x3 h4
        exact State.setMram_on (hm.of rfl) _ _ h4 (Nat.le_refl _) (.inl rfl)

theorem execDfpFallowExit_on {m : Nat} (hm : Covers 0x577ffffefffe m) {s0 : State} (a1) (a2) (s : State) (h : Onward m s0 s) :
    Onward.O m s0 (execDfpFallowExit a1 a2 s) := by
  unfold execDfpFallowExit
  refine Onward.next ?_
  refine State.dfpSigned_on (hm.of rfl) _ _ _ _ _ _ ?_ ?_
  · exact h
  · intro x1 h2
    refine ite_ind (P := Onward.T _ _) ?_ ?_
    · exact h2
    · refine ite_ind (P := Onward.T _ _) ?_ ?_
      · exact h2
      · refine State.nvCommit_on (hm.of rfl) _ _ _ _ ?_ ?_
        · exact h2
        · intro x3 h4
          exact State.beginStart_on (hm.of rfl) _ _ (State.setMram_on (hm.of rfl) _ _ h4 (Nat.le_refl _) (.inl rfl))

theorem State.transitTo_on {m : Nat} (hm : Covers 0x1e0f5fcefffe m) {s0 : State} (s : State) (a2) (h : Onward m s0 s) :
    Onward m s0 (State.transitTo s a2) := by
  unfold State.transitTo
  extract_lets +onlyGivenNames x1 x2 x3
  have h4 : Onward m s0 x3 := by
    unfold x3
    exact State.showMram_on (hm.of rfl) _ (State.setMram_on (hm.of rfl) _ _ h (Nat.le_add_right _ _) (.inr (Nat.lt_succ_self _)))
  clear_value x3
  extract_lets +onlyGivenNames x5
  have h6 : Onward m s0 x5 := by
    unfold x5
    exact State.setFlash_on (hm.of rfl) _ _ h4
  clear_value x5
  extract_lets +onlyGivenNames x7
  have h8 : Onward m s0 x7 := by
    unfold x7
    refine ite_ind (P := Onward _ _) ?_ ?_
    · exact Onward.trans h6 (Onward.frame hm rfl rfl rfl rfl rfl rfl (fun w => ⟨w.1, w.2, w.3, w.4, w.5, w.6, w.7, w.8, w.9, w.10, w.11, w.12, w.13, w.14, w.15, w.16, w.17, w.18, w.19, w.20, w.21, w.22, w.23, w.24⟩)
    (fun p e => by cases p <;> first | exact absurd e (by decide) | rfl))
    · exact h4
  clear_value x7
  extract_lets +onlyGivenNames x9
  have h10 : Onward m s0 x9 := by
    unfold x9
    exact State.closeLevel_on (hm.of rfl) _ (State.closeSessions_on (hm.of rfl) _ h8)
  clear_value x9
  extract_lets +onlyGivenNames x11 x12
  have h13 : Onward m s0 x12 := by
    unfold x12
    exact State.setCrook_on (hm.of rfl) _ _ h10
  clear_value x12
  extract_lets +onlyGivenNames x14
  have h15 : Onward m s0 x14 := by
    unfold x14
    refine eachUpTo_ind (P := Onward _ _) _ _ ?_ ?_
    · exact h13
    · intro x16 x17 h18
      exact State.resetPaddock_on (hm.of rfl) _ _ _ h18
  clear_value x14
  exact State.mgmtRestart_on (hm.of rfl) _ _ (Onward.trans h15 (Onward.frame hm rfl rfl rfl rfl rfl rfl (fun w => ⟨by dsimp only; exact Memory.wf_keep _ _ w.1, w.2, w.3, w.4, w.5, w.6, w.7, w.8, w.9, w.10, w.11, w.12, w.13, w.14, w.15, w.16, w.17, w.18, w.19, w.20, w.21, w.22, w.23, w.24⟩)
    (fun p e => by cases p <;> first | exact absurd e (by decide) | rfl)))

theorem execDfpLifecycle_on {m : Nat} (hm : Covers 0x1e0f5fcefffe m) {s0 : State} (a1) (a2) (a3) (a4) (s : State) (h : Onward m s0 s) :
    Onward.O m s0 (execDfpLifecycle a1 a2 a3 a4 s) := by
  unfold execDfpLifecycle
  extract_lets +onlyGivenNames x1 x2 x3
  refine Onward.next ?_
  refine State.dfpSigned_on (hm.of rfl) _ _ _ _ _ _ ?_ ?_
  · exact h
  · intro x4 h5
    extract_lets +onlyGivenNames x6
    refine ite_ind (P := Onward.T _ _) ?_ ?_
    · exact h5
    · refine ite_ind (P := Onward.T _ _) ?_ ?_
      · exact h5
      · refine State.nvCommit_on (hm.of rfl) _ _ _ _ ?_ ?_
        · exact h5
        · intro x7 h8
          exact State.transitTo_on (hm.of rfl) _ _ h8

theorem execZeroiseComplete_on {m : Nat} (hm : Covers 0x16065fcff7ee m) {s0 : State} (s : State) (h : Onward m s0 s) :
    Onward.O m s0 (execZeroiseComplete s) := by
  unfold execZeroiseComplete
  refine ite_ind (P := Onward.O _ _) ?_ ?_
  · exact h
  · extract_lets +onlyGivenNames x1
    have h2 : Onward m s0 x1 := by
      unfold x1
      refine eachUpTo_ind (P := Onward _ _) _ _ ?_ ?_
      · exact State.zeroised_on (hm.of rfl) _ h
      · intro x3 x4 h5
        exact State.openPaddock_on (hm.of rfl) _ _ h5
    clear_value x1
    extract_lets +onlyGivenNames x6
    have h7 : Onward m s0 x6 := by
      unfold x6
      refine ite_ind (P := Onward _ _) ?_ ?_
      · refine eachUpTo_ind (P := Onward _ _) _ _ ?_ ?_
        · exact h2
        · intro x8 x9 h10
          exact State.stackSleeps_on (hm.of rfl) _ _ h10
      · exact h2
    clear_value x6
    exact State.heldAgain_on (hm.of rfl) _ h7

theorem execDfpRestartManagement_on {m : Nat} (hm : Covers 0x100a0140000a m) {s0 : State} (a1) (s : State) (h : Onward m s0 s) :
    Onward.O m s0 (execDfpRestartManagement a1 s) := by
  unfold execDfpRestartManagement
  refine Onward.next ?_
  refine State.dfpSigned_on (hm.of rfl) _ _ _ _ _ _ ?_ ?_
  · exact h
  · intro x1 h2
    exact State.mgmtRestart_on (hm.of rfl) _ _ h2

theorem State.resetAnswer_on {m : Nat} (hm : Covers 0x0 m) {s0 : State} (s : State) (h : Onward m s0 s) :
    Onward.T m s0 (State.resetAnswer s) := by
  unfold State.resetAnswer
  extract_lets +onlyGivenNames x1
  refine ite_ind (P := Onward.T _ _) ?_ ?_
  · exact h
  · refine ite_ind (P := Onward.T _ _) ?_ ?_
    · exact h
    · exact h

theorem execDfpRestartPaddock_on {m : Nat} (hm : Covers 0x537efffefffe m) {s0 : State} (a1) (a2) (s : State) (h : Onward m s0 s) :
    Onward.O m s0 (execDfpRestartPaddock a1 a2 s) := by
  unfold execDfpRestartPaddock
  refine Onward.next ?_
  refine State.dfpSigned_on (hm.of rfl) _ _ _ _ _ _ ?_ ?_
  · exact h
  · intro x1 h2
    exact State.resetAnswer_on (hm.of rfl) _ (State.resetGo_on (hm.of rfl) _ _ _ _ _ h2)

theorem execDfpRestartModule_on {m : Nat} (hm : Covers 0x537efffefffe m) {s0 : State} (a1) (s : State) (h : Onward m s0 s) :
    Onward.O m s0 (execDfpRestartModule a1 s) := by
  unfold execDfpRestartModule
  refine Onward.next ?_
  refine State.dfpSigned_on (hm.of rfl) _ _ _ _ _ _ ?_ ?_
  · exact h
  · intro x1 h2
    exact State.resetAnswer_on (hm.of rfl) _ (State.resetGo_on (hm.of rfl) _ _ _ _ _ h2)

theorem State.takeToken_on {m : Nat} (hm : Covers 0x10000140000a m) {s0 : State} (s : State) (a2) (h : Onward m s0 s) :
    Onward.P m s0 (State.takeToken s a2) := by
  unfold State.takeToken
  extract_lets +onlyGivenNames x1 x2
  have h3 : Onward m s0 x2 := by
    unfold x2
    refine ite_ind (P := Onward _ _) ?_ ?_
    · exact State.useNonce_on (hm.of rfl) _ _ h
    · exact h
  clear_value x2
  refine ite_ind (P := Onward.P _ _) ?_ ?_
  · exact State.record_on (hm.of rfl) _ _ _ _ _ _ h3
  · refine ite_ind (P := Onward.P _ _) ?_ ?_
    · exact State.closeLevel_on (hm.of rfl) _ h3
    · exact State.setLevel_on (hm.of rfl) _ _ _ _ _ h3

theorem execDfpDebugToken_on {m : Nat} (hm : Covers 0x10000140000a m) {s0 : State} (a1) (a2) (s : State) (h : Onward m s0 s) :
    Onward.O m s0 (execDfpDebugToken a1 a2 s) := by
  unfold execDfpDebugToken
  refine ite_ind (P := Onward.O _ _) ?_ ?_
  · exact h
  · split
    · exact State.respond_on (hm.of rfl) _ _ _ _ _ h
    · extract_lets +onlyGivenNames x6
      split
      rename_i v9 e10
      have h11 : Onward m s0 v9 := Onward.eqP e10 (State.takeToken_on (hm.of rfl) _ _ h)
      exact State.respond_on (hm.of rfl) _ _ _ _ _ (State.refusedCmd_on (hm.of rfl) _ _ _ h11)

theorem execTokenExpiry_on {m : Nat} (hm : Covers 0x10000140000a m) {s0 : State} (s : State) (h : Onward m s0 s) :
    Onward.O m s0 (execTokenExpiry s) := by
  unfold execTokenExpiry
  split
  · refine ite_ind (P := Onward.O _ _) ?_ ?_
    · exact State.closeLevel_on (hm.of rfl) _ h
    · exact h
  · exact h

theorem State.tapSelects_on {m : Nat} (hm : Covers 0x100000000000 m) {s0 : State} (s : State) (a2) (h : Onward m s0 s) :
    Onward m s0 (State.tapSelects s a2) := by
  unfold State.tapSelects
  exact State.setCrook_on (hm.of rfl) _ _ h

theorem State.tapDoes_on {m : Nat} (hm : Covers 0x10000140000a m) {s0 : State} (s : State) (a2) (a3) (a4) (h : Onward m s0 s) (ha4 : ∀ y1, Onward m s0 y1 → Onward m s0 (a4 y1)) :
    Onward m s0 (State.tapDoes s a2 a3 a4) := by
  unfold State.tapDoes
  refine ite_ind (P := Onward _ _) ?_ ?_
  · exact h
  · refine ite_ind (P := Onward _ _) ?_ ?_
    · refine ha4 _ ?_
      exact State.tapSelects_on (hm.of rfl) _ _ h
    · exact State.record_on (hm.of rfl) _ _ _ _ _ _ (State.tapSelects_on (hm.of rfl) _ _ h)

theorem execTapIdcode_on {m : Nat} (hm : Covers 0x10000140000a m) {s0 : State} (s : State) (h : Onward m s0 s) :
    Onward.O m s0 (execTapIdcode s) := by
  unfold execTapIdcode
  refine Onward.next ?_
  refine State.tapDoes_on (hm.of rfl) _ _ _ _ ?_ ?_
  · exact h
  · intro x1 h2
    exact State.emit_on (hm.of rfl) _ _ h2

theorem execTapBypass_on {m : Nat} (hm : Covers 0x10000140000a m) {s0 : State} (s : State) (h : Onward m s0 s) :
    Onward.O m s0 (execTapBypass s) := by
  unfold execTapBypass
  refine Onward.next ?_
  refine State.tapDoes_on (hm.of rfl) _ _ _ _ ?_ ?_
  · exact h
  · intro x1 h2
    exact State.emit_on (hm.of rfl) _ _ h2

theorem execTapExtest_on {m : Nat} (hm : Covers 0x10000140000e m) {s0 : State} (s : State) (h : Onward m s0 s) :
    Onward.O m s0 (execTapExtest s) := by
  unfold execTapExtest
  refine Onward.next ?_
  refine State.tapDoes_on (hm.of rfl) _ _ _ _ ?_ ?_
  · exact h
  · intro x1 h2
    exact State.emit_on (hm.of rfl) _ _ (State.taken_on (hm.of rfl) _ h2)

theorem execTapSamplePreload_on {m : Nat} (hm : Covers 0x10000140000e m) {s0 : State} (s : State) (h : Onward m s0 s) :
    Onward.O m s0 (execTapSamplePreload s) := by
  unfold execTapSamplePreload
  refine Onward.next ?_
  refine State.tapDoes_on (hm.of rfl) _ _ _ _ ?_ ?_
  · exact h
  · intro x1 h2
    exact State.emit_on (hm.of rfl) _ _ (State.taken_on (hm.of rfl) _ h2)

theorem execTapDbgNonce_on {m : Nat} (hm : Covers 0x10000140000e m) {s0 : State} (s : State) (h : Onward m s0 s) :
    Onward.O m s0 (execTapDbgNonce s) := by
  unfold execTapDbgNonce
  refine Onward.next ?_
  refine State.tapDoes_on (hm.of rfl) _ _ _ _ ?_ ?_
  · exact h
  · intro x1 h2
    split
    rename_i v5 e6
    have h7 : Onward m s0 v5 := Onward.eqP e6 (State.newNonce_on (hm.of rfl) _ h2)
    exact State.emit_on (hm.of rfl) _ _ h7

theorem execTapDbgToken_on {m : Nat} (hm : Covers 0x10000140000a m) {s0 : State} (a1) (s : State) (h : Onward m s0 s) :
    Onward.O m s0 (execTapDbgToken a1 s) := by
  unfold execTapDbgToken
  refine Onward.next ?_
  refine State.tapDoes_on (hm.of rfl) _ _ _ _ ?_ ?_
  · exact h
  · intro x1 h2
    split
    rename_i v5 e6
    have h7 : Onward m s0 v5 := Onward.eqP e6 (State.takeToken_on (hm.of rfl) _ _ (State.emit_on (hm.of rfl) _ _ h2))
    exact State.setCrook_on (hm.of rfl) _ _ h7

theorem execTapDbgLevel_on {m : Nat} (hm : Covers 0x10000140000a m) {s0 : State} (a1) (s : State) (h : Onward m s0 s) :
    Onward.O m s0 (execTapDbgLevel a1 s) := by
  unfold execTapDbgLevel
  refine Onward.next ?_
  refine State.tapDoes_on (hm.of rfl) _ _ _ _ ?_ ?_
  · exact h
  · intro x1 h2
    refine ite_ind (P := Onward _ _) ?_ ?_
    · exact State.closeLevel_on (hm.of rfl) _ h2
    · exact State.setLevel_on (hm.of rfl) _ _ _ _ _ h2

theorem execTapDtm_on {m : Nat} (hm : Covers 0x10000140000a m) {s0 : State} (s : State) (h : Onward m s0 s) :
    Onward.O m s0 (execTapDtm s) := by
  unfold execTapDtm
  refine Onward.next ?_
  refine State.tapDoes_on (hm.of rfl) _ _ _ _ ?_ ?_
  · exact h
  · intro x1 h2
    exact State.emit_on (hm.of rfl) _ _ h2

theorem execTestLogicReset_on {m : Nat} (hm : Covers 0x100000000000 m) {s0 : State} (s : State) (h : Onward m s0 s) :
    Onward.O m s0 (execTestLogicReset s) := by
  unfold execTestLogicReset
  refine ite_ind (P := Onward.O _ _) ?_ ?_
  · exact h
  · exact State.setCrook_on (hm.of rfl) _ _ h

theorem State.dbgDone_on {m : Nat} (hm : Covers 0x100000000002 m) {s0 : State} (s : State) (a2) (a3) (a4) (h : Onward m s0 s) :
    Onward m s0 (State.dbgDone s a2 a3 a4) := by
  unfold State.dbgDone
  exact State.emit_on (hm.of rfl) _ _ (State.setCrook_on (hm.of rfl) _ _ h)

theorem State.dbgServe_on {m : Nat} (hm : Covers 0x537efffffffe m) {s0 : State} (s : State) (a2) (h : Onward m s0 s) :
    Onward m s0 (State.dbgServe s a2) := by
  unfold State.dbgServe
  split
  · refine ite_ind (P := Onward _ _) ?_ ?_
    · split
      exact State.dbgDone_on (hm.of rfl) _ _ _ _ (State.taken_on (hm.of rfl) _ h)
    · extract_lets +onlyGivenNames x7
      refine ite_ind (P := Onward _ _) ?_ ?_
      · exact State.dbgDone_on (hm.of rfl) _ _ _ _ h
      · refine ite_ind (P := Onward _ _) ?_ ?_
        · exact State.dbgDone_on (hm.of rfl) _ _ _ _ h
        · extract_lets +onlyGivenNames x8 x9
          refine State.dbgDone_on (hm.of rfl) _ _ _ _ ?_
          refine ite_ind (P := Onward _ _) ?_ ?_
          · exact h
          · exact State.touch_on (hm.of rfl) _ _ _ _ _ _ _ h
  · refine ite_ind (P := Onward _ _) ?_ ?_
    · split
      rename_i v15 e16
      have h17 : Onward m s0 v15 := Onward.eqP e16 (State.writeReg_on (hm.of rfl) _ _ _ _ _ h)
      exact State.dbgDone_on (hm.of rfl) _ _ _ _ h17
    · extract_lets +onlyGivenNames x18
      refine ite_ind (P := Onward _ _) ?_ ?_
      · exact State.dbgDone_on (hm.of rfl) _ _ _ _ h
      · exact State.dbgDone_on (hm.of rfl) _ _ _ _ (State.writeBytes_on (hm.of rfl) _ _ _ _ _ _ h)

theorem State.dbgAccess_on {m : Nat} (hm : Covers 0x537efffffffe m) {s0 : State} (s : State) (a2) (h : Onward m s0 s) :
    Onward m s0 (State.dbgAccess s a2) := by
  unfold State.dbgAccess
  extract_lets +onlyGivenNames x1 x2 x3
  refine ite_ind (P := Onward _ _) ?_ ?_
  · exact h
  · refine ite_ind (P := Onward _ _) ?_ ?_
    · exact State.dbgDone_on (hm.of rfl) _ _ _ _ h
    · refine ite_ind (P := Onward _ _) ?_ ?_
      · exact State.dbgDone_on (hm.of rfl) _ _ _ _ h
      · refine ite_ind (P := Onward _ _) ?_ ?_
        · exact State.dbgDone_on (hm.of rfl) _ _ _ _ h
        · refine ite_ind (P := Onward _ _) ?_ ?_
          · exact State.dbgDone_on (hm.of rfl) _ _ _ _ h
          · refine ite_ind (P := Onward _ _) ?_ ?_
            · exact State.dbgDone_on (hm.of rfl) _ _ _ _ h
            · refine ite_ind (P := Onward _ _) ?_ ?_
              · refine ite_ind (P := Onward _ _) ?_ ?_
                · exact State.setCrook_on (hm.of rfl) _ _ h
                · exact State.dbgDone_on (hm.of rfl) _ _ _ _ h
              · exact State.dbgServe_on (hm.of rfl) _ _ h

theorem execTapAccessRead_on {m : Nat} (hm : Covers 0x537efffffffe m) {s0 : State} (a1) (s : State) (h : Onward m s0 s) :
    Onward.O m s0 (execTapAccessRead a1 s) := by
  unfold execTapAccessRead
  refine Onward.next ?_
  refine State.tapDoes_on (hm.of rfl) _ _ _ _ ?_ ?_
  · exact h
  · intro x1 h2
    exact State.dbgAccess_on (hm.of rfl) _ _ h2

theorem execTapAccessWrite_on {m : Nat} (hm : Covers 0x537efffffffe m) {s0 : State} (a1) (a2) (s : State) (h : Onward m s0 s) :
    Onward.O m s0 (execTapAccessWrite a1 a2 s) := by
  unfold execTapAccessWrite
  refine Onward.next ?_
  refine State.tapDoes_on (hm.of rfl) _ _ _ _ ?_ ?_
  · exact h
  · intro x1 h2
    exact State.dbgAccess_on (hm.of rfl) _ _ h2

theorem execDebugRaise_on {m : Nat} (hm : Covers 0x537efffffffe m) {s0 : State} (a1) (s : State) (h : Onward m s0 s) :
    Onward.O m s0 (execDebugRaise a1 s) := by
  unfold execDebugRaise
  split
  · exact h
  · extract_lets +onlyGivenNames x6
    have h7 : ∀ u8, Onward m s0 u8 → Onward m s0 (x6 u8) := by
      intro x9 h10
      unfold x6
      exact State.setCrook_on (hm.of rfl) _ _ h10
    clear_value x6
    extract_lets +onlyGivenNames x13
    have h14 : Onward m s0 x13 := State.dbgDone_on (hm.of rfl) _ _ _ _ (h7 _ h)
    clear_value x13
    refine ite_ind (P := Onward.O _ _) ?_ ?_
    · refine Onward.next ?_
      refine State.dbgServe_on (hm.of rfl) _ _ ?_
      refine h7 _ ?_
      exact h
    · split
      · exact h14
      refine ite_ind (P := Onward.O _ _) ?_ ?_
      · exact h14
      · extract_lets +onlyGivenNames x11
        have h12 : Onward m s0 x11 := by
          unfold x11
          refine ite_ind (P := Onward _ _) ?_ ?_
          · exact State.leaveP3_on (hm.of rfl) _ _ h
          · exact h
        clear_value x11
        refine ite_ind (P := Onward.O _ _) ?_ ?_
        · exact h12
        · refine Onward.next ?_
          refine State.dbgServe_on (hm.of rfl) _ _ ?_
          refine State.wr_on (hm.of rfl) _ _ _ ?_
          refine State.changePower_on (hm.of rfl) _ _ _ _ ?_
          refine h7 _ ?_
          exact h12

theorem execBadOp_on {m : Nat} (hm : Covers 0x537efffffffe m) {s0 : State} (a1) (a2) (a3) (s : State) (h : Onward m s0 s) :
    Onward.O m s0 (execBadOp a1 a2 a3 s) := by
  unfold execBadOp
  refine ite_ind (P := Onward.O _ _) ?_ ?_
  · refine Onward.next ?_
    refine State.tapDoes_on (hm.of rfl) _ _ _ _ ?_ ?_
    · exact h
    · intro x1 h2
      exact State.dbgDone_on (hm.of rfl) _ _ _ _ h2
  · refine ite_ind (P := Onward.O _ _) ?_ ?_
    · exact h
    · split
      rename_i v5 e6
      have h7 : Onward m s0 v5 := Onward.eqP e6 (State.writeReg_on (hm.of rfl) _ _ _ _ _ h)
      exact State.emit_on (hm.of rfl) _ _ h7

theorem State.traceAdd_on {m : Nat} (hm : Covers 0x40000000000c m) {s0 : State} (s : State) (a2) (h : Onward m s0 s) :
    Onward m s0 (State.traceAdd s a2) := by
  unfold State.traceAdd
  extract_lets +onlyGivenNames x1 x2 x3
  refine ite_ind (P := Onward _ _) ?_ ?_
  · exact State.sat_on (hm.of rfl) _ _ _ h
  · extract_lets +onlyGivenNames x4
    refine State.inc_on (hm.of rfl) _ _ _ ?_
    extract_lets +onlyGivenNames x5
    have h6 : Onward m s0 x5 := by
      unfold x5
      exact State.taken_on (hm.of rfl) _ h
    clear_value x5
    exact Onward.trans h6 (Onward.frame hm rfl rfl rfl rfl rfl rfl (fun w => ⟨w.1, w.2, w.3, w.4, w.5, w.6, w.7, w.8, w.9, w.10, w.11, w.12, w.13, w.14, w.15, w.16, w.17, w.18, w.19, w.20, w.21, w.22, w.23, w.24⟩)
    (fun p e => by cases p <;> first | exact absurd e (by decide) | rfl))

theorem execTraceRecord_on {m : Nat} (hm : Covers 0x40000000000c m) {s0 : State} (a1) (a2) (s : State) (h : Onward m s0 s) :
    Onward.O m s0 (execTraceRecord a1 a2 s) := by
  unfold execTraceRecord
  refine ite_ind (P := Onward.O _ _) ?_ ?_
  · exact State.traceAdd_on (hm.of rfl) _ _ h
  · exact h

theorem execTraceSample_on {m : Nat} (hm : Covers 0x50000000000c m) {s0 : State} (s : State) (h : Onward m s0 s) :
    Onward.O m s0 (execTraceSample s) := by
  unfold execTraceSample
  extract_lets +onlyGivenNames x1 x2
  refine ite_ind (P := Onward.O _ _) ?_ ?_
  · exact h
  · extract_lets +onlyGivenNames x3 x4
    have h5 : Onward m s0 x4 := by
      unfold x4
      exact State.setCrook_on (hm.of rfl) _ _ h
    clear_value x4
    extract_lets +onlyGivenNames x6
    have h7 : Onward m s0 x6 := by
      unfold x6
      refine eachUpTo_ind (P := Onward _ _) _ _ ?_ ?_
      · exact h5
      · intro x8 x9 h10
        refine ite_ind (P := Onward _ _) ?_ ?_
        · refine foldl_ind (P := Onward _ _) ?_ _ _ ?_
          · intro x11 x12 h13
            exact State.traceAdd_on (hm.of rfl) _ _ h13
          · exact h10
        · exact h10
    clear_value x6
    refine Onward.next ?_
    refine eachUpTo_ind (P := Onward _ _) _ _ ?_ ?_
    · exact h7
    · intro x14 x15 h16
      refine ite_ind (P := Onward _ _) ?_ ?_
      · refine foldl_ind (P := Onward _ _) ?_ _ _ ?_
        · intro x17 x18 h19
          exact State.traceAdd_on (hm.of rfl) _ _ h19
        · exact h16
      · exact h16

theorem execTapTrace_on {m : Nat} (hm : Covers 0x10000140000a m) {s0 : State} (s : State) (h : Onward m s0 s) :
    Onward.O m s0 (execTapTrace s) := by
  unfold execTapTrace
  refine Onward.next ?_
  refine State.tapDoes_on (hm.of rfl) _ _ _ _ ?_ ?_
  · exact h
  · intro x1 h2
    refine ite_ind (P := Onward _ _) ?_ ?_
    · exact State.dbgDone_on (hm.of rfl) _ _ _ _ h2
    · refine ite_ind (P := Onward _ _) ?_ ?_
      · exact State.dbgDone_on (hm.of rfl) _ _ _ _ h2
      · exact State.emit_on (hm.of rfl) _ _ h2

theorem State.setPorts_on {m : Nat} (hm : Covers 0x200000000000 m) {s0 : State} (s : State) (a2) (h : Onward m s0 s) :
    Onward m s0 (State.setPorts s a2) := by
  unfold State.setPorts
  exact Onward.trans h (Onward.frame hm rfl rfl rfl rfl rfl rfl (fun w => ⟨w.1, w.2, w.3, w.4, w.5, w.6, w.7, w.8, w.9, w.10, w.11, w.12, w.13, w.14, w.15, w.16, w.17, w.18, w.19, w.20, w.21, w.22, w.23, w.24⟩)
    (fun p e => by cases p <;> first | exact absurd e (by decide) | rfl))

theorem execIcmpv6Echo_on {m : Nat} (hm : Covers 0x2 m) {s0 : State} (a1) (a2) (a3) (s : State) (h : Onward m s0 s) :
    Onward.O m s0 (execIcmpv6Echo a1 a2 a3 s) := by
  unfold execIcmpv6Echo
  refine ite_ind (P := Onward.O _ _) ?_ ?_
  · exact State.emit_on (hm.of rfl) _ _ h
  · exact h

theorem execNeighborDiscovery_on {m : Nat} (hm : Covers 0x200000000002 m) {s0 : State} (a1) (a2) (s : State) (h : Onward m s0 s) :
    Onward.O m s0 (execNeighborDiscovery a1 a2 s) := by
  unfold execNeighborDiscovery
  extract_lets +onlyGivenNames x1
  refine ite_ind (P := Onward.O _ _) ?_ ?_
  · exact h
  · split
    · refine ite_ind (P := Onward.O _ _) ?_ ?_
      · exact State.emit_on (hm.of rfl) _ _ h
      · exact h
    · refine ite_ind (P := Onward.O _ _) ?_ ?_
      · exact h
      · extract_lets +onlyGivenNames x6
        exact State.emit_on (hm.of rfl) _ _ (State.setPorts_on (hm.of rfl) _ _ h)

theorem execDatagramDiscard_on {m : Nat} (hm : Covers 0x200000000002 m) {s0 : State} (a1) (a2) (s : State) (h : Onward m s0 s) :
    Onward.O m s0 (execDatagramDiscard a1 a2 s) := by
  unfold execDatagramDiscard
  extract_lets +onlyGivenNames x1 x2 x3
  have h4 : Onward m s0 x3 := by
    unfold x3
    exact State.setPorts_on (hm.of rfl) _ _ h
  clear_value x3
  refine ite_ind (P := Onward.O _ _) ?_ ?_
  · exact h
  · split
    · exact h4
    · exact h4
    · exact h4
    · extract_lets +onlyGivenNames x11
      exact State.emit_on (hm.of rfl) _ _ h

theorem execAutoNegotiation_on {m : Nat} (hm : Covers 0x200000000002 m) {s0 : State} (a1) (a2) (s : State) (h : Onward m s0 s) :
    Onward.O m s0 (execAutoNegotiation a1 a2 s) := by
  unfold execAutoNegotiation
  extract_lets +onlyGivenNames x1 x2
  refine ite_ind (P := Onward.O _ _) ?_ ?_
  · exact h
  · refine ite_ind (P := Onward.O _ _) ?_ ?_
    · refine ite_ind (P := Onward.O _ _) ?_ ?_
      · exact h
      · exact State.emit_on (hm.of rfl) _ _ (State.setPorts_on (hm.of rfl) _ _ h)
    · extract_lets +onlyGivenNames x3 x4 x5 x6
      exact State.setPorts_on (hm.of rfl) _ _ h

theorem State.memOp_on {m : Nat} (hm : Covers 0x20943f02a m) {s0 : State} (s : State) (a2) (a3) (a4) (h : Onward m s0 s) :
    Onward m s0 (State.memOp s a2 a3 a4) := by
  unfold State.memOp
  refine State.issue_on (hm.of rfl) _ _ _ _ _ ?_ ?_
  · exact h
  · intro x1 h2
    exact State.beginMem_on (hm.of rfl) _ _ _ (State.advance_on (hm.of rfl) _ _ _ _ h2)

theorem State.descOp_on {m : Nat} (hm : Covers 0x20943f02a m) {s0 : State} (s : State) (a2) (a3) (a4) (h : Onward m s0 s) :
    Onward m s0 (State.descOp s a2 a3 a4) := by
  unfold State.descOp
  refine State.issue_on (hm.of rfl) _ _ _ _ _ ?_ ?_
  · exact h
  · intro x1 h2
    exact State.beginDesc_on (hm.of rfl) _ _ _ (State.advance_on (hm.of rfl) _ _ _ _ h2)

theorem execKLd_on {m : Nat} (hm : Covers 0x20943f02a m) {s0 : State} (a1) (a2) (s : State) (h : Onward m s0 s) :
    Onward.O m s0 (execKLd a1 a2 s) := by
  unfold execKLd
  exact State.memOp_on (hm.of rfl) _ _ _ _ h

theorem execKSt_on {m : Nat} (hm : Covers 0x20943f02a m) {s0 : State} (a1) (a2) (s : State) (h : Onward m s0 s) :
    Onward.O m s0 (execKSt a1 a2 s) := by
  unfold execKSt
  exact State.memOp_on (hm.of rfl) _ _ _ _ h

theorem execKDld_on {m : Nat} (hm : Covers 0x20943f02a m) {s0 : State} (a1) (a2) (s : State) (h : Onward m s0 s) :
    Onward.O m s0 (execKDld a1 a2 s) := by
  unfold execKDld
  exact State.descOp_on (hm.of rfl) _ _ _ _ h

theorem execKDst_on {m : Nat} (hm : Covers 0x20943f02a m) {s0 : State} (a1) (a2) (s : State) (h : Onward m s0 s) :
    Onward.O m s0 (execKDst a1 a2 s) := by
  unfold execKDst
  exact State.descOp_on (hm.of rfl) _ _ _ _ h

theorem execKAadd_on {m : Nat} (hm : Covers 0x20943f02a m) {s0 : State} (a1) (a2) (s : State) (h : Onward m s0 s) :
    Onward.O m s0 (execKAadd a1 a2 s) := by
  unfold execKAadd
  exact State.memOp_on (hm.of rfl) _ _ _ _ h

theorem execKAmin_on {m : Nat} (hm : Covers 0x20943f02a m) {s0 : State} (a1) (a2) (s : State) (h : Onward m s0 s) :
    Onward.O m s0 (execKAmin a1 a2 s) := by
  unfold execKAmin
  exact State.memOp_on (hm.of rfl) _ _ _ _ h

theorem execKAmax_on {m : Nat} (hm : Covers 0x20943f02a m) {s0 : State} (a1) (a2) (s : State) (h : Onward m s0 s) :
    Onward.O m s0 (execKAmax a1 a2 s) := by
  unfold execKAmax
  exact State.memOp_on (hm.of rfl) _ _ _ _ h

theorem execKAxch_on {m : Nat} (hm : Covers 0x20943f02a m) {s0 : State} (a1) (a2) (s : State) (h : Onward m s0 s) :
    Onward.O m s0 (execKAxch a1 a2 s) := by
  unfold execKAxch
  exact State.memOp_on (hm.of rfl) _ _ _ _ h

theorem execKAcas_on {m : Nat} (hm : Covers 0x20943f02a m) {s0 : State} (a1) (a2) (s : State) (h : Onward m s0 s) :
    Onward.O m s0 (execKAcas a1 a2 s) := by
  unfold execKAcas
  exact State.memOp_on (hm.of rfl) _ _ _ _ h

theorem execKAacc_on {m : Nat} (hm : Covers 0x20943f02a m) {s0 : State} (a1) (a2) (s : State) (h : Onward m s0 s) :
    Onward.O m s0 (execKAacc a1 a2 s) := by
  unfold execKAacc
  exact State.memOp_on (hm.of rfl) _ _ _ _ h

theorem execKSettle_on {m : Nat} (hm : Covers 0x20943f02a m) {s0 : State} (a1) (a2) (s : State) (h : Onward m s0 s) :
    Onward.O m s0 (execKSettle a1 a2 s) := by
  unfold execKSettle
  exact State.memOp_on (hm.of rfl) _ _ _ _ h

theorem execKFrange_on {m : Nat} (hm : Covers 0x20943f02a m) {s0 : State} (a1) (a2) (s : State) (h : Onward m s0 s) :
    Onward.O m s0 (execKFrange a1 a2 s) := by
  unfold execKFrange
  exact State.memOp_on (hm.of rfl) _ _ _ _ h

theorem execKTtouch_on {m : Nat} (hm : Covers 0x20943f02a m) {s0 : State} (a1) (a2) (s : State) (h : Onward m s0 s) :
    Onward.O m s0 (execKTtouch a1 a2 s) := by
  unfold execKTtouch
  exact State.memOp_on (hm.of rfl) _ _ _ _ h

theorem State.scalar_on {m : Nat} (hm : Covers 0x140600a m) {s0 : State} (s : State) (a2) (a3) (a4) (a5) (a6) (h : Onward m s0 s) :
    Onward m s0 (State.scalar s a2 a3 a4 a5 a6) := by
  unfold State.scalar
  refine State.issue_on (hm.of rfl) _ _ _ _ _ ?_ ?_
  · exact h
  · intro x1 h2
    extract_lets +onlyGivenNames x3
    exact State.retire_on (hm.of rfl) _ _ _ _ _ h2

theorem State.alu_on {m : Nat} (hm : Covers 0x140600a m) {s0 : State} (s : State) (a2) (a3) (a4) (a5) (h : Onward m s0 s) :
    Onward m s0 (State.alu s a2 a3 a4 a5) := by
  unfold State.alu
  exact State.scalar_on (hm.of rfl) _ _ _ _ _ _ h

theorem execKAdd_on {m : Nat} (hm : Covers 0x140600a m) {s0 : State} (a1) (a2) (s : State) (h : Onward m s0 s) :
    Onward.O m s0 (execKAdd a1 a2 s) := by
  unfold execKAdd
  exact State.alu_on (hm.of rfl) _ _ _ _ _ h

theorem execKSub_on {m : Nat} (hm : Covers 0x140600a m) {s0 : State} (a1) (a2) (s : State) (h : Onward m s0 s) :
    Onward.O m s0 (execKSub a1 a2 s) := by
  unfold execKSub
  exact State.alu_on (hm.of rfl) _ _ _ _ _ h

theorem execKMul_on {m : Nat} (hm : Covers 0x140600a m) {s0 : State} (a1) (a2) (s : State) (h : Onward m s0 s) :
    Onward.O m s0 (execKMul a1 a2 s) := by
  unfold execKMul
  exact State.alu_on (hm.of rfl) _ _ _ _ _ h

theorem execKAnd_on {m : Nat} (hm : Covers 0x140600a m) {s0 : State} (a1) (a2) (s : State) (h : Onward m s0 s) :
    Onward.O m s0 (execKAnd a1 a2 s) := by
  unfold execKAnd
  exact State.alu_on (hm.of rfl) _ _ _ _ _ h

theorem execKOr_on {m : Nat} (hm : Covers 0x140600a m) {s0 : State} (a1) (a2) (s : State) (h : Onward m s0 s) :
    Onward.O m s0 (execKOr a1 a2 s) := by
  unfold execKOr
  exact State.alu_on (hm.of rfl) _ _ _ _ _ h

theorem execKXor_on {m : Nat} (hm : Covers 0x140600a m) {s0 : State} (a1) (a2) (s : State) (h : Onward m s0 s) :
    Onward.O m s0 (execKXor a1 a2 s) := by
  unfold execKXor
  exact State.alu_on (hm.of rfl) _ _ _ _ _ h

theorem execKShl_on {m : Nat} (hm : Covers 0x140600a m) {s0 : State} (a1) (a2) (s : State) (h : Onward m s0 s) :
    Onward.O m s0 (execKShl a1 a2 s) := by
  unfold execKShl
  exact State.alu_on (hm.of rfl) _ _ _ _ _ h

theorem execKShr_on {m : Nat} (hm : Covers 0x140600a m) {s0 : State} (a1) (a2) (s : State) (h : Onward m s0 s) :
    Onward.O m s0 (execKShr a1 a2 s) := by
  unfold execKShr
  exact State.alu_on (hm.of rfl) _ _ _ _ _ h

theorem execKSra_on {m : Nat} (hm : Covers 0x140600a m) {s0 : State} (a1) (a2) (s : State) (h : Onward m s0 s) :
    Onward.O m s0 (execKSra a1 a2 s) := by
  unfold execKSra
  exact State.alu_on (hm.of rfl) _ _ _ _ _ h

theorem execKMin_on {m : Nat} (hm : Covers 0x140600a m) {s0 : State} (a1) (a2) (s : State) (h : Onward m s0 s) :
    Onward.O m s0 (execKMin a1 a2 s) := by
  unfold execKMin
  exact State.alu_on (hm.of rfl) _ _ _ _ _ h

theorem execKMax_on {m : Nat} (hm : Covers 0x140600a m) {s0 : State} (a1) (a2) (s : State) (h : Onward m s0 s) :
    Onward.O m s0 (execKMax a1 a2 s) := by
  unfold execKMax
  exact State.alu_on (hm.of rfl) _ _ _ _ _ h

theorem execKMinu_on {m : Nat} (hm : Covers 0x140600a m) {s0 : State} (a1) (a2) (s : State) (h : Onward m s0 s) :
    Onward.O m s0 (execKMinu a1 a2 s) := by
  unfold execKMinu
  exact State.alu_on (hm.of rfl) _ _ _ _ _ h

theorem execKMaxu_on {m : Nat} (hm : Covers 0x140600a m) {s0 : State} (a1) (a2) (s : State) (h : Onward m s0 s) :
    Onward.O m s0 (execKMaxu a1 a2 s) := by
  unfold execKMaxu
  exact State.alu_on (hm.of rfl) _ _ _ _ _ h

theorem execKCmp_on {m : Nat} (hm : Covers 0x140600a m) {s0 : State} (a1) (a2) (s : State) (h : Onward m s0 s) :
    Onward.O m s0 (execKCmp a1 a2 s) := by
  unfold execKCmp
  exact State.scalar_on (hm.of rfl) _ _ _ _ _ _ h

theorem execKLi_on {m : Nat} (hm : Covers 0x140600a m) {s0 : State} (a1) (a2) (a3) (s : State) (h : Onward m s0 s) :
    Onward.O m s0 (execKLi a1 a2 a3 s) := by
  unfold execKLi
  exact State.scalar_on (hm.of rfl) _ _ _ _ _ _ h

theorem execKBell_on {m : Nat} (hm : Covers 0x140600a m) {s0 : State} (a1) (a2) (s : State) (h : Onward m s0 s) :
    Onward.O m s0 (execKBell a1 a2 s) := by
  unfold execKBell
  exact State.scalar_on (hm.of rfl) _ _ _ _ _ _ h

theorem execKSelf_on {m : Nat} (hm : Covers 0x140600a m) {s0 : State} (a1) (a2) (s : State) (h : Onward m s0 s) :
    Onward.O m s0 (execKSelf a1 a2 s) := by
  unfold execKSelf
  exact State.scalar_on (hm.of rfl) _ _ _ _ _ _ h

theorem execKFailrd_on {m : Nat} (hm : Covers 0x140600a m) {s0 : State} (a1) (a2) (s : State) (h : Onward m s0 s) :
    Onward.O m s0 (execKFailrd a1 a2 s) := by
  unfold execKFailrd
  refine Onward.next ?_
  refine State.issue_on (hm.of rfl) _ _ _ _ _ ?_ ?_
  · exact h
  · intro x1 h2
    extract_lets +onlyGivenNames x3
    exact State.retire_on (hm.of rfl) _ _ _ _ _ h2

theorem execKNop_on {m : Nat} (hm : Covers 0x140600a m) {s0 : State} (a1) (a2) (s : State) (h : Onward m s0 s) :
    Onward.O m s0 (execKNop a1 a2 s) := by
  unfold execKNop
  refine Onward.next ?_
  refine State.issue_on (hm.of rfl) _ _ _ _ _ ?_ ?_
  · exact h
  · intro x1 h2
    exact State.advance_on (hm.of rfl) _ _ _ _ h2

theorem execKEnd_on {m : Nat} (hm : Covers 0x140600a m) {s0 : State} (a1) (a2) (s : State) (h : Onward m s0 s) :
    Onward.O m s0 (execKEnd a1 a2 s) := by
  unfold execKEnd
  refine Onward.next ?_
  refine State.issue_on (hm.of rfl) _ _ _ _ _ ?_ ?_
  · exact h
  · intro x1 h2
    exact State.setStrand_on (hm.of rfl) _ _ _ _ h2

theorem execKBr_on {m : Nat} (hm : Covers 0x140600a m) {s0 : State} (a1) (a2) (s : State) (h : Onward m s0 s) :
    Onward.O m s0 (execKBr a1 a2 s) := by
  unfold execKBr
  refine Onward.next ?_
  refine State.issue_on (hm.of rfl) _ _ _ _ _ ?_ ?_
  · exact h
  · intro x1 h2
    extract_lets +onlyGivenNames x3
    refine ite_ind (P := Onward _ _) ?_ ?_
    · exact State.branch_on (hm.of rfl) _ _ _ _ _ h2
    · exact State.advance_on (hm.of rfl) _ _ _ _ h2

theorem execKLoop_on {m : Nat} (hm : Covers 0x140600a m) {s0 : State} (a1) (a2) (s : State) (h : Onward m s0 s) :
    Onward.O m s0 (execKLoop a1 a2 s) := by
  unfold execKLoop
  refine Onward.next ?_
  refine State.issue_on (hm.of rfl) _ _ _ _ _ ?_ ?_
  · exact h
  · intro x1 h2
    extract_lets +onlyGivenNames x3 x4
    refine ite_ind (P := Onward _ _) ?_ ?_
    · exact State.branch_on (hm.of rfl) _ _ _ _ _ h2
    · exact State.retire_on (hm.of rfl) _ _ _ _ _ h2

theorem execKJr_on {m : Nat} (hm : Covers 0x140600a m) {s0 : State} (a1) (a2) (s : State) (h : Onward m s0 s) :
    Onward.O m s0 (execKJr a1 a2 s) := by
  unfold execKJr
  refine Onward.next ?_
  refine State.issue_on (hm.of rfl) _ _ _ _ _ ?_ ?_
  · exact h
  · intro x1 h2
    extract_lets +onlyGivenNames x3
    exact State.branch_on (hm.of rfl) _ _ _ _ _ h2

theorem execIllegalInstruction_on {m : Nat} (hm : Covers 0x140600a m) {s0 : State} (a1) (a2) (s : State) (h : Onward m s0 s) :
    Onward.O m s0 (execIllegalInstruction a1 a2 s) := by
  unfold execIllegalInstruction
  extract_lets +onlyGivenNames x1 x2
  split
  · exact h
  · refine ite_ind (P := Onward.O _ _) ?_ ?_
    · exact h
    · exact State.strandFault_on (hm.of rfl) _ _ _ _ _ (State.passTurn_on (hm.of rfl) _ _ _ h)

theorem State.dfld_on {m : Nat} (hm : Covers 0x140600a m) {s0 : State} (s : State) (a2) (a3) (a4) (a5) (h : Onward m s0 s) :
    Onward m s0 (State.dfld s a2 a3 a4 a5) := by
  unfold State.dfld
  refine State.issue_on (hm.of rfl) _ _ _ _ _ ?_ ?_
  · exact h
  · intro x1 h2
    exact State.retire_on (hm.of rfl) _ _ _ _ _ h2

theorem execKDset_on {m : Nat} (hm : Covers 0x140600a m) {s0 : State} (a1) (a2) (s : State) (h : Onward m s0 s) :
    Onward.O m s0 (execKDset a1 a2 s) := by
  unfold execKDset
  exact State.dfld_on (hm.of rfl) _ _ _ _ _ h

theorem execKDget_on {m : Nat} (hm : Covers 0x140600a m) {s0 : State} (a1) (a2) (s : State) (h : Onward m s0 s) :
    Onward.O m s0 (execKDget a1 a2 s) := by
  unfold execKDget
  exact State.dfld_on (hm.of rfl) _ _ _ _ _ h

theorem execKDadd_on {m : Nat} (hm : Covers 0x140600a m) {s0 : State} (a1) (a2) (s : State) (h : Onward m s0 s) :
    Onward.O m s0 (execKDadd a1 a2 s) := by
  unfold execKDadd
  exact State.dfld_on (hm.of rfl) _ _ _ _ _ h

theorem execKWaitc_on {m : Nat} (hm : Covers 0x140600a m) {s0 : State} (a1) (a2) (s : State) (h : Onward m s0 s) :
    Onward.O m s0 (execKWaitc a1 a2 s) := by
  unfold execKWaitc
  refine Onward.next ?_
  refine State.issue_on (hm.of rfl) _ _ _ _ _ ?_ ?_
  · exact h
  · intro x1 h2
    extract_lets +onlyGivenNames x3
    exact State.beginWait_on (hm.of rfl) _ _ _ _ h2

theorem State.fence_on {m : Nat} (hm : Covers 0x140600a m) {s0 : State} (s : State) (a2) (a3) (a4) (h : Onward m s0 s) :
    Onward m s0 (State.fence s a2 a3 a4) := by
  unfold State.fence
  refine State.issue_on (hm.of rfl) _ _ _ _ _ ?_ ?_
  · exact h
  · intro x1 h2
    exact State.beginWait_on (hm.of rfl) _ _ _ _ h2

theorem execKFenceLocal_on {m : Nat} (hm : Covers 0x140600a m) {s0 : State} (a1) (a2) (s : State) (h : Onward m s0 s) :
    Onward.O m s0 (execKFenceLocal a1 a2 s) := by
  unfold execKFenceLocal
  exact State.fence_on (hm.of rfl) _ _ _ _ h

theorem execKFenceFold_on {m : Nat} (hm : Covers 0x140600a m) {s0 : State} (a1) (a2) (s : State) (h : Onward m s0 s) :
    Onward.O m s0 (execKFenceFold a1 a2 s) := by
  unfold execKFenceFold
  exact State.fence_on (hm.of rfl) _ _ _ _ h

theorem execKFenceGlobal_on {m : Nat} (hm : Covers 0x140600a m) {s0 : State} (a1) (a2) (s : State) (h : Onward m s0 s) :
    Onward.O m s0 (execKFenceGlobal a1 a2 s) := by
  unfold execKFenceGlobal
  exact State.fence_on (hm.of rfl) _ _ _ _ h

theorem execKWaitbell_on {m : Nat} (hm : Covers 0x140600a m) {s0 : State} (a1) (a2) (s : State) (h : Onward m s0 s) :
    Onward.O m s0 (execKWaitbell a1 a2 s) := by
  unfold execKWaitbell
  refine Onward.next ?_
  refine State.issue_on (hm.of rfl) _ _ _ _ _ ?_ ?_
  · exact h
  · intro x1 h2
    exact State.beginWait_on (hm.of rfl) _ _ _ _ h2

theorem execStrandEnd_on {m : Nat} (hm : Covers 0x1cc27ea m) {s0 : State} (a1) (a2) (s : State) (h : Onward m s0 s) :
    Onward.O m s0 (execStrandEnd a1 a2 s) := by
  unfold execStrandEnd
  extract_lets +onlyGivenNames x1 x2 x3
  refine ite_ind (P := Onward.O _ _) ?_ ?_
  · exact h
  · refine ite_ind (P := Onward.O _ _) ?_ ?_
    · exact State.setStrand_on (hm.of rfl) _ _ _ _ h
    · split
      · exact h
      · exact State.setStrand_on (hm.of rfl) _ _ _ _ h
      · exact State.setStrand_on (hm.of rfl) _ _ _ _ (State.writeBytes_on (hm.of rfl) _ _ _ _ _ _ h)

theorem State.storeFetched_on {m : Nat} (hm : Covers 0x4000 m) {s0 : State} (s : State) (a2) (a3) (a4) (h : Onward m s0 s) :
    Onward m s0 (State.storeFetched s a2 a3 a4) := by
  unfold State.storeFetched
  extract_lets +onlyGivenNames x1
  exact State.setDrv_on (hm.of rfl) _ _ _ h

theorem execFetchLine_on {m : Nat} (hm : Covers 0x1cc67ea m) {s0 : State} (a1) (a2) (s : State) (h : Onward m s0 s) :
    Onward.O m s0 (execFetchLine a1 a2 s) := by
  unfold execFetchLine
  extract_lets +onlyGivenNames x1 x2 x3
  refine ite_ind (P := Onward.O _ _) ?_ ?_
  · exact h
  · split
    · exact h
    · refine ite_ind (P := Onward.O _ _) ?_ ?_
      · exact State.strandFault_on (hm.of rfl) _ _ _ _ _ h
      · split
        · exact h
        · exact State.strandFault_on (hm.of rfl) _ _ _ _ _ h
        · extract_lets +onlyGivenNames x16
          have h17 : Onward m s0 x16 := by
            unfold x16
            exact State.touch_on (hm.of rfl) _ _ _ _ _ _ _ h
          clear_value x16
          refine ite_ind (P := Onward.O _ _) ?_ ?_
          · exact State.strandFault_on (hm.of rfl) _ _ _ _ _ h17
          · exact State.storeFetched_on (hm.of rfl) _ _ _ _ h17

end Sys2Proof.Machine
end

