-- ==== Sys2Proof/Laws/Record.lean ====
section
/-! SUPPORT. Laws/Record.lean: what the recording of an event leaves of the registers, and fields bit by bit. -/
namespace Sys2Proof.Machine

/-- Registers that no record touches: those below the recorder's and those above the error units'. -/
def quiet (a : Nat) : Prop := a < 0x30000001000 ∨ 0x30000007000 ≤ a

theorem State.reg_irq (s : State) (n a : Nat) : (s.irq n).reg a = s.reg a := rfl

theorem eachUpTo_lt {σ : Type} {P : σ → Prop} (n : Nat) (f : σ → Nat → σ) (s : σ) (h : P s) (hf : ∀ t i, i < n → P t → P (f t i)) :
    P (eachUpTo n f s) := by
  unfold eachUpTo
  have : ∀ (l : List Nat) (t : σ), (∀ i ∈ l, i < n) → P t → P (l.foldl f t) := by
    intro l
    induction l with
    | nil => exact fun t _ h => h
    | cons a l ih => exact fun t hl h => ih _ (fun i hi => hl i (List.mem_cons_of_mem _ hi)) (hf t a (hl a List.mem_cons_self) h)
  exact this _ _ (fun i hi => List.mem_range.mp hi) h

theorem State.enterService_reg (s : State) (u : Nat) (r : Rec) (a : Nat) (hu : u ≤ 3) (h : quiet a) : (s.enterService u r).reg a = s.reg a := by
  unfold State.enterService
  simp only
  rw [State.reg_irq, State.reg_wr_ne _ (Fd.errStatusSvcSev u), State.reg_wr_ne _ (Fd.errStatusInService u)]
  · refine eachUpTo_lt (P := fun t : State => t.reg a = s.reg a) 4 _ _ rfl ?_
    intro t i hi ht
    rw [State.reg_wr_ne, ht]
    simp only [Fd.errSvc]
    rcases h with h | h <;> omega
  · simp only [Fd.errStatusInService]
    rcases h with h | h <;> omega
  · simp only [Fd.errStatusSvcSev]
    rcases h with h | h <;> omega

theorem State.enqueue_reg (s : State) (u : Nat) (r : Rec) (a : Nat) (hu : u ≤ 3) (h : quiet a) : (s.enqueue u r).reg a = s.reg a := by
  unfold State.enqueue
  simp only
  split
  · rfl
  · refine (State.reg_wr_ne _ _ _ _ ?_).trans rfl
    simp only [Fd.errStatusLost]
    rcases h with h | h <;> omega

theorem State.notifyRec_reg (s : State) (u : Nat) (r : Rec) (a : Nat) (hu : u ≤ 3) (h : quiet a) : (s.notifyRec u r).reg a = s.reg a := by
  unfold State.notifyRec
  have : ∀ (l : List (Nat × Nat)) (y : State), (l.foldl (fun t p => t.emit (.dfpEvent p.1 p.2 r.bytes)) y).reg a = y.reg a := by
    intro l
    induction l with
    | nil => intro y; rfl
    | cons b l ih => intro y; rw [List.foldl_cons, ih]; rfl
  simp only
  split
  · rw [State.enterService_reg _ _ _ _ hu h, this]
  · split
    · rw [State.enterService_reg _ _ _ _ hu h, State.enqueue_reg _ _ _ _ hu h, this]
    · rw [State.enqueue_reg _ _ _ _ hu h, this]

theorem State.createRec_reg (s : State) (src code sev p0 p1 p2 : Nat) (fw : Bool) (a : Nat) (h : quiet a) :
    (s.createRec src code sev p0 p1 p2 fw).reg a = s.reg a := by
  have hu : (s.formRec src code sev p0 p1 p2 fw).unit ≤ 3 := by
    show unitOfSrc src ≤ 3
    unfold unitOfSrc euAux
    split <;> omega
  have h1 : ∀ (y : State) (f : Fld) (v : Nat), quiet a → f.addr = 0x30000001020 ∨ f.addr = 0x30000001030 → (y.wr f v).reg a = y.reg a := by
    intro y f v ha hf
    refine State.reg_wr_ne _ _ _ _ ?_
    rcases ha with ha | ha <;> rcases hf with hf | hf <;> rw [hf] <;> omega
  unfold State.createRec
  simp only
  split
  · rw [State.notifyRec_reg _ _ _ _ hu h]
    exact h1 _ _ _ h (.inl rfl)
  · split
    · rw [State.notifyRec_reg _ _ _ _ hu h]
      exact (h1 _ _ _ h (.inr rfl)).trans (h1 _ _ _ h (.inl rfl))
    · exact h1 _ _ _ h (.inr rfl)

/-- The recording of an event changes the recorder's and the error units' registers alone. -/
theorem State.record_reg (s : State) (src code p0 p1 p2 : Nat) (a : Nat) (h : quiet a) :
    (s.record src code p0 p1 p2).reg a = s.reg a := by
  unfold State.record State.recordSev
  simp only
  split
  · rfl
  · split
    · rfl
    · split
      · exact State.createRec_reg _ _ _ _ _ _ _ _ _ h
      · split
        · exact State.createRec_reg _ _ _ _ _ _ _ _ _ h
        · split
          · rfl
          · exact State.createRec_reg _ _ _ _ _ _ _ _ _ h

theorem State.record_rd (s : State) (src code p0 p1 p2 : Nat) (f : Fld) (h : quiet f.addr) :
    (s.record src code p0 p1 p2).rd f = s.rd f := by
  unfold State.rd
  rw [State.record_reg _ _ _ _ _ _ _ h]

/-- A field reads alike in states whose registers are the same. -/
theorem State.rd_of_regs {s t : State} (h : t.regs = s.regs) (f : Fld) : t.rd f = s.rd f := by
  unfold State.rd State.reg
  rw [h]

theorem rd_lt (s : State) (f : Fld) : s.rd f < 2 ^ (f.hi + 1 - f.lo) := by
  unfold State.rd bits
  exact BitVec.isLt _

/-- Bit n of a field after it was set or cleared. -/
theorem State.rdBit_wrBit (s : State) (f : Fld) (n : Nat) (b : Bool) (hf : f.hi < 64) (hn : n < f.hi + 1 - f.lo) :
    (s.wrBit f n b).rdBit f n = b := by
  unfold State.rdBit State.wrBit
  rw [State.rd_wr_same _ _ _ hf, Nat.testBit_mod_two_pow]
  simp only [hn, decide_true, Bool.true_and]
  cases b with
  | true => simp [Nat.testBit_or, Nat.testBit_two_pow_self]
  | false =>
    simp only [Bool.false_eq_true, if_false]
    by_cases h : (s.rd f).testBit n
    · simp only [h, if_true]
      have e : s.rd f = (s.rd f - 2 ^ n) + 2 ^ n := (Nat.sub_add_cancel (Nat.ge_two_pow_of_testBit h)).symm
      have e2 := Nat.testBit_two_pow_add_eq (s.rd f - 2 ^ n) n
      rw [Nat.add_comm, ← e, h] at e2
      simpa using e2.symm
    · simp [h]

end Sys2Proof.Machine
end

