-- ==== Sys2Proof/Tests/Slice0.lean ====
section
/-! SUPPORT. Tests/Slice0.lean: small tests. The first part refuses an ill-formed term for each check of WellFormed. The second
shows, for each statement with hypotheses, concrete states and operands that meet them, clause by clause. The third checks
single steps against values that the specification works out or tabulates. -/
namespace Sys2Proof.Tests
open Sys2Proof Sys2Proof.Machine
set_option Elab.async false

/-! ### States of the tests -/

/-- The reset state with fields of registers written. -/
def withFields (l : List (Fld × Nat)) (s : State := {}) : State := l.foldl (fun t e => t.wr e.1 e.2) s

/-- The reset state with strand 0 of Drover 0 running. -/
def running (x : Strand) : State := { strands := [(0, { x with phase := 1 })] }

/-- Strand 0 of Drover 0 issues, without a predicate. -/
def iss : Issue := ⟨0, 0, false, 0⟩

/-- The instruction that a command issues stands at strand 0's address, with its second word, in Drover 0's store. -/
def stands (c : Instr) (s : State) : State :=
  match issueOf c with
  | some (w, i, ext) =>
    let pc := (s.strand 0 0).pc.toNat
    let line := zeros (pc % 128) ++ toBytes 8 (i.word w.pn w.pg).toNat ++ toBytes 8 ext.toNat ++ zeros 128
    s.setDrv 0 { s.drv 0 with store := (pc / 128, line.take 128) :: (s.drv 0).store }
  | none => s

/-- Whether a strand offers the instruction a command issues, and whether that instruction executes. -/
def offersB (s : State) (c : Instr) : Bool :=
  match issueOf c with
  | some (w, i, ext) => decide (s.fetched w.drover w.strand = some (i.word w.pn w.pg, ext)) && s.ready w.drover w.strand &&
      s.myTurn w.drover w.strand
  | none => false
def executesB (s : State) (c : Instr) : Bool :=
  match issueOf c with
  | some (w, i, ext) => offersB s c && !keisIllegal (i.word w.pn w.pg) ext && (s.strand w.drover w.strand).pred w.pn w.pg
  | none => false

theorem offered_of {s : State} {c : Instr} (h : offersB s c = true) : s.offered c := by
  unfold offersB at h
  unfold State.offered State.offers
  revert h
  obtain _ | ⟨w, i, ext⟩ := issueOf c
  · intro h
    cases h
  · intro h
    simp only [Bool.and_eq_true, decide_eq_true_eq] at h
    exact ⟨h.1.1, h.1.2, h.2⟩

theorem executes_of {s : State} {c : Instr} (h : executesB s c = true) : s.executes c := by
  have o : s.offered c := offered_of (by
    unfold executesB at h
    revert h
    obtain _ | ⟨w, i, ext⟩ := issueOf c
    · intro h
      cases h
    · intro h
      simp only [Bool.and_eq_true] at h
      exact h.1.1)
  unfold executesB at h
  unfold State.executes State.issues
  unfold State.offered at o
  revert h o
  obtain _ | ⟨w, i, ext⟩ := issueOf c
  · intro h
    cases h
  · intro h o
    simp only [Bool.and_eq_true, Bool.not_eq_true'] at h
    exact ⟨o, h.1.2, h.2⟩

theorem executes_all {l : List Instr} {f : Instr → State} (h : l.all (fun c => executesB (f c) c) = true) :
    ∀ c ∈ l, (f c).executes c := fun c m => executes_of (List.all_eq_true.mp h c m)

theorem offered_all {l : List Instr} {f : Instr → State} (h : l.all (fun c => offersB (f c) c) = true) :
    ∀ c ∈ l, (f c).offered c := fun c m => offered_of (List.all_eq_true.mp h c m)

/-! ### WellFormed refuses -/

def aFlit : Flit := ⟨1, 1, false, true, 0, false, 0, 0, 0, 0, 0, 0, 224, zeros 224⟩
def aSite : SiteCmd := ⟨0, 0, 1, 0, 0, false, 0, 0, 0, 0, zeros 32⟩
def aReq : RemReq := ⟨0, 1, 0, 0, 0, false, false, false, 100, 0, 0, 0, 0, 0, 0, zeros 64, 0⟩
def aHdr : DfpHdr := ⟨0, 1, 1, 1, true, 0, none, 0, 0⟩
def aMem : MemOps := ⟨1, 2, 0, 0, true, 0, 3, 0⟩
def aXfer : XferOps := ⟨1, true, 0, 2, 0, 0⟩
def aSection : RecordSection := ⟨2, true, 0, default⟩

theorem test_flit_well_formed : (Instr.dataFlit 0 0 aFlit true).wf = true := by decide +kernel
theorem test_flit_short_payload : (Instr.dataFlit 0 0 { aFlit with payload := zeros 223 } true).wf = false := by decide +kernel
theorem test_flit_valid_bytes_225 : (Instr.dataFlit 0 0 { aFlit with bytes := 225 } true).wf = false := by decide +kernel
theorem test_flit_idle_type : (Instr.dataFlit 0 0 { aFlit with kind := 3 } true).wf = false := by decide +kernel
theorem test_site_part_sector : (Instr.siteWrite { aSite with data := zeros 33 }).wf = false := by decide +kernel
theorem test_site_nine_sectors : (Instr.siteWrite { aSite with data := zeros 288 }).wf = false := by decide +kernel
theorem test_site_no_packet : (Instr.siteRead { aSite with packets := 0 }).wf = false := by decide +kernel
theorem test_request_over_chunk : (Instr.inboundPut { aReq with data := zeros 4097 }).wf = false := by decide +kernel
theorem test_bank_read_two_lines : (Instr.bankRequest ⟨127, .read 2, false, false, .bulk, 0, []⟩).wf = false := by decide +kernel
theorem test_bank_read_nothing : (Instr.bankRequest ⟨0, .read 0, false, false, .bulk, 0, []⟩).wf = false := by decide +kernel
theorem test_bank_write_two_lines : (Instr.bankRequest ⟨64, .write (zeros 65), false, false, .bulk, 0, []⟩).wf = false := by decide +kernel
theorem test_bank_write_nothing : (Instr.bankRequest ⟨0, .write [], false, false, .bulk, 0, []⟩).wf = false := by decide +kernel
theorem test_link_control_seven_credits : (Instr.linkControl 0 0 ⟨true, false, false, false, 0, zeros 7⟩).wf = false := by
  decide +kernel
theorem test_pair_transfer_word_of_load : (Instr.kAt iss ⟨0, 0, 0, 0⟩ (.xfer .ld 0 aXfer)).wf = false := by decide +kernel
theorem test_pair_memory_word_of_move : (Instr.kAt iss ⟨0, 0, 0, 0⟩ (.mem .move 0 aMem)).wf = false := by decide +kernel
theorem test_record_key_slot_16 : (Instr.dfpRecordWrite aHdr false
    { aSection with content := { (default : ModuleRecord) with keys := [(16, ⟨.owner, true⟩)] } } 0).wf = false := by decide +kernel
theorem test_laser_seven_drops : (Instr.laserPoll 0 ⟨[0, 0, 0, 0, 0, 0, 0], 0, 0, 0, false⟩).wf = false := by decide +kernel
theorem test_get_reply_over_chunk : (Instr.getReply 0 0 0 (zeros 4097) 0).wf = false := by decide +kernel
theorem test_migration_piece_over_chunk : (Instr.migrationPiece 0 (zeros 4097) 0).wf = false := by decide +kernel
theorem test_site_data_part_sector : (Instr.swData 0 0 1 0 0 (zeros 1) 0).wf = false := by decide +kernel
theorem test_site_data_nine_sectors : (Instr.swData 0 0 1 0 0 (zeros 288) 0).wf = false := by decide +kernel
theorem test_site_data_no_packet : (Instr.swData 0 0 0 0 0 (zeros 32) 0).wf = false := by decide +kernel
theorem test_commit_76_pairs : (Instr.dfpConfigCommit aHdr 0 (List.replicate 76 (0, 0)) false 0).wf = false := by decide +kernel
theorem test_reg_read_145 : (Instr.dfpRegRead aHdr (List.replicate 145 0)).wf = false := by decide +kernel
theorem test_reg_write_73 : (Instr.dfpRegWrite aHdr (List.replicate 73 (0, 0))).wf = false := by decide +kernel
theorem test_zone_without_sensor : (Instr.zoneSample 0 [] none).wf = false := by decide +kernel

/-! ### Hypotheses met: instructions of strands -/

/-- A state from which every transfer and access of Drover 0 translates: page 0 of context 0 lies at local address 0. -/
def mapped (x : Strand) : State :=
  { withFields [(Fd.xlatCtxEn 0, 1)] (running x) with
    xl := { l1 := [(0, [⟨0, 0, 1, 0xB000000000000000, true⟩])] } }

/-- Pen 0 with 16 scratchpad slots. -/
def pad (s : State) : State := withFields [(Fd.foldWaycfgScratch 0, 16), (Fd.foldWaystatScratchActive 0, 16)] s

/-- The same page with an accumulator region of format 9. -/
def mappedAcc (x : Strand) : State :=
  { withFields [(Fd.xlatCtxEn 0, 1)] (running x) with
    xl := { l1 := [(0, [⟨0, 0, 1, 0xB900000000000000, true⟩])] } }

/-- An operation in flight of strand 0 of Drover 0. -/
def anOp (c : OpCode) (p : OpPhase) : Op := { id := 7, drover := 0, strand := 0, logical := 0, code := c, word := 0, phase := p }

/-- A descriptor with its control word and the fields P0 to P5, other fields 0. -/
def aDesc (kind sfmt dfmt dims p0 p1 p2 p3 p4 p5 : Nat) : Desc :=
  BitVec.ofNat 512 ((kind * 2 ^ 60 + sfmt * 2 ^ 55 + dfmt * 2 ^ 50 + dims * 2 ^ 35) * 2 ^ 128 + p0 * 2 ^ 256 + p1 * 2 ^ 288 + p2 * 2 ^ 320 +
    p3 * 2 ^ 352 + p4 * 2 ^ 384 + p5 * 2 ^ 448)

def anAlu : AluOps := ⟨31, 1, .reg 2, 0⟩
def aSync : SyncOps := ⟨0, 0, 0, 0⟩

/-- Each arithmetic instruction stands at the strand's address, legal, with its predicate true; and with an immediate. -/
theorem test_met_ArithmeticResults : (∀ c ∈ [Instr.kAdd iss anAlu, .kSub iss anAlu, .kMul iss anAlu, .kAnd iss anAlu, .kOr iss anAlu,
    .kXor iss anAlu, .kShl iss anAlu, .kShr iss anAlu, .kSra iss anAlu, .kMin iss anAlu, .kMax iss anAlu, .kMinu iss anAlu,
    .kMaxu iss anAlu], (stands c (running {})).executes c) ∧
    ∀ c ∈ [Instr.kAdd iss ⟨0, 31, .imm 0x80000000, 0⟩], (stands c (running {})).executes c :=
  ⟨executes_all (by decide +kernel), executes_all (by decide +kernel)⟩

/-- Equal, less and not less, at the first and last code of Table 4.5, and a code past it. -/
theorem test_met_ConditionsCompare :
    condTrue (0 : BitVec 4).toNat 0 0 ∧ ¬condTrue (1 : BitVec 4).toNat 0 0 ∧ condTrue (6 : BitVec 4).toNat 0 0 ∧
    (∀ c ∈ [Instr.kCmp iss ⟨1, 2, .imm 0, 0⟩, .kCmp iss ⟨1, 0, .imm 0, 6⟩, .kCmp iss ⟨1, 2, .imm 0, 7⟩, .kBr iss ⟨1, 2, 0, 1⟩,
      .kBr iss ⟨1, 0, 6, 0⟩, .kBr iss ⟨1, 2, 15, 0⟩], (stands c (running {})).offered c) ∧
    ((0 : BitVec 4).toNat ≤ 6 ∧ (6 : BitVec 4).toNat ≤ 6 ∧ ¬((7 : BitVec 4).toNat ≤ 6)) ∧ ((0 : BitVec 5) = 0 ∧ srcIsZero (.imm 0) = true) ∧
    targetOk (0x7FFFFFFFF8 : Word) = true ∧ targetOk (0x8000000000 : Word) = false := by
  refine ⟨?_, ?_, ?_, offered_all (by decide +kernel), by decide, by decide, by decide, by decide⟩
  · show (0 : Word) = 0; rfl
  · show ¬((0 : Word) ≠ 0); decide
  · show True; trivial

theorem test_met_RegisterAndControlResults : ∀ c ∈ [Instr.kLi iss 31 5, .kBell iss { aSync with ga := 31 }, .kSelf iss { aSync with ga := 1 },
    .kFailrd iss { aSync with ga := 1 }, .kNop iss aSync, .kEnd iss aSync], (stands c (running {})).executes c :=
  executes_all (by decide +kernel)

/-- The loop's count falls to 0, or does not; its target is the last word of the stacks, or past them. -/
theorem test_met_LoopsAndJumps :
    let s := running { g := [(1, 1), (2, 0x10000000000), (3, 2)], pc := 0x7FFFFFFFE0 }
    (∀ c ∈ [Instr.kLoop iss ⟨1, 0, 0, 3⟩, .kLoop iss ⟨3, 0, 0, 3⟩, .kJr iss ⟨1, 2, 0, 0⟩, .kJr iss ⟨0, 1, 0, 0⟩], (stands c s).executes c) ∧
    (s.strand 0 0).rg 1 - 1 = 0 ∧ (s.strand 0 0).rg 3 - 1 ≠ 0 ∧
    targetOk ((s.strand 0 0).pc.setWidth 64 + 8 * sext (3 : BitVec 32)) = true ∧
    targetOk ((s.strand 0 0).pc.setWidth 64 + 8 * sext (4 : BitVec 32)) = false ∧
    targetOk ((s.strand 0 0).rg 2) = true ∧ targetOk ((s.strand 0 0).rg 1) = false :=
  ⟨executes_all (by decide +kernel), by decide +kernel⟩

theorem test_met_DescriptorFieldInstructions :
    (56 : BitVec 6).toNat % 2 ^ (3 : BitVec 2).toNat = 0 ∧ ¬((57 : BitVec 6).toNat % 2 ^ (3 : BitVec 2).toNat = 0) ∧
    (∀ c ∈ [Instr.kDset iss ⟨15, 56, 3, 31⟩, .kDget iss ⟨15, 56, 3, 31⟩, .kDadd iss ⟨15, 56, 3, 31⟩, .kDset iss ⟨15, 57, 3, 31⟩],
      (stands c (running {})).offered c) ∧ ((running {}).strand 0 0).pred iss.pn iss.pg = true :=
  ⟨by decide, by decide, offered_all (by decide +kernel), by decide +kernel⟩

/-- A counter at its value, and one below; a fence with nothing to wait for, and one with a load; each lock state. -/
theorem test_met_WaitInstructions :
    let s := running { c := [(0, 5)], g := [(1, 5), (2, 6)] }
    let busy : State := { s with ops := [anOp .ld .ready] }
    (∀ c ∈ [Instr.kWaitc iss { aSync with ga := 1 }, .kWaitc iss { aSync with ga := 2 }, .kWaitbell iss { aSync with ga := 1 },
      .kFenceLocal iss aSync, .kFenceFold iss aSync, .kFenceGlobal iss aSync], (stands c s).executes c ∧ (stands c busy).executes c) ∧
    (((s.strand 0 0).rc 0) - ((s.strand 0 0).rg 1).setWidth 32).toInt ≥ 0 ∧
    (((s.strand 0 0).rc 0) - ((s.strand 0 0).rg 2).setWidth 32).toInt < 0 ∧
    (∀ n ∈ [0, 1, 2], (∀ op ∈ s.opsOf 0 0, op.fences n = false) ∧ ¬∀ op ∈ busy.opsOf 0 0, op.fences n = false) ∧
    (withFields [(Fd.bellStatusState, 3)] s).bellState = bsUnlocked ∧ s.bellState ≠ bsUnlocked ∧
    (0 : Word).toNat ≤ s.bellCount.toNat ∧ s.bellCount.toNat < ((s.strand 0 0).rg 1).toNat :=
  ⟨fun c h => ⟨executes_all (f := fun c => stands c (running { c := [(0, 5)], g := [(1, 5), (2, 6)] })) (by decide +kernel) c h,
    executes_all (f := fun c => stands c { running { c := [(0, 5)], g := [(1, 5), (2, 6)] } with ops := [anOp .ld .ready] })
      (by decide +kernel) c h⟩, by decide +kernel⟩

/-- Strands that end: with no end record, and with one in the scratchpad. -/
theorem test_met_StrandsFetchAndEnd_ends :
    let s : State := { strands := [(0, { phase := 3 }), (1, { phase := 3, start := { notify := 0x10000000000 } })] }
    (s.strand 0 0).phase = phEnding ∧ s.opsOf 0 0 = [] ∧ (s.strand 0 0).notify = 0 ∧ (s.strand 0 1).phase = phEnding ∧
    s.opsOf 0 1 = [] ∧ (s.strand 0 1).notify ≠ 0 ∧
    (pad s).servedSpan 0 (s.strand 0 1).notify 16 .write = .ok ∧
    (withFields [(Fd.foldWaystatScratchActive 0, 0)] (pad s)).servedSpan 0 (s.strand 0 1).notify 16 .write = .waits := by decide +kernel

/-- A line of the scratchpad is served; one with a poisoned word reads bad; a line of a slot still converting waits; one of an
isolated half fails; an address off the words, and one of no memory. -/
theorem test_met_StrandsFetchAndEnd_fetches :
    let s := pad (running { pc := 0x10000000000 })
    (s.strand 0 0).canIssue = true ∧ s.storeWord 0 (s.strand 0 0).pc.toNat = none ∧ s.needsLine 0 0 = some 0x10000000000 ∧
    isLocalMem 0x10000000000 = true ∧ s.servedSpan 0 0x10000000000 128 = .ok ∧
    s.anyBad 0x10000000000 128 = false ∧ ({ s with foldPoison := [0x10000000000 / 8] } : State).anyBad 0x10000000000 128 = true ∧
    (withFields [(Fd.foldWaystatScratchActive 0, 0)] s).servedSpan 0 0x10000000000 128 = .waits ∧
    (withFields [(Fd.seamStatusIsolated, 1)] s).servedSpan 1 0x10000000000 128 = .fails stPoison ∧
    ((running { pc := 4 }).strand 0 0).pc.toNat % 8 ≠ 0 ∧ isLocalMem 0x8000000000 = false := by decide +kernel

theorem test_met_RegisterFile : (31 : Nat) ≠ 0 ∧ (1 : Nat) ≠ 31 := by decide

theorem test_met_MemoryOperationsIssue :
    let s := mapped { g := [(2, 64)] }
    let m : MemOps := ⟨1, 2, 0, 0, true, 0, 3, 0⟩
    (∀ c ∈ [Instr.kLd iss m, .kSt iss { m with ga := 0, gv := 1 }, .kAadd iss m, .kAmin iss m, .kAmax iss m, .kAxch iss m, .kAcas iss m,
      .kAacc iss { m with ga := 0, gv := 1, sub := 9 }, .kTtouch iss { m with sub := 0 },
      .kDld iss { aXfer with gx := 2 }, .kDst iss { aXfer with gx := 2 }], (stands c s).executes c) ∧
    s.lookup 0 64 .read = .hit 64 0xB000000000000000 1 ∧ s.lookup 0 64 .write = .hit 64 0xB000000000000000 1 ∧
    s.lookup 0 64 .update = .hit 64 0xB000000000000000 1 ∧ isSiteWin 64 = false ∧ ((s.strand 0 0).rg 2).toNat % 64 = 0 :=
  ⟨executes_all (by decide +kernel), by decide +kernel⟩

/-- One legal descriptor for each transfer: 32-bit elements, one chunk, no cursor. -/
def legal : List (OpCode × Nat × Instr × Desc) := [
  (.move, 0, .kMove iss aXfer, aDesc 1 2 2 1 1 1 0 0 0 0), (.gather, 0, .kGather iss aXfer, aDesc 2 2 2 0 1 1 0 0 0 0),
  (.scatter, 0, .kScatter iss aXfer, aDesc 3 2 2 0 1 1 0 0 0 0), (.graze, 0, .kGraze iss aXfer, aDesc 4 2 2 0 8 1 32 32 0 0),
  (.compact, 0, .kCompact iss aXfer, aDesc 5 2 2 0 1 0 0 0 0 0), (.isect, 0, .kIsect iss aXfer, aDesc 6 2 2 0 1 1 0 0 0 8),
  (.union, 0, .kUnion iss aXfer, aDesc 6 2 2 0 1 1 0 0 0 8), (.merge, 0, .kMerge iss aXfer, aDesc 6 2 2 0 1 1 0 0 0 8),
  (.segred, 0, .kSegredSum iss aXfer, aDesc 7 2 2 0 1 1 4 4 0 0), (.segred, 1, .kSegredMin iss aXfer, aDesc 7 2 2 0 1 1 4 4 0 0),
  (.segred, 2, .kSegredMax iss aXfer, aDesc 7 2 2 0 1 1 4 4 0 0), (.segred, 3, .kSegredMean iss aXfer, aDesc 7 9 9 0 1 1 4 4 0 0),
  (.ebag, 0, .kEbag iss aXfer, aDesc 8 9 9 0 1 1 4 0 0 0), (.hist, 0, .kHist iss aXfer, aDesc 9 2 3 0 1 1 0 0 0 0),
  (.topk, 0, .kTopkLargest iss aXfer, aDesc 10 2 2 0 1 1 0 0 0 0), (.topk, 1, .kTopkSmallest iss aXfer, aDesc 10 2 2 0 1 1 0 0 0 0)]

/-- Every transfer issues with its legal descriptor, and is refused with one of no kind; the selection store is free. -/
theorem test_met_TransfersIssue : legal.all (fun e =>
    let s := running { d := [(1, e.2.2.2)] }
    executesB (stands e.2.2.1 s) e.2.2.1 && decide (checkDesc e.1 e.2.1 1 e.2.2.2 0 = stOk ∧ dCursor e.2.2.2 = 0 ∧
      checkDesc e.1 e.2.1 1 0 0 ≠ stOk ∧ (s.drv 0).selHold = none)) = true := by decide +kernel

/-- A cursor that translates to local memory. -/
theorem test_met_TransfersIssue_cursor : (mapped {}).lookup 0 64 .write = .hit 64 0xB000000000000000 1 ∧ isLocalMem 64 = true ∧
    isSiteWin 64 = false ∧ isRegSpace 64 = false := by decide +kernel

/-- A range of a page's last line, for `FRANGE`, and in an accumulator region, for `SETTLE`. -/
theorem test_met_RangeCommandsIssue :
    let s := mapped { g := [(2, 0xFF80), (3, 128)] }
    let t := mappedAcc { g := [(2, 0xFF80), (3, 128)] }
    let o : MemOps := ⟨1, 2, 3, 0, true, 15, 6, 0⟩
    (stands (.kFrange iss o) s).executes (.kFrange iss o) ∧
    (stands (.kSettle iss { o with sub := 0 }) t).executes (.kSettle iss { o with sub := 0 }) ∧
    s.lookup 0 0xFF80 .write = .hit 0xFF80 0xB000000000000000 1 ∧
    t.lookup 0 0xFF80 (accOf .settle 0) = .hit 0xFF80 0xB900000000000000 1 ∧ leafAcc 0xB900000000000000 ≠ 0 ∧ isStack 0xFF80 = true ∧
    0xFF80 % 65536 + 128 ≤ 65536 * sizePages 1 ∧ s.flag (Fd.dramStackStatusStripeOn 0) = false ∧
    s.flag Fd.seamStatusIsolated = false ∧ (s.rangeQ 0).length < 64 :=
  ⟨executes_of (by decide +kernel), executes_of (by decide +kernel), by decide +kernel⟩

/-- A pair for the nearest and the farthest Bell, one Bell nearer, one farther, one past, and without a locked count. -/
theorem test_met_AtPairs :
    let s := running { g := [(1, 2), (2, 1048576), (3, 1), (4, 1048577), (5, 0xFFFFFFFFFFFFFFFF)] }
    let pair : PairOp := .mem .ld 0 aMem
    let lead (n : Nat) := ((s.strand 0 0).rg n - s.bellCount).toInt
    (∀ c ∈ (List.range 5).map fun n => Instr.kAt iss { aSync with ga := BitVec.ofNat 5 (n + 1) } pair, (stands c s).executes c) ∧
    (withFields [(Fd.bellStatusState, 3)] s).bellState = bsUnlocked ∧ s.bellState ≠ bsUnlocked ∧
    2 ≤ lead 1 ∧ lead 1 ≤ 1048576 ∧ 2 ≤ lead 2 ∧ lead 2 ≤ 1048576 ∧ lead 3 < 2 ∧ 1048576 < lead 4 ∧ lead 5 < 2 :=
  ⟨executes_all (by decide +kernel), by decide +kernel⟩

/-- An instruction not in the store; an illegal one; one whose predicate is false; one that waits on a register that an operation
holds, and on its predicate; two strands of different priority, and of equal. -/
theorem test_met_InstructionsIssue :
    let c := Instr.kAdd iss anAlu
    let z := Instr.kAdd { iss with pn := true, pg := 3 } anAlu
    let held (n : Nat) : State := { running {} with ops := [{ anOp .ld .ready with hold := [n] }] }
    let two (a b : Nat) : State := { strands := [(0, { phase := 1, prio := a }), (1, { phase := 1, prio := b })] }
    offersB (running {}) c = false ∧ offersB (stands (.kAdd iss { anAlu with cond := 1 }) (running {})) (.kAdd iss { anAlu with cond := 1 }) = true ∧
    keisIllegal ((KInstr.alu .add { anAlu with cond := 1 }).word false 0) 0 = true ∧ offersB (stands z (running {})) z = true ∧
    ((running {}).strand 0 0).pred true 3 = true ∧ ((running { g := [(3, 1)] }).strand 0 0).pred true 3 = false ∧
    (stands c (held 2)).busyG 0 0 2 = true ∧ 2 ∈ ((stands c (held 2)).uses 0 0 (.alu .add anAlu) (pairOfWord 0)).g ∧
    (stands z (held 3)).busyG 0 0 3 = true ∧ (stands c (running {})).ready 0 0 = true ∧ (stands c (running {})).myTurn 0 0 = true ∧
    (stands c (two 0 0)).ready 0 1 = true ∧ (stands c (two 1 0)).myTurn 0 0 = true ∧ (stands c (two 1 0)).ready 0 1 = true ∧
    keisIllegal 0 0 = true := by decide +kernel

/-- Words that the specification writes out: `ADD` of an immediate under a predicate, the worked example of section 4; `AT` of
g9 and 16; `MOVE` of d2 with c3 and g10; `AACC` of FP32. Each keeps the places of Table 4.2 and its opcode of Table 4.3. -/
theorem test_words :
    keisDecode 0x0811CA5000000040 = some (.alu .add ⟨5, 5, .imm 0x40, 0⟩) ∧ predOf 0x0811CA5000000040 = (false, 7) ∧
    keisDecode 0x7450120000000010 = some (.sync .at_ ⟨9, 0, 0, 0x10⟩) ∧
    keisDecode 0x30300A6A00000000 = some (.xfer .move ⟨2, true, 3, 10, 0, 0⟩) ∧
    keisDecode 0x5540005302490000 = some (.mem .aacc ⟨0, 5, 6, 0, true, 2, 9, 0⟩) ∧ keisDecode 0x0801CA5000000040 = none ∧
     keisDecode 0 = none := by decide +kernel

/-- Formed instructions of each format, and pairs (Table 4.2). -/
theorem test_met_InstructionWords :
    ([.jr ⟨31, 31, 0, 0⟩, .alu .cmp anAlu, .alu .add ⟨0, 1, .imm 0xFFFFFFFF, 0⟩, .br ⟨31, 31, 15, 1⟩, .loop ⟨31, 0, 0, 1⟩, .xfer .topk aXfer,
      .mem .ttouch aMem, .sync .at_ ⟨31, 15, 3, 1⟩, .li 31, .dfld .dadd ⟨15, 63, 3, 31⟩] : List KInstr).all (·.formed) = true ∧
    pairBad (.xfer .move 0 aXfer) = false ∧ pairBad (.mem .ld 0 aMem) = false ∧ keisDecode 0x0801CA5000000040 = none ∧
    (keisDecode 0x0811CA5000000040).isSome = true := by decide +kernel

/-- An operation served with and without success; a `SIGNAL`; a transfer at its end; an access of each kind that is ready on a
scratchpad address. -/
theorem test_met_OperationsComplete :
    let at_ (c : OpCode) : Op := { anOp c .ready with pa := 0x10000000000, sub := 3 }
    let s (o : Op) : State := pad { running {} with ops := [o] }
    (∀ c ∈ [OpCode.ld, .st, .dld, .dst, .aadd, .amin, .amax, .axch, .acas],
      (s (at_ c)).op? 7 = some (at_ c) ∧ isScratch ((at_ c).pa + (at_ c).width - 1) = true ∧
      (s (at_ c)).servedSpan 0 (at_ c).pa (at_ c).width = .ok ∧ (s (at_ c)).anyBad (at_ c).pa (at_ c).width = false ∧
      (∀ q ∈ (s (at_ c)).opsOf 0 0, q.phase ≠ .missed) ∧
      ∀ g, g < 64 → (s (at_ c)).flag (Fd.musterCfgEn g) = false) ∧
    isXferOp OpCode.ld = false ∧ (anOp .ld .served).status = stOk ∧ ({ anOp .ld .served with status := stPoison } : Op).status ≠ stOk ∧
    isXferOp OpCode.move = true ∧ hasCount OpCode.move = false ∧ (anOp .move .served).curOk = false ∧ (anOp .move .served).chunks = [] ∧
    (running {}).op? 7 = none ∧ ((running {}).strand 0 0).wait = none := by decide +kernel


/-! ### Hypotheses met: remote operations and the optical fabric -/

/-- A remote transfer's descriptor: one-dimensional, one 32-bit element between local address 0 and address 0 of device 5; its
class, 0 or 2, and its cursor. -/
def aRemote (c : OpCode) (cls cur : Nat) : Desc :=
  BitVec.ofNat 512 ((if c = .get then 5 * 2 ^ 48 else 5 * 2 ^ 112) + cur * 2 ^ 192 +
    (2 ^ 60 + 6 * 2 ^ 55 + 6 * 2 ^ 50 + cls * 2 ^ 44 + (if c = .racc then 4 * 2 ^ 41 else 0) + 2 ^ 35) * 2 ^ 128 +
    2 ^ 256 + 2 ^ 288 + 4 * 2 ^ 320 + 4 * 2 ^ 352)

/-- Outbound stream 0 to device 5 over port 0, in service, with one slot for its flow; the count is locked. -/
def streamed (s : State) : State := withFields [(Fd.osDest 0, 5), (Fd.bellStatusSchedOk, 1), (Fd.bellStatusState, 1), (Fd.fabSchedEn, 1),
  (Fd.osEn 0, 1), (Fd.osPort 0, 0), (Fd.osFlow 0, 1), (Fd.optPortState 0, 2), (Fd.optPortLanesIn 0, 3), (Fd.osHorizon 0, 200),
  (Fd.osUnits 0, 16), (Fd.osRetLatency 0, 1), (Fd.rotaV 0 0, 1), (Fd.rotaFlow 0 0, 1), (Fd.rotaPosition 0 0, 1),
  (Fd.rotaLanes 0 0, 1)] s

def admits : Admit → Bool
  | .admitted _ _ => true
  | .refused _ => false

/-- Bulk and scheduled, with and without a cursor; admitted and refused by the stream; a descriptor of no kind. -/
theorem test_met_RemoteTransfersIssue : ∀ e ∈ [(OpCode.put, Instr.kPut iss aXfer), (.get, .kGet iss aXfer), (.racc, .kRacc iss aXfer)],
    let c := e.1
    let s := streamed (mapped { d := [(1, aRemote c 2 64)] })
    let adm (s : State) :=
      let u := ((s.passTurn 0 0).inc (Fd.dbgIssued (penOf 0) 0) 1).advance 0 0 8
      (u.admission 0 (u.tenancy 0) (opFlits c (aRemote c 2 64)) (2 * targetLines c (aRemote c 2 64)) (c = .get) (u.liveOf 0)).1
    executesB (stands e.2 s) e.2 = true ∧ (∀ cls ∈ [0, 1, 2], s.checkRemote c 0 1 (aRemote c cls 64) = stOk ∧
      dClass (aRemote c cls 64) = cls) ∧
    (c ≠ .racc → s.checkRemote c 0 1 (aRemote c 0 0) = stOk ∧ dCursor (aRemote c 0 0) = 0) ∧
    s.lookup 0 (BitVec.ofNat 64 (dCursor (aRemote c 0 64))) .write = .hit 64 0xB000000000000000 1 ∧
    s.checkRemote c 0 1 0 ≠ stOk ∧ admits (adm s) = true ∧
    adm (withFields [(Fd.bellStatusSchedOk, 0)] s) = .refused rrUnlocked := by decide +kernel

/-- Strand 0 of Drover 0 names targets: device 5; unaligned there; a word past the layout; a Drover of no number; strand 1. -/
def atomics : State := { running {} with
  tally := { copies := [(0, 1)] }
  strands := [(0, { phase := 1, g := [(2, 5 * 2 ^ 48), (3, 1), (4, 5 * 2 ^ 48 + 1), (5, 2 ^ 62), (6, 2 ^ 40), (7, 2 ^ 37)] }),
    (1, { phase := 1 })] }

theorem test_met_RemoteAtomicsAndSignals_issue :
    let m : MemOps := ⟨1, 2, 3, 0, true, 0, 3, 0⟩
    let g : MemOps := ⟨0, 2, 3, 0, true, 0, 0, 0⟩
    ∀ c ∈ [Instr.kRatomAdd iss m, .kRatomMin iss m, .kRatomMax iss m, .kRatomExchange iss m, .kRatomCas iss m,
      .kRatomAdd iss { m with gp := 4 }, .kSignal iss g, .kSignal iss { g with gp := 5 }, .kSignal iss { g with gp := 6 },
      .kSignal iss { g with gp := 7 }], (stands c atomics).executes c := executes_all (by decide +kernel)

theorem test_met_RemoteAtomicsAndSignals :
    (((atomics.strand 0 0).rg 2).toNat % (fmtOf 3).size = 0 ∧ ((atomics.strand 0 0).rg 2).toNat < 2 ^ 62) ∧
    ((atomics.strand 0 0).rg 4).toNat % (fmtOf 3).size ≠ 0 := by decide +kernel

/-- The Drover is named by bits 47:40 and the strand by 39:37 (R120). -/
theorem test_met_RemoteAtomicsAndSignals_signal :
    targetWordOk (5 * 2 ^ 48) = true ∧
    bits (5 * 2 ^ 48 : Word) 61 48 ≠ atomics.device ∧ targetWordOk (2 ^ 62 : Word) = false ∧ targetWordOk (2 ^ 40 : Word) = true ∧
    bits (2 ^ 40 : Word) 61 48 = atomics.device ∧ atomics.flag Fd.seamStatusIsolated = false ∧
    atomics.physical? (bits (2 ^ 40 : Word) 47 40) = none ∧ targetWordOk (2 ^ 37 : Word) = true ∧ bits (2 ^ 37 : Word) 61 48 = atomics.device ∧
    atomics.physical? (bits (2 ^ 37 : Word) 47 40) = some 0 ∧ atomics.drvState 0 = 0 ∧ atomics.droverInReset 0 = false ∧
    8 * 0 + bits (2 ^ 37 : Word) 39 37 ≠ 8 * iss.drover.val + iss.strand.val ∧ (atomics.strand 0 1).wait = none ∧
    bits (2 ^ 37 : Word) 39 37 = 1 ∧ (atomics.strand 0 1).phase = phRunning := by decide +kernel

/-- Page 0 of context 0 is the scratchpad's first page. -/
def mappedPad (x : Strand) : State := { pad (withFields [(Fd.xlatCtxEn 0, 1)] (running x)) with
    xl := { l1 := [(0, [⟨0, 0, 1, 0xB000000001000000, true⟩])] } }

/-- Chunk k can be carried out, writes something, and nothing at a site. -/
def plansLocally (s : State) (o : Op) (k : Nat) : Bool :=
  let o1 := { o with begun := true, chunks := o.chunks.filter (·.num ≠ k) }
  match s.plan o1 k with
  | .ok p =>
    let o' := { o1 with pa := if hasCount o.code then p.count else o.pa }
    p.sites.isEmpty && (s.siteWrites p.puts.reverse).isEmpty && !p.puts.isEmpty &&
      ((((s.planReads o' p).applyPuts o' p.puts.reverse).2).strand o.drover o.strand).wait.isNone
  | _ => false

/-- A `MOVE` of one chunk within the scratchpad, whose chunk can be carried out; a chunk that is the last, and one of two; a transfer
that parks with a faulted chunk; a `TOPK` that waits. -/
theorem test_met_ChunksCommitAndPark :
    let d : Desc := aDesc 1 2 2 1 1 1 0 0 0 0 + BitVec.ofNat 512 (0x40 * 2 ^ 64)
    let o : Op := { anOp .move .running with desc := d, n := 1 }
    let s : State := { mappedPad {} with ops := [o] }
    let c : Chunk := { num := 0, fault := true, va := 5, pos := 6 }
    let p : Op := { o with phase := .parking, chunks := [c] }
    s.op? 7 = some o ∧ o.mayIssue 0 = true ∧ isRemoteOp o.code = false ∧ (s.strand 0 0).phase ≠ phSaving ∧ dRnd o.desc = 0 ∧
    plansLocally s o 0 = true ∧ (slide 64 o.mark (Nats.ins o.done 0)).1 = o.n ∧ (slide 64 0 (Nats.ins [] 0)).1 ≠ 2 ∧
    p.faulted = some c ∧ p.flying = false ∧ c.ticket = none ∧ p.curOk = false ∧ p.redo = false ∧ (s.drv 0).selHold = none := by
  decide +kernel

theorem test_met_HeldAndDetachedOperations :
    let o : Op := { anOp .ld (.held 5 1) with pair := some (.mem .ld 0 aMem) }
    let m : Op := { o with code := .move, pair := some (.xfer .move 0 aXfer) }
    let e : Op := { anOp .move .served with detached := true, ctxAt := 0x10000000000, cn := some 15, owed := 2 }
    let s (o : Op) (b : Nat) : State := pad { withFields [(Fd.bellCount, b)] (running {}) with ops := [o] }
    (s o 5).op? 7 = some o ∧ (s m 5).op? 7 = some m ∧ (5 : Word).toNat ≤ (s o 5).bellCount.toNat ∧ (s o 4).op? 7 = some o ∧
    (s o 4).bellCount.toNat < (5 : Word).toNat ∧ isRemoteOp .move = false ∧ (s e 0).op? 7 = some e ∧ e.lost = false ∧ e.flying = false ∧
    (s e 0).servedSpan (halfOf 0) (e.ctxAt + 0x540) 0x78 .update = .ok := by decide +kernel

/-- Lane 0 of port 0 in service, lane 7 out; at each limit of Table 11.7; a removal due at this boundary, and a lane that retrains. -/
theorem test_met_PortLanes :
    let s := streamed {}
    let t := s.setPort 0 { removal := [(1, 2, 0)], retrain := [7] }
    s.portUp 0 = true ∧ (s.lanesIn 0).contains 0 = true ∧ (s.port 0).removal.any (·.1 = 0) = false ∧
    ((65536 < 65537 ∨ 16 ≤ 0) ∧ (65536 < 0 ∨ 16 ≤ 16)) ∧ (65536 ≤ 65536 ∧ 15 < 16) ∧ (s.lanesIn 0).contains 7 = false ∧
    t.portUp 0 = true ∧ (t.port 0).removal.find? (fun e => e.1 = 1) = some (1, 2, 0) ∧ (0 : Word).toNat ≤ t.bellCount.toNat ∧
    t.bellCount.toNat < (5 : Word).toNat ∧ t.bellState ≠ bsAcquiring ∧ (withFields [(Fd.bellStatusState, 0)] t).bellState = bsAcquiring ∧
    (t.port 0).retrain.contains 7 = true := by decide +kernel

/-- An `RATOM`, a `SIGNAL` and transfers that await an answer: at the last Bell and past it, with one chunk and with two. -/
theorem test_met_RemoteRepliesComplete :
    let c : Chunk := { num := 0, sent := true, expiry := some 5 }
    let r (k : OpCode) : Op := { anOp k .remote with chunks := [c] }
    let x (k : OpCode) : Op := { anOp k .running with chunks := [c], n := 1, desc := aRemote k 0 0 }
    let s (o : Op) : State := { withFields [(Fd.rmtLimitReturn, 3), (Fd.bellCount, 8)] (running {}) with ops := [o] }
    (∀ k ∈ [OpCode.ratom, .signal], (s (r k)).op? 7 = some (r k) ∧ isXferOp k = false) ∧ (r .ratom).detached = false ∧
    (r .ratom).lost = false ∧ ((s (r .ratom)).strand 0 0).wait = none ∧ (r .ratom).poisoned = false ∧
    (∀ k ∈ [OpCode.put, .get, .racc], (s (x k)).op? 7 = some (x k) ∧ isXferOp k = true ∧
      (x k).chunks.find? (fun c => c.num = 0 && c.sent) = some c) ∧
    (5 : Word).toNat + (s (x .get)).rd Fd.rmtLimitReturn ≤ (s (x .get)).bellCount.toNat ∧ c.packet = none ∧
    (dSf (x .get).desc).isMx = false ∧ (x .get).stream = none ∧ (x .put).phase ≠ .served ∧
    gxNotify (0x80000000 : Word) = true ∧ gxNotify (x .put).aux = false ∧ ((2 : Byte).toNat ≠ stOk) ∧
    ((slide 64 0 (Nats.ins [] 0)).1 = 1 ∧ (slide 64 0 (Nats.ins [] 0)).1 ≠ 2) := by decide +kernel

/-- A module that is `READY` and translates page 0 of its first context in both halves: to stack 0, or to the scratchpad. -/
def inbound (leaf : Word) : State := { pad (withFields [(Fd.modStatusReady, 1), (Fd.xlatCtxEn 0, 1)]) with
  xl := { inbound := [(0, [⟨0, 0, 1, leaf, false⟩]), (1, [⟨0, 0, 1, leaf, false⟩])] } }

/-- What a request finds at its target: its translation, whether its region refuses it, and whether its banks serve it. -/
def inFinds (s : State) (h kind : Nat) (r : RemReq) : Bool × Nat × Served :=
  let s := s.takeArrived r.source.toNat r.packet.toNat
  let q : InReq := { kind, req := r, paddock := 0, ticket := none, expiry := 100 }
  match s.inSpan h q (inAcc kind) (granulesOf r.addr.toNat (s.inBytes h q)) with
  | .all ps => (true, s.inRefusal q ps, s.inServed h ps r.addr.toNat (s.inBytes h q) kind)
  | _ => (false, 0, .ok)

/-- Requests that pass every check, `RACC` in an accumulator region of format 9; one in a tenancy without a context; a fault of
translation; a `RATOM` in an accumulator region; a module before `READY`, and in P2; at its expiry and one Bell before. -/
theorem test_met_InboundRequests :
    let r : RemReq := { aReq with fmt := 3, expiry := 100 }
    let s := inbound 0xB000000001000000
    (∀ e ∈ [(roPut, s, r), (roGet, s, { r with a := 64, data := [] }), (roRacc, inbound 0xB900000001000000, { r with fmt := 20, dfmt := 20, addr := 128 }),
      (roRatom, s, { r with data := [] })], ∀ h ∈ [0, 1],
      reqOk e.1 e.2.2 = true ∧ inFinds e.2.1 h e.1 e.2.2 = (true, stOk, .ok)) ∧
    reqOk roSignal { r with data := [] } = true ∧ s.fab.inbound.any (·.same 1 0) = false ∧ s.dark = false ∧
    s.flag Fd.modStatusReady = true ∧ s.crook.zeroing = false ∧ s.rd Fd.pwrStatusState ≠ 2 ∧ ({} : State).flag Fd.modStatusReady = false ∧
    (withFields [(Fd.pwrStatusState, 2)] s).rd Fd.pwrStatusState = 2 ∧ s.bellCount.toNat < (s.fullBell 100).toNat ∧
    (withFields [(Fd.bellCount, 99)] s).bellCount.toNat < ((withFields [(Fd.bellCount, 99)] s).fullBell 100).toNat ∧
    ((withFields [(Fd.bellCount, 100)] s).fullBell 100).toNat ≤ (withFields [(Fd.bellCount, 100)] s).bellCount.toNat ∧
    targetWordOk (2 ^ 62 : Word) = false ∧ targetWordOk r.a = true ∧ (∀ h ∈ [0, 1], s.cutFrom h (bits r.a 47 40) = false) ∧
    s.ctxOf 1 = none ∧ s.ctxOf 0 = some 0 ∧ (∀ h ∈ [0, 1], (inFinds (inbound 0xB000000201000000) h roPut r).1 = false ∧
      (inFinds (inbound 0xB900000001000000) h roRatom { r with data := [] }).2.1 = stAccRegion) ∧ s.siteReqs = [] := by decide +kernel

theorem test_met_InboundRequests_expiry :
    let q : InReq := { kind := roPut, req := aReq, paddock := 0, ticket := none, expiry := 100 }
    let s : State := (withFields [(Fd.bellCount, 100)]).setFab { ({} : State).fab with inbound := [q] }
    s.fab.inbound.find? (·.same 1 0) = some q ∧ q.atSite = false ∧ q.expiry.toNat ≤ s.bellCount.toNat := by decide +kernel

/-- Lane 0 of port 0 with three lanes in service and with two; port 1 out of service; a ring of two modules and a lit source; a
command that runs; a source present and absent. -/
theorem test_met_OpticalCommands :
    let s := withFields [(Fd.optPortLanesIn 0, 7), (Fd.fabGeomSizeX, 1), (Fd.optLaserState 0, 2), (Fd.optLaserState 3, 0)] (streamed {})
    let two := streamed {}
    let left (s : State) (l : Nat) := (s.lanesIn 0).filter fun k => k ≠ l ∧ !(s.port 0).removal.any (·.1 = k)
    s.reaches Fd.optCmdGo.addr = true ∧ s.rd Fd.optCmdState ≠ 1 ∧ (withFields [(Fd.optCmdState, 1)] s).rd Fd.optCmdState = 1 ∧
    s.portUp 0 = true ∧ (s.lanesIn 0).contains 0 = true ∧ 2 ≤ (left s 0).length ∧ (left two 0).length < 2 ∧ (two.lanesIn 0).contains 0 = true ∧
    (s.port 0).removal.any (·.1 = 0) = false ∧ (s.lanesIn 0).contains 7 = false ∧ s.portUp 1 = false ∧
    1 < s.ringSizeOf (dimOf 0) ∧ s.lit (laserOf 0) = true ∧ s.rdBit Fd.optStileForceThrough (dimOf 0) = false ∧
    ¬(1 < two.ringSizeOf (dimOf 0)) ∧ s.rd (Fd.optLaserState 0) ≠ lsAbsent ∧ s.rd (Fd.optLaserState 3) = lsAbsent := by decide +kernel

theorem test_met_LaserSources : let s := withFields [(Fd.optLaserState 0, 2), (Fd.optLaserState 1, 0)]
    s.rd (Fd.optLaserState 0) ≠ lsAbsent ∧ s.rd (Fd.optLaserState 0) ≠ lsDisabled ∧ s.rd (Fd.optLaserState 1) = lsAbsent := by
  decide +kernel

/-- A port that trains with two lanes and with one; one that is up with a full retry buffer; one whose far end is dark. -/
theorem test_met_PortAcquisition :
    let s := withFields [(Fd.optPortState 0, psTraining), (Fd.optStileThrough, 0), (Fd.fabGeomSizeX, 1), (Fd.optLaserState 0, 2)]
    let u := streamed {}
    let f : FlitOut := ⟨aFlit, false, 0⟩
    s.rd (Fd.optPortState 0) = psTraining ∧ 1 < s.ringSizeOf (dimOf 0) ∧ s.lit (laserOf 0) = true ∧
    s.rdBit Fd.optStileForceThrough (dimOf 0) = false ∧ (s.port 0).dark = false ∧ s.rdBit Fd.optStileThrough (dimOf 0) = false ∧
    2 ≤ popCount 8 3 ∧ popCount 8 1 < 2 ∧ u.portUp 0 = true ∧
    4800 ≤ ((u.setPort 0 { retry := List.replicate 4800 (f, 0) }).port 0).retry.length ∧
    ((u.setPort 0 { dark := true }).port 0).dark = true ∧ (u.port 0).heard = [] := by decide +kernel

/-- Position 0; a flit in the slot of its flow; a flit asked for again; nothing to send. -/
theorem test_met_FlitSlots :
    let s := streamed {}
    let f : FlitOut := ⟨{ aFlit with flow := 1 }, false, 0⟩
    let t := s.setPort 0 { sched := [f] }
    let u := s.setPort 0 { resend := [0], retry := [(f, 0)] }
    s.portUp 0 = true ∧ (s.lanesIn 0).contains 0 = true ∧ s.dark = false ∧ s.slotFlow 0 0 1 = some 1 ∧
    (t.port 0).sched.find? (fun f => f.flit.flow.toNat = 1) = some f ∧ (t.port 0).retry.length < 4800 ∧ (t.port 0).hold = none ∧
    s.slotFlow 0 1 1 = none ∧ s.slotFlow 0 0 15 = none ∧ (u.port 0).ctl = [] ∧
    (u.port 0).retry.find? (fun e => e.1.flit.seq.toNat = 0) = some (f, 0) ∧ u.portUp 0 = true ∧ t.portUp 0 = true ∧
    ((s.port 0).resend = [] ∧ (s.port 0).orphans = [] ∧ (s.port 0).bulk = []) := by decide +kernel

/-- A number that came before and a new one, at the edge of the window; a flit kept past its time. -/
theorem test_met_FlitsArrive :
    let s := withFields [(Fd.bellCount, 4)] (streamed {})
    let t := s.setPort 0 { below := 1, retry := [(⟨aFlit, false, 0⟩, 0)] }
    t.portUp 0 = true ∧ (t.lanesIn 0).contains 0 = true ∧ t.dark = false ∧ aFlit.kind = 1 ∧ (t.port 0).seen 0 = true ∧
    (t.port 0).seen 1 = false ∧ (t.port 0).seen 32768 = false ∧ (t.port 0).seen 32769 = true ∧ aFlit.dest.toNat = t.device ∧
    ({ aFlit with dest := 1 } : Flit).dest.toNat ≠ t.device ∧
    (t.port 0).retry.find? (fun e => e.1.flit.seq = 0) = some (⟨aFlit, false, 0⟩, 0) ∧
    (0 : Word).toNat + t.roundTripBells 0 + 4 ≤ t.bellCount.toNat ∧ (t.port 0).resend.contains 0 = false ∧
    (s.port 0).heard = [] := by decide +kernel

theorem test_met_RoutedMessages : let s := streamed {}
    s.portUp 0 = true ∧ s.dark = false ∧ (s.port 0).heard = [] ∧ (0 : BitVec 14).toNat = s.device ∧
    (1 : BitVec 14).toNat ≠ s.device := by decide +kernel

/-- A packet of an operation; one that waits on the link across the Seam; one a router serves, for its own Pen and for another; a
router in service; a Seam bundle with 65 failed wires. -/
theorem test_met_MeshAndSeam :
    let o := anOp .ld .ready
    let q : MeshPacket := ⟨.bulk, 8, some 7⟩
    let s : State := { withFields [(Fd.seamStatusMode, 1), (Fd.seamStatusInService, 15)] with ops := [o] }
    let t : State := (s.setLink 1 8 [q]).setRouter 8 [q, { q with cls := .control, pen := 15 }]
    s.dark = false ∧ s.op? 7 = some o ∧ s.fab.faulty.contains 15 = false ∧ s.flag Fd.seamStatusMode = true ∧ 64 < (65 : BitVec 8).toNat ∧
    crossesSeam 1 8 = true ∧ t.link 1 8 = [q] ∧ s.link 1 8 = [] ∧ nextServed (t.router 8) = some { q with cls := .control, pen := 15 } ∧
    t.meshNext 8 15 = some 9 ∧ nextServed [q] = some q ∧ q.pen = 8 ∧ s.fab.avoid = [] ∧
    (withFields [(Fd.seamStatusInService, 0)] s).meshNext 1 8 = none ∧
    s.rdBit Fd.seamStatusInService 0 = true ∧ s.rdBit Fd.seamStatusInService 3 = true := by decide +kernel

/-! ### Hypotheses met: Drovers, time, registers and the Fold -/

/-- A strand that runs with a context area, one without, and an idle one; one that saves, with its area in the scratchpad. -/
theorem test_met_DroversPreempt :
    let s := pad { strands := [(0, { phase := 1, start := { ctx := 0x10000000000 } }), (1, { phase := 1 }),
      (7, { phase := 4, start := { ctx := 0x10000000000 } })] }
    s.reaches (Fd.drvCtlPreempt 0 0).addr = true ∧ ((s.strand 0 0).phase = phRunning ∧ (s.strand 0 0).ctx ≠ 0) ∧
    ((s.strand 0 1).phase = phRunning ∧ (s.strand 0 1).ctx = 0) ∧ (s.strand 0 2).phase = phIdle ∧ (s.strand 0 7).phase = phSaving ∧
    s.opsOf 0 7 = [] ∧ s.servedSpan (halfOf 0) (s.strand 0 7).ctx 2048 .write = .ok := by decide +kernel

/-- A Drover in service, the last one in reset, and a fenced one with a strand that is not yet saved; a bound number. -/
theorem test_met_DroversFence :
    let s := pad (withFields [(Fd.drvStatusState 0 0, 0), (Fd.drvStatusState 15 7, 4), (Fd.tallyEntryState 3, 0), (Fd.tallyEntryPhysical 3, 0)]
      { drovers := [(1, { unsaved := [0] })], strands := [(0, { phase := 1 }), (8, { phase := 5, start := { ctx := 0x10000000000 } })] })
    s.drvState 0 = 0 ∧ s.drvState 127 = 4 ∧ (let s := withFields [(Fd.drvStatusState 0 0, 0)] (stands (.kNop iss aSync) (running {})); s.drvState 0 = 0 ∧ s.ready 0 0 = true ∧ ∀ j ∈ List.range 8, s.ready 0 j = true → (s.strand 0 j).prio ≤ (s.strand 0 0).prio) ∧ s.logicalOf 0 < 128 ∧ (s.drv 1).unsaved.contains 0 = true ∧
    s.opsOf 1 0 = [] ∧ s.servedSpan (halfOf 1) (s.strand 1 0).ctx 2048 .write = .ok := by decide +kernel

/-- An Absent number 0 and the bound number 127; a reserve in its Pen, none, and one of the other half; a rebind that is due. -/
theorem test_met_TallyBindings :
    let none := withFields ((List.range 128).map fun d => (Fd.tallyReserve d, 0))
      (withFields [(Fd.tallyEntryState 0, 1), (Fd.tallyEntryPhysical 0, 0), (Fd.tallyEntryState 127, 0), (Fd.tallyEntryPhysical 127, 127),
        (Fd.drvStatusState 15 7, 0)])
    let s := withFields [(Fd.tallyReserve 7, 1), (Fd.tallyReserve 126, 1)] none
    s.down.isNone = true ∧ s.rd Fd.tallyCmdState ≠ 1 ∧ (withFields [(Fd.tallyCmdState, 1)] s).rd Fd.tallyCmdState = 1 ∧
    s.rd (Fd.tallyEntryState 0) = 1 ∧ s.rd (Fd.tallyEntryState 127) = 0 ∧ (128 : BitVec 8).toNat = 128 ∧ s.isReserve 6 = false ∧
    (s.isReserve 126 = true ∧ halfOf 126 ≠ halfOf 0) ∧ (s.isReserve 7 = true ∧ halfOf 7 = halfOf 0) ∧ none.findReserve 0 false = Option.none ∧
    s.findReserve 0 true = some 7 ∧ s.drvState 127 = 0 ∧ ({ due := true } : Tally).due = true ∧
    ({ due := false } : Tally).due = false ∧ (let v : Rebind := ⟨0, 7, 0, true, false⟩; v.left = 0 ∧ s.isReserve v.reserve = true ∧
      s.isReserve ({ v with reserve := 6 } : Rebind).reserve = false ∧ ({ v with left := 2 } : Rebind).left ≠ 0) := by decide +kernel

/-- Ports 0 and 2 in service with a valid delay; port 2's marker has the fewer hops. -/
def sources (st : Nat) : State :=
  { withFields [(Fd.bellStatusState, st), (Fd.optPortState 0, 2), (Fd.optPortState 2, 3), (Fd.bellPortDelayValid 0, 1),
      (Fd.bellPortDelayValid 2, 1)] with
    bell := { runs := [(0, 3), (2, 3)], missed := [(0, 1)], fresh := [0, 2],
              last := [(0, ⟨90, 1, 5, false, false, true, 0⟩), (2, ⟨90, 1, 4, false, false, true, 0⟩)] } }

/-- Each state of Table 2.2, with a source and without; a `LOCKED` module whose source has missed twice; the lock step begun, with
ports still training and with none; the Bell logic powered, without power, and the module unpowered. -/
theorem test_met_BellBoundary :
    (∀ st ∈ [bsAcquiring, bsLocked, bsHoldover, bsUnlocked, bsBellwether], (sources st).bellState = st) ∧
    (sources 2).countMarkers.bestSource 2 = some 2 ∧ (sources 3).countMarkers.bestSource 3 = some 2 ∧
    (withFields [(Fd.bellStatusState, 2)]).countMarkers.bestSource 2 = none ∧
    Tab.get (fun _ => 0) (sources 1).countMarkers.bell.missed ((sources 1).rd Fd.bellStatusSource) < 2 ∧
    2 ≤ Tab.get (fun _ => 0) (withFields [(Fd.bellStatusState, 1)] { bell := { missed := [(0, 1)] } }).countMarkers.bell.missed 0 ∧
    (withFields [(Fd.bellCfgRole, 1)]).rd Fd.bellCfgRole = roleBellwether ∧ ({} : State).rd Fd.bellCfgRole ≠ roleBellwether ∧
    ({} : State).portsTrain = false ∧ (withFields [(Fd.optPortState 3, psTraining)]).portsTrain = true ∧ ({} : State).down = none ∧
    (withFields [(Fd.pwrStatusState, 3)]).dark = true ∧ ({} : State).dark = false ∧ ({ down := some .powerFail } : State).down.isSome = true := by
  decide +kernel

/-- A valid marker, one of another Bellwether, one from a module in holdover, and one that fails; each end of a state at its
last Bell and before. -/
theorem test_met_BellLockEnds :
    let s := withFields [(Fd.bellStatusBellwether, 1)] (sources 1)
    let h (n : Nat) : State := { withFields [(Fd.bellStatusState, 2), (Fd.bellCfgRole, roleStandby), (Fd.bellCfgTakeover, 16)] with bell := { held := n } }
    s.portUp 0 = true ∧ s.dark = false ∧ s.bellState = bsLocked ∧ (1 : BitVec 14).toNat = s.rd Fd.bellStatusBellwether ∧
    (2 : BitVec 14).toNat ≠ s.rd Fd.bellStatusBellwether ∧ (s.lastMarker 0).valid = true ∧ (s.lastMarker 0).holdover = false ∧
    s.bellState ≠ bsBellwether ∧ (sources 4).bellState = bsBellwether ∧ (h 65536).bellState = bsHoldover ∧ 65536 ≤ (h 65536).bell.held ∧
    (h 65535).bell.held < 65536 ∧ (h 16).rd Fd.bellCfgRole = roleStandby ∧ (h 16).rd Fd.bellCfgTakeover ≤ (h 16).bell.held ∧
    (withFields [(Fd.bellStatusState, 0)] { bell := { lockStep := true } }).bellState = bsAcquiring ∧ ({} : State).rd Fd.bellCfgRole ≠ roleBellwether ∧
    65536 ≤ ({ s with bell := { stable := 65536 } } : State).bell.stable := by decide +kernel

/-- The gate of the Bell block: shut and open, armed and not; written by the Crook's bus and by another; each check of R21 failed
and passed, at the nearest and the farthest Bell and one outside each. -/
theorem test_met_GatesCommit :
    let b := bellBlk.base
    let at_ (n : Nat) : State := withFields [(Fd.gateMode b, 1), (Fd.gateBell b, n), (Fd.bellStatusState, 1)]
    gateAt b = some (bellBlk, 0) ∧ bellBlk.signed = true ∧ (at_ 2).gateShut .mgmt b = false ∧
    ({ at_ 2 with crook := { ({} : State).crook with staging := [b] } } : State).gateShut .mgmt b = true ∧
    (at_ 2).rd (Fd.gateState b) ≠ 1 ∧ (withFields [(Fd.gateState b, 1)]).rd (Fd.gateState b) = 1 ∧ (at_ 2).bellState = bsLocked ∧
    (withFields [(Fd.bellStatusState, 3)]).bellState = bsUnlocked ∧ (at_ 1).rd (Fd.gateBell b) < (at_ 1).bellCount.toNat + 2 ∧
    (at_ 2).bellCount.toNat + 2 ≤ (at_ 2).rd (Fd.gateBell b) ∧
    (at_ 1048576).rd (Fd.gateBell b) ≤ (at_ 1048576).bellCount.toNat + 1048576 ∧
    (at_ 1048577).bellCount.toNat + 1048576 < (at_ 1048577).rd (Fd.gateBell b) ∧
    (((at_ 2).wrS Fd.bellCfgRole 3).writeGateCtl b 0).gateBad bellBlk.kind 0 = true ∧
    (((at_ 2).wrS Fd.bellCfgTakeover 1).writeGateCtl b 0).gateBad bellBlk.kind 0 = false := by decide +kernel

/-- Writes that do not fit; of no block; of a block asleep; of a register of fields, with ST fields and without. -/
theorem test_met_RegistersTakeWrites :
    let s := withFields [(Fd.pwrStatusState, 3)]
    let a := opticalBlk.base
    ({} : State).down.isNone = true ∧ findBlk 0x30FFFFFFFF8 = none ∧ s.asleepAt (a + 0x20) = true ∧ ({} : State).asleepAt (a + 0x20) = false ∧
    findBlk (a + 0x20) = some (opticalBlk, 0) ∧ (a + 0x20) % 8 = 0 ∧ (a + 4) % 8 ≠ 0 ∧ opticalBlk.kind ≠ 0x0005 ∧ opticalBlk.kind ≠ 0x0041 ∧
    opticalBlk.base ≠ doorbellBlk.base ∧ (({} : State).writeCmd .mgmt opticalBlk 0 0x20 0).isNone = true ∧
    (regSpec (a + 0x20)).any (fun r => r.st ≠ 0) = true ∧ a + 0x20 ≠ viewGate opticalBlk 0 + 0x10 ∧
    (({} : State).writeCmd .mgmt opticalBlk 0 0x180 0).isNone = true ∧ (regSpec (a + 0x180)).any (fun r => r.st = 0) = true ∧
    (withFields [(Fd.gateState a, 1)]).rd (Fd.gateState a) = 1 ∧ ({} : State).rd (Fd.gateState a) ≠ 1 ∧
    ({} : State).crook.staging.contains a = false := by decide +kernel

/-- Each outcome of R81's order: before `READY`; an Absent number; a Drover in reset, fenced, and in service with a strand that runs,
a record that is bad, one to restore, and one that starts. -/
theorem test_met_DoorbellWindowStarts :
    let s : State := { withFields [(Fd.modStatusReady, 1), (Fd.drvStatusState 0 0, 0), (Fd.drvStatusState 0 1, 1), (Fd.drvStatusState 0 2, 4)] with
      tally := { copies := [(0, 1), (1, 2), (2, 3)] }, strands := [(1, { phase := 1 })] }
    let r : StartRec := { entry := 0x1000, ctl := 0x100 }
    let back : StartRec := { ctx := 0x10000000000, ctl := 0x102 }
    s.reaches (Fd.doorbell 0 0 7).addr = true ∧ ({} : State).flag Fd.modStatusReady = false ∧ s.flag Fd.modStatusReady = true ∧
    s.rd Fd.pwrStatusState < 2 ∧ s.physical? 127 = none ∧ (s.physical? 0 = some 0 ∧ s.physical? 1 = some 1 ∧ s.physical? 2 = some 2) ∧
    s.droverInReset 2 = true ∧ s.droverInReset 1 = false ∧ s.drvState 1 = 1 ∧ s.droverInReset 0 = false ∧ s.drvState 0 ≠ 1 ∧
    (s.strand 0 1).phase ≠ phIdle ∧ (s.strand 0 0).phase = phIdle ∧ ({ r with entry := 1 } : StartRec).bad = true ∧ r.bad = false ∧
    r.restore = false ∧ (back.bad = false ∧ back.restore = true ∧ s.ctxOutcome 0 back.ctx.toNat ≠ srOk) := by decide +kernel

/-- Bank of address 0. -/
def bank0 : Fin 512 := ⟨bankOf 0 % 512, Nat.mod_lt _ (by decide)⟩
/-- A line of the cache with all its sectors. -/
def aLine : Line := { way := 0, valid := 0xF, dirty := false, pinned := false, age := 0 }
/-- A read of a whole line. -/
def aRead (a : BitVec 48) : BankReq := ⟨a, .read 128, false, false, .bulk, 0, []⟩
/-- A miss of a line, by one request. -/
def aMiss (l : Nat) : Miss := { line := l, way := some 0, sectors := 0xF, stream := false, cls := .bulk, attached := [aRead 0] }

/-- What a bank serves at once: a scratchpad line, read and written, a stack line it holds, and an operation that is ready; what
it cannot: a slot not yet active, and in P2. -/
theorem test_met_BankRequestsAreServed :
    let sp : BitVec 48 := 0x10000000000
    let s := pad {}
    let held : State := { lines := [(0, aLine)] }
    let o : Op := { anOp .ld .ready with pa := 0x10000000000, sub := 3 }
    isLocalMem 0x10000000000 = true ∧ s.atBank 0 sp.toNat = .ok ∧ isScratch (sp.toNat + 127) = true ∧
    (withFields [(Fd.foldWaycfgScratch 0, 16)]).atBank 0 sp.toNat = .waits ∧ (withFields [(Fd.pwrStatusState, 2)]).atBank 0 0 = .fails 0x13 ∧
    held.atBank 0 0 = .ok ∧ held.line 0 = some aLine ∧ sectorsOf 0 128 &&& ~~~aLine.valid = 0 ∧
    held.hits 0 (sectorsOf 0 128) (wholeSectors 0 128) .read = true ∧ held.needsEntry 0 0 0 .write = false ∧
    ({ s with ops := [o] } : State).op? 7 = some o ∧ isXferOp o.code = false ∧ s.atBank (bankHalf (bankOf o.pa)) o.pa = .ok := by
  decide +kernel

/-- A miss at a bank with no entry, with an entry of its line that has a place and one that has none, with one of another line
of its set, and with 32 of other sets; a wait queue with a place and a full one. -/
theorem test_met_BankRequestsAreServed_misses :
    let s (l n : Nat) : State := { banks := [(bank0.val, { misses := List.replicate n (aMiss l) })] }
    let entry (s : State) := (s.bank bank0).misses.find? fun (m : Miss) => Machine.setOf (128 * m.line) = Machine.setOf 0
    let hit (s : State) := s.hits 0 (sectorsOf 0 128) (wholeSectors 0 128) .read
    let full : Miss := { aMiss 0 with attached := List.replicate 16 (aRead 0) }
    let other := (List.range 4096).find? fun l => decide (bankOf (128 * l) = bank0.val) && decide (Machine.setOf (128 * l) ≠ Machine.setOf 0)
    ({} : State).askSpan (aRead 0) = (0, 128, .read) ∧ bankOf 0 = bank0.val ∧ hit {} = false ∧ entry {} = none ∧
    ({} : State).needsEntry 0 (sectorsOf 0 128) (wholeSectors 0 128) .read = true ∧ entry (s 0 1) = some (aMiss 0) ∧ hit (s 0 1) = false ∧
    (aMiss 0).attached.length < 16 ∧ ¬full.attached.length < 16 ∧
    other.any (fun l => entry (s l 32) = none && decide (32 ≤ ((s l 32).bank bank0).misses.length)) = true ∧
    (({} : State).bank bank0).queue.length < 64 ∧ 64 ≤ ({ queue := List.replicate 64 (aRead 0) } : Bank).queue.length ∧
    (s 0 1).atBank (bankHalf bank0) 0 = .ok := by decide +kernel

/-- A fill of line 0 whose data has come, one whose has not, and one not asked for; a pass not begun and one begun in this Bell;
one error of each kind in a line held; 16 corrections; a window due and one still to come. -/
theorem test_met_FoldFillsAndScrubs :
    let m : Miss := { aMiss 0 with back := true }
    let s : State := { banks := [(bank0.val, { misses := [m] })] }
    let t : State := { lines := [(0, aLine)], banks := [(bank0.val, { window := some (5, false), passAt := some 0 })] }
    (s.bank bank0).misses.find? (fun m => m.line = 0) = some m ∧ (s.bank bank0).misses.find? (fun m => m.line = 1) = none ∧
    (aMiss 0).back = false ∧ s.scrubbing bank0 = false ∧ ({ banks := [(bank0.val, { window := some (0, true) })] } : State).scrubbing bank0 = true ∧
    s.line 0 = none ∧ s.rangeQ (bankHalf bank0) = [] ∧ m.way = some 0 ∧
    bankOf 0 = bank0.val ∧ sectorsOf 0 128 &&& ~~~m.sectors = 0 ∧ t.arrayPlace 0 = some (bank0.val, Machine.setOf 0, 0) ∧
    16 ≤ ((List.replicate 16 (⟨0, false⟩ : FoldError)).filter fun e =>
      (t.arrayPlace e.addr.toNat).any (fun q => decide (q.1 = bank0.val)) && !e.double).length ∧ (s.bank bank0).window = none ∧
    ((t.bank bank0).passAt.any fun x => decide (t.bellCount.toNat < x.toNat + 16 * 65536)) = true ∧ (s.bank bank0).passAt.isSome = false ∧
    (t.bank bank0).window = some (5, false) ∧ (withFields [(Fd.bellCount, 5)] t).bellCount.toNat = 5 ∧ t.bellCount.toNat < 5 := by
  decide +kernel

/-- A slot, a way down and a way up in Pen 0, no miss and a miss that has reserved a way there; none of them in Pen 15. -/
theorem test_met_WaysConvert :
    let s : State := { ways := [(0, { slots := [0, 1], downs := [15], ups := [0], disable := true })] }
    let r : State := { s with banks := [(bank0.val, { misses := [aMiss 0] })] }
    s.wayReserved 0 (fun _ => true) = false ∧ r.wayReserved (bankPen bank0) (fun _ => true) = true ∧ r.wayReserved (bankPen bank0) (· = 0) = true ∧
    s.wayReserved 0 (· = 15) = false ∧ (∀ i ∈ List.range 32, (s.bank i).queue = []) ∧
    (s.penWays 0).slots = [0, 1] ∧ (s.penWays 0).disable = true ∧ (s.penWays 0).downs.contains 15 = true ∧
    (s.penWays 0).ups.contains 0 = true ∧ (s.penWays 15).slots = [] ∧ (s.penWays 15).disable = false ∧
    (s.penWays 15).downs.contains 15 = false ∧ (16 - s.rd (Fd.foldWaystatScratchActive 0) ≤ 16) ∧
    16 - (pad s).rd (Fd.foldWaystatScratchActive 0) ≤ 0 ∧ 15 < 16 - ({} : State).rd (Fd.foldWaystatScratchActive 0) := by decide +kernel

/-- A range of one line in the engine's half, one in the other, one of no length, one over two stacks, one into a stripe; a queue
with a place; a head not begun and begun, with a line left and with none; a site's request in a half that resets. -/
theorem test_met_RangeCommandsRun :
    let s (b n : Nat) : State := withFields [(Fd.frangeBaseBase 0, b), (Fd.frangeLen 0, n)]
    let r : RangeReq := { cmd := 1, line := 0, count := 1, op := none, begun := false, touched := 0, fails := 0 }
    let t (r : RangeReq) : State := { ranges := [(0, [r])], lines := [(0, aLine)] }
    let bad (s : State) := s.rd (Fd.frangeLen 0) = 0 ∨ s.rd (Fd.frangeLen 0) % 128 ≠ 0 ∨ isStack (128 * s.rd (Fd.frangeBaseBase 0)) = false ∨
      128 * s.rd (Fd.frangeBaseBase 0) / 2 ^ 36 ≠ (128 * s.rd (Fd.frangeBaseBase 0) + s.rd (Fd.frangeLen 0) - 1) / 2 ^ 36 ∨
      (s.flag (Fd.dramStackStatusStripeOn (128 * s.rd (Fd.frangeBaseBase 0) / 2 ^ 36)) = true ∧
        inStripe (128 * s.rd (Fd.frangeBaseBase 0) + s.rd (Fd.frangeLen 0) - 1) = true)
    let reset (s : State) (r : RangeReq) := (r.op.isSome || r.site.isSome) && s.resetPaddocks.contains (bankPaddock (bankOf (128 * r.line)))
    (s 0 128).reaches (Fd.frangeCmdGo 0).addr = true ∧ ¬bad (s 0 128) ∧ bad (s 0 0) ∧ bad (s (2 ^ 29 - 1) 256) ∧ ¬bad (s (2 ^ 31) 128) ∧
    128 * (s (2 ^ 31) 128).rd (Fd.frangeBaseBase 0) / 2 ^ 38 ≠ 0 ∧ (s 0 128).flag (Fd.frangeStatusBusy 0) = false ∧
    bad (withFields [(Fd.dramStackStatusStripeOn 0, 1)] (s (2 ^ 29 - 1) 128)) ∧ ((s 0 128).rangeQ 0).length < 64 ∧ (t r).rangeQ 0 = [r] ∧
    reset (t r) r = false ∧ reset { resetPaddocks := [bankPaddock (bankOf 0)] } { r with site := some (0, 0, 0) } = true ∧
    (t r).rangeSettled r = true ∧ ((t r).walk { r with begun := true } []).1.left = [] ∧
    ((t r).walk { r with begun := true, left := [0] } [0]).1.left ≠ [] ∧ (t r).line 0 = some aLine ∧ aLine.ways = [] ∧ (t r).line 1 = none ∧
    isStack 0 = true ∧ ((t r).place 0).isSome = true := by decide +kernel

/-! ### Hypotheses met: DRAM, translation and sites -/

/-- Stack 0 in service. -/
def dram (x : Chan) (s : State := {}) : State := { withFields [(Fd.dramStackStatusState 0, 1)] s with chans := [(0, x)] }

/-- A full queue and one with a place; writes short of 48 with a read waiting, 48 of them, and none; a read of a line in the
write queue; a channel held and not; a read whose turn it is, one whose line is not queued, and one behind an older. -/
theorem test_met_DramChannelsServe :
    let r : DramReq := ⟨0, 0, some 0, false, .bulk⟩
    let w : DramReq := { r with write := true }
    let q : DramRead := ⟨r, 1, 0⟩
    let s := dram { reads := [q], writes := [w] }
    let full := dram { reads := List.replicate 64 q, writes := List.replicate 64 w }
    s.servedBy 0 0 = some 0 ∧ ({ drams := [(0, { lost := [0] })] } : State).servedBy 0 0 = none ∧ (s.chan 0 0).writes.length < 64 ∧
    64 ≤ (full.chan 0 0).writes.length ∧ 64 ≤ (full.chan 0 0).reads.length ∧ w.line = r.line ∧ s.chanHeld 0 0 = false ∧
    (dram { training := true }).chanHeld 0 0 = true ∧ 48 ≤ (List.replicate 47 w ++ [w]).length ∧ (dram {}).chan 0 0 = {} ∧
    (s.chan 0 0).bell = s.bellCount ∧
    (s.chanNow 0 0).reads.findIdx? (fun r => r.req.line = 0 && r.left.getLsbD 0) = some 0 ∧
    (s.chanNow 0 0).reads.findIdx? (fun r => r.req.line = 1 && r.left.getLsbD 0) = none ∧ (s.chanNow 0 0).reads[0]? = some q ∧
    (s.rankOf 0 (s.chanNow 0 0) 0 q).isSome = true ∧ (s.chanNow 0 0).reads.take 0 = [] ∧ q.left &&& ~~~(BitVec.ofNat 2 1) = 0 ∧
    (let older : DramRead := ⟨{ r with line := 64 }, 1, 0⟩;
      s.rankOf 0 (s.chanNow 0 0) 0 older = s.rankOf 0 (s.chanNow 0 0) 0 q ∧ (s.chanNow 0 0).rowHit 0 (s.seatOf 0 r) = false) := by decide +kernel

/-- A channel whose scrub goes on, one that retrains, and a pass ended; a wire that is not erased; a channel asleep and awake, its
last refresh in this Bell and none. -/
theorem test_met_DramChannelsServe_scrub :
    let s := dram {}
    let done := dram { patrol := 2 ^ 23, patrolAt := some 0 }
    s.chanHeld 0 0 = false ∧ bit (s.reg (Fd.dramRetired 0).addr) 0 = false ∧ s.bulkSlot 0 (s.chanNow 0 0) = true ∧
    (done.chanNow 0 0).patrol = 2 ^ 23 ∧ (0 : Fin 36).val ≠ Tab.get (fun _ => 36) (s.stack 0).erased 0 ∧
    s.isPoisoned (lineAddr 0 0) = false ∧ (dram { training := true }).sleeps 0 0 = true ∧ s.sleeps 0 0 = false ∧
    (({ drams := [(0, { refreshAt := [(0, 0)] })] } : State).stack 0).refreshAt.find? (·.1 = 0) = some (0, 0) ∧
    s.bellCount.toNat < (0 : Word).toNat + 2 ∧ (s.stack 0).refreshAt = [] := by decide +kernel

/-- Windows soon, later and due; each trigger; trainings that pass and fail; a channel retired; a stripe on, unused and used. -/
theorem test_met_DramChannelsServe_windows :
    let s := dram {}
    let due := dram { window := some 0 }
    s.bellCount.toNat + 262144 = 262144 ∧ (s.stack 0).lastWin = none ∧ (s.chan 0 0).window = none ∧ s.dark = false ∧
    bit ((withFields [(Fd.dramRetired 0, 1)]).reg (Fd.dramRetired 0).addr) 0 = true ∧ s.openChan 0 = none ∧
    (dram { isOpen := true, window := some 0 }).openChan 0 = some 0 ∧
    due.nextWindow 0 (fun w => decide (due.dark = true ∨ w ≤ due.bellCount.toNat)) = some 0 ∧
    s.nextWindow 0 (fun w => decide (s.dark = true ∨ w ≤ s.bellCount.toNat)) = none ∧ due.rd (Fd.dramStackStatusState 0) = dsInService ∧
    (due.chan 0 0).training = false ∧ (withFields [(Fd.dramStackStatusState 0, dsUntrained)]).rd (Fd.dramStackStatusState 0) = dsUntrained ∧
    (∀ n ∈ [1, 2, 3, 4, 5], ((dram { trigger := some n }).chan 0 0).trigger = some n) ∧ ((dram { training := true }).chan 0 0).training = true ∧
    wiresFail ⟨[0, 1], 1⟩ = false ∧ wiresFail ⟨[0, 1, 2], 0⟩ = true ∧ wiresFail ⟨[], 2⟩ = true ∧ s.reaches (Fd.dramChanCmdGo 0).addr = true ∧
    s.rd (Fd.dramChanCmdState 0) ≠ 1 ∧ (withFields [(Fd.dramChanCmdState 0, 1)] s).rd (Fd.dramChanCmdState 0) = 1 ∧
    (withFields [(Fd.dramStackStatusStripeOn 0, 1)]).flag (Fd.dramStackStatusStripeOn 0) = true ∧
    s.flag (Fd.dramStackStatusStripeUsed 0) = false ∧ s.flag (Fd.dramStackStatusStripeOn 0) = false ∧
    ({ lines := [(0, aLine)] } : State).line 0 = some aLine ∧ 0 / 2 ^ 29 = 0 ∧ chanOf 0 = 0 := by decide +kernel

/-- What firmware offers: a legal leaf of the context's tenancy; one of another tenancy; one of no size; one that a shootdown covers. -/
def offers (leaf : Nat) (size : Nat) : State := withFields [(Fd.xlatFillLeaf, leaf), (Fd.xlatFillVaSize, size)]
  { xl := { tickets := [⟨5, 0, 0, 1, 0, false⟩], shoot := some ⟨1, 0, 0, [], [], [], []⟩ } }

theorem test_met_WalkerCommands :
    let leaf := 0xB000000000000000
    let s := offers leaf 1
    let k : Ticket := ⟨5, 0, 0, 1, 0, false⟩
    s.down.isNone = true ∧ s.xl.stalled = [] ∧ (s.rd Fd.xlatRingPtrHead + 1) % s.ringSize ≠ (0 : BitVec 16).toNat % s.ringSize ∧
    s.ticket? 5 = some k ∧ s.ticket? 6 = none ∧ (4 : Byte).toNat = stFault ∧ (0 : Byte).toNat ∉ [stFault, stTenancy, stNotPermitted, stUnmapped] ∧
    s.leafBad = false ∧ (offers leaf 0).leafBad = true ∧ leafTen (s.reg Fd.xlatFillLeaf.addr) = s.tenancy 0 ∧
    leafTen ((offers (leaf + 2 ^ 33) 1).reg Fd.xlatFillLeaf.addr) ≠ s.tenancy 0 ∧ (offers (leaf + 2 ^ 33) 1).leafBad = false ∧
    (⟨1, 0, 0, [], [], [], []⟩ : Shoot).covers 0 0 1 = true ∧ (⟨1, 0, 0, [], [], [], []⟩ : Shoot).covers 1 0 1 = false ∧ ({ tickets := [k] } : Xlat).shoot = none ∧ s.fab.inbound = [] ∧ s.ops = [] ∧
    s.rd Fd.xlatShootCmdState ≠ 1 ∧ s.rd Fd.xlatShootVaPage + (1 : BitVec 32).toNat ≤ 2 ^ 32 ∧
    2 ^ 32 < (withFields [(Fd.xlatShootVaPage, 2 ^ 32 - 1)] s).rd Fd.xlatShootVaPage + (2 : BitVec 32).toNat := by decide +kernel

/-- A transfer on a ticket, an access that waits for one alone, and one that a shootdown waits for. -/
theorem test_met_WalkerCommands_operations :
    let o : Op := { anOp .move .running with chunks := [{ num := 0, ticket := some 5 }] }
    let m : Op := { anOp .ld .missed with ticket := some 5 }
    let s : State := { offers 0 0 with ops := [m], strands := [(0, { phase := 1 })] }
    let x : Shoot := ⟨1, 0, 0, [], [7], [], []⟩
    x.blocks { m with phase := .ready } = true ∧ x.blocks m = false ∧ (({ s with ops := [] } : State).shootYields x).fab.inbound = [] ∧
    ({ s with ops := [o] } : State).op? 7 = some o ∧ o.detached = false ∧ m.onTicket 5 = true ∧ m.curTick = none ∧ m.lost = false ∧
    ((s.strand 0 0).wait = none) ∧ (anOp .ld .ready).onTicket 5 = false := by decide +kernel

/-- A migration to page 1 of stack 0 from device 0, and one from an odd address; a page size 1 and 0; pieces left and none. -/
theorem test_met_WalkerCommands_migration :
    let s := withFields [(Fd.xlatMigDstFrame, 1)]
    let t : State := { pad (withFields [(Fd.xlatMigDstFrame, 0x1000000)]) with xl := { migOp := some (1, 1) } }
    s.rd Fd.xlatMigCmdState ≠ 1 ∧ (s.reg Fd.xlatMigSrc.addr).toNat % 65536 = 0 ∧ s.migLocal 0 % 65536 = 0 ∧ isSiteWin (s.migLocal 0) = false ∧
    s.frameOk (s.migLocal 0) 65536 = true ∧ ((withFields [(Fd.xlatMigSrc, 4096)] s).reg Fd.xlatMigSrc.addr).toNat % 65536 ≠ 0 ∧
    s.xl.migOp = none ∧ t.xl.migNext < migPieces 1 ∧ migPieces 1 ≤ 16 ∧ t.servedSpan (bankHalf (bankOf (t.migLocal 0))) (t.migLocal 0) 4096 .write = .ok ∧
    isScratch (t.migLocal 0) = true ∧ isScratch (t.migLocal 0 + 4095) = true ∧
    ({ t with regs := s.regs } : State).servedSpan 0 (0x10000000000) 4096 .write ≠ .ok := by decide +kernel

/-- Site 0 running with every capability, a window of 64 KiB at the scratchpad that permits everything, and a credit. -/
def sited (acc : Nat) : State := { pad (withFields [(Fd.siteStatusState 0, ssRunning), (Fd.siteBundlesIn 0, 2 ^ 32 + 1), (Fd.siteCapsEnabled 0, 0x3FF),
    (Fd.hurdleWinEn 0 0, 1), (Fd.hurdleWinBase 0 0, 0x1000000), (Fd.hurdleLimLimit 0 0, 0x1000000), (Fd.hurdleWinR 0 0, 1),
    (Fd.hurdleWinW 0 0, 1), (Fd.hurdleWinAtom 0 0, 1), (Fd.hurdleWinAccum 0 0, 1), (Fd.hurdleWinRange 0 0, 1), (Fd.hurdleWinAcc 0 0, acc),
    (Fd.hurdleDbEn 0, 1), (Fd.hurdleDbHi 0, 127), (Fd.hurdleDbStrands 0, 255), (Fd.hurdleMbox 0, 1)]) with
  tally := { copies := [(0, 1)] }, sites := [(0, { ups := [(0, { credit := [(1, 1)] })], lrst := true, pg := true })] }

def siteAt (a : BitVec 48) (aux : Word) : SiteCmd := { aSite with addr := a, aux }

/-- Each command of Table 14.6 in its window and permitted; outside every window; not enabled; a region of the wrong kind. -/
theorem test_met_SiteRequestsAndReplies :
    let s := sited 0
    let c := siteAt 0x10000000000 0x18
    s.rd (Fd.siteStatusState 0) = ssRunning ∧ s.downIn 0 0 = true ∧ s.upIn 0 0 = true ∧ (List.range 10).all (s.siteHas 0) = true ∧
    ({} : State).siteHas 0 0 = false ∧ (∀ code ∈ [scRead, scWrite, scAtomic], s.window 0 c.addr.toNat (cmdSpan code c) = some 0 ∧
      s.hurdle 0 0 code c = stOk ∧ cmdForm code 0 c = stOk) ∧ s.window 0 0 (cmdSpan scRead c) = none ∧
    (sited 9).hurdle 0 0 scWrite c ≠ stOk ∧ (sited 9).hurdle 0 0 scSettle c = stOk ∧ (sited 9).hurdle 0 0 scAccum c = stOk ∧
    (sited 0xB).hurdle 0 0 scAccum (siteAt 0x10000000000 1) = stOk ∧ s.hurdle 0 0 scAccum c = stAccRegion ∧
    s.servedSpan 0 c.addr.toNat (cmdSpan scRead c 0) .read = .ok ∧ s.servedSpan 0 c.addr.toNat (cmdSpan scWrite c 0) .write = .ok ∧
    s.servedSpan 0 c.addr.toNat (cmdSpan scAtomic c 0) .update = .ok ∧ s.servedSpan 0 c.addr.toNat 128 .update = .ok ∧ isScratch (c.addr.toNat + cmdBytes c - 1) = true ∧
    ((s.site 0).up 0).wait = [] ∧ ((s.site 0).up 0).held.length < 256 ∧ 0 < Tab.get (fun _ => 0) ((s.site 0).up 0).credit 1 ∧
    s.resetPaddocks.contains 0 = false ∧ s.doorbellOk 0 0 7 = true ∧ s.doorbellOk 0 1 0 = false ∧ s.cutFrom 0 0 = false ∧
    s.rdBit (Fd.hurdleMbox 0) 0 = true ∧ s.rdBit (Fd.hurdleMbox 0) 1 = false ∧ (s.rangeQ 0).length < 64 := by decide +kernel

/-- A request of a site that awaits its reply, a read and a write; one Bell before its Round ends, and at its end. -/
theorem test_met_SiteRequestsAndReplies_reply : ∀ wr ∈ [true, false],
    let o := anOp (if wr then .st else .ld) .remote
    let q : SiteReq := { site := 0, tag := 3, op := 7, chunk := 0, write := wr, addr := 0x20000000000, bytes := 8, mbox := none, sent := 0 }
    let s (n : Nat) : State := { withFields [(Fd.bellCount, n)] (sited 0) with ops := [o], siteReqs := [q] }
    (s 0).siteReq? 0 3 = some q ∧ (s 0).siteReq? 0 4 = none ∧ q.mbox = none ∧ q.inb = none ∧ (s 0).op? q.op = some o ∧
    isXferOp o.code = false ∧ (s 65535).bellCount.toNat < q.sent.toNat + 65536 ∧ q.sent.toNat + 65536 ≤ (s 65536).bellCount.toNat := by
  decide +kernel

/-- Links live and down; a repair due; every bundle but one out; a handshake awaited; a temperature long ago; a level that changes. -/
theorem test_met_SiteLinksAndSideband :
    let s := sited 0
    let due : State := { s with sites := [(0, { ups := [(0, { due := true })], downs := [(0, { due := true })], lrst := true, awaits := true })] }
    let two := withFields [(Fd.siteBundlesIn 0, 3 * 2 ^ 32 + 3)] s
    let old : State := withFields [(Fd.bellCount, 65536)] { s with sites := [(0, { lrst := true, stale := false })] }
    s.linksUp 0 = true ∧ s.rdBit (Fd.siteBundlesIn 0) 32 = true ∧ s.rdBit (Fd.siteBundlesIn 0) 0 = true ∧ s.rdBit (Fd.siteBundlesIn 0) 31 = false ∧
    ({} : State).linksUp 0 = false ∧ s.replyBundle 0 0 = some 0 ∧ s.reaches (Fd.siteCmdGo 0).addr = true ∧ s.rd (Fd.siteCmdState 0) ≠ 1 ∧
    s.bundlesLeft 0 true = 1 ∧ s.bundlesLeft 0 false = 1 ∧ two.bundlesLeft 0 true = 2 ∧
    (two.wrBit (Fd.siteBundlesIn 0) (bundleBit true 0) false).bundlesLeft 0 true ≠ 0 ∧ ((due.site 0).up 0).due = true ∧
    ((due.site 0).down 0).due = true ∧ (due.site 0).awaits = true ∧ (s.site 0).awaits = false ∧ s.siteHas 0 9 = true ∧
    (old.rd (Fd.siteStatusState 0) = ssRunning ∧ (old.site 0).stale = false ∧ (old.site 0).heard.toNat + 65536 ≤ old.bellCount.toNat) ∧
    (s.site 0).pg = true ∧ (due.site 0).pg = false ∧ s.siteHas 0 7 = true ∧ s.rd (Fd.sitePwrLevel 0) = s.siteLevel 0 ∧
    (withFields [(Fd.sitePwrLevel 0, 3)] s).rd (Fd.sitePwrLevel 0) ≠ s.siteLevel 0 := by decide +kernel
/-- Held packets behind and ahead of an acknowledgement; a closed bundle; trainings to each width and to none; frames that can be
heard and not; capabilities with and without bit 0; a drop of a rail under nine tenths, and above. -/
theorem test_met_SiteLinksAndSideband_frames :
    let s := sited 0
    let p (n : Nat) : Slp := ⟨n, 1, none, []⟩
    let t (ws : List (Fin 256)) : BundleTraining := ⟨ws, false, false, false, false⟩
    (([p 3, p 4] : List Slp) = [p 3] ++ p 4 :: [] ∧ (p 3).seq ≠ 4 ∧ (p 4).seq = 4) ∧ (∀ q ∈ [p 3], q.seq ≠ 5) ∧ ((s.site 0).up 0).wait = [] ∧
    (s.linksUp 0 = true ∧ s.rdBit (Fd.siteBundlesIn 0) 32 = true) ∧ s.downIn 0 0 = true ∧ trainedWidth (t []) = 256 ∧ trainedWidth (t [0, 1, 2, 3]) = 256 ∧
    trainedWidth (t (((List.range 9).map fun i => (⟨i % 256, by omega⟩ : Fin 256)))) = 128 ∧
    trainedWidth { t [] with c1 := true } = 0 ∧ s.sideband? 0 false ≠ none ∧ s.sideband? 0 true ≠ none ∧ ({} : State).sideband? 0 false = none ∧
    (1 : BitVec 16).getLsbD 0 = true ∧ (2 : BitVec 16).getLsbD 0 = false ∧ s.bundlesLeft 0 true = 1 ∧
    (let r : State := { s with loaded := some default }; 9 * r.railMv 0 0 ≤ 10 * (450 : BitVec 16).toNat ∧ 10 * (449 : BitVec 16).toNat < 9 * r.railMv 0 0) := by decide +kernel

/-- An isolated Seam and a line of the other half; a range queue with 64 requests; a Drover of the other half for a doorbell. -/
theorem test_met_SiteRequestsAndReplies_cut :
    let s := withFields [(Fd.seamStatusIsolated, 1)] (sited 0)
    let r : RangeReq := { cmd := 1, line := 0, count := 1, op := none, begun := false, touched := 0, fails := 0 }
    s.flag Fd.seamStatusIsolated = true ∧ 2 ^ 38 / 2 ^ 38 ≠ 0 / 2 ∧ (sited 0).flag Fd.seamStatusIsolated = false ∧
    64 ≤ (({ ranges := [(0, List.replicate 64 r)] } : State).rangeQ 0).length ∧ (sited 0).rangeQ 0 = [] ∧
    ({ s with tally := { copies := [(0, 65)] } } : State).cutFrom 0 0 = true ∧ (sited 0).siteHas 0 8 = true ∧ aSite.poison = 0 ∧
    (withFields [(Fd.pwrStatusState, 2)] (sited 0)).servedSpan 0 0x10000000000 32 .read = .fails 0x13 := by decide +kernel


/-! ### Hypotheses met: groups, mailboxes, power, starts and management -/

/-- A group whose release is due, is forced and due, and is still to come; its line in the scratchpad. -/
theorem test_met_MusterAndMailboxes :
    let s (g : Group) : State := withFields [(Fd.bellCount, 5), (Fd.musterLineLine 0, 0x200000000), (Fd.musterCfgEn 63, 1)]
      { fab := { groups := [(0, g)] } }
    let r := s { release := some 5 }
    let site (st : Nat) : State := withFields [(Fd.siteStatusState 0, st), (Fd.siteCapsEnabled 0, 0x20)]
    (r.group 0).release = some 5 ∧ (5 : Word).toNat ≤ r.bellCount.toNat ∧ r.bellCount.toNat < (6 : Word).toNat ∧
    r.rd (Fd.musterLineLocal 0) = 0 ∧ r.rd (Fd.musterLineDown 0) = 0 ∧ isScratch (r.groupLine 0 + 8) = true ∧ isScratch (r.groupLine 0 + 15) = true ∧
    r.reaches Fd.musterCmdGo.addr = true ∧ r.rd Fd.musterCmdState ≠ 1 ∧ r.flag (Fd.musterCfgEn 63) = true ∧ r.flag (Fd.musterCfgEn 0) = false ∧
    (withFields [(mfState 52, msFull)]).rd (mfState 52) = msFull ∧ ({} : State).rd (mfState 52) ≠ msFull ∧
    mboxSite 32 = some 0 ∧ mboxSite 47 = some 3 ∧ mboxSite 48 = none ∧ mboxSite 60 = some 0 ∧ mboxSystem 60 = true ∧ mboxSystem 47 = false ∧
    (∀ st ∈ [ssUnpopulated, ssHsFailed, ssHeld, ssRunning], (site st).rd (Fd.siteStatusState 0) = st) ∧ (site 5).siteHas 0 5 = true ∧
    (site 5).resetPaddocks.contains 0 = false ∧ ((site 5).mbox 60).sending.isNone = true ∧
    ((5 : BitVec 5).toNat < 8 ∧ 16 < (17 : BitVec 5).toNat) ∧ (8 ≤ (8 : BitVec 5).toNat ∧ (16 : BitVec 5).toNat ≤ 16) := by decide +kernel

/-- A zone monitored and not; readings at both ends of the range and past them; a change that waits; a Pen that is idle in P1. -/
theorem test_met_HeatAndPower :
    let s := withFields [(Fd.modStatusReady, 1)]
    let z : State := { zones := [(0, { next := some 1 })] }
    let p1 := withFields [(Fd.pwrStatusState, 1)]
    s.monitored 0 = true ∧ ({ s with down := some .powerFail } : State).monitored 0 = false ∧
    (readingOk (-160) = true ∧ readingOk 600 = true ∧ readingOk (-161) = false ∧ readingOk 601 = false) ∧
    (z.zone 0).next = some 1 ∧ z.rd (Fd.thermZoneState 0) = 0 ∧ (s.zone 0).next = none ∧ p1.pwr = psP1 ∧ p1.ops = [] ∧
    (∀ i ∈ List.range 64, (p1.strand (i / 8) (i % 8)).phase = phIdle) ∧
    (∀ i ∈ List.range 32, (p1.bank i).misses = [] ∧ (p1.bank i).queue = []) ∧ s.down.isNone = true ∧
    s.flag Fd.pwrStatusMoving = false ∧ (withFields [(Fd.pwrStatusMoving, 1)]).flag Fd.pwrStatusMoving = true ∧
    ({ s with move := some (psP1, 5) } : State).bellCount.toNat < (5 : Word).toNat ∧ s.pwr < psP3 ∧ s.busyForSleep = false ∧
    s.inboundStreams = false ∧ (running {}).busyForSleep = true ∧ (withFields [(Fd.isEn 255, 1)]).inboundStreams = true := by decide +kernel

/-- A target Bell one too near, the nearest, the farthest and one too far (Table 17.10). -/
theorem test_met_HeatAndPower_bells :
    let s (b : Nat) := withFields [(Fd.modStatusReady, 1), (Fd.pwrBell, b)]
    (s 1).pwrRefusal psP1 true = 5 ∧ (s 2).pwrRefusal psP1 true = 0 ∧ (s 1048576).pwrRefusal psP1 true = 0 ∧
    (s 1048577).pwrRefusal psP1 true = 6 ∧ (s 0).pwrRefusal psP0 false = 2 := by decide +kernel

def anImage : Image := ⟨0, 1, 0, true, true⟩
def aKey (r : KeyRole) : Nat × KeySlot := (0, ⟨r, true⟩)
def aRecord (r : KeyRole) : ModuleRecord := { (default : ModuleRecord) with keys := [aKey r], certified := true }

/-- Each stage at which a start waits; a start that failed; images that verify; both sides of 150 mJ and of the third attempt. -/
theorem test_met_StartsAndResets :
    (∀ n ∈ List.range 5, (withFields [(Fd.modStatusStage, n)]).atStage n = true) ∧
    (withFields [(Fd.modStatusStage, 0)]).atStage 1 = false ∧ ({} : State).crook.fromFour = false ∧ ({} : State).mram.attempts < 2 ∧
    (let s : State := { flash := { images := [(2, anImage), (4, anImage), (6, anImage)] } }
     (s.loadImage imCrook).1 = true ∧ (s.loadImage imWalker).1 = true ∧ (s.loadImage imMgmt).1 = true) ∧
    seamRows ⟨true, true, true, [65, 65, 65, 65]⟩ = [] ∧ seamRows ⟨true, true, true, [64, 65, 65, 65]⟩ = [0] ∧
    (let s := withFields [(Fd.modStatusReady, 1), (Fd.drvStatusState 0 0, 1), (Fd.isEn 0, 1), (Fd.isStacks 0, 1)]
     s.down.isNone = true ∧ s.fallow = false ∧ s.pwr < psP2 ∧ s.resetting.isNone = true ∧ s.drvState 0 = 1 ∧ s.streamsName 0 = true ∧
     s.streamsName 1 = false ∧ s.resetRefusal 1 127 false = 0 ∧ s.resetRefusal 1 128 false = 2 ∧ s.resetRefusal 2 15 false = 0 ∧
     s.resetRefusal 2 16 false = 2 ∧ s.resetRefusal 3 3 false = 0 ∧ s.resetRefusal 3 4 false = 2 ∧ s.resetRefusal 3 0 false = 5 ∧
     s.resetRefusal 3 0 true = 0 ∧ s.resetRefusal 1 0 false = 6) ∧
    (let s := withFields [(Fd.sitePwrHeld 0, 0)] { sites := [(0, { release := true, shaken := true })] }
     (s.site 0).release = true ∧ s.resetPaddocks.contains 0 = false ∧ s.rd (Fd.sitePwrHeld 0) ≠ 1 ∧ (s.site 0).shaken = true) := by
  decide +kernel

/-- The stages' outcomes: no spare rows used, a Drover that passes, none. -/
theorem test_met_StartsAndResets_stages :
    let s : State := { loaded := some (aRecord .owner) }
    let r2 : S2Result := ⟨[], [], [], [], [], none, 200⟩
    s.sparedBanks r2 = [] ∧ (∀ k ∈ List.range 8, (s.retiredAt r2 k).length ≤ 8) ∧
    ((List.range 128).filter fun d => (1 : BitVec 128).getLsbD d && !s.record?.badDrovers.contains d) = [0] ∧
    ((List.range 128).filter fun d => (0 : BitVec 128).getLsbD d && !s.record?.badDrovers.contains d) = [] := by decide +kernel

/-- S0 with the keys in order, and with the PUF failing; both sides of the hold-up; a failed start to be tried again; a reset under
way, and one that waits for zeroising or for a window; a channel of a stack over its 8 retirements. -/
theorem test_met_StartsAndResets_s0 :
    let r : S0Result := ⟨true, true, true, true, true, true, true, [], true, true, true, 334, 0⟩
    let s : State := { withFields [(Fd.modStatusStage, 0)] with
      flash := { recA := some { aRecord .owner with seq := 1 }, recB := some (aRecord .owner) } }
    let keys (x : S0Result) := ((s.wr Fd.pwrStatusPfSeen 0).s0Keys x).1
    s.atStage 0 = true ∧ keys r = none ∧ keys { r with pufOk := false } = some (2, 1) ∧ keys { r with rootOk := false } = some (3, 3) ∧
    150 ≤ energyOf r.capUf.toNat ∧ energyOf 333 < 150 ∧ ({ s with crook := { fromFour := true } } : State).crook.fromFour = true ∧
    ({ s with crook := { failed := true } } : State).crook.failed = true ∧ (3 : Nat) ≤ ({ attempts := 3 } : Mram).attempts ∧
    ({ s with resetting := some (3, 0, true, false) } : State).resetting = some (3, 0, true, false) ∧
    (dram { isOpen := true }).openChan (2 * 0) ≠ none ∧ s.openChan 0 = none ∧
    (let r2 : S2Result := ⟨[], [], [], (List.range 9).map (fun i => (0, ⟨i % 64, Nat.mod_lt _ (by decide)⟩, 2)), [], none, 200⟩
     8 < (({ s with loaded := some (aRecord .owner) } : State).retiredAt r2 0).length) := by decide +kernel

/-! ### Hypotheses met: the recorder, sessions and debug -/

/-- A record that is open, and its age: before and after 1 ms. -/
def aRec (seq : Nat) : Rec := ⟨seq, 0x8000, euAux, 5, 1, true, false, false, true, 0, 0, 0, 0, 7, 0, 0, 1⟩

theorem test_met_RecorderAndRestart :
    let s (l : List Rec) (t : Nat) : State := withFields [(Fd.logEnd, 9)] { log := { buffer := l, time := t } }
    let b : Bucket := { rate := 16, burst := 64, tokens := 0 }
    ¬((s [aRec 1] 1000000).log.time < (aRec 1).opened + 1000000) ∧ (s [aRec 1] 999999).log.time < (aRec 1).opened + 1000000 ∧
    (aRec 1).isOpen = true ∧ (aRec 1).seq = 1 ∧ (aRec 2).seq ≠ 1 ∧ (s [] 0).flag Fd.logStatusFull = false ∧ (s [] 0).log.dropped = 0 ∧
    (s [] 0).log.written < 65534 ∧ noBucket 0x8000 = false ∧ b.tokens < max b.burst 1 ∧ 1000000000 ≤ (62500000 - b.since) * b.rate ∧
    1000000000 > (62499999 - b.since) * b.rate ∧ ({ b with waiting := 3 } : Bucket).waiting ≠ 0 ∧ (s [] 0).log.buffer.length < 4096 ∧
    ({ log := { service := [(0, some (aRec 1))], queues := [(0, [aRec 2])] } } : State).service 0 = some (aRec 1) ∧ (aRec 2).sev ≤ 5 ∧
    ({ log := { service := [(0, some (aRec 1))], queues := [(0, [aRec 2])] } } : State).queue 0 = [aRec 2] ∧ (s [] 0).service 0 = none ∧
    (bit (0x8001800000000007 : Word) 63 = true ∧ 0x8000 ≤ bits (0x8001800000000007 : Word) 47 32 ∧ bits (0x8001800000000007 : Word) 51 48 ≤ 5) ∧
    (bit (0x8006800000000007 : Word) 63 = true ∧ 5 < bits (0x8006800000000007 : Word) 51 48) ∧ bit (0x800000000007 : Word) 63 = false ∧
    (s [] 0).log.stopped = false ∧ ((aRec 1).unit = euAux ∧ (aRec 1).code = 0x8000 ∧ (aRec 1).p0 = 7) ∧
    (aRec 2).matches 0 euAux 0x8000 8 = false ∧ ({ crook := { serving := true } } : State).managed = true ∧ ({} : State).managed = false ∧
    (∀ slot ∈ [0, 1], let s : State := { flash := { images := [(2 * imMgmt, anImage), (2 * imMgmt + 1, anImage)] } }; s.imageFault (s.image imMgmt slot) = 0) ∧
    (let s : State := { flash := { images := [(2 * imMgmt, { anImage with sigOk := false })] } }; s.imageFault (s.image imMgmt 0) ≠ 0) := by
  decide +kernel

/-- A module that serves, with a session, its last answer, and a nonce. -/
def served_ : State := { withFields [(Fd.logFirst, 1), (Fd.logEnd, 9)] with
  loaded := some (aRecord .operator)
  crook := { serving := true, sessions := [⟨1, 5, [⟨0, 0x12, 5, 1, 0, 0, []⟩], 0⟩], nonces := [(7, 0)], subs := [(1, 1)] }
  log := { log := [aRec 3], buffer := [aRec 8], time := 60000000000 } }

/-- A request of the session that rises, one answered before, one that does not rise, one of another session, and one whose tag
fails; a session and a nonce in time and expired. -/
theorem test_met_SessionCommands :
    let s := served_
    s.managed = true ∧ s.crook.zeroing = false ∧ s.fallow = false ∧ ({ s with crook := { s.crook with zeroing := true } } : State).crook.zeroing = true ∧
    s.crook.sessions.find? (fun y => y.id = 1) = some ⟨1, 5, [⟨0, 0x12, 5, 1, 0, 0, []⟩], 0⟩ ∧ (∀ x ∈ s.crook.sessions, x.id ≠ 2) ∧
    (withFields [(Fd.modStatusFallow, 1)] s).fallow = true ∧ (aHdr.auth = 1 ∧ aHdr.authOk = true) ∧ 5 < 6 ∧ ¬(6 : Nat) ≤ 5 ∧
    (⟨0, 0x12, 5, 1, 0, 0, []⟩ : DfpResp).reqId = 5 ∧ (s.rd Fd.logFirst ≤ 3 ∧ 3 < s.rd Fd.logEnd ∧ s.log.log.find? (fun y => y.seq = 3) = some (aRec 3)) ∧
    ((∀ y ∈ s.log.log, y.seq ≠ 8) ∧ s.log.buffer.find? (fun y => y.seq = 8) = some (aRec 8)) ∧ (1, 1) ∈ s.crook.subs ∧ (0, 1) ∉ s.crook.subs ∧
    s.crook.subs.length < 4 ∧ ((52 : Fin 64).val < 60 ∧ 60 ≤ (60 : Fin 64).val ∧ (51 : Fin 64).val < 52) ∧
    ({ s with log := { s.log with time := 300000000000 } } : State).log.time ≥ 0 + 300000000000 ∧ s.log.time < 0 + 300000000000 ∧
    (0 : Nat) + 60000000000 ≤ s.log.time := by decide +kernel

/-- An operator's key and one that does not open; 8 sessions; an address of the port and one of none; a prefix heard and not; a
link up and down; a failure noted in the last minute and before. -/
theorem test_met_OpenCommandsAndPorts :
    let s : State := { served_ with ports := { prefixes := [(0, 5)], up := [1], anFail := [(1, 0)] } }
    s.keyRole 0 = some .operator ∧ s.keyRole 1 = none ∧ s.crook.s0Fail = 0 ∧ s.crook.sessions.length < 8 ∧ ((s.portAddrs 0)[0]?).isSome = true ∧
    (0 : BitVec 128) ∉ s.portAddrs 0 ∧ (0, (5 : BitVec 64)) ∈ s.ports.prefixes ∧ (1, (5 : BitVec 64)) ∉ s.ports.prefixes ∧ 1 ∈ s.ports.up ∧
    0 ∉ s.ports.up ∧ (∃ e ∈ s.ports.anFail, e.1 = 1 ∧ s.log.time - 1 < e.2 + 60000000000) ∧
    (∀ e ∈ s.ports.anFail, e.1 = 1 → e.2 + 60000000000 ≤ s.log.time) := by decide +kernel

/-- Who may sign, and who may not; a nonce in time and none; the gate of the Bell block, and an address of none; each section of the
record; a transition of Table 16.6 from the present state and one from another; the staged image and the running one. -/
theorem test_met_SignedCommands :
    let s (r : KeyRole) : State := { withFields [(Fd.fabGeomDevice, 0)] served_ with
      loaded := some (aRecord r), crook := { served_.crook with nonces := [(0, 1)], running := [(imageCode .walker, { anImage with header := 9 })] }
      flash := { images := [(2 * imageCode .walker, anImage), (2 * imageCode .walker + 1, anImage)] } }
    let h : DfpHdr := { aHdr with auth := 2 }
    (h.auth = 2 ∧ h.authOk = true ∧ (s .owner).keyRole h.slot = some .owner ∧ KeyRole.owner ∈ [KeyRole.owner, .niruaService]) ∧
    (s .operator).keyRole h.slot = some .operator ∧ KeyRole.operator ∉ [KeyRole.owner, .niruaService] ∧ (s .niruaMfg).keyRole 0 = some .niruaMfg ∧
    (∃ e ∈ (s .owner).crook.nonces, e.1 = h.nonce ∧ (s .owner).log.time < e.2 + 60000000000) ∧ h.device.toNat = (s .owner).device ∧
    (∀ e ∈ (s .owner).crook.nonces, e.1 ≠ 1) ∧ gateAt bellBlk.base = some (bellBlk, 0) ∧ gateAt 0 = none ∧
    stMask Fd.bellCfgRole.addr ≠ 0 ∧ stMask (bellBlk.base + 8) = 0 ∧ (s .owner).reaches bellBlk.base = true ∧
    (withFields [(Fd.pwrStatusState, 3)] (s .owner)).reaches bellBlk.base = false ∧ (s .owner).fallowLow = false ∧
    (withFields [(Fd.modStatusFallow, 1)] (s .owner)).fallow = true ∧ lifecycleRoles lcSealed lcReturned = [.owner] ∧ lifecycleRoles lcBlank lcReturned = [] ∧
    ({ (s .owner) with mram := { lifecycle := lcSealed } } : State).mram.lifecycle = lcSealed ∧
    (s .owner).imageFault ((s .owner).image (imageCode .walker) 1) = 0 ∧ ((s .owner).image (imageCode .walker) 1).header = 0 ∧
    ((s .owner).crook.running.find? (fun e => e.1 = imageCode .walker)).map (·.2) = some { anImage with header := 9 } ∧
    (s .owner).counter 0 ≤ anImage.svn.toNat ∧ ({ (s .owner) with mram := { counters := [(0, 2)] } } : State).counter 0 = 2 := by decide +kernel

/-- Each level; a token that fits; an address of a stack, of a register, of management memory and of a site; a scope that covers it
and none; a raise that waits; a trace that is on, with room and full. -/
theorem test_met_DebugAndTrace :
    let s (lv : Nat) : State := { withFields [(Fd.secStatusLevel, lv), (Fd.secStatusScope, 0x3F), (Fd.traceCtlEn, 1), (Fd.traceCtlKinds, 16), (Fd.traceCtlPens, 1),
      (Fd.traceCtlSample, 1), (Fd.bellCount, 65536)] served_ with crook := { served_.crook with nonces := [(0, 1)] }, mram := { lifecycle := lcInspect } }
    let r : TraceRec := ⟨5, some 0, 0, 0, 0, 0, 0, default, 0⟩
    let scratch := 0x10000000000
    (s 2).rd Fd.secStatusLevel = 2 ∧ (s 1).rd Fd.secStatusLevel = 1 ∧ (s 2).rdBit Fd.secStatusScope 5 = true ∧
    ({} : State).rdBit Fd.secStatusScope 4 = false ∧ (s 2).mram.lifecycle ≠ lcBlank ∧ ({} : State).mram.lifecycle = lcBlank ∧
    (∃ n ∈ (s 2).crook.nonces, n.1 = (0 : BitVec 128) ∧ (s 2).log.time < n.2 + 60000000000) ∧ (0 : BitVec 14).toNat = (s 2).device ∧
    ({ s 2 with loaded := some (aRecord .debug) } : State).keyRole 0 = some .debug ∧ isSiteWin 0x20000000000 = true ∧ isSiteWin scratch = false ∧
    (s 2).scopesOf scratch = [0] ∧ (s 2).paddockAt scratch = some 0 ∧ (∀ k ∈ (s 2).scopesOf 0x40000000000, (s 2).rdBit Fd.secStatusScope k = true) ∧
    isMgmtMem 0x40000000000 = true ∧ findBlk scratch = none ∧ isRegSpace bellBlk.base = true ∧
    (withFields [(Fd.pwrStatusState, 3)] (s 2)).dbgAsleep scratch = true ∧ (s 2).dbgAsleep scratch = false ∧ (s 2).dbgMem scratch true ≠ stOk ∧
    (pad (s 2)).dbgMem scratch true = stOk ∧ ({ s 2 with resetPaddocks := [0] } : State).resetPaddocks.contains 0 = true ∧
    ({ raise := some (.read 0) } : Crook).raise = some (.read 0) ∧ psP2 ≤ (withFields [(Fd.pwrStatusState, 2)]).pwr ∧
    (withFields [(Fd.pwrStatusState, 3)]).waking = false ∧ (s 2).flag Fd.traceCtlEn = true ∧ (s 2).rdBit Fd.traceCtlKinds (r.kind.toNat - 1) = true ∧
    (s 2).rdBit Fd.traceCtlPens 0 = true ∧ (s 2).trace.length < 2048 ∧ (s 2).flag Fd.traceCtlWrap = false ∧
    (withFields [(Fd.traceCtlWrap, 1)] (s 2)).flag Fd.traceCtlWrap = true ∧ (s 2).rd Fd.traceCtlSample ≠ 0 ∧
    (s 2).crook.sampled + (s 2).rd Fd.traceCtlSample ≤ (s 2).bellCount.toNat / 65536 ∧ (s 2).rd Fd.traceCtlPens = 2 ^ 0 := by decide +kernel

/-! ### Hypotheses met: every command, every state -/

/-- A state in canonical form that steps, and the state it steps to. -/
theorem test_met_StepKeepsWf : ∃ s t : State, s.wf = true ∧ s.pending ≠ [] ∧ step s = .next t ∧ t ≠ s :=
  ⟨State.reset.front (.tapBypass), _, by decide +kernel, by decide +kernel, rfl, by decide +kernel⟩

/-- A Sealed module that its owner has returned: the lifecycle state changes, and with it the epoch. -/
def sealed_ : State := { withFields [(Fd.fabGeomDevice, 0)] served_ with
  loaded := some (aRecord .owner), mram := { lifecycle := lcSealed }, crook := { served_.crook with nonces := [(0, 1)] } }

/-- A state of a lifecycle state. -/
def Life (b : Nat) (s : State) : Prop := s.mram.lifecycle = b

theorem Life.kept {b m : Nat} {s t : State} (h : Onward m s t) (hm : m.testBit Part.mram.ctorIdx = false) (k : Life b s) : Life b t := by
  unfold Life at *
  rw [show t.mram = s.mram from h.within .mram hm, k]

theorem Life.of {b : Nat} {s t : State} (h : t.mram.lifecycle = s.mram.lifecycle) (k : Life b s) : Life b t := h.trans k

theorem Life.setMem {b : Nat} {y : State} (l : List Host.Cell) (h : Life b y) : Life b { y with mem := l } := h

theorem transitTo_life (s : State) (b : Nat) : Life b (s.transitTo b) := by
  unfold State.transitTo
  extract_lets +onlyGivenNames a m u
  have hu : Life b u := Life.kept (m := 8) (State.showMram_on (Covers.refl _) _ (Onward.refl _)) (by decide) (Life.of (s := { s with mram := { m with lifecycle := b } }) rfl rfl)
  clear_value u
  extract_lets +onlyGivenNames f v
  have hv : Life b v := by
    unfold v
    split
    · exact Life.of (s := u) rfl hu
    · exact hu
  clear_value v
  extract_lets +onlyGivenNames w
  have hw : Life b w := Life.kept (m := 0x10000140000a)
    (State.closeLevel_on (Covers.refl _) _ (State.closeSessions_on ((Covers.refl _).of rfl) _ (Onward.refl _))) (by decide) hv
  clear_value w
  extract_lets +onlyGivenNames c x
  have hx : Life b x := Life.of (s := w) rfl hw
  clear_value x
  extract_lets +onlyGivenNames y
  have hy : Life b y := Life.kept (m := 0x20e5fcefffe) (eachUpTo_ind (P := Onward _ x) _ _ (Onward.refl _)
    (fun _ _ h => State.resetPaddock_on (Covers.refl _) _ _ _ h)) (by decide) hx
  clear_value y
  exact Life.kept (m := 0x100a0140000a) (State.mgmtRestart_on (Covers.refl _) _ 4 (Onward.refl _)) (by decide) (.setMem _ hy)

theorem respond_mram (y : State) (h : DfpHdr) (c st : Nat) (b : List Nat) : (y.respond h c st b).mram = y.mram := rfl

theorem sealed_life (x : State) (b : Nat) (h : (x.transitTo b).mram.lifecycle = sealed_.mram.lifecycle) : b = 1 := (transitTo_life x b).symm.trans h

theorem test_met_LifecycleChangesOnlyWithEpoch : ∃ c s t, exec c s = .next t ∧ t.mram.lifecycle ≠ s.mram.lifecycle := by
  refine ⟨.dfpLifecycle { aHdr with auth := 2 } 1 3 200, sealed_, _, rfl, ?_⟩
  unfold State.dfpSigned
  rw [if_neg (by decide +kernel), show sealed_.dfpStops dcLifecycle true = none by decide +kernel]
  dsimp only
  rw [if_neg (by decide +kernel), if_neg (by decide +kernel), if_neg (by decide +kernel), if_neg (by decide +kernel)]
  unfold State.nvCommit State.mayCommit
  rw [if_pos (by decide)]
  rw [respond_mram]
  unfold State.refusedCmd
  rw [if_pos rfl]
  intro h
  dsimp only at h
  exact absurd (sealed_life _ _ h) (by decide)

/-- A command with a part of the state outside its footprint, which it leaves as it was. -/
theorem test_met_CommandsKeepTheirFootprint : (∃ t, exec .tapBypass {} = .next t) ∧ Part.mem ∉ footprint .tapBypass := by
  exact ⟨⟨_, rfl⟩, by decide +kernel⟩

end Sys2Proof.Tests
end

/-! # Conditions and descriptor fields (R113, R119): the instruction words, their legality, and what they do -/
section
namespace Sys2Proof.Machine

/-! ### The words of these instructions decode to them -/

/-- A field of the operands' part that stands within bits [45:0] is read back. -/
theorem fieldOf_word {i : KInstr} {n lo : Nat} {x : BitVec n} (pn : Bool) (pg : BitVec 5) (h : n + lo ≤ 46)
    (e : i.rest / 2 ^ lo % 2 ^ n = x.toNat) : fieldOf n (i.word pn pg) lo = x := by
  rw [word_rest i pn pg n lo h]
  exact BitVec.eq_of_toNat_eq ((BitVec.toNat_ofNat ..).trans e)

theorem aluOfWord_reg (f : AluOp) (ga gb gc : BitVec 5) (cond : BitVec 4) (pn : Bool) (pg : BitVec 5) :
    aluOfWord ((KInstr.alu f ⟨ga, gb, .reg gc, cond⟩).word pn pg) false = ⟨ga, gb, .reg gc, cond⟩ := by
  have := ga.isLt; have := gb.isLt; have := gc.isLt; have := cond.isLt
  simp only [aluOfWord, Bool.false_eq_true, if_false]
  congr
  all_goals exact fieldOf_word pn pg (by decide) (by simp only [KInstr.rest]; omega)

theorem aluOfWord_imm (f : AluOp) (ga gb : BitVec 5) (v : BitVec 32) (cond : BitVec 4) (pn : Bool) (pg : BitVec 5) :
    aluOfWord ((KInstr.alu f ⟨ga, gb, .imm v, cond⟩).word pn pg) true = ⟨ga, gb, .imm v, cond⟩ := by
  have := ga.isLt; have := gb.isLt; have := v.isLt; have := cond.isLt
  simp only [aluOfWord, if_true]
  congr
  all_goals exact fieldOf_word pn pg (by decide) (by simp only [KInstr.rest]; omega)

theorem brOfWord_word (o : BrOps) (pn : Bool) (pg : BitVec 5) : brOfWord ((KInstr.br o).word pn pg) = o := by
  obtain ⟨ga, gb, cond, offset⟩ := o
  have := ga.isLt; have := gb.isLt; have := cond.isLt; have := offset.isLt
  unfold brOfWord
  congr
  all_goals exact fieldOf_word pn pg (by decide) (by simp only [KInstr.rest]; omega)

theorem dfldOfWord_word (k : DfldOp) (o : DfldOps) (pn : Bool) (pg : BitVec 5) :
    dfldOfWord ((KInstr.dfld k o).word pn pg) = o := by
  obtain ⟨dn, off, w, gb⟩ := o
  have := dn.isLt; have := off.isLt; have := w.isLt; have := gb.isLt
  unfold dfldOfWord
  congr
  all_goals exact fieldOf_word pn pg (by decide) (by simp only [KInstr.rest]; omega)

theorem aluOps_find (f : AluOp) : (aluOps.find? fun g => g.code = f.code) = some f := by cases f <;> rfl

theorem dfldOps_find (k : DfldOp) : (dfldOps.find? fun j => j.code = k.code) = some k := by cases k <;> rfl

theorem keisDecode_alu (f : AluOp) (o : AluOps) (pn : Bool) (pg : BitVec 5) :
    keisDecode ((KInstr.alu f o).word pn pg) = some (.alu f o) := by
  have hop : (KInstr.alu f o).op = f.code := rfl
  unfold keisDecode
  rw [word_fmt, word_op, hop]
  obtain ⟨ga, gb, src, cond⟩ := o
  cases src with
  | reg gc =>
    have reserved : bits ((KInstr.alu f ⟨ga, gb, .reg gc, cond⟩).word pn pg) 26 0 = 0 := by
      rw [word_bits _ _ _ _ _ (by decide) (by decide)]
      simp only [KInstr.rest]
      omega
    have notJr : f.code ≠ 0x04 := by cases f <;> decide
    simp [KInstr.fmt, reserved, notJr, aluOps_find, aluOfWord_reg]
  | imm v => simp [KInstr.fmt, aluOps_find, aluOfWord_imm]

theorem keisDecode_br (o : BrOps) (pn : Bool) (pg : BitVec 5) :
    keisDecode ((KInstr.br o).word pn pg) = some (.br o) := by
  unfold keisDecode
  rw [word_fmt, word_op, brOfWord_word]
  rfl

theorem keisDecode_dfld (k : DfldOp) (o : DfldOps) (pn : Bool) (pg : BitVec 5) :
    keisDecode ((KInstr.dfld k o).word pn pg) = some (.dfld k o) := by
  have reserved : bits ((KInstr.dfld k o).word pn pg) 28 0 = 0 := by
    rw [word_bits _ _ _ _ _ (by decide) (by decide)]
    simp only [KInstr.rest]
    omega
  have hop : (KInstr.dfld k o).op = k.code := rfl
  unfold keisDecode
  rw [word_fmt, word_op, hop, dfldOfWord_word]
  simp [KInstr.fmt, reserved, dfldOps_find]

/-! ### Legality -/

/-- A word that decodes is illegal by its predicate (`PN` set with `PG` 0) or by its operands (R106, R109). -/
theorem keisIllegal_word {i : KInstr} {pn : Bool} {pg : BitVec 5} (hd : keisDecode (i.word pn pg) = some i) (ext : Word) :
    keisIllegal (i.word pn pg) ext = ((pn && decide (pg = 0)) || i.bad (pairOfWord ext)) := by
  unfold keisIllegal predOf
  rw [hd, word_pn, word_pg]

/-- R113: a code that is not assigned is illegal, and so is `ALWAYS` with a comparand that is not 0. -/
theorem cond_bad_iff (c : BitVec 4) (zero : Bool) :
    (!condOk c || (decide (c = condAlways) && !zero)) = true ↔ ¬(c.toNat ≤ 6 ∧ (c = 6 → zero = true)) := by
  simp only [condOk, Bool.or_eq_true, Bool.and_eq_true, Bool.not_eq_true', decide_eq_true_eq, decide_eq_false_iff_not,
    Classical.not_and_iff_not_or_not, Classical.not_imp, Bool.not_eq_true]
  rfl

theorem cmp_bad_iff (o : AluOps) (second : PairOp) :
    (KInstr.alu .cmp o).bad second = true ↔
      ¬(o.cond.toNat ≤ 6 ∧ (o.cond = 6 → o.gb = 0 ∧ srcIsZero o.src = true)) :=
  (cond_bad_iff o.cond (o.gb = 0 && srcIsZero o.src)).trans (by simp only [Bool.and_eq_true, decide_eq_true_eq])

theorem br_bad_iff (o : BrOps) (second : PairOp) :
    (KInstr.br o).bad second = true ↔ ¬(o.cond.toNat ≤ 6 ∧ (o.cond = 6 → o.ga = 0 ∧ o.gb = 0)) :=
  (cond_bad_iff o.cond (o.ga = 0 && o.gb = 0)).trans (by simp only [Bool.and_eq_true, decide_eq_true_eq])

theorem dfld_bad_iff (k : DfldOp) (o : DfldOps) (second : PairOp) :
    (KInstr.dfld k o).bad second = true ↔ ¬(o.off.toNat % 2 ^ o.w.toNat = 0) := by
  simp [KInstr.bad, dfldAligned]

section Offered
variable {c : Instr} {w : Issue} {i : KInstr} {ext : Word} {s : State} {legal : Prop}

/-- An offered instruction that is illegal by its operands raises `ILLEGAL` (R106, R115). -/
theorem faults_of_illegal (hi : issueOf c = some (w, i, ext)) (hd : keisDecode (i.word w.pn w.pg) = some i)
    (hb : i.bad (pairOfWord ext) = true ↔ ¬legal) (ho : s.offered c) (h : ¬legal) : Faults c w s stIllegal := by
  obtain ⟨eff, hc⟩ := exec_issueOf hi s
  have ho' : s.offers w i ext := by simpa only [State.offered, hi] using ho
  have hill : keisIllegal (i.word w.pn w.pg) ext = true := by rw [keisIllegal_word hd, hb.mpr h, Bool.or_true]
  exact leaves_faults (hc.trans (congrArg _ (issue_illegal ho' hill)))

/-- An offered instruction executes when its operands are legal and its predicate is legal and true (R106, R109). -/
theorem issues_of_legal (hi : issueOf c = some (w, i, ext)) (hd : keisDecode (i.word w.pn w.pg) = some i)
    (hb : i.bad (pairOfWord ext) = true ↔ ¬legal)
    (hr : s.offered c ∧ (w.pn = true → w.pg ≠ 0) ∧ (s.strand w.drover w.strand).pred w.pn w.pg = true)
    (h : legal) : s.issues w i ext := by
  obtain ⟨ho, hpg, hp⟩ := hr
  have ho' : s.offers w i ext := by simpa only [State.offered, hi] using ho
  have hnb : i.bad (pairOfWord ext) = false := Bool.eq_false_iff.mpr fun b => hb.mp b h
  have hill : keisIllegal (i.word w.pn w.pg) ext = false := by
    rw [keisIllegal_word hd, hnb]
    simpa using hpg
  exact ⟨ho', hill, hp⟩

end Offered

/-! ### Conditions (R113) -/

/-- A condition code is one of the seven of Table 4.5, or not assigned. -/
theorem cond_cases (c : BitVec 4) :
    c = 0 ∨ c = 1 ∨ c = 2 ∨ c = 3 ∨ c = 4 ∨ c = 5 ∨ c = 6 ∨ 6 < c.toNat := by
  revert c
  decide

theorem condHolds_unassigned {c : BitVec 4} (h : 6 < c.toNat) (a b : Word) : condHolds c a b = false := by
  have ne (k : BitVec 4) (hk : k.toNat ≤ 6) : c ≠ k := fun e => absurd (e ▸ h) (Nat.not_lt.mpr hk)
  simp only [condHolds, ne 0 (by decide), ne 1 (by decide), ne 2 (by decide), ne 3 (by decide), ne 4 (by decide),
    ne 5 (by decide), ne 6 (by decide), if_false, decide_false]

theorem not_condTrue_unassigned {n : Nat} (h : 6 < n) (a b : Word) : ¬condTrue n a b := by
  unfold condTrue
  split
  case h_8 => exact id
  all_goals omega

/-- Table 4.5, as the model computes it and as the table reads. -/
theorem condHolds_iff (c : BitVec 4) (a b : Word) : condHolds c a b = true ↔ condTrue c.toNat a b := by
  rcases cond_cases c with rfl | rfl | rfl | rfl | rfl | rfl | rfl | unassigned
  · exact decide_eq_true_iff
  · exact decide_eq_true_iff
  · exact decide_eq_true_iff
  · exact (Iff.of_eq (Bool.not_eq_true' _)).trans (decide_eq_false_iff_not.trans Int.not_lt)
  · exact decide_eq_true_iff
  · exact (Iff.of_eq (Bool.not_eq_true' _)).trans (decide_eq_false_iff_not.trans Nat.not_lt)
  · exact iff_of_true rfl trivial
  · rw [condHolds_unassigned unassigned]
    exact iff_of_false Bool.false_ne_true (not_condTrue_unassigned unassigned a b)

theorem kCmp_retires {w : Issue} {o : AluOps} {s : State} {v : Word} (h : s.issues w (.alu .cmp o) 0)
    (hv : (if condHolds o.cond ((s.strand w.drover w.strand).rg o.gb.toNat)
      ((s.strand w.drover w.strand).src2 o.src) then (1 : Word) else 0) = v) :
    Retires (.kCmp w o) w s 8 ((s.strand w.drover w.strand).wg o.ga.toNat v) :=
  scalar_retires rfl h hv

section Branch
variable {w : Issue} {o : BrOps} {s : State}

theorem kBr_branches (h : s.issues w (.br o) 0)
    (hc : condHolds o.cond ((s.strand w.drover w.strand).rg o.ga.toNat) ((s.strand w.drover w.strand).rg o.gb.toNat) = true)
    (ht : targetOk ((s.strand w.drover w.strand).brTarget o) = true) :
    Leaves (.kBr w o) w s { s.strand w.drover w.strand with
      pc := ((s.strand w.drover w.strand).brTarget o).setWidth 48, phase := phRunning } :=
  leaves_of (exec_issued rfl h (by simp only [State.strand_issued, hc, State.branch, ht, if_true]))

theorem kBr_faults (h : s.issues w (.br o) 0)
    (hc : condHolds o.cond ((s.strand w.drover w.strand).rg o.ga.toNat) ((s.strand w.drover w.strand).rg o.gb.toNat) = true)
    (ht : targetOk ((s.strand w.drover w.strand).brTarget o) = false) : Faults (.kBr w o) w s stFetchAddr :=
  inc_faults (exec_issued rfl h
    (by simp only [State.strand_issued, hc, State.branch, ht, if_true, Bool.false_eq_true, if_false]))

theorem kBr_goesOn (h : s.issues w (.br o) 0)
    (hc : ¬condHolds o.cond ((s.strand w.drover w.strand).rg o.ga.toNat) ((s.strand w.drover w.strand).rg o.gb.toNat) = true) :
    Retires (.kBr w o) w s 8 (s.strand w.drover w.strand) :=
  leaves_of (exec_issued rfl h (by simp only [State.strand_issued, hc, State.advance, Bool.false_eq_true, if_false]))

end Branch

/-- Settles O2: `CMP` and `BR` decode to themselves, so their operands alone decide whether they are legal; the
condition then chooses among the outcomes. -/
theorem conditionsCompare : Obligations.ConditionsCompare := by
  unfold Obligations.ConditionsCompare
  refine ⟨fun w o s => ?cmp, fun w o s => ?br⟩
  case cmp =>
    have hd := keisDecode_alu .cmp o w.pn w.pg
    have hb := cmp_bad_iff o (pairOfWord 0)
    refine ⟨fun runs legal p => ?_, fun runs legal p => ?_, faults_of_illegal rfl hd hb⟩
    · exact kCmp_retires (issues_of_legal rfl hd hb runs legal) (if_pos ((condHolds_iff ..).mpr p))
    · exact kCmp_retires (issues_of_legal rfl hd hb runs legal) (if_neg fun h => p ((condHolds_iff ..).mp h))
  case br =>
    have hd := keisDecode_br o w.pn w.pg
    have hb := br_bad_iff o (pairOfWord 0)
    refine ⟨fun runs legal p ok => ?_, fun runs legal p bad => ?_, fun runs legal p => ?_, faults_of_illegal rfl hd hb⟩
    · exact kBr_branches (issues_of_legal rfl hd hb runs legal) ((condHolds_iff ..).mpr p) ok
    · exact kBr_faults (issues_of_legal rfl hd hb runs legal) ((condHolds_iff ..).mpr p) bad
    · exact kBr_goesOn (issues_of_legal rfl hd hb runs legal) fun h => p ((condHolds_iff ..).mp h)

/-! ### Descriptor fields (R119) -/

theorem dfldGet_eq (o : DfldOps) (d : Desc) :
    dfldGet o d = d.toNat / 2 ^ (8 * o.off.toNat) % 2 ^ (8 * 2 ^ o.w.toNat) := by
  have : 0 < 2 ^ o.w.toNat := Nat.two_pow_pos _
  unfold dfldGet dfldBits
  rw [bits_div]
  congr 2
  omega

/-- Settles O5: each of the three instructions retires with one edit of its field, and `OFF` alone makes it illegal. -/
theorem descriptorFieldInstructions : Obligations.DescriptorFieldInstructions := by
  unfold Obligations.DescriptorFieldInstructions
  intro w o s
  have hd (k : DfldOp) := keisDecode_dfld k o w.pn w.pg
  have hb (k : DfldOp) := dfld_bad_iff k o (pairOfWord 0)
  refine ⟨fun legal => ⟨fun runs => ?dset, fun runs => ?dget, fun runs => ?dadd⟩, fun illegal c hc ho => ?illegal⟩
  case dset => exact retires_of (exec_issued rfl (issues_of_legal rfl (hd .dset) (hb _) runs legal) rfl)
  case dget =>
    rw [← dfldGet_eq]
    exact retires_of (exec_issued rfl (issues_of_legal rfl (hd .dget) (hb _) runs legal) rfl)
  case dadd =>
    rw [← dfldGet_eq]
    exact retires_of (exec_issued rfl (issues_of_legal rfl (hd .dadd) (hb _) runs legal) rfl)
  case illegal =>
    simp only [List.mem_cons, List.not_mem_nil, or_false] at hc
    rcases hc with rfl | rfl | rfl <;> exact faults_of_illegal rfl (hd _) (hb _) ho illegal

end Sys2Proof.Machine
end

/-! # Which parts and which registers an operation leaves as they were -/
section
namespace Sys2Proof.Machine

/-! ### Parts of the state -/

theorem Part.mem_all (p : Part) : p ∈ Part.others [] := by cases p <;> decide

/-- Every part whose bit is set in m is one of those listed. -/
def Part.cover (m : Nat) (ps : List Part) : Bool := (Part.others []).all fun p => ps.contains p || !m.testBit p.ctorIdx

theorem Within.keeps {m : Nat} {ps : List Part} {s t : State} (h : Within m s t) (hm : Part.cover m ps = true) :
    Keeps ps s t := by
  intro p hp
  have hall := List.all_eq_true.mp hm p p.mem_all
  exact h p (by simpa [hp] using hall)

theorem Onward.keeps {m : Nat} {ps : List Part} {s t : State} (h : Onward m s t) (hm : Part.cover m ps = true) :
    Keeps ps s t := h.within.keeps hm

section
variable {m : Nat} {s t : State} (h : Onward m s t)
include h

theorem Onward.crook (hm : m.testBit Part.crook.ctorIdx = false) : t.crook = s.crook := h.within .crook hm
theorem Onward.mram (hm : m.testBit Part.mram.ctorIdx = false) : t.mram = s.mram := h.within .mram hm
theorem Onward.flash (hm : m.testBit Part.flash.ctorIdx = false) : t.flash = s.flash := h.within .flash hm
theorem Onward.mem (hm : m.testBit Part.mem.ctorIdx = false) : t.mem = s.mem := h.within .mem hm
theorem Onward.resetPaddocks (hm : m.testBit Part.resetPaddocks.ctorIdx = false) : t.resetPaddocks = s.resetPaddocks :=
  h.within .resetPaddocks hm

end

theorem Keeps.trans {ps : List Part} {s t u : State} (h : Keeps ps s t) (k : Keeps ps t u) : Keeps ps s u :=
  fun p hp => Part.same_trans (h p hp) (k p hp)

theorem Keeps.mono {ps qs : List Part} {s t : State} (h : Keeps ps s t) (hq : ps ⊆ qs) : Keeps qs s t :=
  fun p hp => h p fun hm => hp (hq hm)

/-! ### Registers -/

theorem RegsBut.trans {as : List Nat} {s t u : State} (h : RegsBut as s t) (k : RegsBut as t u) : RegsBut as s u :=
  fun a ha => (k a ha).trans (h a ha)

theorem State.wr_regsBut (s : State) (f : Fld) (v : Nat) : RegsBut [f.addr] s (s.wr f v) :=
  fun a ha => s.reg_wr_ne f v a (by simpa using ha)

theorem State.reg_of_regs {s t : State} (h : t.regs = s.regs) (a : Nat) : t.reg a = s.reg a := by
  unfold State.reg
  rw [h]

/-- What has no register among the parts it may change leaves every register. -/
theorem Onward.reg {m : Nat} {s t : State} (h : Onward m s t) (hm : m.testBit Part.regs.ctorIdx = false) (a : Nat) :
    t.reg a = s.reg a := State.reg_of_regs (h.within .regs hm) a

theorem State.reg_foldl {α : Type} {f : State → α → State} {a : Nat} {l : List α} (s : State)
    (hf : ∀ t, ∀ x ∈ l, (f t x).reg a = t.reg a) : (l.foldl f s).reg a = s.reg a :=
  List.foldlRecOn (motive := fun t => t.reg a = s.reg a) l f rfl fun t h x hx => (hf t x hx).trans h

theorem State.reg_eachUpTo {f : State → Nat → State} {a : Nat} (n : Nat) (s : State)
    (hf : ∀ t i, (f t i).reg a = t.reg a) : (eachUpTo n f s).reg a = s.reg a := State.reg_foldl s fun t i _ => hf t i

theorem State.reg_inc_ne (s : State) (f : Fld) (k a : Nat) (h : a ≠ f.addr) : (s.inc f k).reg a = s.reg a :=
  s.reg_wr_ne f _ a h

theorem State.reg_setCrook (s : State) (c : Crook) (a : Nat) : (s.setCrook c).reg a = s.reg a := rfl

theorem State.crook_setCrook (s : State) (c : Crook) : (s.setCrook c).crook = c := rfl

theorem State.rd_of_reg {s t : State} {f : Fld} (h : t.reg f.addr = s.reg f.addr) : t.rd f = s.rd f := by
  unfold State.rd
  rw [h]

/-- A saturating count, after it rose by one, is the least of the next number and the greatest it shows. -/
theorem State.rd_sat_one (s : State) (f : Fld) (h : f.hi < 64) :
    (s.sat f 1).rd f = min (s.rd f + 1) (2 ^ (f.hi + 1 - f.lo) - 1) := by
  have pos : 0 < 2 ^ (f.hi + 1 - f.lo) := Nat.two_pow_pos _
  have capped : satAdd (f.hi + 1 - f.lo) (s.rd f) 1 = min (s.rd f + 1) (2 ^ (f.hi + 1 - f.lo) - 1) := by
    unfold satAdd
    split <;> omega
  unfold State.sat
  rw [State.rd_wr_same _ _ _ h, capped, Nat.mod_eq_of_lt (by omega)]

/-! ### The registers of the Crook block and of the power block (Table 20.6): the levels, scopes and states that no
operation of the data path reaches -/

def firm (a : Nat) : Prop := 0x30000007000 ≤ a ∧ a < 0x30000009000

section Firm
variable {a : Nat}

theorem firm.quiet (h : firm a) : quiet a := .inr h.1

/-- A register above both blocks is none of theirs. -/
theorem firm.ne_of_le {b : Nat} (h : firm a) (hb : 0x30000009000 ≤ b) : a ≠ b := by
  have := h.2
  omega

theorem firm_level : firm Fd.secStatusLevel.addr := ⟨by decide, by decide⟩
theorem firm_power : firm Fd.pwrStatusState.addr := ⟨by decide, by decide⟩

theorem le_mbox (n i j : Nat) : 0x30000009000 ≤ 0x30000010180 + 0x1000 * i + 0x100 * j + n := by omega

theorem State.postEnds_reg (s : State) (m res : Nat) (h : firm a) : (s.postEnds m res).reg a = s.reg a := by
  have shown : ∀ x, ((s.wr (mfResult m) res).setMbox m x).reg a = s.reg a := fun _ =>
    s.reg_wr_ne _ _ a (h.ne_of_le (le_mbox 0 _ _))
  unfold State.postEnds
  dsimp only
  split
  · rename_i k j tag _
    exact ((State.siteDone_on (Covers.refl _) _ k j tag stOk _ (Onward.refl _)).reg rfl a).trans (shown _)
  · exact shown _

theorem State.setMboxRegs_reg (s : State) (m : Nat) (ws : List Word) (h : firm a) : (s.setMboxRegs m ws).reg a = s.reg a := by
  refine State.reg_foldl s fun t p _ => ?_
  rw [State.reg_setReg, if_neg (h.ne_of_le ?_)]
  simp only [Fd.mboxData]
  omega

theorem State.mboxClear_reg (s : State) (m : Nat) (h : firm a) : (s.mboxClear m).reg a = s.reg a := by
  unfold State.mboxClear
  dsimp only
  rw [State.reg_wr_ne _ _ _ _ (h.ne_of_le (le_mbox 0 _ _)), State.setMboxRegs_reg _ _ _ h]
  show State.reg (if _ then _ else s) a = _
  split
  · exact s.postEnds_reg m _ h
  · rfl

theorem State.mboxRestart_reg (s : State) (h : firm a) : s.mboxRestart.reg a = s.reg a := by
  refine State.reg_foldl s fun t m _ => ?_
  split
  · exact t.mboxClear_reg m h
  · split <;> rfl

theorem State.mboxSiteDown_reg (s : State) (k : Nat) (h : firm a) : (s.mboxSiteDown k).reg a = s.reg a := by
  refine State.reg_foldl s fun t m _ => ?_
  split
  · split
    · exact State.reg_wr_ne _ _ _ _ (h.ne_of_le (le_mbox 0 _ _))
    · rfl
  · exact t.mboxClear_reg m h

theorem State.loadImage_reg (s : State) (kind : Nat) (h : firm a) : (s.loadImage kind).2.reg a = s.reg a := by
  refine foldl_ind (P := fun r : Bool × State => r.2.reg a = s.reg a) (fun r slot hr => ?_) _ _ rfl
  dsimp only
  split
  · exact hr
  · split
    · exact hr
    · exact (State.record_reg _ _ _ _ _ _ _ h.quiet).trans hr

/-- The state that a management restart loads its images into, the walker cores' first. -/
def State.restarting (s : State) (cause : Nat) : State :=
  ((s.record euAux 0x0017 uwMgmt (Config.restartCause cause).toNat 0).closeSessions.mboxRestart.loadImage imWalker).2

theorem State.mgmtRestart_eq (s : State) (cause : Nat) :
    s.mgmtRestart cause = (let r := (s.restarting cause).loadImage imMgmt
      r.2.setCrook { r.2.crook with serving := r.1 || r.2.fallow }) := by
  unfold State.mgmtRestart State.restarting
  generalize (s.record euAux 0x0017 uwMgmt (Config.restartCause cause).toNat 0).closeSessions.mboxRestart = x
  rfl

theorem State.mgmtRestart_reg (s : State) (cause : Nat) (h : firm a) : (s.mgmtRestart cause).reg a = s.reg a := by
  rw [State.mgmtRestart_eq, State.reg_setCrook, State.loadImage_reg _ _ h, State.restarting, State.loadImage_reg _ _ h,
    State.mboxRestart_reg _ h, State.closeSessions, State.reg_setCrook]
  exact State.record_reg _ _ _ _ _ _ _ h.quiet

/-! A site stops: what it had asked for completes with `RESET`. -/

theorem State.noRoute_reg (s : State) (unit dest : Nat) (h : firm a) : (s.noRoute unit dest).reg a = s.reg a :=
  (State.record_reg _ _ _ _ _ _ _ h.quiet).trans (s.reg_inc_ne _ _ a (h.ne_of_le (by decide)))

theorem State.routeFlits_reg (s : State) (dest : Nat) (sched reply : Bool) (fs : List Flit) (h : firm a) :
    (s.routeFlits dest sched reply fs).reg a = s.reg a := by
  unfold State.routeFlits
  split
  · exact State.reg_foldl s fun t _ _ => t.noRoute_reg _ _ h
  · rename_i dim dir _
    exact (Onward.reg (m := 0x10000000)
      (State.queueFlits_on (Covers.refl _) _ _ _ _ _ _ _ (State.bulkPort_on (Covers.refl _) s dim dir (Onward.refl s))) rfl a)

theorem State.sendRemote_reg (s : State) (flow : Option Nat) (dest : Nat) (rec data : List Byte) (poison : List Nat)
    (reply : Bool) (packet : Nat) (start : Word) (h : firm a) :
    (s.sendRemote flow dest rec data poison reply packet start).reg a = s.reg a := by
  unfold State.sendRemote State.sendPacket
  split
  · rfl
  · split
    · exact s.routeFlits_reg _ _ _ _ h
    · dsimp only
      split
      · exact s.routeFlits_reg _ _ _ _ h
      · exact (State.queueFlits_on (Covers.refl _) _ _ _ _ _ _ _ (Onward.refl s)).reg rfl a

theorem State.answerIn_reg (s : State) (q : InReq) (st : Nat) (old : Word) (data : List Byte) (poison : List Nat) (h : firm a) :
    (s.answerIn q st old data poison).reg a = s.reg a :=
  (State.sendRemote_reg _ _ _ _ _ _ _ _ _ h).trans
    ((State.dropIn_on (Covers.refl _) s q.req (Onward.refl s)).reg rfl a)

theorem State.appliedIn_reg (s : State) (q : InReq) (st : Nat) (h : firm a) : (s.appliedIn q st).reg a = s.reg a :=
  (State.answerIn_reg _ _ _ _ _ _ h).trans ((State.notifyIn_on (Covers.refl _) s q st (Onward.refl s)).reg rfl a)

theorem State.getDone_reg (s : State) (q : InReq) (h : firm a) : (s.getDone q).reg a = s.reg a := by
  unfold State.getDone
  dsimp only
  split <;> exact s.answerIn_reg _ _ _ _ _ h

theorem State.inAnswer_reg (s : State) (src pkt : Nat) (q : SiteReq) (st : Nat) (data : List Byte) (poison : Nat) (h : firm a) :
    (s.inAnswer src pkt q st data poison).reg a = s.reg a := by
  unfold State.inAnswer
  split
  · rfl
  · dsimp only
    split
    · exact (State.holdIn_on (Covers.refl _) s _ (Onward.refl s)).reg rfl a
    · split
      · exact s.appliedIn_reg _ _ h
      · exact s.getDone_reg _ h

/-- A chunk that fails commits nothing: its transfer ends, and no write of it is made. -/
theorem State.chunkAnswer_failed_reg (s : State) (o : Op) (q : SiteReq) {st : Nat} (hst : st ≠ stOk) (data : List Byte)
    (poison a : Nat) : (s.chunkAnswer o q st data poison).reg a = s.reg a := by
  unfold State.chunkAnswer
  dsimp only
  split
  · rfl
  · rw [if_neg hst, if_pos (by simp [hst])]
    exact (State.failXfer_on (m := 0x2c000) (Covers.refl _) _ _ st
      (State.setOp_on (m := 0x2c000) rfl s _ (Onward.refl s))).reg rfl a

theorem State.siteAnswer_failed_reg (s : State) (q : SiteReq) {st : Nat} (hst : st ≠ stOk) (hq : q.mbox = none)
    (data : List Byte) (poison : Nat) (h : firm a) : (s.siteAnswer q st data poison).reg a = s.reg a := by
  unfold State.siteAnswer
  rw [hq]
  dsimp only
  split
  · rename_i e; exact absurd e (by simp)
  · exact (State.inAnswer_reg _ _ _ _ _ _ _ h)
  · split
    · rfl
    · split
      · exact State.chunkAnswer_failed_reg _ _ _ hst _ _ _
      · exact (State.memAnswer_on (Covers.refl _) _ _ _ _ _ _ (Onward.refl _)).reg rfl a

theorem State.siteState_reg (s : State) (k st : Nat) (h : firm a) : (s.siteState k st).reg a = s.reg a := by
  unfold State.siteState
  split
  · rfl
  · exact s.reg_wr_ne _ _ a (h.ne_of_le (by simp only [Fd.siteStatusState]; omega))

theorem State.siteStops_reg (s : State) (k st : Nat) (h : firm a) : (s.siteStops k st).reg a = s.reg a := by
  unfold State.siteStops
  dsimp only
  rw [State.mboxSiteDown_reg _ _ h]
  refine (State.reg_foldl _ fun t q _ => ?_).trans ?_
  · split
    · rfl
    · rename_i hq
      exact t.siteAnswer_failed_reg q (by decide) (by simpa using hq) _ _ h
  · exact (State.siteState_reg _ _ _ h).trans ((State.siteWires_on (Covers.refl _) s _ _ _ _ (Onward.refl s)).reg rfl a)

end Firm
end Sys2Proof.Machine
end

section
namespace Sys2Proof.Machine

/-! A Paddock is reset with zeroising: its own blocks take their reset values. -/

theorem Tab.get_keep {α : Type} (d : Nat → α) (p : Nat → Bool) (t : List (Nat × α)) {k : Nat} (h : p k = true) :
    Tab.get d (Tab.keep p t) k = Tab.get d t k := by
  induction t with
  | nil => rfl
  | cons e t ih =>
    obtain ⟨j, v⟩ := e
    simp only [Tab.keep, List.filter_cons] at ih ⊢
    by_cases hj : p j = true
    · simp only [hj, if_true, Tab.get, ih]
    · have : j ≠ k := fun e => hj (e ▸ h)
      simp only [hj, Bool.false_eq_true, if_false, Tab.get, this, ih]

/-- No gate stands in the Crook block or the power block. -/
theorem gates_apart : ∀ g ∈ gates, g.1.base + 0x1000 * g.2 < 0x30000006000 ∨ 0x30000009000 ≤ g.1.base + 0x1000 * g.2 := by
  decide

theorem State.reg_setShadow (s : State) (p : Nat) (l : List XlEntry) (a : Nat) : (s.setShadow p l).reg a = s.reg a := rfl
theorem State.reg_setL2 (s : State) (p : Nat) (l : List XlEntry) (a : Nat) : (s.setL2 p l).reg a = s.reg a := rfl
theorem State.reg_setL1 (s : State) (d : Nat) (l : List XlEntry) (a : Nat) : (s.setL1 d l).reg a = s.reg a := rfl
theorem State.reg_setPenWays (s : State) (p : Nat) (x : PenWays) (a : Nat) : (s.setPenWays p x).reg a = s.reg a := rfl
theorem State.reg_closed (s : State) (c : List Nat) (a : Nat) : ({ s with closed := c } : State).reg a = s.reg a := rfl

section Firm
variable {a : Nat}

theorem State.resetRegs_reg (s : State) (p : Nat → Bool) (h : firm a) (hp : p a = false) : (s.resetRegs p).reg a = s.reg a := by
  have kept : Tab.get regReset (Tab.keep (fun b => !p b) s.regs) a = s.reg a := Tab.get_keep _ _ _ (by simp [hp])
  unfold State.resetRegs
  dsimp only
  refine (State.reg_foldl _ fun t g hg => ?_).trans kept
  have gate : a ≠ g.1.base + 0x1000 * g.2 + 0x10 := by
    have ⟨h1, h2⟩ := h
    rcases gates_apart g (List.mem_filter.mp hg).1 with hb | hb <;> omega
  exact (State.reg_wr_ne _ _ _ _ gate).trans (State.reg_wr_ne _ _ _ _ gate)

theorem State.loadMr_reg (s : State) (p : Nat → Bool) (hp : p a = false) : (s.loadMr p).reg a = s.reg a := by
  unfold State.loadMr
  split
  · rfl
  · refine State.reg_foldl s fun t e he => ?_
    have ne : a ≠ e.1 := fun k => by simp [← k, hp] at he
    dsimp only
    split
    · rfl
    · exact (State.reg_setReg ..).trans (if_neg ne)

/-- An address of an instance of a block above both is none of theirs. -/
theorem firm.not_inBlk (h : firm a) {b : Blk} (hb : 0x30000009000 ≤ b.base) (i : Nat) : inBlk b i a = false := by
  have := h.2
  simp only [inBlk, Bool.and_eq_false_iff, decide_eq_false_iff_not]
  omega

theorem State.waysFromCfg_reg (s : State) (p : Nat) (h : firm a) : (s.waysFromCfg p).reg a = s.reg a := by
  have ne : a ≠ (Fd.foldWaystatOffActive p).addr := h.ne_of_le (by simp only [Fd.foldWaystatOffActive]; omega)
  unfold State.waysFromCfg
  rw [State.reg_wr_ne _ _ _ _ ne, State.reg_wr_ne _ (Fd.foldWaystatCacheOffActive p) _ _ ne,
    State.reg_wr_ne _ (Fd.foldWaystatScratchActive p) _ _ ne]

theorem le_drvStatus (p k : Nat) : 0x30000009000 ≤ (Fd.drvStatusState p k).addr := by
  simp only [Fd.drvStatusState]
  omega

theorem State.resetDrover_reg (s : State) (d : Nat) (h : firm a) : (s.resetDrover d).reg a = s.reg a := by
  unfold State.resetDrover
  split
  · rfl
  · dsimp only
    rw [State.reg_wr_ne _ _ _ _ (h.ne_of_le (le_drvStatus _ _)),
      (State.pruneTickets_on (Covers.refl _) _ (Onward.refl _)).reg rfl, State.reg_setL1]
    exact State.reg_eachUpTo 8 _ fun t i => rfl

theorem State.resetPen_zero_reg (s : State) (p : Nat) (h : firm a) : (s.resetPen p true).reg a = s.reg a := by
  have clear (b : Blk) (hb : 0x30000009000 ≤ b.base) : inBlk b p a = false := h.not_inBlk hb p
  unfold State.resetPen
  extract_lets drovers banks dropped closed lost unmerged zeroed regs loaded
  have hdrovers : drovers.reg a = s.reg a :=
    State.reg_eachUpTo 8 s fun t k => (State.reg_setL1 ..).trans (t.resetDrover_reg _ h)
  have hdropped : dropped.reg a = drovers.reg a := by
    unfold dropped
    rw [if_pos rfl]
    exact State.reg_foldl _ fun t b _ => (State.dropWaiting_on (Covers.refl _) t _ b (Onward.refl t)).reg rfl a
  have hlost : lost.reg a = dropped.reg a := by
    unfold lost
    rw [if_pos rfl]
    exact ((State.discardPen_on (Covers.refl _) closed p (Onward.refl _)).reg rfl a).trans (State.reg_closed dropped _ a)
  have hunmerged : unmerged.reg a = lost.reg a := State.reg_foldl _ fun t b _ => rfl
  have hzeroed : zeroed.reg a = unmerged.reg a := State.reg_eachUpTo 16 _ fun t j => rfl
  have hregs : regs.reg a = zeroed.reg a := State.resetRegs_reg _ _ h
    (by simp only [clear penFoldBlk (by decide), clear penXlatBlk (by decide), clear debugCtrBlk (by decide), Bool.or_self])
  have hloaded : loaded.reg a = regs.reg a :=
    (State.waysFromCfg_reg _ p h).trans (State.loadMr_reg _ _ (clear penFoldBlk (by decide)))
  rw [State.reg_setShadow, State.reg_setL2, State.reg_setPenWays, hloaded, hregs, hzeroed, hunmerged, hlost, hdropped, hdrovers]

theorem State.resetDrvBlk_reg (s : State) (p : Nat) (h : firm a) : (s.resetDrvBlk p).reg a = s.reg a := by
  unfold State.resetDrvBlk
  dsimp only
  refine (State.reg_eachUpTo 8 _ fun t k => ?_).trans (s.resetRegs_reg _ h (h.not_inBlk (by decide) p))
  have ne := h.ne_of_le (le_drvStatus p k)
  exact (State.reg_wr_ne _ (Fd.drvStatusCause p k) _ _ ne).trans (State.reg_wr_ne _ _ _ _ ne)

theorem State.resetSiteBlk_reg (s : State) (k : Nat) (h : firm a) : (s.resetSiteBlk k).reg a = s.reg a := by
  have ne (x : Nat) (hx : 0x30000009000 ≤ x) : a ≠ x + 0x1000 * k := h.ne_of_le (by omega)
  have clear : inBlk siteBlk k a = false := h.not_inBlk (by decide) k
  unfold State.resetSiteBlk
  dsimp only
  rw [State.reg_wr_ne _ (Fd.siteBundlesHalf k) _ _ (ne _ (by decide)),
    State.reg_wr_ne _ (Fd.siteBundlesIn k) _ _ (ne _ (by decide)),
    State.reg_wr_ne _ (Fd.siteStatusPlevel k) _ _ (ne _ (by decide)),
    State.reg_wr_ne _ (Fd.siteStatusState k) _ _ (ne _ (by decide)),
    State.loadMr_reg _ _ clear, State.resetRegs_reg _ _ h clear]

theorem State.resetDoorbells_reg (s : State) (k : Nat) (h : firm a) : (s.resetDoorbells k).reg a = s.reg a := by
  have below : ¬doorbellBlk.base ≤ a := by
    have := h.2
    show ¬0x30000020000 ≤ a
    omega
  exact s.resetRegs_reg _ h (by simp only [below, decide_false, Bool.false_and])

theorem le_stackStatus (k : Nat) : 0x30000009000 ≤ (Fd.dramStackStatusState k).addr := by
  simp only [Fd.dramStackStatusState]
  omega

theorem State.stackSleeps_reg (s : State) (k : Nat) (h : firm a) : (s.stackSleeps k).reg a = s.reg a := by
  unfold State.stackSleeps
  split
  · exact State.reg_wr_ne _ _ _ _ (h.ne_of_le (le_stackStatus k))
  · rfl

theorem State.zeroisedStack_reg (s : State) (k : Nat) (h : firm a) :
    (if (s.zeroStack k).rd (Fd.dramStackStatusState k) = dsUntrained then s.zeroStack k
      else (s.zeroStack k).wr (Fd.dramStackStatusState k) dsZeroising).reg a = s.reg a := by
  have zeroed := (State.zeroStack_on (Covers.refl _) s k (Onward.refl s)).reg rfl a
  split
  · exact zeroed
  · rw [State.reg_wr_ne _ _ _ _ (h.ne_of_le (le_stackStatus k)), zeroed]

/-- A Paddock that is reset with zeroising leaves the registers of the Crook block and the power block. -/
theorem State.resetPaddock_zero_reg (s : State) (k : Nat) (h : firm a) : (s.resetPaddock k true).reg a = s.reg a := by
  unfold State.resetPaddock
  extract_lets site runs stopped held pens context blocks answered asleep
  have hstopped : stopped.reg a = s.reg a :=
    ite_ind (P := fun t : State => t.reg a = s.reg a) (s.siteStops_reg k _ h) rfl
  have hpens : pens.reg a = stopped.reg a :=
    State.reg_eachUpTo 4 held fun t i => (State.resetDrvBlk_reg _ _ h).trans (t.resetPen_zero_reg _ h)
  have hcontext : context.reg a = pens.reg a := State.resetRegs_reg _ _ h (h.not_inBlk (b := paddockBlk) (by decide) k)
  have hblocks : blocks.reg a = context.reg a := (State.resetDoorbells_reg _ k h).trans (State.resetSiteBlk_reg _ k h)
  have hanswered : answered.reg a = blocks.reg a := State.reg_foldl _ fun t q _ => t.answerIn_reg q _ _ _ _ h
  have hasleep : asleep.reg a = answered.reg a := State.reg_eachUpTo 2 _ fun t i => t.stackSleeps_reg _ h
  rw [if_pos rfl, State.reg_eachUpTo 2 _ fun t i => t.zeroisedStack_reg _ h, hasleep,
    hanswered, hblocks, hcontext, hpens, hstopped]

/-! Reading through the Fold: its counters, its lines and its write-backs. -/

theorem State.foldCount_reg (s : State) (f : Nat → Fld) (l : Nat) (h : firm a) (hf : ∀ p, 0x30000009000 ≤ (f p).addr) :
    (s.foldCount f l).reg a = s.reg a := State.reg_inc_ne _ _ _ _ (h.ne_of_le (hf _))

theorem le_foldHits (p : Nat) : 0x30000009000 ≤ (Fd.foldHits p).addr := by simp only [Fd.foldHits]; omega
theorem le_foldMisses (p : Nat) : 0x30000009000 ≤ (Fd.foldMisses p).addr := by simp only [Fd.foldMisses]; omega
theorem le_foldMerged (p : Nat) : 0x30000009000 ≤ (Fd.foldMerged p).addr := by simp only [Fd.foldMerged]; omega
theorem le_foldWritebacks (p : Nat) : 0x30000009000 ≤ (Fd.foldWritebacks p).addr := by
  simp only [Fd.foldWritebacks]; omega

theorem State.writeBack_reg (s : State) (l : Nat) (x : Line) (h : firm a) : (s.writeBack l x).reg a = s.reg a := by
  unfold State.writeBack
  extract_lets img secs bad written counted
  have hwritten : written.reg a = s.reg a :=
    State.reg_foldl s fun t i _ => (State.dramWrite_on (Covers.refl _) t _ _ _ (Onward.refl t)).reg rfl a
  have hcounted : counted.reg a = s.reg a :=
    (State.reg_inc_ne _ _ _ _ (h.ne_of_le (le_foldWritebacks _))).trans
      (((State.queueWrites_on (Covers.refl _) written l _ (Onward.refl _)).reg rfl a).trans hwritten)
  split
  · exact (State.record_reg _ _ _ _ _ _ _ h.quiet).trans hcounted
  · exact hcounted

theorem State.evict_reg (s : State) (l : Nat) (x : Line) (h : firm a) : (s.evict l x).reg a = s.reg a :=
  ite_ind (P := fun t : State => t.reg a = s.reg a) (s.writeBack_reg l x h) rfl

theorem State.makeRoom_reg {s t : State} {l w : Nat} (h : firm a) (hr : s.makeRoom l = some (w, t)) : t.reg a = s.reg a := by
  unfold State.makeRoom at hr
  extract_lets b st at hr
  split at hr
  · exact absurd hr (by simp)
  · rename_i v u hv
    have chosen : u.reg a = s.reg a :=
      (Onward.eqMP hv (State.chooseWay_on (Covers.refl _) s b st _ (Onward.refl s))).reg rfl a
    split at hr <;> obtain ⟨-, rfl⟩ := Prod.mk.inj (Option.some.inj hr)
    · exact (u.evict_reg _ _ h).trans chosen
    · exact chosen

theorem State.hitBy_reg (s : State) (l : Nat) (x : Line) (stream : Bool) (u : Use) (h : firm a) :
    (s.hitBy l x stream u).reg a = s.reg a := by
  have counted := s.foldCount_reg Fd.foldHits l h le_foldHits
  unfold State.hitBy
  split
  · unfold State.hitLine
    extract_lets b m hit _ merged
    have hmerged : merged.reg a = s.reg a :=
      ite_ind (P := fun t : State => t.reg a = s.reg a)
        ((State.foldCount_reg _ _ _ h le_foldMerged).trans counted) counted
    exact ite_ind (P := fun t : State => t.reg a = s.reg a) hmerged hmerged
  · exact counted

theorem State.ensure_reg (s : State) (l : Nat) (mask : BitVec 4) (stream graze : Bool) (cls : DramClass) (u : Use) (h : firm a) :
    (s.ensure l mask stream graze cls u).reg a = s.reg a := by
  have missed (o : Out) : ((s.foldCount Fd.foldMisses l).emit o).reg a = s.reg a :=
    s.foldCount_reg Fd.foldMisses l h le_foldMisses
  have filled (t : State) (m : BitVec 4) (x : Option Line) : ((t.fillSectors l m).setLine l x).reg a = t.reg a :=
    (State.fillSectors_on (Covers.refl _) t l m (Onward.refl t)).reg rfl a
  unfold State.ensure
  split
  · split
    · exact s.foldCount_reg _ _ h le_foldHits
    · split
      · exact s.hitBy_reg _ _ _ _ h
      · exact (filled _ _ _).trans (missed _)
  · extract_lets need asked
    split
    · exact missed _
    · rename_i w t hr
      exact (filled _ _ _).trans ((State.makeRoom_reg h hr).trans (missed _))

theorem State.touch_reg (s : State) (b n : Nat) (stream graze : Bool) (cls : DramClass) (u : Use) (h : firm a) :
    (s.touch b n stream graze cls u).reg a = s.reg a :=
  ite_ind (P := fun t : State => t.reg a = s.reg a) (State.reg_foldl s fun t _ _ => t.ensure_reg _ _ _ _ _ _ h) rfl

end Firm
end Sys2Proof.Machine
end

/-! # Signed commands (R454, R457, R473, R477, R478, R480, R484, R485, R515, R545, R585, R590) -/
section
namespace Sys2Proof.Machine

/-! ### Key, nonce and answer (R454, R473) -/

/-- The key of a signed request verifies, and its role is one that the command takes (R473, R544). -/
def State.Verified (s : State) (h : DfpHdr) (roles : List KeyRole) (chain : Bool) : Prop :=
  h.auth = 2 ∧ h.authOk = true ∧ s.crook.s0Fail ≠ 2 ∧
    (s.crook.s0Fail = 3 → chain = true ∧ (h.chainRole = some .niruaMfg ∨ h.chainRole = some .niruaService)) ∧
    (s.crook.s0Fail ≠ 3 → ∃ r, s.keyRole h.slot = some r ∧
      (r ∈ roles ∨ s.mram.lifecycle = lcReturned ∧ KeyRole.owner ∈ roles ∧ r = .niruaService))

/-- The nonce was issued in the last minute and has not been used, and the device number is the module's (R454). -/
def State.Fresh (s : State) (h : DfpHdr) : Prop :=
  (∃ e ∈ s.crook.nonces, e.1 = h.nonce ∧ s.log.time < e.2 + 60000000000) ∧ h.device.toNat = s.device

/-- A state v in which a signed command has answered, its effect having left t: the refusal shows in `SEC_REFUSAL`. -/
def Answers (h : DfpHdr) (cmd st : Nat) (body : List Nat) (t v : State) : Prop :=
  v.out = t.out ++ [.dfp ⟨h.port, cmd, h.reqId.toNat, h.session.toNat, st, t.bellCount.toNat, body⟩] ∧
    (st = 0 → Keeps [.out] t v) ∧
    (st ≠ 0 → v.rd Fd.secRefusalCmd = cmd ∧ v.rd Fd.secRefusalStatus = st ∧ RegsBut [Fd.secRefusalCmd.addr] t v ∧
      Keeps [.out, .regs] t v)

theorem State.mem_rolesNow (s : State) (roles : List KeyRole) (r : KeyRole) :
    r ∈ s.rolesNow roles ↔ r ∈ roles ∨ s.mram.lifecycle = lcReturned ∧ KeyRole.owner ∈ roles ∧ r = .niruaService := by
  unfold State.rolesNow
  by_cases returned : s.mram.lifecycle = lcReturned <;> by_cases owner : KeyRole.owner ∈ roles <;>
    simp [returned, owner, or_comm]

theorem State.authorised_iff (s : State) (h : DfpHdr) (roles : List KeyRole) (chain : Bool) :
    s.authorised h roles chain = true ↔ s.Verified h roles chain := by
  unfold State.authorised State.Verified
  by_cases keysFailed : s.crook.s0Fail = 2
  · simp [keysFailed]
  · by_cases recordFailed : s.crook.s0Fail = 3
    · simp [recordFailed, and_assoc]
    · simp [keysFailed, recordFailed, Option.any_eq_true, State.mem_rolesNow, and_assoc]

theorem State.nonceOk_iff (s : State) (h : DfpHdr) : s.nonceOk h.nonce h.device = true ↔ s.Fresh h := by
  simp [State.nonceOk, State.Fresh]

theorem answers_respond (t : State) (h : DfpHdr) {cmd st : Nat} (body : List Nat) (hc : cmd < 2 ^ 16) (hs : st < 2 ^ 8) :
    Answers h cmd st body t ((t.refusedCmd cmd st).respond h cmd st body) := by
  by_cases ok : st = 0
  · subst ok
    exact ⟨rfl, fun _ => (State.emit_on (Covers.refl _) t _ (Onward.refl t)).keeps (by decide), fun k => absurd rfl k⟩
  · have shown : t.refusedCmd cmd st = (t.wr Fd.secRefusalCmd cmd).wr Fd.secRefusalStatus st := if_neg ok
    rw [shown]
    have one : RegsBut [Fd.secRefusalCmd.addr] t ((t.wr Fd.secRefusalCmd cmd).wr Fd.secRefusalStatus st) :=
      (t.wr_regsBut _ _).trans (State.wr_regsBut _ Fd.secRefusalStatus st)
    refine ⟨?_, fun k => absurd k ok, fun _ => ⟨?_, ?_, one, ?_⟩⟩
    · have bell : ((t.wr Fd.secRefusalCmd cmd).wr Fd.secRefusalStatus st).bellCount = t.bellCount := one _ (by decide)
      rw [← bell]
      rfl
    · have := State.rd_wr_ne (t.wr Fd.secRefusalCmd cmd) Fd.secRefusalStatus Fd.secRefusalCmd st (.inr ⟨by decide, by decide⟩)
      exact this.trans ((State.rd_wr_same _ _ _ (by decide)).trans (Nat.mod_eq_of_lt hc))
    · exact (State.rd_wr_same _ _ _ (by decide)).trans (Nat.mod_eq_of_lt hs)
    · exact (State.emit_on (m := 0xa) (by rfl) _ _
        (State.wr_on (by rfl) _ _ _ (State.wr_on (by rfl) t _ _ (Onward.refl t)))).keeps (by decide)

section Signed
variable {s : State} {h : DfpHdr} {cmd : Nat} {roles : List KeyRole} {chain : Bool} {eff : State → Answer} {i : Instr}

theorem dfpStops_of_zeroing (hc : cmd ≠ dcIdentify ∧ cmd ≠ dcStatus) (hz : s.crook.zeroing = true) (f : Bool) :
    s.dfpStops cmd f = some dsBusy := by
  unfold State.dfpStops
  rw [if_pos (by simp [hz, hc.1, hc.2])]

theorem dfpStops_none (hz : s.crook.zeroing = false) : s.dfpStops cmd true = none := by
  simp [State.dfpStops, hz]

/-- What a signed command meets before its effect: its class, its key and its nonce, in this order (R454). -/
theorem signed_checks (hi : exec i s = .next (s.dfpSigned h cmd roles chain eff))
    (hc : cmd < 2 ^ 16) (hx : cmd ≠ dcIdentify ∧ cmd ≠ dcStatus) :
    (s.managed = false → exec i s = .next s) ∧
    (s.managed = true → s.crook.zeroing = true → Completes i s fun v =>
      v.out = s.out ++ [.dfp ⟨h.port, cmd, h.reqId.toNat, h.session.toNat, 8, s.bellCount.toNat, []⟩] ∧ Keeps [.out] s v) ∧
    (s.managed = true → s.crook.zeroing = false → ¬s.Verified h roles chain → Completes i s (Answers h cmd 2 [] s)) ∧
    (s.managed = true → s.crook.zeroing = false → s.Verified h roles chain → ¬s.Fresh h →
      Completes i s (Answers h cmd 3 [] s)) := by
  unfold State.dfpSigned at hi
  refine ⟨fun hm => ?_, fun hm hz => ?_, fun hm hz hv => ?_, fun hm hz hv hf => ?_⟩
  · simpa [hm] using hi
  · rw [if_neg (by simp [hm]), dfpStops_of_zeroing hx hz] at hi
    exact ⟨_, hi, rfl, (State.respond_on (Covers.refl _) s _ _ _ _ (Onward.refl s)).keeps (by decide)⟩
  · have unverified : (!s.authorised h roles chain) = true := by simpa using mt (s.authorised_iff h roles chain).mp hv
    rw [if_neg (by simp [hm]), dfpStops_none hz] at hi
    exact ⟨_, hi.trans (congrArg _ (if_pos unverified)), answers_respond s h [] hc (by decide)⟩
  · have verified : ¬(!s.authorised h roles chain) = true := by simpa using (s.authorised_iff h roles chain).mpr hv
    have stale : (!s.nonceOk h.nonce h.device) = true := by simpa using mt (s.nonceOk_iff h).mp hf
    rw [if_neg (by simp [hm]), dfpStops_none hz] at hi
    exact ⟨_, hi.trans (congrArg _ ((if_neg verified).trans (if_pos stale))), answers_respond s h [] hc (by decide)⟩

/-- A signed command that passes every check uses up its nonce and answers what its effect gives. -/
theorem signed_effect (hi : exec i s = .next (s.dfpSigned h cmd roles chain eff)) (hc : cmd < 2 ^ 16)
    (hm : s.managed = true) (hz : s.crook.zeroing = false) (hv : s.Verified h roles chain) (hf : s.Fresh h)
    {st : Nat} {body : List Nat} {t : State} (hs : st < 2 ^ 8) (he : eff (s.useNonce h.nonce) = (st, body, t)) :
    Completes i s (Answers h cmd st body t) := by
  have verified : ¬(!s.authorised h roles chain) = true := by simpa using (s.authorised_iff h roles chain).mpr hv
  have fresh : ¬(!s.nonceOk h.nonce h.device) = true := by simpa using (s.nonceOk_iff h).mpr hf
  refine ⟨_, hi.trans (congrArg _ ?_), answers_respond t h body hc hs⟩
  unfold State.dfpSigned
  rw [if_neg (by simp [hm]), dfpStops_none hz]
  simp only [verified, fresh, he]
  rfl

end Signed
end Sys2Proof.Machine
end

section
namespace Sys2Proof.Machine

/-! ### Non-volatile commits (R457, R515) -/

theorem State.measured_keeps (s : State) (mj cap : Nat) (start : Bool) : Keeps [.regs] s (s.measured mj cap start) :=
  (State.measured_on (Covers.refl _) s mj cap start (Onward.refl s)).keeps (by decide)

theorem State.measured_regsBut (s : State) (mj cap : Nat) (start : Bool) :
    RegsBut [Fd.holdupStatusOk.addr] s (s.measured mj cap start) :=
  (((s.wr_regsBut Fd.holdupStatusOk _).trans (State.wr_regsBut _ Fd.holdupStatusStart _)).trans
    (State.wr_regsBut _ Fd.holdupStatusCap _)).trans (State.wr_regsBut _ Fd.holdupStatusEnergy _)

theorem State.measured_rd (s : State) (mj cap : Nat) (start : Bool) {f : Fld} (hf : f.addr ≠ Fd.holdupStatusOk.addr) :
    (s.measured mj cap start).rd f = s.rd f := State.rd_of_reg (s.measured_regsBut mj cap start _ (by simpa using hf))

theorem State.measured_ok (s : State) (mj cap : Nat) (start : Bool) :
    (s.measured mj cap start).rd Fd.holdupStatusOk = b2n (decide (150 ≤ mj)) := by
  unfold State.measured
  rw [State.rd_wr_ne _ _ _ _ (.inr ⟨by decide, by decide⟩), State.rd_wr_ne _ _ _ _ (.inr ⟨by decide, by decide⟩),
    State.rd_wr_ne _ _ _ _ (.inr ⟨by decide, by decide⟩), State.rd_wr_same _ _ _ (by decide)]
  cases decide (150 ≤ mj) <;> rfl

theorem State.measured_refused (s : State) (mj cap : Nat) (start : Bool) :
    (s.measured mj cap start).rd Fd.holdupStatusRefused = s.rd Fd.holdupStatusRefused := by
  unfold State.measured
  rw [State.rd_wr_ne _ _ _ _ (.inr ⟨by decide, by decide⟩), State.rd_wr_ne _ _ _ _ (.inr ⟨by decide, by decide⟩),
    State.rd_wr_ne _ _ _ _ (.inr ⟨by decide, by decide⟩), State.rd_wr_ne _ _ _ _ (.inr ⟨by decide, by decide⟩)]

theorem State.mayCommit_of_ge (s : State) {mj : Nat} (hj : 150 ≤ mj) (kind : Nat) :
    s.mayCommit mj kind = (true, s.measured mj (capOf mj) false) := if_pos hj

theorem State.mayCommit_of_lt (s : State) {mj : Nat} (hj : mj < 150) (kind : Nat) :
    s.mayCommit mj kind = (false, ((s.measured mj (capOf mj) false).sat Fd.holdupStatusRefused 1).record euAux 0x0018 uwModule mj
      (Config.commitKind kind).toNat) := if_neg (Nat.not_le.mpr hj)

theorem State.nvCommit_of_ge (s : State) {mj : Nat} (hj : 150 ≤ mj) (kind : Nat) (eff : State → State) :
    s.nvCommit mj kind eff = (dsOk, [], eff (s.measured mj (capOf mj) false)) := by
  unfold State.nvCommit
  rw [s.mayCommit_of_ge hj]

theorem State.nvCommit_of_lt (s : State) {mj : Nat} (hj : mj < 150) (kind : Nat) (eff : State → State) :
    s.nvCommit mj kind eff = (dsHoldupLow, [], (s.mayCommit mj kind).2) := by
  unfold State.nvCommit
  rw [s.mayCommit_of_lt hj]

/-- A non-volatile commit needs 150 mJ; one refused is counted and recorded (R515). -/
theorem State.mayCommit_spec (x : State) (mj n : Nat) :
    let y := (x.mayCommit mj n).2
    (150 ≤ mj → (x.mayCommit mj n).1 = true ∧ y.rd Fd.holdupStatusOk = 1 ∧ RegsBut [Fd.holdupStatusOk.addr] x y ∧
      Keeps [.regs] x y) ∧
    (mj < 150 → (x.mayCommit mj n).1 = false ∧ y.rd Fd.holdupStatusOk = 0 ∧
      y.rd Fd.holdupStatusRefused = min (x.rd Fd.holdupStatusRefused + 1) (2 ^ 16 - 1) ∧
      Keeps [.out, .regs, .log, .irqs] x y) := by
  dsimp only
  constructor <;> intro hj
  · rw [x.mayCommit_of_ge hj]
    exact ⟨rfl, by simp [State.measured_ok, hj, b2n], x.measured_regsBut _ _ _, x.measured_keeps _ _ _⟩
  · rw [x.mayCommit_of_lt hj]
    have quiet_ : quiet Fd.holdupStatusOk.addr := .inr (by decide)
    refine ⟨rfl, ?_, ?_, ?_⟩
    · rw [State.record_rd _ _ _ _ _ _ _ quiet_, State.sat, State.rd_wr_ne _ _ _ _ (.inr ⟨by decide, by decide⟩),
        State.measured_ok, decide_eq_false (Nat.not_le.mpr hj)]
      rfl
    · rw [State.record_rd (f := Fd.holdupStatusRefused) _ _ _ _ _ _ quiet_, State.rd_sat_one _ _ (by decide),
        State.measured_refused]
      rfl
    · exact (State.record_on (m := 0x140000a) (by rfl) _ _ _ _ _ _ (State.sat_on (by rfl) _ _ _
        (State.measured_on (by rfl) x _ _ _ (Onward.refl x)))).keeps (by decide)

/-! ### Counters (R479, R480) -/

theorem State.showMram_mram (s : State) : s.showMram.mram = s.mram :=
  (State.showMram_on (Covers.refl _) s (Onward.refl s)).mram rfl

theorem State.setCounter_mram (s : State) (n v : Nat) : (s.setCounter n v).mram = { s.mram with
    counters := Tab.put (fun _ => 0) s.mram.counters n v, ctrOld := s.mram.counters, ctrSeq := (s.mram.ctrSeq + 1) % 2 ^ 32 } :=
  State.showMram_mram _

theorem State.setCounter_flash (s : State) (n v : Nat) : (s.setCounter n v).flash = s.flash :=
  (State.setCounter_on (Covers.refl _) s n v (Onward.refl s)).flash rfl

theorem State.counter_setCounter (s : State) (n v j : Nat) : (s.setCounter n v).counter j = if j = n then v else s.counter j := by
  unfold State.counter
  rw [State.setCounter_mram]
  exact Tab.get_put (fun _ => 0) s.mram.counters n j v

end Sys2Proof.Machine
end

section
namespace Sys2Proof.Machine

/-! ### Configuration commits (R590) -/

theorem bit62_commit (mode : Bool) : bit (BitVec.ofNat 64 (2 ^ 63 + 2 ^ 61 * b2n mode)) 62 = false := by
  cases mode <;> decide

theorem execCommit_crook {base : BitVec 64} {b : Blk} {i : Nat} (hg : gateAt base.toNat = some (b, i)) (mode : Bool) (x : State) :
    exec (.commit .crook base (BitVec.ofNat 64 (2 ^ 63 + 2 ^ 61 * b2n mode))) x =
      .next (x.gateCtl .crook b i (BitVec.ofNat 64 (2 ^ 63 + 2 ^ 61 * b2n mode)) true false) := by
  show execCommit _ _ _ _ = _
  unfold execCommit
  rw [hg, bit62_commit]

section Effects
variable {s : State} {h : DfpHdr}

section Config
variable {base : BitVec 64} {pairs : List (BitVec 64 × BitVec 64)} {mode : Bool} {target : BitVec 64} {b : Blk} {i : Nat}

/-- The pairs of a commit name ST registers of the block at its base, at most 64 of them (R590). -/
def NamesStaged (b : Blk) (i : Nat) (base : BitVec 64) (pairs : List (BitVec 64 × BitVec 64)) : Prop :=
  base.toNat = b.base + 0x1000 * i ∧ pairs.length ≤ 64 ∧
    ∀ p ∈ pairs, p.1.toNat < 0x1000 ∧ stMask (base.toNat + p.1.toNat) ≠ 0

theorem not_namesStaged_iff : ((base.toNat ≠ b.base + 0x1000 * i || 64 < pairs.length ||
      pairs.any (fun p => 0x1000 ≤ p.1.toNat || stMask (base.toNat + p.1.toNat) = 0)) : Bool) = true ↔
    ¬NamesStaged b i base pairs := by
  simp only [NamesStaged, Bool.or_eq_true, decide_eq_true_eq, List.any_eq_true, Classical.not_and_iff_not_or_not,
    Classical.not_forall, Nat.not_le, Nat.not_lt, ne_eq, Classical.not_not, exists_prop, or_assoc]

variable (hm : s.managed = true) (hz : s.crook.zeroing = false) (hf : s.Fresh h) (hv : s.Verified h [.owner] false)
include hm hz hf hv

theorem config_noGate (hg : gateAt base.toNat = none) :
    Completes (.dfpConfigCommit h base pairs mode target) s (Answers h 0x50 1 [] (s.useNonce h.nonce)) :=
  signed_effect rfl (by decide) hm hz hv hf (by decide) (by simp only [hg]; rfl)

theorem config_badPairs (hg : gateAt base.toNat = some (b, i)) (hn : ¬NamesStaged b i base pairs) :
    Completes (.dfpConfigCommit h base pairs mode target) s (Answers h 0x50 1 [] (s.useNonce h.nonce)) :=
  signed_effect rfl (by decide) hm hz hv hf (by decide) (by simp only [hg]; exact if_pos (not_namesStaged_iff.mpr hn))

theorem config_asleep (hg : gateAt base.toNat = some (b, i)) (hn : NamesStaged b i base pairs)
    (ha : s.reaches base.toNat = false) :
    Completes (.dfpConfigCommit h base pairs mode target) s (Answers h 0x50 9 [stAsleep] (s.useNonce h.nonce)) := by
  have unreached : (!(s.useNonce h.nonce).reaches base.toNat) = true := congrArg Bool.not ha
  refine signed_effect rfl (by decide) hm hz hv hf (by decide) ?_
  simp only [hg]
  rw [if_neg (mt not_namesStaged_iff.mp (not_not_intro hn)), if_pos unreached]
  rfl

/-- Crook stages the pairs, sets the target where no commit is armed, and commits as COMMIT does. -/
theorem config_commits (hg : gateAt base.toNat = some (b, i)) (hn : NamesStaged b i base pairs)
    (ha : s.reaches base.toNat = true) :
    let armed := s.rd (Fd.gateState base.toNat) = 1
    let w := pairs.foldl (fun t p => t.writeStaged .crook base.toNat (base.toNat + p.1.toNat) p.2) (s.useNonce h.nonce)
    ∃ t, exec (.commit .crook base (BitVec.ofNat 64 (2 ^ 63 + 2 ^ 61 * b2n mode)))
        (if armed then w else w.setReg (Fd.gateBell base.toNat).addr target) = .next t ∧
      Completes (.dfpConfigCommit h base pairs mode target) s
        (Answers h 0x50 (if armed ∨ t.rd (Fd.gateState base.toNat) = 3 then 9 else 0)
          [t.rd (Fd.gateState base.toNat), t.rd (Fd.gateReason base.toNat)] t) := by
  intro armed w
  have reached : ¬(!(s.useNonce h.nonce).reaches base.toNat) = true := by
    rw [show (s.useNonce h.nonce).reaches base.toNat = true from ha]
    decide
  refine ⟨_, execCommit_crook hg mode _, signed_effect rfl (by decide) hm hz hv hf
    (ite_ind (P := (· < 2 ^ 8)) (by decide) (by decide)) ?_⟩
  simp only [hg]
  rw [if_neg (mt not_namesStaged_iff.mp (not_not_intro hn)), if_neg reached]
  simp only [Bool.or_eq_true, decide_eq_true_eq]
  rfl

end Config
end Effects
end Sys2Proof.Machine
end

section
namespace Sys2Proof.Machine

/-! ### The Module Record (R480, R583 to R585, R588) -/

/-- A section's code is one of Table 20.2. -/
def KnownSection (sec : RecordSection) : Prop := sec.code ≠ 0 ∧ sec.code.toNat ≤ 3

/-- Enrolment data are written in Blank and Returned alone (R588). -/
def State.SectionPlaced (s : State) (sec : RecordSection) : Prop :=
  sec.code = 3 → s.mram.lifecycle = lcBlank ∨ s.mram.lifecycle = lcReturned

/-- The record a section gives keeps the good Drovers outside Blank, and, where the counter is to advance to its version,
the counter does not fall. -/
def State.RecordKeeps (s : State) (adv : Bool) (sec : RecordSection) : Prop :=
  let old := s.flash.inUse
  let new := sectionInto sec old
  (goodOf new.order = goodOf old.order ∨ s.mram.lifecycle = lcBlank) ∧
    (adv = true → s.counter 0 / 256 ≤ new.niruaVersion.toNat ∧ s.counter 0 % 256 ≤ new.ownerVersion.toNat)

/-- The state after a section is written. -/
def State.recordWritten (s : State) (adv : Bool) (old : ModuleRecord) (sec : RecordSection) : State :=
  let t := s.setFlash (s.flash.putRecord (sectionInto sec old))
  if adv then t.setCounter 0 (ModuleRecord.version (sectionInto sec old)) else t

/-- The outcomes of RECORD_WRITE, in the order of its checks. -/
theorem recordWrite_outcomes (h : DfpHdr) (adv : Bool) (sec : RecordSection) (mj : Nat) : ∃ eff : State → Answer,
    (∀ s, exec (.dfpRecordWrite h adv sec mj) s = .next (s.dfpSigned h 0x51 (sectionRoles sec.code) true eff)) ∧
    ∀ u : State,
      (¬KnownSection sec → eff u = (1, [], u)) ∧
      (KnownSection sec → ¬(sec.code = 3 ∨ sec.sigOk = true) → eff u = (2, [], u)) ∧
      (KnownSection sec → (sec.code = 3 ∨ sec.sigOk = true) →
        (¬u.SectionPlaced sec → eff u = (5, [], u)) ∧
        (u.SectionPlaced sec → ¬u.RecordKeeps adv sec → eff u = (9, [], u)) ∧
        (u.SectionPlaced sec → u.RecordKeeps adv sec →
          eff u = u.nvCommit mj nvRecord fun x => x.recordWritten adv u.flash.inUse sec)) := by
  refine ⟨_, fun s => rfl, fun u => ?_⟩
  have known : KnownSection sec ↔ ¬(sec.code = 0 ∨ 3 < sec.code.toNat) := by
    simp only [KnownSection, not_or, Nat.not_lt, ne_eq]
  have signed_ : (sec.code = 3 ∨ sec.sigOk = true) ↔ ¬(decide (sec.code ≠ 3) && !sec.sigOk) = true := by
    simp [Classical.or_iff_not_imp_left]
  have placed : u.SectionPlaced sec ↔ ¬(sec.code = 3 ∧ u.mram.lifecycle ≠ lcBlank ∧ u.mram.lifecycle ≠ lcReturned) := by
    simp only [State.SectionPlaced, not_and, ne_eq, Classical.not_not,
      Classical.or_iff_not_imp_left]
  dsimp only
  refine ⟨fun hk => ?_, fun hk hs => ?_, fun hk hs => ⟨fun hp => ?_, fun hp hr => ?_, fun hp hr => ?_⟩⟩
  · rw [if_pos (Classical.not_not.mp (mt known.mpr hk))]
    rfl
  · rw [if_neg (known.mp hk), if_pos (Classical.not_not.mp (mt signed_.mpr hs))]
    rfl
  all_goals rw [if_neg (known.mp hk), if_neg (signed_.mp hs)]
  · rw [if_pos (Classical.not_not.mp (mt placed.mpr hp))]
    rfl
  all_goals rw [if_neg (placed.mp hp)]
  · by_cases order : goodOf (sectionInto sec u.flash.inUse).order ≠ goodOf u.flash.inUse.order ∧ u.mram.lifecycle ≠ lcBlank
    · rw [if_pos order]
      rfl
    · rw [if_neg order, if_pos]
      · rfl
      · have kept : goodOf (sectionInto sec u.flash.inUse).order = goodOf u.flash.inUse.order ∨ u.mram.lifecycle = lcBlank := by
          rw [Classical.or_iff_not_imp_left]
          exact fun k => Classical.not_not.mp fun l => order ⟨k, l⟩
        have falls := fun k => hr ⟨kept, k⟩
        simpa [Classical.or_iff_not_imp_left] using falls
  · obtain ⟨order, rises⟩ := hr
    rw [if_neg (fun k => order.elim k.1 k.2), if_neg]
    · rfl
    · intro falls
      simp only [Bool.and_eq_true, Bool.or_eq_true, decide_eq_true_eq] at falls
      have := rises falls.1
      omega

/-- A copy of the record is written with the next sequence number over the copy that is not in use (R585). -/
theorem Flash.putRecord_spec (f : Flash) (r : ModuleRecord) :
    (f.putRecord r).images = f.images ∧ (f.putRecord r).active = f.active ∧
    (if f.usesA = true then (f.putRecord r).recA = f.recA ∧ (f.putRecord r).recB = some { r with seq := f.inUse.seq + 1 }
     else (f.putRecord r).recB = f.recB ∧ (f.putRecord r).recA = some { r with seq := f.inUse.seq + 1 }) := by
  unfold Flash.putRecord
  by_cases a : f.usesA = true <;> simp [a]

theorem State.recordWritten_flash (s : State) (adv : Bool) (old : ModuleRecord) (sec : RecordSection) :
    (s.recordWritten adv old sec).flash = s.flash.putRecord (sectionInto sec old) := by
  unfold State.recordWritten
  cases adv with
  | true => exact State.setCounter_flash _ _ _
  | false => rfl

theorem State.recordWritten_counter (s : State) (old : ModuleRecord) (sec : RecordSection) (n : Nat) :
    (s.recordWritten true old sec).counter n = if n = 0 then ModuleRecord.version (sectionInto sec old) else s.counter n := by
  unfold State.recordWritten
  rw [if_pos rfl, State.counter_setCounter]
  rfl

end Sys2Proof.Machine
end

section
namespace Sys2Proof.Machine

/-! ### COUNTER_CLEAR and FALLOW_EXIT (R545) -/

theorem counterClear_outcomes (h : DfpHdr) (mj : Nat) : ∃ eff : State → Answer,
    (∀ s, exec (.dfpCounterClear h mj) s = .next (s.dfpSigned h 0x52 [.owner, .niruaService] true eff)) ∧
    ∀ u : State, (u.fallowLow = true → eff u = (6, [], u)) ∧
      (u.fallowLow = false → eff u = u.nvCommit mj nvCounter fun x => x.setMram { x.mram with attempts := 0 }) := by
  refine ⟨_, fun s => rfl, fun u => ⟨fun low => if_pos low, fun low => if_neg ?_⟩⟩
  rw [low]
  decide

theorem fallowExit_outcomes (h : DfpHdr) (mj : Nat) : ∃ eff : State → Answer,
    (∀ s, exec (.dfpFallowExit h mj) s = .next (s.dfpSigned h 0x53 [.owner, .niruaService] true eff)) ∧
    ∀ u : State, (u.fallow = false → eff u = (9, [], u)) ∧
      (u.fallow = true → u.fallowLow = true → eff u = (6, [], u)) ∧
      (u.fallow = true → u.fallowLow = false →
        eff u = u.nvCommit mj nvCounter fun x => (x.setMram { x.mram with attempts := 0 }).beginStart 4) := by
  refine ⟨_, fun s => rfl, fun u => ⟨fun out => ?_, fun fallow low => ?_, fun fallow low => ?_⟩⟩ <;> dsimp only
  · rw [out]
    rfl
  · rw [fallow, low]
    rfl
  · rw [fallow, low]
    rfl

/-- A start begins (R466, R530): the MRAM stays, the module is not ready, in P0, and Crook's sessions are gone. -/
theorem State.beginStart_spec (s : State) (kind : Nat) :
    (s.beginStart kind).mram = s.mram ∧ (s.beginStart kind).reg Fd.modStatusReady.addr = 0 ∧
    (s.beginStart kind).rd Fd.pwrStatusState = psP0 ∧ (s.beginStart kind).crook.kind = kind ∧
    (s.beginStart kind).crook.sessions = [] ∧ (s.beginStart kind).crook.serving = false := by
  refine ⟨(State.beginStart_on (Covers.refl _) s kind (Onward.refl s)).mram rfl, ?_⟩
  unfold State.beginStart
  extract_lets closed cleared reset off started
  have lost : reset.crook = cleared.crook := (State.resetDomains_on (Covers.refl _) cleared false (Onward.refl _)).crook rfl
  have since : off.sinceStart.crook = off.crook := (State.sinceStart_on (Covers.refl _) off (Onward.refl _)).crook rfl
  have begun : started.crook = cleared.crook := by
    unfold started
    rw [State.wr_crook, State.wr_crook, since]
    exact lost
  refine ⟨?_, ?_, ?_, ?_, ?_⟩
  · rw [State.reg_wr_ne _ _ _ _ (by decide), State.reg_setReg_same]
  · rw [State.rd_wr_same _ _ _ (by decide)]
    rfl
  all_goals
    rw [State.wr_crook, State.setReg_crook, begun]
    rfl

/-! ### Restarts (R450, R546) -/

theorem State.imageFault_congr {s t : State} (h : t.mram = s.mram) (i : Image) : t.imageFault i = s.imageFault i := by
  unfold State.imageFault State.counter
  rw [h]

theorem State.image_congr {s t : State} (h : t.flash = s.flash) (kind slot : Nat) : t.image kind slot = s.image kind slot := by
  unfold State.image
  rw [h]

/-- An image that verifies in its active slot is loaded. -/
theorem State.loadImage_loads (s : State) (kind : Nat) (h : s.imageFault (s.image kind (s.activeSlot kind)) = 0) :
    (s.loadImage kind).1 = true := by
  unfold State.loadImage
  extract_lets a try_
  have first : (try_ (false, s) a).1 = true := by
    unfold try_
    rw [if_neg Bool.false_ne_true]
    exact congrArg Prod.fst (if_pos h)
  show (try_ (try_ (false, s) a) (1 - a)).1 = true
  conv =>
    lhs
    unfold try_
  rw [if_pos first]
  exact first

theorem State.record_crook (s : State) (src code p0 p1 p2 : Nat) : (s.record src code p0 p1 p2).crook = s.crook :=
  (s.record_within src code p0 p1 p2) .crook rfl

/-- Loading an image changes which images run, and no other thing of Crook's. -/
theorem State.loadImage_crook (s : State) (kind : Nat) : ∃ r, (s.loadImage kind).2.crook = { s.crook with running := r } := by
  refine foldl_ind (P := fun x : Bool × State => ∃ r, x.2.crook = { s.crook with running := r }) ?_ _ _ ⟨_, rfl⟩
  rintro ⟨loaded, t⟩ slot ⟨r, hr⟩
  dsimp only at hr ⊢
  split
  · exact ⟨r, hr⟩
  · split
    · exact ⟨Tab.put (fun _ => default) t.crook.running kind (t.image kind slot), by rw [State.crook_setCrook, hr]⟩
    · exact ⟨r, (State.record_crook ..).trans hr⟩

theorem State.restarting_parts (s : State) (cause : Nat) :
    (∃ r, (s.restarting cause).crook = { s.crook with sessions := [], subs := [], running := r }) ∧
    (s.restarting cause).mram = s.mram ∧ (s.restarting cause).flash = s.flash := by
  have mbox (t : State) := State.mboxRestart_on (Covers.refl _) t (Onward.refl t)
  have image (t : State) := State.loadImage_on (Covers.refl _) t imWalker (Onward.refl t)
  have noted := s.record_within euAux 0x0017 uwMgmt (Config.restartCause cause).toNat 0
  unfold State.restarting
  refine ⟨?_, ?_, ?_⟩
  · obtain ⟨r, hr⟩ := State.loadImage_crook
      ((s.record euAux 0x0017 uwMgmt (Config.restartCause cause).toNat 0).closeSessions.mboxRestart) imWalker
    refine ⟨r, hr.trans ?_⟩
    rw [(mbox _).crook rfl, State.closeSessions, State.crook_setCrook, State.record_crook]
  · rw [(image _).mram rfl, (mbox _).mram rfl, State.closeSessions, State.setCrook_mram]
    exact noted .mram rfl
  · rw [(image _).flash rfl, (mbox _).flash rfl, State.closeSessions, State.setCrook_flash]
    exact noted .flash rfl

/-- A management restart: Crook's sessions and subscriptions are gone, its images are loaded anew, and the rest of Crook, the
MRAM and the flash stay. -/
theorem State.mgmtRestart_parts (s : State) (cause : Nat) :
    (∃ r b, (s.mgmtRestart cause).crook = { s.crook with sessions := [], subs := [], running := r, serving := b }) ∧
    (s.mgmtRestart cause).mram = s.mram ∧ (s.mgmtRestart cause).flash = s.flash := by
  obtain ⟨⟨r, hr⟩, mram, flash⟩ := s.restarting_parts cause
  have image := State.loadImage_on (Covers.refl _) (s.restarting cause) imMgmt (Onward.refl _)
  obtain ⟨q, hq⟩ := (s.restarting cause).loadImage_crook imMgmt
  rw [State.mgmtRestart_eq]
  refine ⟨⟨q, ((s.restarting cause).loadImage imMgmt).1 || ((s.restarting cause).loadImage imMgmt).2.fallow, ?_⟩, ?_, ?_⟩
  · rw [State.crook_setCrook, hq, hr]
  · rw [State.setCrook_mram, image.mram rfl, mram]
  · rw [State.setCrook_flash, image.flash rfl, flash]

/-- Management firmware serves after a restart where both its images verify. -/
theorem State.mgmtRestart_serves (s : State) (cause : Nat) (h : ∀ n, s.imageFault (s.image imMgmt n) = 0) :
    (s.mgmtRestart cause).crook.serving = true := by
  obtain ⟨-, mram, flash⟩ := s.restarting_parts cause
  rw [State.mgmtRestart_eq, State.crook_setCrook,
    State.loadImage_loads _ _ (by rw [State.imageFault_congr mram, State.image_congr flash]; exact h _), Bool.true_or]

/-- The outcomes of RESTART: a management restart at once, a reset as `RESET_CMD` gives it. -/
theorem restartManagement_outcomes (h : DfpHdr) : ∃ eff : State → Answer,
    (∀ s, exec (.dfpRestartManagement h) s = .next (s.dfpSigned h 0x56 [.owner, .niruaService] false eff)) ∧
    ∀ u : State, eff u = (0, [], u.mgmtRestart 1) := ⟨_, fun _ => rfl, fun _ => rfl⟩

/-- What a RESTART that asks for a reset answers, by the result that the reset command shows. -/
theorem State.resetAnswer_eq (s : State) :
    s.resetAnswer = (let r := s.rd Fd.resetCmdResult
      (if r = 0 then 0 else if r = 1 then 8 else 9, if r < 2 then [] else [r], s)) := by
  unfold State.resetAnswer
  extract_lets r
  rcases Nat.lt_or_ge r 2 with low | high
  · have shown : r = 0 ∨ r = 1 := by omega
    rcases shown with zero | one
    · rw [zero]
      rfl
    · rw [one]
      rfl
  · rw [if_neg (by omega), if_neg (by omega), if_neg (by omega), if_neg (by omega), if_neg (by omega)]
    rfl

/-- A Paddock or the module restarts as PADDOCK_RESET or MODULE_RESET resets it. -/
theorem restartReset_outcomes (h : DfpHdr) (k : Fin 4) :
    ∀ e ∈ [(Instr.dfpRestartPaddock h k, Instr.paddockReset (BitVec.ofNat 7 k) false), (.dfpRestartModule h, .moduleReset)],
      ∃ eff : State → Answer,
        (∀ s, exec e.1 s = .next (s.dfpSigned h 0x56 [.owner, .niruaService] false eff)) ∧
        ∀ u, ∃ t, exec e.2 u = .next t ∧ eff u = t.resetAnswer := by
  have number : (BitVec.ofNat 7 k.val).toNat = k := by
    have := k.isLt
    rw [BitVec.toNat_ofNat]
    omega
  refine List.forall_mem_cons.mpr ⟨⟨_, fun s => rfl, fun u => ⟨_, ?_, rfl⟩⟩, List.forall_mem_singleton.mpr
    ⟨_, fun s => rfl, fun u => ⟨_, rfl, rfl⟩⟩⟩
  show Host.Outcome.next (u.resetGo rlPaddock (BitVec.ofNat 7 k.val).toNat false false) = _
  rw [number]

end Sys2Proof.Machine
end

section
namespace Sys2Proof.Machine

/-! ### The debug level (R488, R493) -/

section Level
variable (s : State) (level scope key : Nat) (until_ : Option Nat)

/-- The registers that the debug level shows in, once the level, scope and key slot are written. -/
def State.levelShown : State := ((s.wr Fd.secStatusLevel level).wr Fd.secStatusScope scope).wr Fd.secStatusTokenKey key

theorem State.setLevel_crook : (s.setLevel level scope key until_).crook = { s.crook with tokenEnd := until_ } := by
  unfold State.setLevel
  extract_lets t
  split
  · rfl
  · exact (State.record_crook ..).trans rfl

theorem State.levelShown_regsBut : RegsBut [Fd.secStatusLevel.addr] s (s.levelShown level scope key) :=
  ((s.wr_regsBut Fd.secStatusLevel _).trans (State.wr_regsBut _ Fd.secStatusScope _)).trans
    (State.wr_regsBut _ Fd.secStatusTokenKey _)

/-- A level as it is set shows as it is set, whether or not it changed. -/
theorem State.setLevel_rd (hl : level < 4) (hs : scope < 64) (hk : key < 16) :
    (s.setLevel level scope key until_).rd Fd.secStatusLevel = level ∧
    (s.setLevel level scope key until_).rd Fd.secStatusScope = scope ∧
    (s.setLevel level scope key until_).rd Fd.secStatusTokenKey = key := by
  have crook : quiet Fd.secStatusLevel.addr := firm_level.quiet
  unfold State.setLevel
  extract_lets t
  split
  · assumption
  · refine ⟨?_, ?_, ?_⟩
    · rw [State.record_rd (f := Fd.secStatusLevel) _ _ _ _ _ _ crook, State.rd_wr_ne _ _ _ _ (.inr ⟨by decide, by decide⟩),
        State.rd_wr_ne _ _ _ _ (.inr ⟨by decide, by decide⟩), State.rd_wr_same _ _ _ (by decide)]
      exact Nat.mod_eq_of_lt hl
    · rw [State.record_rd (f := Fd.secStatusScope) _ _ _ _ _ _ crook, State.rd_wr_ne _ _ _ _ (.inr ⟨by decide, by decide⟩),
        State.rd_wr_same _ _ _ (by decide)]
      exact Nat.mod_eq_of_lt hs
    · rw [State.record_rd (f := Fd.secStatusTokenKey) _ _ _ _ _ _ crook, State.rd_wr_same _ _ _ (by decide)]
      exact Nat.mod_eq_of_lt hk

theorem State.setLevel_reg {a : Nat} (hq : quiet a) (ha : a ≠ Fd.secStatusLevel.addr) :
    (s.setLevel level scope key until_).reg a = s.reg a := by
  unfold State.setLevel
  extract_lets t
  split
  · rfl
  · exact (State.record_reg _ _ _ _ _ _ _ hq).trans (State.levelShown_regsBut _ level scope key a (by simpa using ha))

end Level

/-! ### Paddocks under reset (R485, R548) -/

theorem Nats.mem_ins (t : List Nat) (j k : Nat) : j ∈ Nats.ins t k ↔ j = k ∨ j ∈ t := by
  induction t with
  | nil => simp [Nats.ins]
  | cons i t ih =>
    simp only [Nats.ins]
    split
    · rename_i e
      subst e
      simp
    · split
      · simp
      · simp only [List.mem_cons, ih, or_left_comm]

theorem Nats.mem_del (t : List Nat) (j k : Nat) : j ∈ Nats.del t k ↔ j ∈ t ∧ j ≠ k := by simp [Nats.del]

theorem State.resetPaddock_resetPaddocks (s : State) (k : Nat) (zero : Bool) :
    (s.resetPaddock k zero).resetPaddocks = Nats.ins s.resetPaddocks k := by
  unfold State.resetPaddock
  extract_lets site runs stopped held pens context blocks answered asleep
  have hstopped : stopped.resetPaddocks = s.resetPaddocks :=
    ite_ind (P := fun t : State => t.resetPaddocks = s.resetPaddocks)
      ((State.siteStops_on (Covers.refl _) s k ssHeld (Onward.refl s)).resetPaddocks rfl) rfl
  have hpens : Onward 0x20e5bcefffe held pens := eachUpTo_ind 4 _ (Onward.refl _) fun _ _ on =>
    State.resetDrvBlk_on (by rfl) _ _ (State.resetPen_on (by rfl) _ _ _ on)
  have hcontext : Onward 0x20e5bcefffe held context :=
    State.dropContext_on (by rfl) _ _ (State.resetRegs_on (by rfl) _ _ hpens)
  have hblocks : Onward 0x20e5bcefffe held blocks :=
    State.resetDoorbells_on (by rfl) _ _ (State.resetSiteBlk_on (by rfl) _ _ hcontext)
  have hanswered : Onward 0x20e5bcefffe held answered :=
    foldl_ind (fun _ _ on => State.answerIn_on (by rfl) _ _ _ _ _ _ on) _ _ hblocks
  have hasleep : Onward 0x20e5bcefffe held asleep := eachUpTo_ind 2 _ hanswered fun _ _ on =>
    State.stackSleeps_on (by rfl) _ _ on
  have zeroised (t : State) (i : Nat) (on : Onward 0x20e5bcefffe held t) : Onward 0x20e5bcefffe held (t.zeroStack (2 * k + i)) :=
    State.zeroStack_on (by rfl) _ _ on
  refine (Onward.resetPaddocks (m := 0x20e5bcefffe) (s := held) ?_ rfl).trans (congrArg (Nats.ins · k) hstopped)
  refine ite_ind (P := Onward 0x20e5bcefffe held) (eachUpTo_ind 2 _ hasleep fun t i on => ?_) hasleep
  exact ite_ind (P := Onward 0x20e5bcefffe held) (zeroised t i on) (State.wr_on (by rfl) _ _ _ (zeroised t i on))

theorem State.openPaddock_resetPaddocks (s : State) (k : Nat) :
    (s.openPaddock k).resetPaddocks = Nats.del s.resetPaddocks k := by
  unfold State.openPaddock
  extract_lets released awake open_
  have hawake : Onward 0x253ccb7ea released awake := eachUpTo_ind 2 _ (Onward.refl _) fun _ _ on =>
    State.stackWakes_on (by rfl) _ _ on
  have hopen : Onward 0x253ccb7ea released open_ := eachUpTo_ind 4 _ hawake fun _ _ on => State.openPen_on (by rfl) _ _ on
  refine Onward.resetPaddocks (m := 0x253ccb7ea) (s := released) ?_ rfl
  exact ite_ind (P := Onward 0x253ccb7ea released) (State.setSite_on (by rfl) _ _ _ hopen) hopen

end Sys2Proof.Machine
end

section
namespace Sys2Proof.Machine

/-! ### Lifecycle transitions (R484, R485, Tables 16.6 and 16.8) -/

/-- All four Paddocks put under reset, their stacks zeroising. -/
def State.allReset (s : State) : State := eachUpTo 4 (fun s k => s.resetPaddock k true) s

theorem State.allReset_onward (s : State) : Onward 0x20e5fcefffe s s.allReset :=
  eachUpTo_ind 4 _ (Onward.refl _) fun x k on => on.trans (State.resetPaddock_on (Covers.refl _) x k true (Onward.refl x))

theorem State.allReset_level (s : State) : s.allReset.rd Fd.secStatusLevel = s.rd Fd.secStatusLevel :=
  State.rd_of_reg (State.reg_eachUpTo 4 s fun x k => x.resetPaddock_zero_reg k firm_level)

theorem eachUpTo_succ (n : Nat) (f : State → Nat → State) (s : State) :
    eachUpTo (n + 1) f s = f (eachUpTo n f s) n := by
  simp [eachUpTo, List.range_succ]

theorem State.mem_allReset (s : State) {k : Nat} (hk : k < 4) : k ∈ s.allReset.resetPaddocks := by
  unfold State.allReset
  simp only [eachUpTo_succ, State.resetPaddock_resetPaddocks, Nats.mem_ins]
  omega

/-- The state with its memory zero but for the management complex's. -/
def State.memCleared (s : State) : State := { s with mem := Tab.keep (fun k => !isMgmtMem k) s.mem }

theorem State.memCleared_crook (s : State) : s.memCleared.crook = s.crook := rfl

theorem State.memCleared_mram (s : State) : s.memCleared.mram = s.mram := rfl

theorem State.memCleared_resetPaddocks (s : State) : s.memCleared.resetPaddocks = s.resetPaddocks := rfl

theorem State.memCleared_rd (s : State) (f : Fld) : s.memCleared.rd f = s.rd f := rfl

theorem State.mgmtRestart_memCleared (s : State) :
    ({ s with mem := Tab.keep (fun k => !isMgmtMem k) s.mem }).mgmtRestart 4 = s.memCleared.mgmtRestart 4 := rfl

theorem State.memCleared_zero (s : State) : ∀ e ∈ s.memCleared.mem, isMgmtMem e.1 = false := by
  intro e he
  have := (List.mem_filter.mp he).2
  simpa using this

/-- Crook and the MRAM once a transition from lifecycle a is recorded, before the Paddocks are put under reset. -/
def State.TransitEnded (s e : State) (b : Nat) : Prop :=
  e.mram.lifecycle = b ∧ e.mram.zeroPending = true ∧ e.mram.epoch = s.mram.epoch + 1 ∧ e.mram.counters = s.mram.counters ∧
  e.crook.nonces = [] ∧ e.crook.tokenEnd = none ∧ e.crook.raise = none ∧ e.crook.zeroing = true ∧
  e.crook.lcFrom = some s.mram.lifecycle ∧ e.rd Fd.secStatusLevel = 0

theorem State.transitTo_eq (s : State) (b : Nat) :
    ∃ e, s.TransitEnded e b ∧ s.transitTo b = e.allReset.memCleared.mgmtRestart 4 := by
  unfold State.transitTo
  extract_lets old mram shown flashed bare closed crook ended pads
  have hshown : shown.mram = { mram with
      lifecycle := b, lcOld := old, lcSeq := (s.mram.lcSeq + 1) % 2 ^ 32, zeroPending := true, epoch := s.mram.epoch + 1 } :=
    State.showMram_mram _
  have hbare : bare.mram = shown.mram := ite_ind (P := fun x : State => x.mram = shown.mram) rfl rfl
  have hclosed : closed.mram = bare.mram := (State.closeLevel_on (Covers.refl _) _ (Onward.refl _)).mram rfl
  have tokenEnd : closed.crook.tokenEnd = none := congrArg Crook.tokenEnd (State.setLevel_crook ..)
  have level : closed.rd Fd.secStatusLevel = 0 := (State.setLevel_rd _ 0 0 0 none (by decide) (by decide) (by decide)).1
  have hended : ended.mram = shown.mram := (State.setCrook_mram ..).trans (hclosed.trans hbare)
  have hpads : pads = ended.allReset := rfl
  refine ⟨ended, ?_, hpads ▸ State.mgmtRestart_memCleared pads⟩
  unfold State.TransitEnded
  rw [hended, hshown]
  exact ⟨rfl, rfl, rfl, rfl, rfl, tokenEnd, rfl, rfl, rfl, (State.rd_of_reg (State.reg_setCrook ..)).trans level⟩

/-- What a transition leaves: the new lifecycle in the MRAM, Crook without what it gave out, every Paddock under reset. -/
theorem State.transitTo_spec (s : State) (b : Nat) : let t := s.transitTo b
    t.mram.lifecycle = b ∧ t.mram.zeroPending = true ∧ t.mram.epoch = s.mram.epoch + 1 ∧ t.mram.counters = s.mram.counters ∧
    t.crook.sessions = [] ∧ t.crook.nonces = [] ∧ t.crook.tokenEnd = none ∧ t.crook.raise = none ∧ t.crook.zeroing = true ∧
    t.crook.lcFrom = some s.mram.lifecycle ∧ t.rd Fd.secStatusLevel = 0 ∧ (∀ k, k < 4 → k ∈ t.resetPaddocks) ∧
    ∀ e ∈ t.mem, isMgmtMem e.1 = false := by
  obtain ⟨e, ⟨lifecycle, pending, epoch, counters, nonces, tokenEnd, raise, zeroing, from_, level⟩, he⟩ := s.transitTo_eq b
  obtain ⟨⟨r, v, crook⟩, mram, -⟩ := e.allReset.memCleared.mgmtRestart_parts 4
  have restart := State.mgmtRestart_on (Covers.refl _) e.allReset.memCleared 4 (Onward.refl _)
  have reset := e.allReset_onward
  have hcrook : (s.transitTo b).crook = { e.crook with sessions := [], subs := [], running := r, serving := v } := by
    rw [he, crook, State.memCleared_crook, reset.crook rfl]
  have hmram : (s.transitTo b).mram = e.mram := by
    rw [he, mram, State.memCleared_mram, reset.mram rfl]
  have hlevel : (s.transitTo b).rd Fd.secStatusLevel = 0 := by
    rw [he, State.rd_of_reg (State.mgmtRestart_reg _ _ firm_level), State.memCleared_rd, e.allReset_level, level]
  have hpads (k : Nat) (hk : k < 4) : k ∈ (s.transitTo b).resetPaddocks := by
    rw [he, restart.resetPaddocks rfl, State.memCleared_resetPaddocks]
    exact e.mem_allReset hk
  have hmem : (s.transitTo b).mem = e.allReset.memCleared.mem := by rw [he, restart.mem rfl]
  dsimp only
  rw [hcrook, hmram]
  exact ⟨lifecycle, pending, epoch, counters, rfl, nonces, tokenEnd, raise, zeroing, from_, hlevel, hpads,
    hmem ▸ State.memCleared_zero _⟩

end Sys2Proof.Machine
end

section
namespace Sys2Proof.Machine

/-- The roles that may sign LIFECYCLE; one that does not exist is refused after its key is checked. -/
def lifecycleSigners (a b : Nat) : List KeyRole :=
  if lifecycleRoles a b = [] then [.owner, .niruaMfg, .niruaService] else lifecycleRoles a b

/-- The transition a to b exists, the module is in a, and a module in Blank has a certified record and an Owner's key. -/
def State.MayTransit (s : State) (a b : Nat) : Prop :=
  lifecycleRoles a b ≠ [] ∧ a = s.mram.lifecycle ∧
    (s.mram.lifecycle = lcBlank → s.record?.certified = true ∧ ∃ n, n < 16 ∧ s.keyRole n = some .owner)

/-- The outcomes of LIFECYCLE. -/
theorem lifecycle_outcomes (h : DfpHdr) (present next_ : BitVec 8) (mj : Nat) : ∃ eff : State → Answer,
    (∀ s, exec (.dfpLifecycle h present next_ mj) s =
      .next (s.dfpSigned h 0x54 (lifecycleSigners present.toNat next_.toNat) false eff)) ∧
    ∀ u : State, (¬u.MayTransit present.toNat next_.toNat → eff u = (5, [], u)) ∧
      (u.MayTransit present.toNat next_.toNat → eff u = u.nvCommit mj nvLifecycle fun x => x.transitTo next_.toNat) := by
  refine ⟨_, fun s => rfl, fun u => ?_⟩
  have owned : ((List.range 16).any fun n => u.keyRole n = some .owner) = true ↔ ∃ n, n < 16 ∧ u.keyRole n = some .owner := by
    simp
  dsimp only
  by_cases hr : lifecycleRoles present.toNat next_.toNat = [] ∨ present.toNat ≠ u.mram.lifecycle
  · rw [if_pos hr]
    exact ⟨fun _ => rfl, fun hm => (hr.elim hm.1 (absurd hm.2.1)).elim⟩
  · rw [if_neg hr]
    rw [not_or, Classical.not_not] at hr
    obtain ⟨roles, here⟩ := hr
    by_cases hb : (decide (present.toNat = lcBlank) &&
        !(u.record?.certified && (List.range 16).any fun n => u.keyRole n = some .owner)) = true
    · rw [if_pos hb]
      refine ⟨fun _ => rfl, fun hm => ?_⟩
      rw [Bool.and_eq_true, decide_eq_true_eq, here] at hb
      obtain ⟨certified, key⟩ := hm.2.2 hb.1
      simp [certified, owned.mpr key] at hb
    · rw [if_neg hb]
      refine ⟨fun hm => absurd ⟨roles, here, fun blank => ?_⟩ hm, fun _ => rfl⟩
      rw [here, blank] at hb
      rw [← owned]
      simpa using hb

/-! ### Images (R477, R478) -/

theorem Nats.mem_set (t : List Nat) (j k : Nat) (b : Bool) : j ∈ Nats.set t k b ↔ if j = k then b = true else j ∈ t := by
  cases b <;> by_cases h : j = k <;> simp [Nats.set, Nats.mem_ins, Nats.mem_del, h]

theorem State.activeSlot_eq (s : State) (kind : Nat) : s.activeSlot kind = if kind ∈ s.flash.active then 1 else 0 := by
  by_cases h : kind ∈ s.flash.active <;> simp [State.activeSlot, b2n, h]

/-- The other slot of an image is activated. -/
def State.activated (s : State) (k a : Nat) : State :=
  s.setFlash { s.flash with active := Nats.set s.flash.active k (decide (a = 0)) }

theorem State.activated_activeSlot (s : State) (k j : Nat) :
    (s.activated k (s.activeSlot k)).activeSlot j = if j = k then 1 - s.activeSlot k else s.activeSlot j := by
  have active : (s.activated k (s.activeSlot k)).flash.active = Nats.set s.flash.active k (decide (s.activeSlot k = 0)) := rfl
  rw [State.activeSlot_eq, active, s.activeSlot_eq k, s.activeSlot_eq j]
  simp only [Nats.mem_set]
  by_cases h : j = k <;> by_cases hk : k ∈ s.flash.active <;> simp [h, hk]

/-- The image of a kind that runs. -/
def State.runs (s : State) (k : Nat) : Option Image := (s.crook.running.find? fun e => e.1 = k).map (·.2)

/-- The outcomes of IMAGE_COMMIT, by what the header hash names and `ADVANCE`. -/
theorem imageCommit_outcomes (h : DfpHdr) (kind : ImageKind) (adv : Bool) (hash : BitVec 384) (mj : Nat) :
    ∃ eff : State → Answer,
    (∀ s, exec (.dfpImageCommit h kind adv hash mj) s = .next (s.dfpSigned h 0x59 [.owner] false eff)) ∧
    ∀ u : State,
      let k := imageCode kind
      let a := u.activeSlot k
      let staged := u.image k (1 - a)
      let no (c : Nat) : Answer := (9, [(Config.checkCode c).toNat], u)
      (staged.header = hash → adv = true → eff u = no 4) ∧
      (staged.header = hash → adv = false → u.imageFault staged ≠ 0 → eff u = no (u.imageFault staged)) ∧
      (staged.header = hash → adv = false → u.imageFault staged = 0 →
        eff u = u.nvCommit mj nvSelector fun x => x.activated k a) ∧
      (staged.header ≠ hash → (∀ r, u.runs k = some r → r.header ≠ hash) → eff u = no 5) ∧
      ∀ r, staged.header ≠ hash → u.runs k = some r → r.header = hash →
        (adv = false → eff u = (0, [], u)) ∧
        (adv = true → r.svn.toNat < u.counter r.counterSlot.toNat → eff u = (9, [], u)) ∧
        (adv = true → u.counter r.counterSlot.toNat ≤ r.svn.toNat →
          eff u = u.nvCommit mj nvCounter fun x => x.setCounter r.counterSlot.toNat r.svn.toNat) := by
  refine ⟨_, fun s => rfl, fun u => ?_⟩
  intro k a staged no
  dsimp only
  refine ⟨fun hs ha => ?_, fun hs ha hf => ?_, fun hs ha hf => ?_, fun hs hr => ?_, fun r hs hr hh =>
    ⟨fun ha => ?_, fun ha hl => ?_, fun ha hl => ?_⟩⟩
  · rw [if_pos hs, if_pos ha]
    rfl
  · rw [if_pos hs, ha, if_neg Bool.false_ne_true, if_pos hf]
    rfl
  · rw [if_pos hs, ha, if_neg Bool.false_ne_true, if_neg (not_not_intro hf)]
    rfl
  · rw [if_neg hs]
    cases running : u.runs k with
    | none =>
      unfold State.runs at running
      rw [running]
      rfl
    | some r =>
      have other := hr r running
      unfold State.runs at running
      rw [running]
      exact if_pos other
  all_goals
    unfold State.runs at hr
    rw [if_neg hs, hr]
    dsimp only
    rw [if_neg (not_not_intro hh), ha]
  · rfl
  · exact if_pos hl
  · exact if_neg (Nat.not_lt.mpr hl)

/-! ### The end of zeroising (R485, Table 16.8) -/

theorem zeroise_waits (s : State) (h : s.down ≠ none ∨ s.crook.zeroing = false) : exec .zeroiseComplete s = .next s := by
  refine if_pos ?_
  rcases h with h | h
  · simp [Option.isSome_iff_ne_none.mpr h]
  · simp [h]

/-- The state once the MRAM no longer holds that zeroising is to be done. -/
def State.doneZero (s : State) : State := (s.setMram { s.mram with zeroPending := false }).showMram.taken

theorem State.doneZero_mram (s : State) : s.doneZero.mram = { s.mram with zeroPending := false } :=
  ((State.taken_on (Covers.refl _) _ (Onward.refl _)).mram rfl).trans (State.showMram_mram _)

theorem State.doneZero_crook (s : State) : s.doneZero.crook = s.crook :=
  ((State.taken_on (Covers.refl _) _ (Onward.refl _)).crook rfl).trans
    ((State.showMram_on (Covers.refl _) _ (Onward.refl _)).crook rfl)

theorem State.zeroised_eq (s : State) : ∃ src code p0 p1 p2, s.zeroised =
    (s.doneZero.setCrook { s.doneZero.crook with zeroing := false, lcFrom := none }).record src code p0 p1 p2 :=
  ⟨_, _, _, _, _, rfl⟩

theorem State.zeroised_mram (s : State) : s.zeroised.mram = { s.mram with zeroPending := false } := by
  obtain ⟨src, code, p0, p1, p2, hz⟩ := s.zeroised_eq
  rw [hz, (State.record_within _ _ _ _ _ _) .mram rfl, State.setCrook_mram, s.doneZero_mram]

theorem State.zeroised_crook (s : State) : s.zeroised.crook = { s.crook with zeroing := false, lcFrom := none } := by
  obtain ⟨src, code, p0, p1, p2, hz⟩ := s.zeroised_eq
  rw [hz, State.record_crook, State.crook_setCrook, s.doneZero_crook]

/-- The four Paddocks released. -/
def State.allOpen (s : State) : State := eachUpTo 4 State.openPaddock s

theorem State.allOpen_onward (s : State) : Onward 0x20257ccb7ea s s.allOpen :=
  eachUpTo_ind 4 _ (Onward.refl _) fun x k on => on.trans (State.openPaddock_on (Covers.refl _) x k (Onward.refl x))

theorem State.not_mem_allOpen (s : State) {k : Nat} (hk : k < 4) : k ∉ s.allOpen.resetPaddocks := by
  unfold State.allOpen
  simp only [eachUpTo_succ, State.openPaddock_resetPaddocks, Nats.mem_del]
  omega

/-- What a module does once its Paddocks are released: stacks of one in P2 or P3 sleep, and held requests go on. -/
theorem zeroise_released (s : State) (hd : s.down = none) (hz : s.crook.zeroing = true) :
    ∃ v, exec .zeroiseComplete s = .next v ∧ Onward 0x619cff7ea s.zeroised.allOpen v := by
  refine ⟨_, if_neg (by simp [hd, hz]), State.heldAgain_on (Covers.refl _) _ ?_⟩
  exact ite_ind (P := Onward 0x619cff7ea s.zeroised.allOpen)
    (eachUpTo_ind 8 _ (Onward.refl _) fun _ _ on => State.stackSleeps_on (by rfl) _ _ on) (Onward.refl _)

theorem zeroise_ends (s : State) (hd : s.down = none) (hz : s.crook.zeroing = true) :
    Completes .zeroiseComplete s fun v => v.mram = { s.mram with zeroPending := false } ∧
      v.crook.zeroing = false ∧ v.crook.lcFrom = none ∧ ∀ k, k < 4 → k ∉ v.resetPaddocks := by
  obtain ⟨v, hv, released⟩ := zeroise_released s hd hz
  have opened := s.zeroised.allOpen_onward
  have crook : v.crook = { s.crook with zeroing := false, lcFrom := none } := by
    rw [released.crook rfl, opened.crook rfl, State.zeroised_crook]
  refine ⟨v, hv, ?_, ?_, ?_, fun k hk => ?_⟩
  · rw [released.mram rfl, opened.mram rfl, State.zeroised_mram]
  · rw [crook]
  · rw [crook]
  · rw [released.resetPaddocks rfl]
    exact State.not_mem_allOpen _ hk

end Sys2Proof.Machine
end

section
namespace Sys2Proof.Machine

/-! ### What each signed command answers -/

/-- The state from which a commit is made: the nonce is used up, and the hold-up energy is measured. -/
def State.committing (s : State) (nonce : BitVec 128) (mj : Nat) : State := (s.useNonce nonce).measured mj (capOf mj) false

theorem State.useNonce_flash (s : State) (nonce : BitVec 128) : (s.useNonce nonce).flash = s.flash := rfl

theorem State.committing_keeps (s : State) (nonce : BitVec 128) (mj : Nat) :
    Keeps [.regs] (s.useNonce nonce) (s.committing nonce mj) := (s.useNonce nonce).measured_keeps mj (capOf mj) false

theorem State.committing_mram (s : State) (nonce : BitVec 128) (mj : Nat) : (s.committing nonce mj).mram = s.mram :=
  s.committing_keeps nonce mj .mram (by decide)

theorem State.committing_flash (s : State) (nonce : BitVec 128) (mj : Nat) : (s.committing nonce mj).flash = s.flash :=
  s.committing_keeps nonce mj .flash (by decide)

theorem State.committing_rd (s : State) (nonce : BitVec 128) (mj : Nat) {f : Fld} (hf : f.addr ≠ Fd.holdupStatusOk.addr) :
    (s.committing nonce mj).rd f = s.rd f := State.measured_rd _ _ _ _ hf

theorem State.setMram_keeps (s : State) (m : Mram) : Keeps [.mram] s (s.setMram m) := by
  intro p hp
  cases p
  case mram => exact absurd (List.mem_singleton.mpr rfl) hp
  all_goals rfl

theorem State.setMram_rd (s : State) (m : Mram) (f : Fld) : (s.setMram m).rd f = s.rd f := rfl

theorem State.activated_images (s : State) (k a : Nat) : (s.activated k a).flash.images = s.flash.images := rfl

theorem State.activeSlot_congr {s t : State} (h : t.flash = s.flash) (k : Nat) : t.activeSlot k = s.activeSlot k := by
  unfold State.activeSlot
  rw [h]

theorem State.counter_congr {s t : State} (h : t.mram = s.mram) (n : Nat) : t.counter n = s.counter n := by
  unfold State.counter
  rw [h]

section Answered
variable {s : State} {h : DfpHdr} {mj : Nat}
variable (hm : s.managed = true) (hz : s.crook.zeroing = false) (hf : s.Fresh h)
include hm hz hf

/-- A signed command whose effect is a non-volatile commit refuses it below 150 mJ and makes it from 150 mJ. -/
theorem commit_answers {i : Instr} {cmd n : Nat} {roles : List KeyRole} {chain : Bool} {eff : State → Answer}
    {f : State → State} (hi : exec i s = .next (s.dfpSigned h cmd roles chain eff)) (hc : cmd < 2 ^ 16)
    (hv : s.Verified h roles chain) (he : eff (s.useNonce h.nonce) = (s.useNonce h.nonce).nvCommit mj n f) :
    (mj < 150 → Completes i s (Answers h cmd 6 [] ((s.useNonce h.nonce).mayCommit mj n).2)) ∧
    (150 ≤ mj → Completes i s (Answers h cmd 0 [] (f (s.committing h.nonce mj)))) :=
  ⟨fun hj => signed_effect hi hc hm hz hv hf (by decide) (he.trans (State.nvCommit_of_lt _ hj _ _)),
    fun hj => signed_effect hi hc hm hz hv hf (by decide) (he.trans (State.nvCommit_of_ge _ hj _ _))⟩

/-- RECORD_WRITE answers by the first check that fails, and writes the copy that is not in use. -/
theorem recordWrite_answers {adv : Bool} {sec : RecordSection} (hv : s.Verified h (sectionRoles sec.code) true) :
    let done (st : Nat) := Answers h 0x51 st []
    let i := Instr.dfpRecordWrite h adv sec mj
    let u := s.useNonce h.nonce
    let signed_ := sec.code = 3 ∨ sec.sigOk = true
    let new := sectionInto sec s.flash.inUse
    (¬KnownSection sec → Completes i s (done 1 u)) ∧ (KnownSection sec → ¬signed_ → Completes i s (done 2 u)) ∧
    (KnownSection sec → signed_ → ¬s.SectionPlaced sec → Completes i s (done 5 u)) ∧
    (KnownSection sec → signed_ → s.SectionPlaced sec → ¬s.RecordKeeps adv sec → Completes i s (done 9 u)) ∧
    (KnownSection sec → signed_ → s.SectionPlaced sec → s.RecordKeeps adv sec → mj < 150 →
      Completes i s (done 6 (u.mayCommit mj 1).2)) ∧
    (KnownSection sec → signed_ → s.SectionPlaced sec → s.RecordKeeps adv sec → 150 ≤ mj → ∃ t, Completes i s (done 0 t) ∧
      t.flash.images = s.flash.images ∧ t.flash.active = s.flash.active ∧
      (if s.flash.usesA = true then t.flash.recA = s.flash.recA ∧ t.flash.recB = some { new with seq := s.flash.inUse.seq + 1 }
        else t.flash.recB = s.flash.recB ∧ t.flash.recA = some { new with seq := s.flash.inUse.seq + 1 }) ∧
      (adv = true → t.counter 0 = 256 * new.niruaVersion.toNat + new.ownerVersion.toNat ∧
        ∀ n, n ≠ 0 → t.counter n = s.counter n) ∧
      (adv = false → t.mram = s.mram)) := by
  obtain ⟨eff, hi, outcomes⟩ := recordWrite_outcomes h adv sec mj
  obtain ⟨unknown, unsigned_, known⟩ := outcomes (s.useNonce h.nonce)
  have answer {st : Nat} {t : State} (hs : st < 2 ^ 8) (he : eff (s.useNonce h.nonce) = (st, [], t)) :=
    signed_effect (hi s) (by decide) hm hz hv hf hs he
  refine ⟨fun hk => answer (by decide) (unknown hk), fun hk hs => answer (by decide) (unsigned_ hk hs),
    fun hk hs hp => answer (by decide) ((known hk hs).1 hp), fun hk hs hp hr => answer (by decide) ((known hk hs).2.1 hp hr),
    fun hk hs hp hr hj => (commit_answers hm hz hf (hi s) (by decide) hv ((known hk hs).2.2 hp hr)).1 hj,
    fun hk hs hp hr hj => ⟨_, (commit_answers hm hz hf (hi s) (by decide) hv ((known hk hs).2.2 hp hr)).2 hj, ?_⟩⟩
  obtain ⟨images, active, copies⟩ := (s.committing h.nonce mj).flash.putRecord_spec (sectionInto sec s.flash.inUse)
  have written := (s.committing h.nonce mj).recordWritten_flash adv s.flash.inUse sec
  rw [State.committing_flash] at images active copies written
  rw [State.useNonce_flash, written]
  refine ⟨images, active, copies, fun ha => ?_, fun ha => ?_⟩
  · subst ha
    exact ⟨State.recordWritten_counter _ _ _ 0, fun n hn => (State.recordWritten_counter _ _ _ n).trans
      ((if_neg hn).trans (State.counter_congr (s.committing_mram h.nonce mj) n))⟩
  · subst ha
    exact s.committing_mram h.nonce mj

/-- COUNTER_CLEAR and FALLOW_EXIT write the boot-attempt counter as 0. -/
theorem counterClear_answers (hv : s.Verified h [.owner, .niruaService] true) :
    let u := s.useNonce h.nonce
    let i := Instr.dfpCounterClear h mj
    (s.fallowLow = true → Completes i s (Answers h 0x52 6 [] u)) ∧
    (s.fallowLow = false → mj < 150 → Completes i s (Answers h 0x52 6 [] (u.mayCommit mj 2).2)) ∧
    (s.fallowLow = false → 150 ≤ mj → ∃ t, Completes i s (Answers h 0x52 0 [] t) ∧ t.mram = { s.mram with attempts := 0 } ∧
      t.rd Fd.modStatusFallow = s.rd Fd.modStatusFallow ∧ Keeps [.regs, .mram] u t) := by
  obtain ⟨eff, hi, outcomes⟩ := counterClear_outcomes h mj
  obtain ⟨low, writes⟩ := outcomes (s.useNonce h.nonce)
  have answer := fun hl => commit_answers hm hz hf (hi s) (by decide) hv (writes hl)
  refine ⟨fun hl => signed_effect (hi s) (by decide) hm hz hv hf (by decide) (low hl), fun hl hj => (answer hl).1 hj,
    fun hl hj => ⟨_, (answer hl).2 hj, ?_, ?_, ?_⟩⟩
  · rw [State.committing_mram]
    rfl
  · rw [State.setMram_rd, State.committing_rd _ _ _ (by decide)]
  · exact ((s.committing_keeps h.nonce mj).mono (by decide)).trans ((State.setMram_keeps _ _).mono (by decide))

theorem fallowExit_answers (hv : s.Verified h [.owner, .niruaService] true) :
    let u := s.useNonce h.nonce
    let i := Instr.dfpFallowExit h mj
    (s.fallow = false → Completes i s (Answers h 0x53 9 [] u)) ∧
    (s.fallow = true → s.fallowLow = true → Completes i s (Answers h 0x53 6 [] u)) ∧
    (s.fallow = true → s.fallowLow = false → mj < 150 → Completes i s (Answers h 0x53 6 [] (u.mayCommit mj 2).2)) ∧
    (s.fallow = true → s.fallowLow = false → 150 ≤ mj → ∃ t, Completes i s (Answers h 0x53 0 [] t) ∧
      t.mram = { s.mram with attempts := 0 } ∧ t.reg Fd.modStatusReady.addr = 0 ∧ t.rd Fd.pwrStatusState = psP0 ∧
      t.crook.kind = 4 ∧ t.crook.sessions = [] ∧ t.crook.serving = false) := by
  obtain ⟨eff, hi, outcomes⟩ := fallowExit_outcomes h mj
  obtain ⟨out, low, starts⟩ := outcomes (s.useNonce h.nonce)
  have answer {st : Nat} {t : State} (hs : st < 2 ^ 8) (he : eff (s.useNonce h.nonce) = (st, [], t)) :=
    signed_effect (hi s) (by decide) hm hz hv hf hs he
  have commit := fun hw hl => commit_answers hm hz hf (hi s) (by decide) hv (starts hw hl)
  refine ⟨fun hw => answer (by decide) (out hw), fun hw hl => answer (by decide) (low hw hl),
    fun hw hl hj => (commit hw hl).1 hj, fun hw hl hj => ⟨_, (commit hw hl).2 hj, ?_⟩⟩
  obtain ⟨mram, started⟩ := State.beginStart_spec
    ((s.committing h.nonce mj).setMram { (s.committing h.nonce mj).mram with attempts := 0 }) 4
  refine ⟨mram.trans ?_, started⟩
  rw [State.committing_mram]
  rfl

theorem restartManagement_answers (hv : s.Verified h [.owner, .niruaService] false) :
    ∃ t, Completes (.dfpRestartManagement h) s (Answers h 0x56 0 [] t) ∧ t.crook.sessions = [] ∧ t.crook.subs = [] ∧
      t.mram = s.mram ∧ t.flash = s.flash ∧ ((∀ n, s.imageFault (s.image imMgmt n) = 0) → t.crook.serving = true) := by
  obtain ⟨eff, hi, restarts⟩ := restartManagement_outcomes h
  obtain ⟨⟨r, b, crook⟩, mram, flash⟩ := (s.useNonce h.nonce).mgmtRestart_parts 1
  refine ⟨_, signed_effect (hi s) (by decide) hm hz hv hf (by decide) (restarts _), ?_, ?_, mram, flash,
    (s.useNonce h.nonce).mgmtRestart_serves 1⟩
  · rw [crook]
  · rw [crook]

theorem restartReset_answers (hv : s.Verified h [.owner, .niruaService] false) (k : Fin 4) :
    ∀ e ∈ [(Instr.dfpRestartPaddock h k, Instr.paddockReset (BitVec.ofNat 7 k) false), (.dfpRestartModule h, .moduleReset)],
      ∃ t, exec e.2 (s.useNonce h.nonce) = .next t ∧
        let r := t.rd Fd.resetCmdResult
        Completes e.1 s (Answers h 0x56 (if r = 0 then 0 else if r = 1 then 8 else 9) (if r < 2 then [] else [r]) t) := by
  intro e he
  obtain ⟨eff, hi, resets⟩ := restartReset_outcomes h k e he
  obtain ⟨t, ht, answer⟩ := resets (s.useNonce h.nonce)
  refine ⟨t, ht, signed_effect (hi s) (by decide) hm hz hv hf ?_ (answer.trans t.resetAnswer_eq)⟩
  exact ite_ind (P := (· < 2 ^ 8)) (by decide) (ite_ind (P := (· < 2 ^ 8)) (by decide) (by decide))

theorem lifecycle_answers {present next_ : BitVec 8} (hv : s.Verified h (lifecycleSigners present.toNat next_.toNat) false) :
    let i := Instr.dfpLifecycle h present next_ mj
    let u := s.useNonce h.nonce
    (¬s.MayTransit present.toNat next_.toNat → Completes i s (Answers h 0x54 5 [] u)) ∧
    (s.MayTransit present.toNat next_.toNat → mj < 150 → Completes i s (Answers h 0x54 6 [] (u.mayCommit mj 3).2)) ∧
    (s.MayTransit present.toNat next_.toNat → 150 ≤ mj →
      Completes i s (Answers h 0x54 0 [] ((s.committing h.nonce mj).transitTo next_.toNat))) := by
  obtain ⟨eff, hi, outcomes⟩ := lifecycle_outcomes h present next_ mj
  obtain ⟨refused, transits⟩ := outcomes (s.useNonce h.nonce)
  have answer := fun ht => commit_answers hm hz hf (hi s) (by decide) hv (transits ht)
  exact ⟨fun ht => signed_effect (hi s) (by decide) hm hz hv hf (by decide) (refused ht), fun ht hj => (answer ht).1 hj,
    fun ht hj => (answer ht).2 hj⟩

/-- IMAGE_COMMIT activates the staged image that verifies, or advances the counter to the running image's version. -/
theorem imageCommit_answers {kind : ImageKind} {adv : Bool} {hash : BitVec 384} (hv : s.Verified h [.owner] false) :
    let i := Instr.dfpImageCommit h kind adv hash mj
    let u := s.useNonce h.nonce
    let k := imageCode kind
    let a := s.activeSlot k
    let staged := s.image k (1 - a)
    let bad (n : Nat) := Completes i s (Answers h 0x59 9 [(Config.checkCode n).toNat] u)
    (staged.header = hash → adv = true → bad 4) ∧
    (staged.header = hash → adv = false → s.imageFault staged ≠ 0 → bad (s.imageFault staged)) ∧
    (staged.header = hash → adv = false → s.imageFault staged = 0 →
      (mj < 150 → Completes i s (Answers h 0x59 6 [] (u.mayCommit mj 4).2)) ∧
      (150 ≤ mj → ∃ t, Completes i s (Answers h 0x59 0 [] t) ∧ t.activeSlot k = 1 - a ∧
        (∀ j, j ≠ k → t.activeSlot j = s.activeSlot j) ∧ t.flash.images = s.flash.images ∧ t.mram = s.mram)) ∧
    (staged.header ≠ hash → (∀ r, s.runs k = some r → r.header ≠ hash) → bad 5) ∧
    (∀ r, staged.header ≠ hash → s.runs k = some r → r.header = hash →
      let n := r.counterSlot.toNat
      (adv = false → Completes i s (Answers h 0x59 0 [] u)) ∧
      (adv = true → r.svn.toNat < s.counter n → Completes i s (Answers h 0x59 9 [] u)) ∧
      (adv = true → s.counter n ≤ r.svn.toNat →
        (mj < 150 → Completes i s (Answers h 0x59 6 [] (u.mayCommit mj 2).2)) ∧
        (150 ≤ mj → ∃ t, Completes i s (Answers h 0x59 0 [] t) ∧ t.counter n = r.svn.toNat ∧
          (∀ j, j ≠ n → t.counter j = s.counter j) ∧ t.flash = s.flash))) := by
  obtain ⟨eff, hi, outcomes⟩ := imageCommit_outcomes h kind adv hash mj
  obtain ⟨advance, fails, activates, unknown, running⟩ := outcomes (s.useNonce h.nonce)
  have answer {st : Nat} {body : List Nat} {t : State} (hs : st < 2 ^ 8) (he : eff (s.useNonce h.nonce) = (st, body, t)) :=
    signed_effect (hi s) (by decide) hm hz hv hf hs he
  have commit {n : Nat} {f : State → State} (he : eff (s.useNonce h.nonce) = (s.useNonce h.nonce).nvCommit mj n f) :=
    commit_answers hm hz hf (hi s) (by decide) hv he
  refine ⟨fun hs ha => answer (by decide) (advance hs ha), fun hs ha hq => answer (by decide) (fails hs ha hq),
    fun hs ha hq => ⟨(commit (activates hs ha hq)).1, fun hj => ⟨_, (commit (activates hs ha hq)).2 hj, ?_⟩⟩,
    fun hs hr => answer (by decide) (unknown hs hr), fun r hs hr hh => ?_⟩
  · have flash : (s.committing h.nonce mj).flash = s.flash := s.committing_flash h.nonce mj
    have activated := (s.committing h.nonce mj).activated_activeSlot (imageCode kind)
    simp only [State.activeSlot_congr flash] at activated
    exact ⟨(activated _).trans (if_pos rfl), fun j hj => (activated j).trans (if_neg hj), (State.activated_images ..).trans
      (congrArg Flash.images flash), s.committing_mram h.nonce mj⟩
  · obtain ⟨stays, falls, advances⟩ := running r hs hr hh
    refine ⟨fun ha => answer (by decide) (stays ha), fun ha hl => answer (by decide) (falls ha hl), fun ha hl =>
      ⟨(commit (advances ha hl)).1, fun hj => ⟨_, (commit (advances ha hl)).2 hj, ?_, fun j hj => ?_, ?_⟩⟩⟩
    · exact (State.counter_setCounter ..).trans (if_pos rfl)
    · exact (State.counter_setCounter ..).trans ((if_neg hj).trans (State.counter_congr (s.committing_mram ..) j))
    · exact (State.setCounter_flash ..).trans (s.committing_flash ..)

end Answered

/-- The signed commands of a request, with the code, the roles and whether a chain of certificates may stand for a key. -/
def signedTable (h : DfpHdr) (base : BitVec 64) (pairs : List (BitVec 64 × BitVec 64)) (mode : Bool) (target : BitVec 64)
    (adv : Bool) (sec : RecordSection) (mj : Nat) (present next_ : BitVec 8) (k : Fin 4) (kind : ImageKind) (hash : BitVec 384) :
    List (Instr × Nat × List KeyRole × Bool) :=
  [(.dfpConfigCommit h base pairs mode target, 0x50, [.owner], false),
    (.dfpRecordWrite h adv sec mj, 0x51, sectionRoles sec.code, true),
    (.dfpCounterClear h mj, 0x52, [.owner, .niruaService], true), (.dfpFallowExit h mj, 0x53, [.owner, .niruaService], true),
    (.dfpLifecycle h present next_ mj, 0x54, lifecycleSigners present.toNat next_.toNat, false),
    (.dfpRestartManagement h, 0x56, [.owner, .niruaService], false),
    (.dfpRestartPaddock h k, 0x56, [.owner, .niruaService], false),
    (.dfpRestartModule h, 0x56, [.owner, .niruaService], false), (.dfpImageCommit h kind adv hash mj, 0x59, [.owner], false)]

section Table
variable {h : DfpHdr} {base : BitVec 64} {pairs : List (BitVec 64 × BitVec 64)} {mode : Bool} {target : BitVec 64}
  {adv : Bool} {sec : RecordSection} {mj : Nat} {present next_ : BitVec 8} {k : Fin 4} {kind : ImageKind} {hash : BitVec 384}

theorem signedTable_signed (s : State) : ∀ e ∈ signedTable h base pairs mode target adv sec mj present next_ k kind hash,
    ∃ eff, exec e.1 s = .next (s.dfpSigned h e.2.1 e.2.2.1 e.2.2.2 eff) := by
  simp only [signedTable, List.forall_mem_cons]
  exact ⟨⟨_, rfl⟩, ⟨_, rfl⟩, ⟨_, rfl⟩, ⟨_, rfl⟩, ⟨_, rfl⟩, ⟨_, rfl⟩, ⟨_, rfl⟩, ⟨_, rfl⟩, ⟨_, rfl⟩,
    fun _ he => absurd he List.not_mem_nil⟩

theorem signedTable_code : ∀ e ∈ signedTable h base pairs mode target adv sec mj present next_ k kind hash,
    0x50 ≤ e.2.1 ∧ e.2.1 ≤ 0x59 := by
  simp [signedTable]

end Table

/-- Settles O50: each command meets the checks common to signed commands, then its own outcomes; a transition's state is
followed part by part to the end of zeroising. -/
theorem signedCommands : Obligations.SignedCommands := by
  unfold Obligations.SignedCommands
  intro s h base pairs mode target adv sec mj present next_ k4 kind hash
  refine ⟨?_, fun x n => x.mayCommit_spec mj n, fun hm hz hf => ⟨fun hv => ?_, fun hv => ?_, fun hv => ?_, fun hv => ?_,
    fun hv => ?_, fun hv => ?_⟩, zeroise_waits s, zeroise_ends s⟩
  · intro e he
    obtain ⟨eff, hi⟩ := signedTable_signed s e he
    obtain ⟨least, greatest⟩ := signedTable_code e he
    have other {d : Nat} (hd : d < 0x50) : e.2.1 ≠ d := by omega
    exact signed_checks hi (by omega) ⟨other (by decide), other (by decide)⟩
  · exact ⟨config_noGate hm hz hf hv, fun b i hg => ⟨config_badPairs hm hz hf hv hg, config_asleep hm hz hf hv hg,
      config_commits hm hz hf hv hg⟩⟩
  · exact recordWrite_answers hm hz hf hv
  · obtain ⟨cleared, writes, clears⟩ := counterClear_answers (mj := mj) hm hz hf hv
    exact ⟨cleared, writes, clears, fallowExit_answers hm hz hf hv⟩
  · exact ⟨restartManagement_answers hm hz hf hv, restartReset_answers hm hz hf hv k4⟩
  · obtain ⟨refused, low, transits⟩ := lifecycle_answers (mj := mj) hm hz hf hv
    refine ⟨refused, low, fun may hj => ⟨_, transits may hj, ?_⟩⟩
    have left := (s.committing h.nonce mj).transitTo_spec next_.toNat
    rw [s.committing_mram h.nonce mj] at left
    exact left
  · obtain ⟨advance, fails, activates, unknown, running⟩ := imageCommit_answers (mj := mj) hm hz hf hv
    refine ⟨advance, fails, activates, fun hs hr => unknown hs fun r found => ?_, running⟩
    obtain ⟨e, he, rfl⟩ := Option.map_eq_some_iff.mp found
    exact hr e (List.mem_of_find?_eq_some he) (by simpa using List.find?_some he)

end Sys2Proof.Machine
end

/-! # The test port (R488, R489, R612, Tables 16.12 and 16.13) -/
section
namespace Sys2Proof.Machine

/-! ### What a port instruction selects -/

theorem State.setCrook_keeps (s : State) (c : Crook) : Keeps [.crook] s (s.setCrook c) :=
  (State.setCrook_on (Covers.refl _) s c (Onward.refl s)).keeps (by decide)

theorem State.emit_keeps (s : State) (o : Out) : Keeps [.out] s (s.emit o) :=
  (State.emit_on (Covers.refl _) s o (Onward.refl s)).keeps (by decide)

theorem State.tapSelects_keeps (s : State) (code : Nat) : Keeps [.crook] s (s.tapSelects code) := s.setCrook_keeps _

/-- Whether a port instruction is granted: by the level, and, but for `IDCODE` and `BYPASS`, while no transition zeroises. -/
def State.grants (s : State) (code : Nat) (granted : Bool) : Bool :=
  granted && (!s.crook.zeroing || code = tiIdcode || code = tiBypass)

section TapDoes
variable (s : State) (code : Nat) (granted : Bool) (eff : State → State)

theorem State.tapDoes_down (hd : s.down ≠ none) : s.tapDoes code granted eff = s :=
  if_pos (Option.isSome_iff_ne_none.mpr hd)

theorem State.tapDoes_granted (hd : s.down = none) (hg : s.grants code granted = true) :
    s.tapDoes code granted eff = eff (s.tapSelects code) := by
  unfold State.tapDoes
  rw [hd]
  exact (if_neg Bool.false_ne_true).trans (if_pos hg)

theorem State.tapDoes_refused (hd : s.down = none) (hg : ¬s.grants code granted = true) :
    s.tapDoes code granted eff = (s.tapSelects tiBypass).record srcCrook 0x0806 uwCrook code 0 := by
  unfold State.tapDoes
  rw [hd]
  exact (if_neg Bool.false_ne_true).trans (if_neg hg)

end TapDoes

theorem State.record_keeps (s : State) (src code p0 p1 p2 : Nat) :
    Keeps [.out, .regs, .log, .irqs] s (s.record src code p0 p1 p2) :=
  (State.record_on (Covers.refl _) s src code p0 p1 p2 (Onward.refl s)).keeps (by decide)

theorem grants_iff {s : State} {code : Nat} {granted : Bool} {P : Prop} (hP : granted = true ↔ P)
    (hc : ¬(code = tiIdcode ∨ code = tiBypass)) : s.grants code granted = true ↔ P ∧ s.crook.zeroing = false := by
  rw [← hP]
  simp [State.grants, or_assoc, hc]

end Sys2Proof.Machine
end

section
namespace Sys2Proof.Machine

/-! ### Writes keep the selected port instruction -/

/-- Every part but Crook. -/
def allButCrook : Nat := 0x6fffffffffff

/-- The selected port instruction is the same. -/
def KeepsTap (s t : State) : Prop := t.crook.tap = s.crook.tap

theorem KeepsTap.refl (s : State) : KeepsTap s s := rfl

theorem KeepsTap.trans {s t u : State} (h : KeepsTap s t) (k : KeepsTap t u) : KeepsTap s u := Eq.trans k h

theorem KeepsTap.of_crook {s t : State} (h : t.crook = s.crook) : KeepsTap s t := congrArg Crook.tap h

theorem Onward.keepsTap {s t : State} (h : Onward allButCrook s t) : KeepsTap s t := .of_crook (h.crook rfl)

theorem State.setLevel_keepsTap (s : State) (level scope key : Nat) (until_ : Option Nat) :
    KeepsTap s (s.setLevel level scope key until_) := by
  unfold KeepsTap
  rw [State.setLevel_crook]

theorem State.setCrook_reset_keepsTap (s : State) :
    KeepsTap s (s.setCrook { s.crook with fromFour := true, failed := false, kind := 3, zeroing := false }) := rfl

theorem State.still_keepsTap (s : State) (r : Option (Nat × Nat × Bool × Bool)) :
    KeepsTap s { s with move := none, waking := false, resetting := r } := rfl

theorem State.resetting_keepsTap (s : State) (r : Option (Nat × Nat × Bool × Bool)) : KeepsTap s { s with resetting := r } := rfl

theorem State.wr_keepsTap (s : State) (f : Fld) (v : Nat) : KeepsTap s (s.wr f v) := .of_crook (s.wr_crook f v)

theorem State.setReg_keepsTap (s : State) (a : Nat) (v : Word) : KeepsTap s (s.setReg a v) := .of_crook (s.setReg_crook a v)

theorem State.moduleReset_keepsTap (s : State) : KeepsTap s s.moduleReset := by
  unfold State.moduleReset
  extract_lets closed since moved still ready
  have hclosed : KeepsTap s closed := KeepsTap.trans
    (Onward.keepsTap (State.mboxModuleReset_on (by rfl) _ (State.resetDomains_on (by rfl) s false (Onward.refl s))))
    (State.setLevel_keepsTap _ lvClosed 0 0 none)
  clear_value closed
  have hsince : KeepsTap s since := hclosed.trans (Onward.keepsTap (State.sinceStart_on (by rfl) closed (Onward.refl _)))
  clear_value since
  have hmoved : KeepsTap s moved := hsince.trans (since.still_keepsTap none)
  clear_value moved
  have hstill : KeepsTap s still :=
    ((hmoved.trans (State.wr_keepsTap ..)).trans (State.wr_keepsTap ..)).trans (State.wr_keepsTap ..)
  clear_value still
  have hready : KeepsTap s ready := (hstill.trans (State.setReg_keepsTap ..)).trans (State.wr_keepsTap ..)
  clear_value ready
  exact hready.trans ready.setCrook_reset_keepsTap

theorem State.resetGo_keepsTap (s : State) (level target : Nat) (zero force : Bool) :
    KeepsTap s (s.resetGo level target zero force) := by
  unfold State.resetGo
  extract_lets named zeroes res begun shown
  have hnamed : KeepsTap s named :=
    (((s.wr_keepsTap ..).trans (State.wr_keepsTap ..)).trans (State.wr_keepsTap ..)).trans (State.wr_keepsTap ..)
  clear_value res named
  have hshown : KeepsTap s shown :=
    ((hnamed.trans (named.resetting_keepsTap _)).trans (State.wr_keepsTap ..)).trans (State.wr_keepsTap ..)
  clear_value shown
  have ends {t : State} (h : KeepsTap s t) (state result : Nat) :
      KeepsTap s (t.resetEnds level target zeroes force state result) :=
    h.trans (Onward.keepsTap (State.resetEnds_on (by rfl) t _ _ _ _ _ _ (Onward.refl t)))
  split
  · exact .refl s
  split
  · exact s.wr_keepsTap _ _
  split
  · exact ends hnamed _ _
  split
  · exact ends (hnamed.trans named.moduleReset_keepsTap) _ _
  split
  · exact ends hnamed _ _
  split
  · exact hshown.trans (Onward.keepsTap (State.resetDrover_on (by rfl) _ _ (Onward.refl _)))
  split
  · exact hshown.trans (Onward.keepsTap (State.resetPen_on (by rfl) _ _ _ (Onward.refl _)))
  · exact hshown.trans (Onward.keepsTap (State.resetPaddock_on (by rfl) _ _ _ (Onward.refl _)))

theorem State.writeTrace_keepsTap (s : State) (v : Word) : KeepsTap s (s.writeTrace v) := by
  unfold State.writeTrace
  extract_lets begins set
  exact ite_ind (P := KeepsTap s) rfl rfl

theorem State.writeStaged_keepsTap (s : State) (who : Master) (base a : Nat) (v : Word) :
    KeepsTap s (s.writeStaged who base a v) := by
  unfold State.writeStaged
  extract_lets st staged
  have hstaged : KeepsTap s staged := rfl
  refine ite_ind (P := KeepsTap s) rfl (ite_ind (P := KeepsTap s) (.of_crook (s.wr_crook _ _)) ?_)
  exact ite_ind (P := KeepsTap s) hstaged hstaged

theorem State.writeFields_keepsTap (s : State) (who : Master) (b : Blk) (i a : Nat) (v : Word) :
    KeepsTap s (s.writeFields who b i a v) := by
  unfold State.writeFields
  split
  · exact .refl s
  · exact KeepsTap.trans (.of_crook (State.setReg_crook ..)) (State.writeStaged_keepsTap ..)

theorem State.gateCtl_keepsTap (s : State) (who : Master) (b : Blk) (i : Nat) (val : Word) (commit abort : Bool) :
    KeepsTap s (s.gateCtl who b i val commit abort) := by
  unfold State.gateCtl
  extract_lets base written unstaged freed
  have hwritten : KeepsTap s written := Onward.keepsTap (State.writeGateCtl_on (by rfl) s _ _ (Onward.refl s))
  have hfreed : KeepsTap s freed := ite_ind (P := KeepsTap s) hwritten hwritten
  refine ite_ind (P := KeepsTap s) (.refl s) (ite_ind (P := KeepsTap s) ?_ (ite_ind (P := KeepsTap s) ?_ hfreed))
  · exact hfreed.trans (Onward.keepsTap (State.abortGate_on (by rfl) _ _ _ (Onward.refl _)))
  · exact hfreed.trans (Onward.keepsTap (State.commitGate_on (by rfl) _ _ _ _ (Onward.refl _)))

/-- A command register keeps the tap, if it is one. -/
def CmdKeepsTap (s : State) : Option (Nat × State) → Prop
  | some r => KeepsTap s r.2
  | none => True

theorem State.writeCmd_keepsTap (s : State) (who : Master) (b : Blk) (i off : Nat) (v : Word) :
    CmdKeepsTap s (s.writeCmd who b i off v) := by
  have start := Onward.refl (m := allButCrook) s
  unfold State.writeCmd
  extract_lets go
  have hgo {t : State} (h : KeepsTap s t) : CmdKeepsTap s (go t) := ite_ind (P := CmdKeepsTap s) h trivial
  have on {t : State} (h : Onward allButCrook s t) : CmdKeepsTap s (go t) := hgo h.keepsTap
  have thens {f : State → Host.Outcome State Fault Refusal} (h : ∀ t, Onward allButCrook s t → Onward.O allButCrook s (f t)) :
      KeepsTap s (s.then f) := Onward.keepsTap (State.then_on (by rfl) s f start h)
  split
  · exact hgo (s.resetGo_keepsTap _ _ _ _)
  · exact Onward.keepsTap (State.setRateCfg_on (by rfl) s _ start)
  · exact thens fun t h => execLogFwWrite_on (by rfl) _ t h
  · exact thens fun t h => execErrAck_on (by rfl) _ _ t h
  · exact on (State.pwrGo_on (by rfl) s _ _ start)
  · exact on (State.writeTally_on (by rfl) s _ start)
  · exact ite_ind (P := CmdKeepsTap s) trivial (.refl s)
  · refine ite_ind (P := fun r : Nat × State => KeepsTap s r.2) (.refl s) ?_
    exact Onward.keepsTap (State.setTail_on (by rfl) _ _ (State.wr_on (by rfl) _ _ _ start))
  · exact on (State.writeReply_on (by rfl) s _ start)
  · exact on (State.shootGo_on (by rfl) s _ _ start)
  · exact on (State.writeMig_on (by rfl) s _ start)
  · refine ite_ind (P := CmdKeepsTap s) ?_ trivial
    exact Onward.keepsTap (State.writeMbox_on (m := allButCrook) (by rfl) s who _ v start)
  · exact on (State.writeOpt_on (by rfl) s _ start)
  · exact on (State.writeMuster_on (by rfl) s _ start)
  · exact on (State.frangeGo_on (by rfl) s _ _ start)
  · exact on (State.writeChan_on (by rfl) s _ _ start)
  · exact ite_ind (P := CmdKeepsTap s) (thens fun t h => execPreempt_on (by rfl) _ _ _ t h) trivial
  · exact on (State.writeSite_on (by rfl) s _ _ start)
  · exact s.writeTrace_keepsTap v
  · trivial

theorem State.writeBlock_keepsTap (s : State) (who : Master) (b : Blk) (i a : Nat) (v : Word) :
    KeepsTap s (s.writeBlock who b i a v).2 := by
  have set : KeepsTap s (s.setReg a v) := .of_crook (State.setReg_crook ..)
  have gate : KeepsTap s (s.writeGateCtl (b.base + 0x1000 * i) v) :=
    Onward.keepsTap (State.writeGateCtl_on (by rfl) s _ _ (Onward.refl s))
  have submit (n : Fin 128) (t : Fin 8) : KeepsTap s (s.then (execDoorbellWindowSubmit n t v)) := Onward.keepsTap
    (State.then_on (by rfl) s _ (Onward.refl s) fun t h => execDoorbellWindowSubmit_on (by rfl) _ _ _ t h)
  have cmd := s.writeCmd_keepsTap who b i ((a - b.base) % 0x1000) v
  unfold State.writeBlock
  extract_lets off base n t
  split
  · exact .refl s
  split
  · exact ite_ind (P := KeepsTap s) (s.gateCtl_keepsTap ..) gate
  split
  · exact ite_ind (P := KeepsTap s) (.refl s) set
  split
  · exact ite_ind (P := KeepsTap s) (submit n t) set
  split
  · rename_i r hr
    rw [hr] at cmd
    exact cmd
  · exact s.writeFields_keepsTap ..

theorem State.writeReg_keepsTap (s : State) (who : Master) (a width : Nat) (v : Word) :
    KeepsTap s (s.writeReg who a width v).2 := by
  unfold State.writeReg
  extract_lets st
  split
  · exact .refl s
  split
  · exact .refl s
  · exact s.writeBlock_keepsTap ..

end Sys2Proof.Machine
end

section
namespace Sys2Proof.Machine

/-! ### What keeps the selected port instruction -/

theorem State.useNonce_keepsTap (s : State) (nonce : BitVec 128) : KeepsTap s (s.useNonce nonce) := rfl

theorem State.record_keepsTap (s : State) (src code p0 p1 p2 : Nat) : KeepsTap s (s.record src code p0 p1 p2) :=
  .of_crook (s.record_crook ..)

theorem State.takeToken_keepsTap (s : State) (t : DebugTok) : KeepsTap s (s.takeToken t).2 := by
  unfold State.takeToken
  extract_lets st used
  have hused : KeepsTap s used := ite_ind (P := KeepsTap s) (s.useNonce_keepsTap _) (.refl s)
  clear_value used
  refine ite_ind (P := fun r : Nat × State => KeepsTap s r.2) (hused.trans (State.record_keepsTap ..)) ?_
  exact ite_ind (P := fun r : Nat × State => KeepsTap s r.2) (hused.trans (State.setLevel_keepsTap ..))
    (hused.trans (State.setLevel_keepsTap ..))

theorem State.dbgDone_crook (s : State) (a st : Nat) (v : Word) : (s.dbgDone a st v).crook = { s.crook with access := (st, v) } :=
  rfl

theorem State.dbgDone_keepsTap (s : State) (a st : Nat) (v : Word) : KeepsTap s (s.dbgDone a st v) := rfl

theorem State.dbgServe_keepsTap (s : State) (q : DbgReq) : KeepsTap s (s.dbgServe q) := by
  cases q with
  | read a =>
    unfold State.dbgServe
    dsimp only
    have touched : KeepsTap s (if s.pwr = psP2 then s else s.touch a 8 false false) := ite_ind (P := KeepsTap s) (.refl s)
      (Onward.keepsTap (State.touch_on (by rfl) s _ _ _ _ _ _ (Onward.refl s)))
    refine ite_ind (P := KeepsTap s) rfl (ite_ind (P := KeepsTap s) (.refl s) (ite_ind (P := KeepsTap s) (.refl s) ?_))
    exact touched.trans (State.dbgDone_keepsTap ..)
  | write a v =>
    unfold State.dbgServe
    dsimp only
    have written : KeepsTap s (s.writeBytes a (toBytes 8 v.toNat) false false) :=
      Onward.keepsTap (State.writeBytes_on (by rfl) s _ _ _ _ _ (Onward.refl s))
    refine ite_ind (P := KeepsTap s) ((s.writeReg_keepsTap ..).trans (State.dbgDone_keepsTap ..)) ?_
    exact ite_ind (P := KeepsTap s) (.refl s) (written.trans (State.dbgDone_keepsTap ..))

theorem State.dbgAccess_keepsTap (s : State) (q : DbgReq) : KeepsTap s (s.dbgAccess q) := by
  unfold State.dbgAccess
  extract_lets a reads observed
  have done (st : Nat) : KeepsTap s (s.dbgDone a st 0) := s.dbgDone_keepsTap a st 0
  split
  · exact .refl s
  split
  · exact done _
  split
  · exact done _
  split
  · exact done _
  split
  · exact done _
  split
  · exact done _
  split
  · exact ite_ind (P := KeepsTap s) rfl (done _)
  · exact s.dbgServe_keepsTap q

/-! ### The table of port instructions -/

/-- Port instructions, with their code and what grants them. -/
noncomputable def tapTable (s : State) (t : DebugTok) (lv : BitVec 2) (a d : BitVec 64) : List (Instr × Nat × Prop) :=
  let lc := s.mram.lifecycle
  let level := s.rd Fd.secStatusLevel
  let calm := s.crook.zeroing = false
  [(.tapIdcode, 0x02, True), (.tapBypass, 0xFF, True), (.tapExtest, 0x00, level = 2 ∧ calm),
    (.tapSamplePreload, 0x01, level = 2 ∧ calm), (.tapDbgNonce, 0x10, lc ≠ lcBlank ∧ calm),
    (.tapDbgToken t, 0x11, lc ≠ lcBlank ∧ calm),
    (.tapDbgLevel lv, 0x12, lc = lcBlank ∧ lv ≠ 3 ∧ calm), (.tapAccessRead a, 0x13, 1 ≤ level ∧ calm),
    (.tapAccessWrite a d, 0x13, 1 ≤ level ∧ calm), (.badOp true a d, 0x13, 1 ≤ level ∧ calm), (.tapTrace, 0x14, 1 ≤ level ∧ calm),
    (.tapDtm, 0x15, level = 2 ∧ s.rdBit Fd.secStatusScope 5 = true ∧ calm)]

/-- An instruction selects by its code what it then does, as far as it is granted, and keeps what is selected. -/
def TapDoes (s : State) (e : Instr × Nat × Prop) : Prop := ∃ granted eff,
  exec e.1 s = .next (s.tapDoes e.2.1 granted eff) ∧ (s.grants e.2.1 granted = true ↔ e.2.2) ∧ ∀ u, KeepsTap u (eff u)

theorem grants_true (s : State) {code : Nat} (h : code = tiIdcode ∨ code = tiBypass) : s.grants code true = true ↔ True := by
  simp [State.grants, or_assoc, h]

theorem tapTable_does (s : State) (t : DebugTok) (lv : BitVec 2) (a d : BitVec 64) : ∀ e ∈ tapTable s t lv a d, TapDoes s e := by
  have full : decide (s.level = lvFull) = true ↔ s.rd Fd.secStatusLevel = 2 := decide_eq_true_iff
  have observes : decide (lvObserve ≤ s.level) = true ↔ 1 ≤ s.rd Fd.secStatusLevel := decide_eq_true_iff
  have tokens : s.tokens = true ↔ s.mram.lifecycle ≠ lcBlank := decide_eq_true_iff
  have levels : (!s.tokens && decide (lv ≠ 3)) = true ↔ s.mram.lifecycle = lcBlank ∧ lv ≠ 3 := by simp [State.tokens]
  have dtm : (decide (s.level = lvFull) && s.observes 5) = true ↔
      s.rd Fd.secStatusLevel = 2 ∧ s.rdBit Fd.secStatusScope 5 = true := by
    rw [Bool.and_eq_true, full, State.observes, Bool.and_eq_true]
    exact ⟨fun h => ⟨h.1, h.2.2⟩, fun h => ⟨h.1, observes.mpr (by omega), h.2⟩⟩
  have accessed (u : State) := u.dbgDone_keepsTap Fd.traceStatusNext.addr
  simp only [tapTable, List.forall_mem_cons]
  refine ⟨⟨_, _, rfl, grants_true s (.inl rfl), fun u => rfl⟩, ⟨_, _, rfl, grants_true s (.inr rfl), fun u => rfl⟩,
    ⟨_, _, rfl, grants_iff (code := 0x00) full (by decide), fun u => rfl⟩,
    ⟨_, _, rfl, grants_iff (code := 0x01) full (by decide), fun u => rfl⟩,
    ⟨_, _, rfl, grants_iff (code := 0x10) tokens (by decide), fun u => rfl⟩,
    ⟨_, _, rfl, grants_iff (code := 0x11) tokens (by decide), fun u => ?_⟩,
    ⟨_, _, rfl, (grants_iff (code := 0x12) levels (by decide)).trans and_assoc, fun u => ?_⟩,
    ⟨_, _, rfl, grants_iff (code := 0x13) observes (by decide), fun u => u.dbgAccess_keepsTap _⟩,
    ⟨_, _, rfl, grants_iff (code := 0x13) observes (by decide), fun u => u.dbgAccess_keepsTap _⟩,
    ⟨_, _, rfl, grants_iff (code := 0x13) observes (by decide), fun u => u.dbgDone_keepsTap _ _ _⟩,
    ⟨_, _, rfl, grants_iff (code := 0x14) observes (by decide), fun u => ?_⟩,
    ⟨_, _, rfl, (grants_iff (code := 0x15) dtm (by decide)).trans and_assoc, fun u => rfl⟩,
    fun _ he => absurd he List.not_mem_nil⟩
  · exact State.takeToken_keepsTap (u.emit (.tdo tiToken [u.crook.portTok])) t
  · exact ite_ind (P := KeepsTap u) (u.setLevel_keepsTap ..) (u.setLevel_keepsTap ..)
  · exact ite_ind (P := KeepsTap u) (accessed u _ _) (ite_ind (P := KeepsTap u) (accessed u _ _) rfl)

/-- An unpowered port does nothing; what is not granted selects the bypass register; what is granted is selected. -/
theorem TapDoes.selects {s : State} {e : Instr × Nat × Prop} (h : TapDoes s e) :
    (s.down ≠ none → exec e.1 s = .next s) ∧
    (s.down = none → ¬e.2.2 → Completes e.1 s fun v => v.crook = { s.crook with tap := 0xFF } ∧ v.trace = s.trace ∧
      Keeps [.out, .regs, .log, .irqs, .crook] s v) ∧
    (s.down = none → e.2.2 → ∃ v, exec e.1 s = .next v ∧ v.crook.tap = e.2.1) := by
  obtain ⟨granted, eff, hi, hg, keeps⟩ := h
  refine ⟨fun hd => ?_, fun hd hn => ?_, fun hd he => ?_⟩
  · rw [hi, State.tapDoes_down _ _ _ _ hd]
  · rw [State.tapDoes_refused _ _ _ _ hd (mt hg.mp hn)] at hi
    have kept := ((s.tapSelects_keeps tiBypass).mono (by decide)).trans
      (((s.tapSelects tiBypass).record_keeps srcCrook 0x0806 uwCrook e.2.1 0).mono
        (qs := [.out, .regs, .log, .irqs, .crook]) (by decide))
    exact ⟨_, hi, State.record_crook .., kept .trace (by decide), kept⟩
  · rw [State.tapDoes_granted _ _ _ _ hd (hg.mpr he)] at hi
    exact ⟨_, hi, keeps _⟩

end Sys2Proof.Machine
end

section
namespace Sys2Proof.Machine

/-! ### What the port instructions shift out -/

section Sent
variable {s : State} {i : Instr} {code : Nat} {granted : Bool} {eff : State → State}

theorem State.grants_of_calm (hz : s.crook.zeroing = false) (hg : granted = true) : s.grants code granted = true := by
  simp [State.grants, hz, hg]

/-- The data register shifts out a body, and no other thing happens. -/
def Sent (i : Instr) (s : State) (code : Nat) (body : List Nat) : Prop := Completes i s fun v =>
  v.out = s.out ++ [.tdo code body] ∧ v.crook = { s.crook with tap := code } ∧ Keeps [.out, .crook] s v

/-- A debug access of the port completes with a status and a value, and no other thing happens. -/
def Did (i : Instr) (s : State) (a : Nat) (st : Nat) (x : Word) : Prop := Completes i s fun v =>
  v.crook = { s.crook with tap := 0x13, access := (st, x) } ∧ v.out = s.out ++ [.access .debug a st x] ∧
    Keeps [.out, .crook] s v

theorem tap_completes (hi : exec i s = .next (s.tapDoes code granted eff)) (hd : s.down = none)
    (hg : s.grants code granted = true) {P : State → Prop} (h : P (eff (s.tapSelects code))) : Completes i s P :=
  ⟨_, hi.trans (congrArg _ (s.tapDoes_granted code granted eff hd hg)), h⟩

theorem sent_of (hi : exec i s = .next (s.tapDoes code granted eff)) (hd : s.down = none) (hg : s.grants code granted = true)
    {body : List Nat} (he : eff (s.tapSelects code) = (s.tapSelects code).emit (.tdo code body)) : Sent i s code body := by
  refine tap_completes hi hd hg ?_
  rw [he]
  exact ⟨rfl, rfl, ((s.tapSelects_keeps code).mono (by decide)).trans ((State.emit_keeps _ _).mono (by decide))⟩

theorem State.dbgDone_keeps (s : State) (a st : Nat) (v : Word) : Keeps [.out, .crook] s (s.dbgDone a st v) :=
  ((s.setCrook_keeps _).mono (by decide)).trans ((State.emit_keeps _ _).mono (by decide))

theorem did_of (hi : exec i s = .next (s.tapDoes 0x13 granted eff)) (hd : s.down = none) (hg : s.grants 0x13 granted = true)
    {a st : Nat} {x : Word} (he : eff (s.tapSelects 0x13) = (s.tapSelects 0x13).dbgDone a st x) : Did i s a st x := by
  refine tap_completes hi hd hg ?_
  rw [he]
  exact ⟨rfl, rfl, ((s.tapSelects_keeps 0x13).mono (by decide)).trans (State.dbgDone_keeps _ _ _ _)⟩

end Sent

theorem idcode_known : Config.dieRev.idcode ∈ [0x11B009CB, 0x21B009CB, 0x31B009CB] := by
  cases Config.dieRev <;> decide

theorem State.observes_iff (s : State) {k : Nat} :
    s.observes k = true ↔ 1 ≤ s.rd Fd.secStatusLevel ∧ s.rdBit Fd.secStatusScope k = true := by
  rw [State.observes, Bool.and_eq_true, decide_eq_true_iff]
  rfl

theorem State.taken_keeps (s : State) : Keeps [.free] s s.taken :=
  (State.taken_on (Covers.refl _) s (Onward.refl s)).keeps (by decide)

theorem State.newNonce_keeps (s : State) : Keeps [.free, .crook] s s.newNonce.2 :=
  Onward.keeps (State.newNonce_on (Covers.refl _) s (Onward.refl s)) (by decide)

theorem State.setLevel_keeps (s : State) (level scope key : Nat) (until_ : Option Nat) :
    Keeps [.out, .regs, .log, .irqs, .crook] s (s.setLevel level scope key until_) :=
  (State.setLevel_on (Covers.refl _) s _ _ _ _ (Onward.refl s)).keeps (by decide)

section Port
variable {s : State} (hd : s.down = none)
include hd

theorem tapIdcode_sends : Sent .tapIdcode s 0x02 [Config.dieRev.idcode] :=
  sent_of rfl hd ((grants_true s (.inl rfl)).mpr trivial) rfl

theorem tapBypass_sends : Sent .tapBypass s 0xFF [0] := sent_of rfl hd ((grants_true s (.inr rfl)).mpr trivial) rfl

theorem testLogicReset_resets : Completes .testLogicReset s fun v =>
    v.crook = { s.crook with tap := 2, access := (0, 0) } ∧ Keeps [.crook] s v := by
  refine ⟨_, if_neg ?_, rfl, s.setCrook_keeps _⟩
  rw [hd]
  exact Bool.false_ne_true

variable (hz : s.crook.zeroing = false)
include hz

/-- Boundary scan takes a free value for what the cells hold. -/
theorem boundaryScan_sends (hl : s.rd Fd.secStatusLevel = 2) :
    ∀ e ∈ [(Instr.tapExtest, 0x00), (.tapSamplePreload, 0x01)], ∃ n, Completes e.1 s fun v =>
      v.out = s.out ++ [.tdo e.2 [n]] ∧ v.free = s.free + 1 ∧ v.crook = { s.crook with tap := e.2 } ∧
        Keeps [.out, .free, .crook] s v := by
  have granted (code : Nat) : s.grants code (decide (s.level = lvFull)) = true := State.grants_of_calm hz (decide_eq_true hl)
  have scans (code : Nat) (o : Out) : Keeps [.out, .free, .crook] s ((s.tapSelects code).taken.emit o) :=
    (((s.tapSelects_keeps code).mono (by decide)).trans ((State.taken_keeps _).mono (by decide))).trans
      ((State.emit_keeps _ _).mono (by decide))
  exact List.forall_mem_cons.mpr ⟨⟨_, tap_completes rfl hd (granted _) ⟨rfl, rfl, rfl, scans _ _⟩⟩,
    List.forall_mem_singleton.mpr ⟨_, tap_completes rfl hd (granted _) ⟨rfl, rfl, rfl, scans _ _⟩⟩⟩

theorem tapDbgNonce_sends (hl : s.mram.lifecycle ≠ lcBlank) : ∃ n : BitVec 128, Completes .tapDbgNonce s fun v =>
    v.out = s.out ++ [.tdo 0x10 [n.toNat]] ∧ v.crook.nonces = s.crook.nonces ++ [(n, s.log.time)] ∧
      Keeps [.out, .free, .crook] s v := by
  refine ⟨_, tap_completes rfl hd (State.grants_of_calm hz (decide_eq_true hl)) ⟨rfl, rfl, ?_⟩⟩
  exact (((s.tapSelects_keeps tiNonce).mono (by decide)).trans ((State.newNonce_keeps _).mono (by decide))).trans
    ((State.emit_keeps _ _).mono (by decide))

theorem tapDbgLevel_sets {lv : BitVec 2} (hl : s.mram.lifecycle = lcBlank) (hv : lv ≠ 3) :
    Completes (.tapDbgLevel lv) s fun v => v.rd Fd.secStatusLevel = lv.toNat ∧
      v.rd Fd.secStatusScope = (if lv = 0 then 0 else 0x3F) ∧ v.rd Fd.secStatusTokenKey = 0 ∧ v.crook.tokenEnd = none ∧
      Keeps [.out, .regs, .log, .irqs, .crook] s v := by
  have granted : s.grants tiLevel (!s.tokens && decide (lv ≠ 3)) = true := State.grants_of_calm hz <| by
    rw [Bool.and_eq_true]
    exact ⟨by simp [State.tokens, hl], decide_eq_true hv⟩
  have keeps (level scope : Nat) :
      Keeps [.out, .regs, .log, .irqs, .crook] s ((s.tapSelects tiLevel).setLevel level scope 0 none) :=
    ((s.tapSelects_keeps tiLevel).mono (by decide)).trans (State.setLevel_keeps _ _ _ _ _)
  have tokenEnd (level scope : Nat) : ((s.tapSelects tiLevel).setLevel level scope 0 none).crook.tokenEnd = none := by
    rw [State.setLevel_crook]
  refine tap_completes rfl hd granted ?_
  by_cases closed : lv = 0
  · obtain ⟨level, scope, key⟩ := (s.tapSelects tiLevel).setLevel_rd 0 0 0 none (by decide) (by decide) (by decide)
    rw [if_pos closed, if_pos closed, closed]
    exact ⟨level, scope, key, tokenEnd 0 0, keeps 0 0⟩
  · obtain ⟨level, scope, key⟩ :=
      (s.tapSelects tiLevel).setLevel_rd lv.toNat 0x3F 0 none lv.isLt (by decide) (by decide)
    rw [if_neg closed, if_neg closed]
    exact ⟨level, scope, key, tokenEnd _ _, keeps _ _⟩

theorem tapDtm_sends (hl : s.rd Fd.secStatusLevel = 2) (hs : s.rdBit Fd.secStatusScope 5 = true) : Sent .tapDtm s 0x15 [] := by
  refine sent_of rfl hd (State.grants_of_calm hz ?_) rfl
  have observed : s.observes 5 = true := s.observes_iff.mpr ⟨by omega, hs⟩
  rw [observed, Bool.and_true]
  exact decide_eq_true hl

variable (hl : 1 ≤ s.rd Fd.secStatusLevel)
include hl

theorem badOp_done (a d : BitVec 64) : Did (.badOp true a d) s a.toNat stNotPermitted 0 :=
  did_of rfl hd (State.grants_of_calm hz (decide_eq_true hl)) rfl

theorem tapTrace_streams :
    (s.rdBit Fd.secStatusScope 4 = false → Completes .tapTrace s fun v => v.crook.access = (stNotPermitted, 0)) ∧
    (s.rdBit Fd.secStatusScope 4 = true → s.dark = true → Completes .tapTrace s fun v => v.crook.access = (stAsleep, 0)) ∧
    (s.rdBit Fd.secStatusScope 4 = true → s.dark = false →
      Sent .tapTrace s 0x14 ((s.trace.flatMap (·.2)).map (·.toNat))) := by
  have granted : s.grants tiTrace (decide (lvObserve ≤ s.level)) = true := State.grants_of_calm hz (decide_eq_true hl)
  have observed : (s.tapSelects tiTrace).observes 4 = s.rdBit Fd.secStatusScope 4 :=
    (congrArg (· && s.rdBit Fd.secStatusScope 4) (decide_eq_true hl)).trans (Bool.true_and _)
  have asleep : (s.tapSelects tiTrace).asleepAt Fd.traceCtlEn.addr = s.dark := Bool.and_true _
  refine ⟨fun hs => tap_completes rfl hd granted ?_, fun hs ha => tap_completes rfl hd granted ?_,
    fun hs ha => sent_of rfl hd granted ?_⟩
  · rw [observed, hs]
    rfl
  · rw [observed, hs, asleep, ha]
    rfl
  · rw [observed, hs, asleep, ha]
    rfl

end Port
end Sys2Proof.Machine
end

/-! # Debug tokens (R490 to R493, Table 16.11) -/
section
namespace Sys2Proof.Machine

/-! ### The checks of a token, in their order -/

/-- Level, scope and lifetime are ones a token may have. -/
def TokenFormed (t : DebugTok) : Prop :=
  t.level.toNat ≤ 2 ∧ t.scope.toNat < 64 ∧ 1 ≤ t.lifetime.toNat ∧ t.lifetime.toNat ≤ 86400

/-- The signature verifies, and the key's role may sign tokens in the lifecycle state; extra is what else the carrier of the
token asks. -/
def State.TokenSigned (s : State) (extra : Prop) (t : DebugTok) : Prop := extra ∧ t.sigOk = true ∧ s.crook.s0Fail = 0 ∧
  (s.keyRole t.slot = some .niruaService ∨ s.mram.lifecycle ≠ lcReturned ∧ s.keyRole t.slot = some .debug)

/-- The nonce is one that Crook issued in the last minute, and the device number is the module's. -/
def State.TokenFresh (s : State) (t : DebugTok) : Prop :=
  (∃ n ∈ s.crook.nonces, n.1 = t.nonce ∧ s.log.time < n.2 + 60000000000) ∧ t.device.toNat = s.device

/-- The token is for this module, its lifecycle state and a level the state reaches. -/
def State.TokenFits (s : State) (t : DebugTok) : Prop := t.deviceKeyOk = true ∧ t.lifecycle.toNat = s.mram.lifecycle ∧
  s.mram.lifecycle ≠ lcBlank ∧ (t.level.toNat < 2 ∨ s.mram.lifecycle = lcInspect)

section Checks
variable {s : State} {t : DebugTok}

theorem tokenFormed_iff : TokenFormed t ↔
    ¬(2 < t.level.toNat ∨ 64 ≤ t.scope.toNat ∨ t.lifetime.toNat = 0 ∨ 86400 < t.lifetime.toNat) := by
  unfold TokenFormed
  omega

theorem State.tokenSigned_iff : s.TokenSigned True t ↔ (t.sigOk && decide (s.crook.s0Fail = 0) && (s.keyRole t.slot).any fun r =>
    (if s.mram.lifecycle = lcReturned then [KeyRole.niruaService] else [.debug, .niruaService]).contains r) = true := by
  unfold State.TokenSigned
  by_cases returned : s.mram.lifecycle = lcReturned
  · simp [returned, Option.any_eq_true, and_assoc]
  · cases s.keyRole t.slot <;> simp [returned, and_assoc, or_comm]

theorem State.tokenFits_iff : s.TokenFits t ↔
    ¬(!t.deviceKeyOk || decide (t.lifecycle.toNat ≠ s.mram.lifecycle) ||
      !levelReached s.mram.lifecycle t.level.toNat) = true := by
  have level : (t.level.toNat < 2 ∨ s.mram.lifecycle = lcInspect) ↔
      (decide (t.level.toNat < lvFull) || decide (s.mram.lifecycle = lcInspect)) = true := by
    rw [Bool.or_eq_true, decide_eq_true_iff, decide_eq_true_iff]
    rfl
  unfold State.TokenFits levelReached
  rw [level]
  cases decide (t.level.toNat < lvFull) <;> simp [and_assoc]

theorem State.tokenFresh_iff : s.TokenFresh t ↔ s.nonceOk t.nonce t.device = true := by
  simp [State.TokenFresh, State.nonceOk]

theorem State.tokenStatus_lt (s : State) (t : DebugTok) : s.tokenStatus t < 2 ^ 8 := by
  unfold State.tokenStatus
  extract_lets
  repeat' split
  all_goals decide

/-- The first check that a token fails (R491). -/
theorem State.tokenStatus_spec (hz : s.crook.zeroing = false) :
    (¬TokenFormed t → s.tokenStatus t = 1) ∧
    (TokenFormed t → (¬s.TokenSigned True t → s.tokenStatus t = 2) ∧
      (s.TokenSigned True t → (¬s.TokenFresh t → s.tokenStatus t = 3) ∧
        (s.TokenFresh t → (¬s.TokenFits t → s.tokenStatus t = 5) ∧ (s.TokenFits t → s.tokenStatus t = 0)))) := by
  unfold State.tokenStatus
  extract_lets roles good life
  rw [tokenFormed_iff, State.tokenSigned_iff, State.tokenFresh_iff, State.tokenFits_iff, hz]
  have not_true (b : Bool) (h : ¬b = true) : (!b) = true := by simpa using h
  have not_false_ (b : Bool) (h : b = true) : ¬(!b) = true := by simpa using h
  refine ⟨fun h => if_pos (Classical.not_not.mp h), fun hf => ?_⟩
  rw [if_neg hf, if_neg Bool.false_ne_true]
  refine ⟨fun h => if_pos (not_true good h), fun hs => ?_⟩
  rw [if_neg (not_false_ good hs)]
  refine ⟨fun h => if_pos (not_true _ h), fun hn => ?_⟩
  rw [if_neg (not_false_ _ hn)]
  exact ⟨fun h => if_pos (Classical.not_not.mp h), fun h => if_neg h⟩

end Checks

/-! ### What a token that is judged leaves -/

/-- A refused token leaves the level as it was; one that passes every check but the last uses up its nonce. -/
structure RefusedToken (s u : State) (nonce : BitVec 128) (st : Nat) : Prop where
  level : u.rd Fd.secStatusLevel = s.rd Fd.secStatusLevel
  scope : u.rd Fd.secStatusScope = s.rd Fd.secStatusScope
  key : u.rd Fd.secStatusTokenKey = s.rd Fd.secStatusTokenKey
  tokenEnd : u.crook.tokenEnd = s.crook.tokenEnd
  nonces : ∀ n, n ∈ u.crook.nonces ↔ n ∈ s.crook.nonces ∧ (st = 5 → n.1 ≠ nonce)
  bell : u.bellCount = s.bellCount

/-- An accepted token sets level, scope and key slot for its lifetime and uses up its nonce. -/
structure AcceptedToken (s u : State) (t : DebugTok) : Prop where
  level : u.rd Fd.secStatusLevel = t.level.toNat
  scope : u.rd Fd.secStatusScope = if t.level = 0 then 0 else t.scope.toNat
  key : u.rd Fd.secStatusTokenKey = if t.level = 0 then 0 else t.slot.val
  tokenEnd : u.crook.tokenEnd = if t.level = 0 then none else some (s.log.time + 1000000000 * t.lifetime.toNat)
  nonces : ∀ n, n ∈ u.crook.nonces ↔ n ∈ s.crook.nonces ∧ n.1 ≠ t.nonce
  refusal : u.rd Fd.secRefusalStatus = s.rd Fd.secRefusalStatus
  bell : u.bellCount = s.bellCount

section Taken
variable {s : State} {t : DebugTok}

theorem State.mem_useNonce (s : State) (nonce : BitVec 128) (n : BitVec 128 × Nat) :
    n ∈ (s.useNonce nonce).crook.nonces ↔ n ∈ s.crook.nonces ∧ n.1 ≠ nonce := by
  rw [State.useNonce, State.crook_setCrook]
  simp

/-- A token that is not accepted: its nonce used up after the last check, and the refusal recorded. -/
theorem State.takeToken_refused {st : Nat} (hst : s.tokenStatus t = st) (h0 : st ≠ 0) : s.takeToken t = (st,
    (if st = 5 then s.useNonce t.nonce else s).record srcCrook 0x0806 uwCrook st 0) := by
  have last : (st = dsOk ∨ st = dsNotPermitted) = (st = 5) := propext (or_iff_right h0)
  unfold State.takeToken
  rw [hst]
  dsimp only
  rw [if_pos (show st ≠ dsOk from h0)]
  simp only [last]

theorem takeToken_refuses {st : Nat} (hst : s.tokenStatus t = st) (h0 : st ≠ 0) :
    (s.takeToken t).1 = st ∧ RefusedToken s (s.takeToken t).2 t.nonce st := by
  rw [State.takeToken_refused hst h0]
  have shown {f : Fld} (hq : quiet f.addr) :
      ((if st = 5 then s.useNonce t.nonce else s).record srcCrook 0x0806 uwCrook st 0).rd f = s.rd f :=
    (State.record_rd _ _ _ _ _ _ _ hq).trans (ite_ind (P := fun x : State => x.rd f = s.rd f) rfl rfl)
  refine ⟨rfl, shown firm_level.quiet, shown firm_level.quiet, shown firm_level.quiet, ?_, fun n => ?_, ?_⟩
  · rw [State.record_crook]
    exact ite_ind (P := fun x : State => x.crook.tokenEnd = s.crook.tokenEnd) rfl rfl
  · rw [State.record_crook]
    by_cases last : st = 5
    · simp [last, State.mem_useNonce]
    · simp [last]
  · exact (State.record_reg _ _ _ _ _ _ _ (.inr (by decide))).trans
      (ite_ind (P := fun x : State => x.bellCount = s.bellCount) rfl rfl)

/-- A token that is accepted: its nonce used up, and the level set as it says, or closed. -/
theorem State.takeToken_accepted (hst : s.tokenStatus t = 0) : s.takeToken t = (0, (s.useNonce t.nonce).setLevel t.level.toNat
    (if t.level = 0 then 0 else t.scope.toNat) (if t.level = 0 then 0 else t.slot.val)
    (if t.level = 0 then none else some (s.log.time + 1000000000 * t.lifetime.toNat))) := by
  unfold State.takeToken
  rw [hst]
  by_cases closed : t.level = 0
  · simp only [if_pos closed]
    rw [closed]
    rfl
  · simp only [if_neg closed]
    rfl

theorem takeToken_accepts (hst : s.tokenStatus t = 0) (hf : TokenFormed t) :
    (s.takeToken t).1 = 0 ∧ AcceptedToken s (s.takeToken t).2 t := by
  obtain ⟨hl, hs, -, -⟩ := hf
  have scope : (if t.level = 0 then 0 else t.scope.toNat) < 64 := ite_ind (P := (· < 64)) (by decide) hs
  have key : (if t.level = 0 then 0 else t.slot.val) < 16 := ite_ind (P := (· < 16)) (by decide) t.slot.isLt
  rw [State.takeToken_accepted hst]
  obtain ⟨hlevel, hscope, hkey⟩ := (s.useNonce t.nonce).setLevel_rd t.level.toNat _ _
    (if t.level = 0 then none else some (s.log.time + 1000000000 * t.lifetime.toNat)) (by omega) scope key
  have kept {a : Nat} (hq : quiet a) (ha : a ≠ Fd.secStatusLevel.addr) := (s.useNonce t.nonce).setLevel_reg t.level.toNat
    (if t.level = 0 then 0 else t.scope.toNat) (if t.level = 0 then 0 else t.slot.val)
    (if t.level = 0 then none else some (s.log.time + 1000000000 * t.lifetime.toNat)) hq ha
  refine ⟨rfl, hlevel, hscope, hkey, ?_, fun n => ?_, State.rd_of_reg (kept (.inr (by decide)) (by decide)),
    kept (.inr (by decide)) (by decide)⟩
  · rw [State.setLevel_crook]
  · rw [State.setLevel_crook]
    exact s.mem_useNonce t.nonce n

end Taken

/-! ### Tokens of the port and of DFP -/

/-- A carrier of tokens refuses one: the level stays, and the carrier shows the status. -/
def TokenRefused (i : Instr) (s : State) (h : DfpHdr) (t : DebugTok) (st : Nat) : Prop := Completes i s fun v =>
  v.rd Fd.secStatusLevel = s.rd Fd.secStatusLevel ∧ v.rd Fd.secStatusScope = s.rd Fd.secStatusScope ∧
  v.rd Fd.secStatusTokenKey = s.rd Fd.secStatusTokenKey ∧ v.crook.tokenEnd = s.crook.tokenEnd ∧
  (∀ n, n ∈ v.crook.nonces ↔ n ∈ s.crook.nonces ∧ (st = 5 → n.1 ≠ t.nonce)) ∧
  (i = .tapDbgToken t → v.crook.portTok = st ∧ v.out[s.out.length]? = some (.tdo 0x11 [s.crook.portTok])) ∧
  (i = .dfpDebugToken h t → v.rd Fd.secRefusalCmd = 0x55 ∧ v.rd Fd.secRefusalStatus = st ∧
    v.out.getLast? = some (.dfp ⟨h.port, 0x55, h.reqId.toNat, h.session.toNat, st, s.bellCount.toNat, []⟩))

/-- A carrier of tokens accepts one: the level, its scope and its lifetime are set. -/
def TokenAccepted (i : Instr) (s : State) (h : DfpHdr) (t : DebugTok) : Prop := Completes i s fun v =>
  v.rd Fd.secStatusLevel = t.level.toNat ∧ v.rd Fd.secStatusScope = (if t.level = 0 then 0 else t.scope.toNat) ∧
  v.rd Fd.secStatusTokenKey = (if t.level = 0 then 0 else t.slot.val) ∧
  v.crook.tokenEnd = (if t.level = 0 then none else some (s.log.time + 1000000000 * t.lifetime.toNat)) ∧
  (∀ n, n ∈ v.crook.nonces ↔ n ∈ s.crook.nonces ∧ n.1 ≠ t.nonce) ∧
  (i = .tapDbgToken t → v.crook.portTok = 0) ∧
  (i = .dfpDebugToken h t → v.rd Fd.secRefusalStatus = s.rd Fd.secRefusalStatus ∧
    v.out.getLast? = some (.dfp ⟨h.port, 0x55, h.reqId.toNat, h.session.toNat, 0, s.bellCount.toNat, []⟩))

/-- A token's outcome by the first check it fails. -/
def TokenJudged (i : Instr) (s : State) (h : DfpHdr) (t : DebugTok) (extra : Prop) : Prop :=
  (¬TokenFormed t → TokenRefused i s h t 1) ∧
  (TokenFormed t → ¬s.TokenSigned extra t → TokenRefused i s h t 2) ∧
  (TokenFormed t → s.TokenSigned extra t → ¬s.TokenFresh t → TokenRefused i s h t 3) ∧
  (TokenFormed t → s.TokenSigned extra t → s.TokenFresh t → ¬s.TokenFits t → TokenRefused i s h t 5) ∧
  (TokenFormed t → s.TokenSigned extra t → s.TokenFresh t → s.TokenFits t → TokenAccepted i s h t)

/-- The token as the carrier gives it to be judged: its signature verifies where the carrier's own check does. -/
def carriedToken (t : DebugTok) (b : Bool) : DebugTok := { t with sigOk := b }

theorem tokenJudged_of {i : Instr} {s : State} {h : DfpHdr} {t : DebugTok} {extra : Prop} {b : Bool}
    (hz : s.crook.zeroing = false) (hb : b = true ↔ extra ∧ t.sigOk = true)
    (hr : ∀ st, st ≠ 0 → s.tokenStatus (carriedToken t b) = st → TokenRefused i s h t st)
    (ha : TokenFormed t → s.tokenStatus (carriedToken t b) = 0 → TokenAccepted i s h t) : TokenJudged i s h t extra := by
  have hsigned : s.TokenSigned True (carriedToken t b) ↔ s.TokenSigned extra t := by
    unfold State.TokenSigned
    rw [show (carriedToken t b).sigOk = b from rfl, hb]
    simp only [true_and, and_assoc]
    rfl
  obtain ⟨formed, rest⟩ := State.tokenStatus_spec (t := carriedToken t b) hz
  rw [hsigned] at rest
  exact ⟨fun hf => hr 1 (by decide) (formed hf), fun hf hs => hr 2 (by decide) ((rest hf).1 hs),
    fun hf hs hn => hr 3 (by decide) (((rest hf).2 hs).1 hn), fun hf hs hn ht => hr 5 (by decide) ((((rest hf).2 hs).2 hn).1 ht),
    fun hf hs hn ht => ha hf ((((rest hf).2 hs).2 hn).2 ht)⟩

/-- The state in which the port judges a token: the status of the last one is shifted out. -/
def State.tokenShifted (s : State) : State := (s.tapSelects tiToken).emit (.tdo tiToken [s.crook.portTok])

theorem tapDbgToken_completes {s : State} {t : DebugTok} (hd : s.down = none) (hz : s.crook.zeroing = false)
    (hl : s.mram.lifecycle ≠ lcBlank) {P : State → Prop}
    (h : let r := s.tokenShifted.takeToken t; P (r.2.setCrook { r.2.crook with portTok := r.1 })) :
    Completes (.tapDbgToken t) s P :=
  tap_completes rfl hd (State.grants_of_calm hz (decide_eq_true hl)) h

theorem tapDbgToken_judges {s : State} {h : DfpHdr} {t : DebugTok} (hd : s.down = none) (hz : s.crook.zeroing = false)
    (hl : s.mram.lifecycle ≠ lcBlank) : TokenJudged (.tapDbgToken t) s h t True := by
  have out : (s.tokenShifted.takeToken t).2.out[s.out.length]? = some (.tdo 0x11 [s.crook.portTok]) := by
    obtain ⟨l, hl⟩ := (State.takeToken_on (Covers.refl _) s.tokenShifted t (Onward.refl _)).out
    have shifted : s.tokenShifted.out = s.out ++ [.tdo 0x11 [s.crook.portTok]] := rfl
    rw [← hl, shifted, List.append_assoc, List.getElem?_append_right (Nat.le_refl _), Nat.sub_self]
    rfl
  refine tokenJudged_of (b := t.sigOk) hz (by simp) (fun st h0 hst => ?_) (fun hf hst => ?_)
  · obtain ⟨status, r⟩ := takeToken_refuses (s := s.tokenShifted) hst h0
    refine tapDbgToken_completes hd hz hl ⟨r.level, r.scope, r.key, r.tokenEnd, r.nonces, fun _ => ⟨status, out⟩, nofun⟩
  · obtain ⟨status, r⟩ := takeToken_accepts (s := s.tokenShifted) hst hf
    refine tapDbgToken_completes hd hz hl ⟨r.level, r.scope, r.key, r.tokenEnd, r.nonces, fun _ => status, nofun⟩

section Dfp
variable {s : State} {h : DfpHdr} {t : DebugTok}

/-- What a token's signature must be with, when DFP carries the token: the request's own, under the same key. -/
def carriedOk (h : DfpHdr) (t : DebugTok) : Bool := t.sigOk && decide (h.auth = 2) && h.authOk && decide (h.slot = t.slot)

theorem dfpDebugToken_unserved (hm : s.managed = false) : exec (.dfpDebugToken h t) s = .next s :=
  if_pos (congrArg Bool.not hm)

theorem dfpDebugToken_zeroing (hm : s.managed = true) (hz : s.crook.zeroing = true) :
    Completes (.dfpDebugToken h t) s fun v =>
      v.out = s.out ++ [.dfp ⟨h.port, 0x55, h.reqId.toNat, h.session.toNat, 8, s.bellCount.toNat, []⟩] ∧ Keeps [.out] s v := by
  have served : exec (.dfpDebugToken h t) s = .next (s.respond h dcDebugToken dsBusy []) := by
    show execDfpDebugToken h t s = _
    unfold execDfpDebugToken
    rw [hm, dfpStops_of_zeroing (by decide) hz]
    rfl
  exact ⟨_, served, rfl, (State.respond_on (Covers.refl _) s _ _ _ _ (Onward.refl s)).keeps (by decide)⟩

theorem dfpDebugToken_completes (hm : s.managed = true) (hz : s.crook.zeroing = false) {P : State → Prop}
    (hp : ∀ v, (let r := s.takeToken (carriedToken t (carriedOk h t)); r.1 < 2 ^ 8 → Answers h 0x55 r.1 [] r.2 v) → P v) :
    Completes (.dfpDebugToken h t) s P := by
  have served : exec (.dfpDebugToken h t) s = .next (let r := s.takeToken (carriedToken t (carriedOk h t))
      (r.2.refusedCmd dcDebugToken r.1).respond h dcDebugToken r.1 []) := by
    show execDfpDebugToken h t s = _
    unfold execDfpDebugToken
    rw [hm, dfpStops_none hz]
    rfl
  exact ⟨_, served, hp _ fun hs => answers_respond _ h [] (by decide) hs⟩

theorem Answers.last {cmd st : Nat} {body : List Nat} {u v : State} (a : Answers h cmd st body u v) :
    v.out.getLast? = some (.dfp ⟨h.port, cmd, h.reqId.toNat, h.session.toNat, st, u.bellCount.toNat, body⟩) := by
  rw [a.1, List.getLast?_concat]

theorem carriedOk_iff : carriedOk h t = true ↔ (h.auth = 2 ∧ h.authOk = true ∧ h.slot = t.slot) ∧ t.sigOk = true := by
  simp [carriedOk, and_comm, and_assoc, and_left_comm]

theorem dfpDebugToken_judges (hm : s.managed = true) (hz : s.crook.zeroing = false) :
    TokenJudged (.dfpDebugToken h t) s h t (h.auth = 2 ∧ h.authOk = true ∧ h.slot = t.slot) := by
  refine tokenJudged_of hz carriedOk_iff (fun st h0 hst => ?_) (fun hf hst => ?_)
  · obtain ⟨status, r⟩ := takeToken_refuses hst h0
    refine dfpDebugToken_completes hm hz fun v answers => ?_
    dsimp only at answers
    rw [status] at answers
    have answered := answers (hst ▸ State.tokenStatus_lt _ _)
    have last := answered.last
    obtain ⟨-, -, refused⟩ := answered
    obtain ⟨cmd, shown, regs, keeps⟩ := refused h0
    have crook : v.crook = _ := keeps .crook (by decide)
    rw [crook]
    refine ⟨(State.rd_of_reg (regs _ (by decide))).trans r.level, (State.rd_of_reg (regs _ (by decide))).trans r.scope,
      (State.rd_of_reg (regs _ (by decide))).trans r.key, r.tokenEnd, r.nonces, nofun, fun _ => ⟨cmd, shown, ?_⟩⟩
    rw [last, r.bell]
  · obtain ⟨status, r⟩ := takeToken_accepts hst hf
    refine dfpDebugToken_completes hm hz fun v answers => ?_
    dsimp only at answers
    rw [status] at answers
    have answered := answers (by decide)
    have last := answered.last
    obtain ⟨-, accepted, -⟩ := answered
    have keeps := accepted rfl
    have crook : v.crook = _ := keeps .crook (by decide)
    have regs (f : Fld) := State.rd_of_reg (f := f) (State.reg_of_regs (keeps .regs (by decide)) _)
    rw [crook]
    refine ⟨(regs _).trans r.level, (regs _).trans r.scope, (regs _).trans r.key, r.tokenEnd, r.nonces, nofun, fun _ =>
      ⟨(regs _).trans r.refusal, ?_⟩⟩
    rw [last, r.bell]

end Dfp

/-! ### The end of a token (R493) -/

theorem tokenExpiry_waits {s : State} (h : ∀ e, s.crook.tokenEnd = some e → s.log.time < e) : exec .tokenExpiry s = .next s := by
  show execTokenExpiry s = _
  unfold execTokenExpiry
  split
  · rename_i e he
    exact if_neg (Nat.not_le.mpr (h e he))
  · rfl

/-- The level closes once the token's lifetime has ended. -/
theorem tokenExpiry_closes {s : State} {e : Nat} (he : s.crook.tokenEnd = some e) (h : e ≤ s.log.time) :
    Completes .tokenExpiry s fun v => v.rd Fd.secStatusLevel = 0 ∧ v.rd Fd.secStatusScope = 0 ∧
      v.rd Fd.secStatusTokenKey = 0 ∧ v.crook = { s.crook with tokenEnd := none } ∧
      Keeps [.out, .regs, .log, .irqs, .crook] s v := by
  have closes : exec .tokenExpiry s = .next s.closeLevel := by
    show execTokenExpiry s = _
    unfold execTokenExpiry
    rw [he]
    exact if_pos h
  obtain ⟨level, scope, key⟩ := s.setLevel_rd 0 0 0 none (by decide) (by decide) (by decide)
  exact ⟨_, closes, level, scope, key, State.setLevel_crook .., s.setLevel_keeps _ _ _ _⟩

end Sys2Proof.Machine
end

/-! # Debug accesses (R495, R498, R499) -/
section
namespace Sys2Proof.Machine

/-! ### The checks of an access, in their order -/

/-- The address of a debug request. -/
def reqAddr : DbgReq → Nat
  | .read a => a
  | .write a _ => a

/-- Whether a debug request reads. -/
def reqReads : DbgReq → Bool
  | .read _ => true
  | .write _ _ => false

/-- Every scope bit that an address needs is set. -/
def State.Covered (s : State) (a : Nat) : Prop := ∀ k ∈ s.scopesOf a, s.rdBit Fd.secStatusScope k = true

/-- The Paddock of an address is under reset. -/
def State.Held (s : State) (a : Nat) : Prop := ∃ k, s.paddockAt a = some k ∧ k ∈ s.resetPaddocks

/-- An address is aligned and outside the site windows, and the level is Full. -/
def State.Open (s : State) (a : Nat) : Prop := a % 8 = 0 ∧ s.rd Fd.secStatusLevel = 2 ∧ isSiteWin a = false

section Checks
variable {s : State} {q : DbgReq}

/-- An access while another waits for the module to be raised does nothing. -/
theorem dbgAccess_raising (hr : s.crook.raise ≠ none) : s.dbgAccess q = s := by
  unfold State.dbgAccess
  exact if_pos (Option.isSome_iff_ne_none.mpr hr)

theorem State.covered_iff (a : Nat) : s.Covered a ↔ ¬((s.scopesOf a).any fun k => !s.rdBit Fd.secStatusScope k) = true := by
  simp [State.Covered]

theorem State.held_iff (a : Nat) : s.Held a ↔ ((s.paddockAt a).any fun k => s.resetPaddocks.contains k) = true := by
  simp [State.Held, Option.any_eq_true]

/-- The state a debug access leaves, by the first check it fails (Table 16.11). -/
theorem dbgAccess_eq (hr : s.crook.raise = none) : s.dbgAccess q =
    if reqAddr q % 8 ≠ 0 then s.dbgDone (reqAddr q) stRegWidth 0
    else if s.level < lvFull && !(reqReads q && (findBlk (reqAddr q)).any fun e => (debugScope e.1 e.2).isSome) then
      s.dbgDone (reqAddr q) stNotPermitted 0
    else if isSiteWin (reqAddr q) then s.dbgDone (reqAddr q) stUnmapped 0
    else if (s.scopesOf (reqAddr q)).any fun k => !s.rdBit Fd.secStatusScope k then s.dbgDone (reqAddr q) stNotPermitted 0
    else if (s.paddockAt (reqAddr q)).any fun k => s.resetPaddocks.contains k then s.dbgDone (reqAddr q) stReset 0
    else if s.dbgAsleep (reqAddr q) then
      if s.level = lvFull ∧ s.mram.lifecycle = lcInspect then s.setCrook { s.crook with raise := some q }
      else s.dbgDone (reqAddr q) stAsleep 0
    else s.dbgServe q := by
  unfold State.dbgAccess
  rw [hr]
  cases q <;> rfl

variable (hr : s.crook.raise = none)
include hr

theorem dbgAccess_misaligned (ha : reqAddr q % 8 ≠ 0) : s.dbgAccess q = s.dbgDone (reqAddr q) stRegWidth 0 := by
  rw [dbgAccess_eq hr, if_pos ha]

/-- Observe serves reads of the debug blocks alone. -/
theorem dbgAccess_observe (ha : reqAddr q % 8 = 0) (hl : s.rd Fd.secStatusLevel = 1)
    (ho : findBlk (reqAddr q) = none ∨ reqReads q = false) : s.dbgAccess q = s.dbgDone (reqAddr q) stNotPermitted 0 := by
  have unobserved : (reqReads q && (findBlk (reqAddr q)).any fun e => (debugScope e.1 e.2).isSome) = false := by
    rcases ho with h | h <;> simp [h]
  have low : decide (s.level < lvFull) = true := decide_eq_true (by rw [State.level, hl]; decide)
  rw [dbgAccess_eq hr, if_neg (not_not_intro ha), unobserved, low]
  rfl

theorem dbgAccess_full (ha : reqAddr q % 8 = 0) (hl : s.rd Fd.secStatusLevel = 2) : s.dbgAccess q =
    if isSiteWin (reqAddr q) then s.dbgDone (reqAddr q) stUnmapped 0
    else if (s.scopesOf (reqAddr q)).any fun k => !s.rdBit Fd.secStatusScope k then s.dbgDone (reqAddr q) stNotPermitted 0
    else if (s.paddockAt (reqAddr q)).any fun k => s.resetPaddocks.contains k then s.dbgDone (reqAddr q) stReset 0
    else if s.dbgAsleep (reqAddr q) then
      if s.mram.lifecycle = lcInspect then s.setCrook { s.crook with raise := some q }
      else s.dbgDone (reqAddr q) stAsleep 0
    else s.dbgServe q := by
  have full : decide (s.level < lvFull) = false := decide_eq_false (by rw [State.level, hl]; decide)
  have level : s.level = lvFull := hl
  rw [dbgAccess_eq hr, if_neg (not_not_intro ha), full, Bool.false_and, if_neg Bool.false_ne_true]
  simp only [level, true_and]

theorem dbgAccess_siteWin (ha : reqAddr q % 8 = 0) (hl : s.rd Fd.secStatusLevel = 2) (hw : isSiteWin (reqAddr q) = true) :
    s.dbgAccess q = s.dbgDone (reqAddr q) stUnmapped 0 := by
  rw [dbgAccess_full hr ha hl, if_pos hw]

variable (ho : s.Open (reqAddr q))
include ho

theorem dbgAccess_uncovered (hc : ¬s.Covered (reqAddr q)) : s.dbgAccess q = s.dbgDone (reqAddr q) stNotPermitted 0 := by
  obtain ⟨ha, hl, hw⟩ := ho
  rw [dbgAccess_full hr ha hl, hw, if_neg Bool.false_ne_true, if_pos (Classical.not_not.mp (mt (s.covered_iff _).mpr hc))]

variable (hc : s.Covered (reqAddr q))
include hc

theorem dbgAccess_held (hh : s.Held (reqAddr q)) : s.dbgAccess q = s.dbgDone (reqAddr q) stReset 0 := by
  obtain ⟨ha, hl, hw⟩ := ho
  rw [dbgAccess_full hr ha hl, hw, if_neg Bool.false_ne_true, if_neg ((s.covered_iff _).mp hc), if_pos ((s.held_iff _).mp hh)]

theorem dbgAccess_asleep (hh : ¬s.Held (reqAddr q)) (hs : s.dbgAsleep (reqAddr q) = true) : s.dbgAccess q =
    if s.mram.lifecycle = lcInspect then s.setCrook { s.crook with raise := some q }
    else s.dbgDone (reqAddr q) stAsleep 0 := by
  obtain ⟨ha, hl, hw⟩ := ho
  rw [dbgAccess_full hr ha hl, hw, if_neg Bool.false_ne_true, if_neg ((s.covered_iff _).mp hc), if_neg (mt (s.held_iff _).mpr hh),
    if_pos hs]

theorem dbgAccess_served (hh : ¬s.Held (reqAddr q)) (hs : s.dbgAsleep (reqAddr q) = false) : s.dbgAccess q = s.dbgServe q := by
  obtain ⟨ha, hl, hw⟩ := ho
  rw [dbgAccess_full hr ha hl, hw, if_neg Bool.false_ne_true, if_neg ((s.covered_iff _).mp hc), if_neg (mt (s.held_iff _).mpr hh),
    hs]
  rfl

end Checks

/-! ### The management complex's memory -/

theorem mgmtMem_elsewhere {a : Nat} (h : isMgmtMem a = true) :
    isStack a = false ∧ isScratch a = false ∧ isRegSpace a = false := by
  simp only [isMgmtMem, isStack, isScratch, isRegSpace, Bool.and_eq_true, decide_eq_true_eq, Bool.and_eq_false_iff,
    decide_eq_false_iff_not] at h ⊢
  omega

theorem scopesOf_mgmtMem (s : State) {a : Nat} (h : isMgmtMem a = true) : s.scopesOf a = [5] := by
  obtain ⟨stack, scratch, -⟩ := mgmtMem_elsewhere h
  unfold State.scopesOf
  simp only [stack, scratch, h]
  rfl

theorem not_held_mgmtMem (s : State) {a : Nat} (h : isMgmtMem a = true) : ¬s.Held a := by
  have elsewhere : s.paddockAt a = none := by
    unfold State.paddockAt
    rw [scopesOf_mgmtMem s h]
    rfl
  rintro ⟨k, at_, -⟩
  rw [elsewhere] at at_
  exact nomatch at_

theorem dbgAsleep_mgmtMem (s : State) {a : Nat} (h : isMgmtMem a = true) : s.dbgAsleep a = false := if_pos h

theorem dbgMem_mgmtMem (s : State) {a : Nat} (wr : Bool) (h : isMgmtMem a = true) : s.dbgMem a wr = stOk := by
  obtain ⟨stack, scratch, -⟩ := mgmtMem_elsewhere h
  unfold State.dbgMem
  rw [stack, scratch, h]
  rfl

/-! ### What an access that is served does -/

section Served
variable (s : State) {a : Nat}

theorem dbgServe_read_mgmtMem (h : isMgmtMem a = true) :
    s.dbgServe (.read a) = s.dbgDone a stOk (BitVec.ofNat 64 (ofBytes (s.mgmtRead a 8))) := by
  obtain ⟨-, -, regs⟩ := mgmtMem_elsewhere h
  unfold State.dbgServe
  dsimp only
  rw [regs, dbgMem_mgmtMem s false h, h]
  rfl

theorem dbgServe_fails (q : DbgReq) (hr : isRegSpace (reqAddr q) = false) (hs : s.dbgMem (reqAddr q) (!reqReads q) ≠ stOk) :
    s.dbgServe q = s.dbgDone (reqAddr q) (s.dbgMem (reqAddr q) (!reqReads q)) 0 := by
  cases q with
  | read a => exact (if_neg (by rw [show isRegSpace a = false from hr]; decide)).trans (if_pos hs)
  | write a v => exact (if_neg (by rw [show isRegSpace a = false from hr]; decide)).trans (if_pos hs)

theorem dbgServe_writes (v : Word) (hr : isRegSpace a = false) (hs : s.dbgMem a true = stOk) :
    s.dbgServe (.write a v) = (s.writeBytes a (toBytes 8 v.toNat) false false).dbgDone a stOk 0 :=
  (if_neg (by rw [hr]; decide)).trans (if_neg (not_not_intro hs))

theorem dbgServe_readReg (hr : isRegSpace a = true) :
    s.dbgServe (.read a) = s.taken.dbgDone a (s.readReg a 64).1 (s.readReg a 64).2 := if_pos hr

theorem dbgServe_writeReg (v : Word) (hr : isRegSpace a = true) : s.dbgServe (.write a v) =
    (s.writeReg .debug a 64 v).2.dbgDone a (s.writeReg .debug a 64 v).1 0 := if_pos hr

end Served
end Sys2Proof.Machine
end

section
namespace Sys2Proof.Machine

/-! ### Accesses through the port (Table 16.13) -/

section Access
variable {s : State} {i : Instr} {q : DbgReq}
variable (hi : exec i s = .next (s.tapDoes 0x13 (decide (lvObserve ≤ s.level)) fun s => s.dbgAccess q))
variable (hd : s.down = none) (hz : s.crook.zeroing = false) (hl : 1 ≤ s.rd Fd.secStatusLevel)
include hi hd hz hl

theorem access_completes {P : State → Prop} (h : P ((s.tapSelects 0x13).dbgAccess q)) : Completes i s P :=
  tap_completes hi hd (State.grants_of_calm hz (decide_eq_true hl)) h

theorem access_did {st : Nat} {v : Word} (h : (s.tapSelects 0x13).dbgAccess q = (s.tapSelects 0x13).dbgDone (reqAddr q) st v) :
    Did i s (reqAddr q) st v :=
  did_of hi hd (State.grants_of_calm hz (decide_eq_true hl)) h

theorem access_raising (hr : s.crook.raise ≠ none) : Completes i s fun v => v = s.tapSelects 0x13 :=
  access_completes hi hd hz hl (dbgAccess_raising hr)

/-- What an access meets before it is served. -/
theorem access_checks (hr : s.crook.raise = none) :
    (reqAddr q % 8 ≠ 0 → Did i s (reqAddr q) stRegWidth 0) ∧
    (reqAddr q % 8 = 0 → s.rd Fd.secStatusLevel = 1 → findBlk (reqAddr q) = none ∨ reqReads q = false →
      Did i s (reqAddr q) stNotPermitted 0) ∧
    (reqAddr q % 8 = 0 → s.rd Fd.secStatusLevel = 2 → isSiteWin (reqAddr q) = true → Did i s (reqAddr q) stUnmapped 0) ∧
    (s.Open (reqAddr q) → ¬s.Covered (reqAddr q) → Did i s (reqAddr q) stNotPermitted 0) ∧
    (s.Open (reqAddr q) → s.Covered (reqAddr q) → s.Held (reqAddr q) → Did i s (reqAddr q) stReset 0) ∧
    (s.Open (reqAddr q) → s.Covered (reqAddr q) → ¬s.Held (reqAddr q) → s.dbgAsleep (reqAddr q) = true →
      (s.mram.lifecycle = lcInspect → Completes i s fun v =>
        v.crook = { s.crook with tap := 0x13, raise := some q } ∧ Keeps [.crook] s v) ∧
      (s.mram.lifecycle ≠ lcInspect → Did i s (reqAddr q) stAsleep 0)) := by
  have did {st : Nat} {v : Word} := access_did hi hd hz hl (st := st) (v := v)
  refine ⟨fun ha => did (dbgAccess_misaligned hr ha), fun ha h1 ho => did (dbgAccess_observe hr ha h1 ho),
    fun ha h2 hw => did (dbgAccess_siteWin hr ha h2 hw), fun ho hc => did (dbgAccess_uncovered hr ho hc),
    fun ho hc hh => did (dbgAccess_held hr ho hc hh), fun ho hc hh hs => ?_⟩
  have asleep := dbgAccess_asleep (s := s.tapSelects 0x13) hr ho hc hh hs
  refine ⟨fun lc => access_completes hi hd hz hl ?_, fun lc => did (asleep.trans (if_neg lc))⟩
  rw [asleep, if_pos (show (s.tapSelects 0x13).mram.lifecycle = lcInspect from lc)]
  exact ⟨rfl, (s.tapSelects_keeps 0x13).trans (State.setCrook_keeps _ _)⟩

variable (hr : s.crook.raise = none) (ho : s.Open (reqAddr q)) (hc : s.Covered (reqAddr q))
include hr ho hc

theorem access_served (hh : ¬s.Held (reqAddr q)) (hs : s.dbgAsleep (reqAddr q) = false) {P : State → Prop}
    (h : P ((s.tapSelects 0x13).dbgServe q)) : Completes i s P :=
  access_completes hi hd hz hl (by rwa [dbgAccess_served (s := s.tapSelects 0x13) hr ho hc hh hs])

theorem access_fails (hh : ¬s.Held (reqAddr q)) (hs : s.dbgAsleep (reqAddr q) = false) (hg : isRegSpace (reqAddr q) = false)
    (hm : s.dbgMem (reqAddr q) (!reqReads q) ≠ stOk) : Did i s (reqAddr q) (s.dbgMem (reqAddr q) (!reqReads q)) 0 :=
  access_did hi hd hz hl ((dbgAccess_served (s := s.tapSelects 0x13) hr ho hc hh hs).trans (dbgServe_fails _ q hg hm))

end Access

section Requests
variable {s : State} (hd : s.down = none) (hz : s.crook.zeroing = false) (hl : 1 ≤ s.rd Fd.secStatusLevel)
include hd hz hl

theorem readAccess_served (a : BitVec 64) (hr : s.crook.raise = none) (ho : s.Open a.toNat) (hc : s.Covered a.toNat) :
    (isMgmtMem a.toNat = true →
      Did (.tapAccessRead a) s a.toNat stOk (BitVec.ofNat 64 (ofBytes (s.mgmtRead a.toNat 8)))) ∧
    (¬s.Held a.toNat → s.dbgAsleep a.toNat = false → isRegSpace a.toNat = false →
      s.dbgMem a.toNat false ≠ stOk → Did (.tapAccessRead a) s a.toNat (s.dbgMem a.toNat false) 0) ∧
    (¬s.Held a.toNat → s.dbgAsleep a.toNat = false → isRegSpace a.toNat = true →
      Completes (.tapAccessRead a) s fun v => v.crook.access = (s.tapSelects 0x13).readReg a.toNat 64) := by
  have hi : exec (.tapAccessRead a) s =
      .next (s.tapDoes 0x13 (decide (lvObserve ≤ s.level)) fun s => s.dbgAccess (.read a.toNat)) := rfl
  refine ⟨fun hm => ?_, fun hh hs hg => access_fails hi hd hz hl hr ho hc hh hs hg, fun hh hs hg => ?_⟩
  · refine access_did hi hd hz hl ((dbgAccess_served (s := s.tapSelects 0x13) (q := .read a.toNat) hr ho hc
      (not_held_mgmtMem _ hm) (dbgAsleep_mgmtMem _ hm)).trans (dbgServe_read_mgmtMem _ hm))
  · refine access_served hi hd hz hl hr ho hc hh hs ?_
    rw [dbgServe_readReg (s.tapSelects 0x13) hg]
    rfl

theorem writeAccess_served (a d : BitVec 64) (hr : s.crook.raise = none) (ho : s.Open a.toNat) (hc : s.Covered a.toNat)
    (hh : ¬s.Held a.toNat) (hs : s.dbgAsleep a.toNat = false) :
    (isRegSpace a.toNat = false → s.dbgMem a.toNat true ≠ stOk → Did (.tapAccessWrite a d) s a.toNat (s.dbgMem a.toNat true) 0) ∧
    (isRegSpace a.toNat = false → s.dbgMem a.toNat true = stOk → Completes (.tapAccessWrite a d) s fun v =>
      v.crook.access = (stOk, 0) ∧
      v.mem = ((s.tapSelects 0x13).writeBytes a.toNat (toBytes 8 d.toNat) false false).mem ∧
      v.fold = ((s.tapSelects 0x13).writeBytes a.toNat (toBytes 8 d.toNat) false false).fold) ∧
    (isRegSpace a.toNat = true → Completes (.tapAccessWrite a d) s fun v =>
      v.crook.access = (((s.tapSelects 0x13).writeReg .debug a.toNat 64 d).1, 0) ∧
      v.regs = ((s.tapSelects 0x13).writeReg .debug a.toNat 64 d).2.regs) := by
  have hi : exec (.tapAccessWrite a d) s =
      .next (s.tapDoes 0x13 (decide (lvObserve ≤ s.level)) fun s => s.dbgAccess (.write a.toNat d)) := rfl
  refine ⟨access_fails hi hd hz hl hr ho hc hh hs, fun hg hm => ?_, fun hg => ?_⟩ <;>
    refine access_served hi hd hz hl hr ho hc hh hs ?_
  · rw [dbgServe_writes (s.tapSelects 0x13) d hg hm]
    exact ⟨rfl, rfl, rfl⟩
  · rw [dbgServe_writeReg (s.tapSelects 0x13) d hg]
    exact ⟨rfl, rfl⟩

end Requests
end Sys2Proof.Machine
end

section
namespace Sys2Proof.Machine

/-! ### The raise that an access waits for (R499) -/

theorem State.changePower_state (s : State) (l : List SiteTraining) (sites : Bool) :
    (s.changePower psP1 l sites).rd Fd.pwrStatusState = psP1 := by
  unfold State.changePower
  extract_lets old moved still
  clear_value still
  refine (State.record_rd _ _ _ _ _ _ _ firm_power.quiet).trans ?_
  rw [State.rd_of_reg (State.reg_irq ..), State.rd_wr_ne _ _ _ _ (.inr ⟨by decide, by decide⟩),
    State.rd_wr_ne _ _ _ _ (.inr ⟨by decide, by decide⟩), State.rd_wr_same _ _ _ (by decide)]
  rfl

theorem dbgServe_read_reg (s : State) (b : Nat) {a : Nat} (h : firm a) : (s.dbgServe (.read b)).reg a = s.reg a := by
  have touched : (if s.pwr = psP2 then s else s.touch b 8 false false).reg a = s.reg a :=
    ite_ind (P := fun t : State => t.reg a = s.reg a) rfl (s.touch_reg _ _ _ _ _ _ h)
  unfold State.dbgServe
  dsimp only
  refine ite_ind (P := fun t : State => t.reg a = s.reg a) rfl (ite_ind (P := fun t : State => t.reg a = s.reg a) rfl ?_)
  exact ite_ind (P := fun t : State => t.reg a = s.reg a) rfl touched

theorem dbgServe_read_raise (s : State) (b : Nat) : (s.dbgServe (.read b)).crook.raise = s.crook.raise := by
  have touched : (if s.pwr = psP2 then s else s.touch b 8 false false).crook.raise = s.crook.raise :=
    ite_ind (P := fun t : State => t.crook.raise = s.crook.raise) rfl
      (congrArg Crook.raise ((State.touch_on (Covers.refl _) s _ _ _ _ _ _ (Onward.refl s)).crook rfl))
  unfold State.dbgServe
  dsimp only
  refine ite_ind (P := fun t : State => t.crook.raise = s.crook.raise) rfl
    (ite_ind (P := fun t : State => t.crook.raise = s.crook.raise) rfl ?_)
  exact ite_ind (P := fun t : State => t.crook.raise = s.crook.raise) rfl 
    ((congrArg Crook.raise (State.dbgDone_crook _ _ _ _)).trans touched)

/-- A state without a request that waits for a raise. -/
def State.raiseEnded (s : State) : State := s.setCrook { s.crook with raise := none }

/-- The module in P1 with its sites held in reset, for a debug request. -/
def State.raised (s : State) : State := (s.raiseEnded.changePower psP1 [] false).wr Fd.secStatusRaised 1

theorem raised_serves (s : State) (b : Nat) : let v := s.raised.dbgServe (.read b)
    v.crook.raise = none ∧ v.rd Fd.pwrStatusState = psP1 ∧ v.rd Fd.secStatusRaised = 1 := by
  refine ⟨?_, ?_, ?_⟩
  · rw [dbgServe_read_raise, State.raised, State.wr_crook,
      (State.changePower_on (Covers.refl _) s.raiseEnded psP1 [] false (Onward.refl _)).crook rfl]
    rfl
  · rw [State.rd_of_reg (dbgServe_read_reg _ _ firm_power), State.raised, State.rd_wr_ne _ _ _ _ (.inl (by decide))]
    exact State.changePower_state _ _ _
  · rw [State.rd_of_reg (f := Fd.secStatusRaised) (dbgServe_read_reg _ _ firm_level), State.raised,
      State.rd_wr_same _ _ _ (by decide)]
    rfl

section Raise
variable {s : State} {q : DbgReq} {found : Option (List (BitVec 4))}

theorem debugRaise_idle (hr : s.crook.raise = none) : exec (.debugRaise found) s = .next s := by
  show execDebugRaise found s = _
  unfold execDebugRaise
  rw [hr]

/-- What ends a raise in P2 and below. -/
theorem debugRaise_eq (hr : s.crook.raise = some q) (hp : psP2 ≤ s.pwr) : exec (.debugRaise found) s =
    match found with
    | none => .next (s.raiseEnded.dbgDone (reqAddr q) stAsleep 0)
    | some lasers =>
      if s.fallow then .next (s.raiseEnded.dbgDone (reqAddr q) stAsleep 0)
      else
        let w := if s.dark then s.leaveP3 lasers else s
        if w.waking && w.portsTrain then .next w else .next (w.raised.dbgServe q) := by
  show execDebugRaise found s = _
  unfold execDebugRaise
  rw [hr]
  dsimp only
  rw [if_neg (Nat.not_lt.mpr hp)]
  cases q <;> rfl

theorem debugRaise_fails (hr : s.crook.raise = some q) (hp : psP2 ≤ s.pwr) (hf : found = none ∨ s.fallow = true) :
    Completes (.debugRaise found) s fun v => v.crook = { s.crook with raise := none, access := (stAsleep, 0) } ∧
      Keeps [.out, .crook] s v := by
  have fails : exec (.debugRaise found) s = .next (s.raiseEnded.dbgDone (reqAddr q) stAsleep 0) := by
    rw [debugRaise_eq hr hp]
    rcases hf with rfl | fallow
    · rfl
    · cases found with
      | none => rfl
      | some lasers => exact if_pos fallow
  exact ⟨_, fails, rfl, ((s.setCrook_keeps _).mono (by decide)).trans (State.dbgDone_keeps _ _ _ _)⟩

theorem debugRaise_raises {b : Nat} {lasers : List (BitVec 4)} (hr : s.crook.raise = some (.read b)) (hp : psP2 ≤ s.pwr)
    (hf : found = some lasers) (hw : s.fallow = false) :
    let w := if s.dark = true then s.leaveP3 lasers else s
    (w.waking = true → w.portsTrain = true → exec (.debugRaise found) s = .next w) ∧
    (w.waking = false ∨ w.portsTrain = false → Completes (.debugRaise found) s fun v =>
      v.crook.raise = none ∧ v.rd Fd.pwrStatusState = psP1 ∧ v.rd Fd.secStatusRaised = 1) := by
  intro w
  have raises : exec (.debugRaise found) s =
      if w.waking && w.portsTrain then .next w else .next (w.raised.dbgServe (.read b)) := by
    rw [debugRaise_eq hr hp, hf]
    dsimp only
    rw [hw]
    rfl
  refine ⟨fun h1 h2 => ?_, fun h => ⟨_, ?_, raised_serves w b⟩⟩
  · rw [raises, h1, h2]
    rfl
  · rw [raises, if_neg]
    rcases h with h | h <;> simp [h]

end Raise

/-- BAD_OP of the management cores is a write with `GO`. -/
theorem badOp_writes (s : State) (a d : BitVec 64) :
    exec (.badOp false a d) s = exec (.registerWrite .mgmt a 64 (d ||| 0x8000000000000000)) s := rfl

end Sys2Proof.Machine
end

/-! # The trace buffer (R496, Tables 16.17 to 16.19) -/
section
namespace Sys2Proof.Machine

/-! ### Whether a record is collected -/

theorem State.asleepAt_trace (s : State) : s.asleepAt Fd.traceCtlEn.addr = s.dark := Bool.and_true _

/-- Taps send nothing of a module that is unpowered or dark. -/
theorem traces_off {s : State} (h : s.down ≠ none ∨ s.dark = true) (kind : Nat) (pen : Option Nat) :
    s.traces kind pen = false := by
  unfold State.traces
  rw [s.asleepAt_trace]
  rcases h with h | h
  · rw [Option.isNone_eq_false_iff.mpr (Option.isSome_iff_ne_none.mpr h)]
    rfl
  · rw [h]
    simp

/-- Records of a kind, and of a Pen where they have one, are collected. -/
def State.Collects (s : State) (kind : Nat) (pen : Option Nat) : Prop :=
  s.flag Fd.traceCtlEn = true ∧ 1 ≤ kind ∧ kind ≤ 8 ∧ s.rdBit Fd.traceCtlKinds (kind - 1) = true ∧
    (s.pwr < psP2 ∨ kind = 5 ∨ 7 ≤ kind) ∧ (pen = none → 7 ≤ kind) ∧
    ∀ p, pen = some p → s.rdBit Fd.traceCtlPens p = true ∧ s.rdBit Fd.secStatusScope (p / 4) = true

theorem traces_iff {s : State} (hd : s.down = none) (ha : s.dark = false) (kind : Nat) (pen : Option Nat) :
    s.traces kind pen = true ↔ s.Collects kind pen := by
  unfold State.traces State.Collects
  rw [s.asleepAt_trace, hd, ha]
  cases pen <;> simp [and_assoc, or_assoc]

theorem traceRecord_collected {s : State} {r : TraceRec} {unitOk : Bool} (hd : s.down = none) (ha : s.dark = false)
    (h : unitOk = true ∧ s.Collects r.kind.toNat (r.pen.map (·.val))) : exec (.traceRecord r unitOk) s = .next (s.traceAdd r) :=
  if_pos ((Bool.and_eq_true _ _).mpr ⟨h.1, (traces_iff hd ha _ _).mpr h.2⟩)

theorem traceRecord_ignored {s : State} {r : TraceRec} {unitOk : Bool} (hd : s.down = none) (ha : s.dark = false)
    (h : ¬(unitOk = true ∧ s.Collects r.kind.toNat (r.pen.map (·.val)))) : exec (.traceRecord r unitOk) s = .next s :=
  if_neg fun k => h (((Bool.and_eq_true _ _).mp k).imp_right (traces_iff hd ha _ _).mp)

/-! ### The control register -/

theorem traceCtlWrite_off {s : State} (a : BitVec 64) (h : s.down ≠ none ∨ s.dark = true) :
    exec (.traceCtlWrite a) s = .next s := by
  refine if_pos ?_
  rw [s.asleepAt_trace]
  rcases h with h | h
  · rw [Option.isSome_iff_ne_none.mpr h]
    rfl
  · rw [h, Bool.or_true]

theorem traceCtlWrite_on {s : State} (a : BitVec 64) (hd : s.down = none) (ha : s.dark = false) :
    exec (.traceCtlWrite a) s = .next (s.writeTrace a) := by
  refine if_neg ?_
  rw [s.asleepAt_trace, hd, ha]
  exact Bool.false_ne_true

/-- A write of `TRACE_CTL` that does not set `EN` anew. -/
theorem writeTrace_continues {s : State} {v : Word} (h : bit v 63 = false ∨ s.flag Fd.traceCtlEn = true) :
    s.writeTrace v = s.setReg Fd.traceCtlEn.addr (v &&& 0xC0FFFFFF000001FE) := by
  refine if_neg ?_
  rcases h with h | h <;> simp [h]

/-- The buffer emptied, records numbered anew and the sampling Rounds counted from the present one. -/
def State.traceBegun (s : State) (round : Nat) : State :=
  { (s.setReg Fd.traceStatusNext.addr 0) with trace := [], crook := { s.crook with sampled := round } }

theorem State.setReg_keeps (s : State) (a : Nat) (v : Word) : Keeps [.regs] s (s.setReg a v) :=
  (State.setReg_on (Covers.refl _) s a v (Onward.refl s)).keeps (by decide)

theorem State.setReg_regsBut (s : State) (a : Nat) (v : Word) : RegsBut [a] s (s.setReg a v) := fun b hb =>
  (s.reg_setReg a b v).trans (if_neg (by simpa using hb))

theorem State.bellCount_setReg_traceCtl (s : State) (v : Word) : (s.setReg Fd.traceCtlEn.addr v).bellCount = s.bellCount :=
  s.setReg_regsBut _ v _ (by decide)

/-- The write that sets `EN` begins a trace. -/
theorem writeTrace_begins {s : State} {v : Word} (h : bit v 63 = true) (hn : s.flag Fd.traceCtlEn = false) :
    s.writeTrace v =
      (s.setReg Fd.traceCtlEn.addr (v &&& 0xC0FFFFFF000001FE)).traceBegun (s.bellCount.toNat / 65536) := by
  have begins : (bit v 63 && !s.flag Fd.traceCtlEn) = true := by simp [h, hn]
  rw [← s.bellCount_setReg_traceCtl (v &&& 0xC0FFFFFF000001FE)]
  exact if_pos begins

theorem traceBegun_outcome (s : State) (w : Word) (round : Nat) : let v := (s.setReg Fd.traceCtlEn.addr w).traceBegun round
    v.trace = [] ∧ v.crook = { s.crook with sampled := round } ∧ v.reg Fd.traceStatusNext.addr = 0 ∧
    v.reg Fd.traceCtlEn.addr = w ∧ RegsBut [Fd.traceStatusNext.addr, Fd.traceCtlEn.addr] s v := by
  have reg (a : Nat) : ((s.setReg Fd.traceCtlEn.addr w).traceBegun round).reg a =
      ((s.setReg Fd.traceCtlEn.addr w).setReg Fd.traceStatusNext.addr 0).reg a := rfl
  refine ⟨rfl, rfl, ?_, ?_, fun a ha => ?_⟩
  · rw [reg, State.reg_setReg_same]
  · rw [reg, State.reg_setReg, if_neg (by decide), State.reg_setReg_same]
  · simp only [List.mem_cons, List.not_mem_nil, or_false, not_or] at ha
    rw [reg, State.reg_setReg, if_neg ha.1, State.reg_setReg, if_neg ha.2]

theorem State.writeTrace_keeps (s : State) (v : Word) : Keeps [.regs, .trace, .crook] s (s.writeTrace v) :=
  (State.writeTrace_on (Covers.refl _) s v (Onward.refl s)).keeps (by decide)

/-! ### A record arrives -/

/-- What a record that arrives changes: the buffer, its numbers, and the free values taken. -/
def Traced (s t : State) : Prop := RegsBut [Fd.traceStatusNext.addr] s t ∧ Keeps [.regs, .trace, .free] s t

theorem Traced.refl (s : State) : Traced s s := ⟨fun _ _ => rfl, (Onward.refl (m := 0) s).keeps (by decide)⟩

theorem Traced.trans {s t u : State} (h : Traced s t) (k : Traced t u) : Traced s u := ⟨h.1.trans k.1, h.2.trans k.2⟩

/-- A record kept in the buffer with the next number, after the records before it that stay. -/
def State.traceKept (s : State) (kept : List (Nat × List Byte)) (r : TraceRec) : State :=
  ({ s.taken with trace := kept ++ [(s.rd Fd.traceStatusNext, s.traceBytes r (s.freeWord.toNat % 256))] }).inc
    Fd.traceStatusNext 1

/-- A record that finds a full buffer, and is dropped. -/
def State.traceDropped (s : State) : State := s.sat Fd.traceStatusDropped 1

section Arrives
variable {s : State} {r : TraceRec}

theorem traceAdd_room (h : s.trace.length < 2048) : s.traceAdd r = s.traceKept s.trace r := by
  have room : decide (traceMax ≤ s.trace.length) = false := decide_eq_false (Nat.not_le.mpr h)
  unfold State.traceAdd
  rw [room]
  rfl

theorem traceAdd_overwrites (h : 2048 ≤ s.trace.length) (hw : s.flag Fd.traceCtlWrap = true) :
    s.traceAdd r = s.traceKept (s.trace.drop 1) r := by
  have full : decide (traceMax ≤ s.trace.length) = true := decide_eq_true h
  unfold State.traceAdd
  rw [full, hw]
  rfl

theorem traceAdd_drops (h : 2048 ≤ s.trace.length) (hw : s.flag Fd.traceCtlWrap = false) : s.traceAdd r = s.traceDropped := by
  have full : decide (traceMax ≤ s.trace.length) = true := decide_eq_true h
  unfold State.traceAdd
  rw [full, hw]
  rfl

theorem traceDropped_outcome (s : State) :
    s.traceDropped.rd Fd.traceStatusDropped = min (s.rd Fd.traceStatusDropped + 1) (2 ^ 32 - 1) ∧
    s.traceDropped.rd Fd.traceStatusNext = s.rd Fd.traceStatusNext ∧ RegsBut [Fd.traceStatusDropped.addr] s s.traceDropped ∧
    Keeps [.regs] s s.traceDropped :=
  ⟨s.rd_sat_one Fd.traceStatusDropped (by decide), s.rd_wr_ne _ _ _ (.inr ⟨by decide, by decide⟩),
    s.wr_regsBut _ _, (State.wr_on (Covers.refl _) s _ _ (Onward.refl s)).keeps (by decide)⟩

variable (kept : List (Nat × List Byte))

theorem traceKept_trace : (s.traceKept kept r).trace =
    kept ++ [(s.rd Fd.traceStatusNext, s.traceBytes r (s.freeWord.toNat % 256))] := State.wr_trace _ _ _

theorem traceKept_next : (s.traceKept kept r).rd Fd.traceStatusNext = (s.rd Fd.traceStatusNext + 1) % 2 ^ 32 :=
  State.rd_wr_same _ _ _ (by decide)

theorem traceKept_dropped : (s.traceKept kept r).rd Fd.traceStatusDropped = s.rd Fd.traceStatusDropped :=
  State.rd_wr_ne _ _ _ _ (.inr ⟨by decide, by decide⟩)

theorem traceKept_traced (h : s.traceAdd r = s.traceKept kept r) : Traced s (s.traceKept kept r) := by
  refine ⟨State.wr_regsBut _ _ _, ?_⟩
  rw [← h]
  exact (State.traceAdd_on (Covers.refl _) s r (Onward.refl s)).keeps (by decide)

end Arrives
end Sys2Proof.Machine
end

section
namespace Sys2Proof.Machine

/-! ### What a record that arrives leaves for the next -/

section Traced
variable {s t : State} (h : Traced s t)
include h

theorem Traced.crook : t.crook = s.crook := h.2 .crook (by decide)

theorem Traced.rd {f : Fld} (hf : f.addr ≠ Fd.traceStatusNext.addr) : t.rd f = s.rd f :=
  State.rd_of_reg (h.1 _ (by simpa using hf))

theorem Traced.rdBit {f : Fld} (hf : f.addr ≠ Fd.traceStatusNext.addr) (n : Nat) : t.rdBit f n = s.rdBit f n :=
  congrArg (Nat.testBit · n) (h.rd hf)

theorem Traced.flag {f : Fld} (hf : f.addr ≠ Fd.traceStatusNext.addr) : t.flag f = s.flag f :=
  congrArg (fun v => decide (v = 1)) (h.rd hf)

/-- The same records are collected after a record arrives. -/
theorem Traced.traces (kind : Nat) (pen : Option Nat) : t.traces kind pen = s.traces kind pen := by
  have dark : t.dark = s.dark := by
    unfold State.dark
    rw [h.rd (by decide), (h.2 .waking (by decide) : t.waking = s.waking)]
  have pwr : t.pwr = s.pwr := h.rd (by decide)
  unfold State.traces
  rw [t.asleepAt_trace, s.asleepAt_trace, dark, pwr, (h.2 .down (by decide) : t.down = s.down), h.flag (by decide),
    h.rdBit (by decide)]
  cases pen with
  | none => rfl
  | some p => dsimp only; rw [h.rdBit (by decide), h.rdBit (by decide)]

end Traced

/-- Records that arrive one after another take the next numbers, while the buffer has room. -/
theorem traceAdd_foldl {α : Type} (f : State → α → TraceRec) (l : List α) (s : State) (room : s.trace.length + l.length ≤ 2048)
    (count : s.rd Fd.traceStatusNext + l.length < 2 ^ 32) :
    let t := l.foldl (fun t x => t.traceAdd (f t x)) s
    Traced s t ∧ t.trace.map (·.1) = s.trace.map (·.1) ++ (List.range l.length).map (s.rd Fd.traceStatusNext + ·) := by
  induction l generalizing s with
  | nil => exact ⟨.refl s, by simp⟩
  | cons x xs ih =>
    rw [List.length_cons] at room count
    have first : s.traceAdd (f s x) = s.traceKept s.trace (f s x) := traceAdd_room (by omega)
    have next : (s.traceAdd (f s x)).rd Fd.traceStatusNext = s.rd Fd.traceStatusNext + 1 := by
      rw [first, traceKept_next, Nat.mod_eq_of_lt (by omega)]
    have held : (s.traceAdd (f s x)).trace.length = s.trace.length + 1 := by
      rw [first, traceKept_trace, List.length_append, List.length_singleton]
    have numbered : (s.traceAdd (f s x)).trace.map (·.1) = s.trace.map (·.1) ++ [s.rd Fd.traceStatusNext] := by
      rw [first, traceKept_trace, List.map_append, List.map_singleton]
    obtain ⟨traced, numbers⟩ := ih (s.traceAdd (f s x)) (by rw [held]; omega) (by rw [next]; omega)
    refine ⟨Traced.trans (first ▸ traceKept_traced s.trace first) traced, ?_⟩
    rw [List.foldl_cons, numbers, numbered, next, List.length_cons, List.range_succ_eq_map]
    simp [Function.comp_def, Nat.add_assoc, Nat.add_comm 1]

/-! ### Loops in which one element acts -/

theorem eachUpTo_none {f : State → Nat → State} {s : State} (n : Nat) (h : ∀ k < n, f s k = s) : eachUpTo n f s = s := by
  induction n with
  | zero => rfl
  | succ n ih => rw [eachUpTo_succ, ih fun k hk => h k (Nat.lt_succ_of_lt hk), h n (Nat.lt_succ_self n)]

theorem eachUpTo_one {f : State → Nat → State} {s t : State} {p : Nat} (n : Nat) (hp : p < n) (hs : ∀ k < n, k ≠ p → f s k = s)
    (one : f s p = t) (ht : ∀ k < n, k ≠ p → f t k = t) : eachUpTo n f s = t := by
  induction n with
  | zero => exact absurd hp (Nat.not_lt_zero p)
  | succ n ih =>
    rw [eachUpTo_succ]
    rcases Nat.lt_succ_iff_lt_or_eq.mp hp with low | rfl
    · rw [ih low (fun k hk => hs k (Nat.lt_succ_of_lt hk)) fun k hk => ht k (Nat.lt_succ_of_lt hk)]
      exact ht n (Nat.lt_succ_self n) (Nat.ne_of_gt low)
    · rw [eachUpTo_none p fun k hk => hs k (Nat.lt_succ_of_lt hk) (Nat.ne_of_lt hk)]
      exact one

/-! ### Samples -/

/-- The counters of a Pen's Fold block, sampled where they are collected. -/
def State.samplesPen (s : State) (p : Nat) : State :=
  if s.traces 5 (some p) then
    foldCounters.foldl (fun t off =>
      t.traceAdd (sampleRec 5 (uwFold (32 * p) 1023 63) off (t.reg (penFoldBlk.base + 0x1000 * p + off)))) s
  else s

/-- The counters of a stack, sampled where they are collected for one of its Pens. -/
def State.samplesStack (s : State) (k : Nat) : State :=
  if s.traces 6 (some (2 * k)) || s.traces 6 (some (2 * k + 1)) then
    dramCounters.foldl (fun t off =>
      t.traceAdd (sampleRec 6 (uwDram k 63 1 63) off (t.reg (stackBlk.base + 0x1000 * k + off)))) s
  else s

/-- A module whose samples are due: the Round is noted. -/
def State.sampling (s : State) : State := s.setCrook { s.crook with sampled := s.bellCount.toNat / 65536 }

/-- Samples are due every `SAMPLE` Rounds of a trace that is enabled. -/
def State.SampleDue (s : State) : Prop := s.flag Fd.traceCtlEn = true ∧ s.rd Fd.traceCtlSample ≠ 0 ∧
  s.crook.sampled + s.rd Fd.traceCtlSample ≤ s.bellCount.toNat / 65536

theorem traceSample_off {s : State} (h : s.down ≠ none ∨ s.dark = true) : exec .traceSample s = .next s := by
  refine if_pos ?_
  rw [s.asleepAt_trace]
  rcases h with h | h
  · simp [Option.isSome_iff_ne_none.mpr h]
  · simp [h]

section Sample
variable {s : State} (hd : s.down = none) (ha : s.dark = false)
include hd ha

theorem traceSample_waits (h : ¬s.SampleDue) : exec .traceSample s = .next s := by
  refine if_pos ?_
  rw [s.asleepAt_trace, hd, ha]
  refine Classical.byContradiction fun hn => h ⟨?_, ?_, ?_⟩ <;> simp at hn
  · exact hn.2
  · exact hn.1.1
  · exact hn.1.2

theorem traceSample_due (h : s.SampleDue) : exec .traceSample s =
    .next (eachUpTo 8 State.samplesStack (eachUpTo 16 State.samplesPen s.sampling)) := by
  obtain ⟨en, every, due⟩ := h
  refine if_neg ?_
  rw [s.asleepAt_trace, hd, ha]
  simp [en, every, due]


end Sample

theorem samplesPen_none {s : State} {p : Nat} (h : ¬s.traces 5 (some p) = true) : s.samplesPen p = s := if_neg h

theorem samplesStack_none {s : State} {k : Nat} (h : ¬(s.traces 6 (some (2 * k)) = true ∨ s.traces 6 (some (2 * k + 1)) = true)) :
    s.samplesStack k = s := if_neg (by rwa [Bool.or_eq_true])

/-- A sample of a Pen takes a number for each of its seven counters. -/
theorem samplesPen_numbers {s : State} {p : Nat} (h : s.traces 5 (some p) = true) (room : s.trace.length + 7 ≤ 2048)
    (count : s.rd Fd.traceStatusNext + 7 < 2 ^ 32) : Traced s (s.samplesPen p) ∧
    (s.samplesPen p).trace.map (·.1) = s.trace.map (·.1) ++ (List.range 7).map (s.rd Fd.traceStatusNext + ·) := by
  unfold State.samplesPen
  rw [if_pos h]
  exact traceAdd_foldl _ foldCounters s room count

/-- A sample of a stack takes a number for each of its four counters. -/
theorem samplesStack_numbers {s : State} {k : Nat}
    (h : s.traces 6 (some (2 * k)) = true ∨ s.traces 6 (some (2 * k + 1)) = true) (room : s.trace.length + 4 ≤ 2048)
    (count : s.rd Fd.traceStatusNext + 4 < 2 ^ 32) : Traced s (s.samplesStack k) ∧
    (s.samplesStack k).trace.map (·.1) = s.trace.map (·.1) ++ (List.range 4).map (s.rd Fd.traceStatusNext + ·) := by
  unfold State.samplesStack
  rw [if_pos ((Bool.or_eq_true _ _).mpr h)]
  exact traceAdd_foldl _ dramCounters s room count

/-! ### A trace of one Pen and one kind -/

/-- Records of one kind are enabled, and the Pen p alone, whose Paddock is in scope. -/
structure State.OnePen (s : State) (p kind : Nat) : Prop where
  pens : s.rd Fd.traceCtlPens = 2 ^ p
  scope : s.rdBit Fd.secStatusScope (p / 4) = true
  kinds : s.rd Fd.traceCtlKinds = 2 ^ (kind - 1)
  enabled : s.flag Fd.traceCtlEn = true

section OnePen
variable {s : State} {p kind : Nat} (hd : s.down = none) (ha : s.dark = false) (h1 : s.OnePen p kind)
include hd ha h1

theorem onePen_traces (hk : 1 ≤ kind ∧ kind ≤ 8) (k q : Nat) (hk1 : 1 ≤ k) :
    s.traces k (some q) = true ↔ k = kind ∧ q = p ∧ (s.pwr < psP2 ∨ kind = 5 ∨ 7 ≤ kind) := by
  have kinds : s.rdBit Fd.traceCtlKinds (k - 1) = true ↔ kind - 1 = k - 1 := by
    rw [State.rdBit, h1.kinds, Nat.testBit_two_pow, decide_eq_true_iff]
  have pens : s.rdBit Fd.traceCtlPens q = true ↔ p = q := by
    rw [State.rdBit, h1.pens, Nat.testBit_two_pow, decide_eq_true_iff]
  rw [traces_iff hd ha, State.Collects, kinds]
  constructor
  · rintro ⟨-, -, -, same, powered, -, named⟩
    have := pens.mp (named q rfl).1
    obtain rfl : k = kind := by omega
    exact ⟨rfl, this.symm, powered⟩
  · rintro ⟨rfl, rfl, powered⟩
    refine ⟨h1.enabled, hk.1, hk.2, rfl, powered, nofun, fun r hr => ?_⟩
    obtain rfl := Option.some.inj hr
    exact ⟨pens.mpr rfl, h1.scope⟩

end OnePen

section Due
variable {s : State} (hd : s.down = none) (ha : s.dark = false) (due : s.SampleDue)
include hd ha due

/-- Where no Pen's counters and no stack's are collected, a sample notes the Round alone. -/
theorem traceSample_none (h5 : ∀ q, ¬s.traces 5 (some q) = true) (h6 : ∀ q, ¬s.traces 6 (some q) = true) :
    exec .traceSample s = .next s.sampling := by
  rw [traceSample_due hd ha due, eachUpTo_none (s := s.sampling) 16 fun k _ => samplesPen_none (h5 k),
    eachUpTo_none (s := s.sampling) 8 fun k _ => samplesStack_none fun h => h.elim (h6 _) (h6 _)]

theorem traceSample_noPens (hp : s.rd Fd.traceCtlPens = 0) : Completes .traceSample s fun v =>
    v.crook = { s.crook with sampled := s.bellCount.toNat / 65536 } ∧ Keeps [.crook] s v := by
  have none_ (k q : Nat) : ¬s.traces k (some q) = true := by
    rw [traces_iff hd ha]
    rintro ⟨-, -, -, -, -, -, named⟩
    have := (named q rfl).1
    rw [State.rdBit, hp, Nat.zero_testBit] at this
    exact Bool.false_ne_true this
  exact ⟨_, traceSample_none hd ha due (none_ 5) (none_ 6), rfl, s.setCrook_keeps _⟩

variable {p : Nat} (hp : p < 16)
include hp

/-- A sample of one Pen's counters. -/
theorem traceSample_pen (h1 : s.OnePen p 5) (room : s.trace.length + 7 ≤ 2048) (count : s.rd Fd.traceStatusNext + 7 < 2 ^ 32) :
    Completes .traceSample s fun v =>
      v.trace.map (·.1) = s.trace.map (·.1) ++ (List.range 7).map (s.rd Fd.traceStatusNext + ·) ∧
      v.crook = { s.crook with sampled := s.bellCount.toNat / 65536 } := by
  have traces := onePen_traces hd ha h1 (by decide)
  have mine : s.traces 5 (some p) = true := (traces 5 p (by decide)).mpr ⟨rfl, rfl, .inr (.inl rfl)⟩
  have others (q : Nat) (hq : q ≠ p) : ¬s.traces 5 (some q) = true := fun k => hq ((traces 5 q (by decide)).mp k).2.1
  have drams (q : Nat) : ¬s.traces 6 (some q) = true := fun k => absurd ((traces 6 q (by decide)).mp k).1 (by decide)
  obtain ⟨traced, numbers⟩ := samplesPen_numbers (s := s.sampling) mine room count
  refine ⟨_, traceSample_due hd ha due, ?_⟩
  rw [eachUpTo_one (s := s.sampling) 16 hp (fun q _ hq => samplesPen_none (others q hq)) rfl
      fun q _ hq => samplesPen_none (by rw [traced.traces]; exact others q hq),
    eachUpTo_none 8 fun q _ => samplesStack_none (by
      rw [traced.traces, traced.traces]; exact fun h => h.elim (drams _) (drams _))]
  exact ⟨numbers, traced.crook⟩

/-- A sample of the counters of one Pen's stack; in P2 there is none. -/
theorem traceSample_stack (h1 : s.OnePen p 6) (room : s.trace.length + 4 ≤ 2048) (count : s.rd Fd.traceStatusNext + 4 < 2 ^ 32) :
    (s.pwr < psP2 → Completes .traceSample s fun v =>
      v.trace.map (·.1) = s.trace.map (·.1) ++ (List.range 4).map (s.rd Fd.traceStatusNext + ·)) ∧
    (s.pwr = psP2 → Completes .traceSample s fun v => v.trace = s.trace) := by
  have traces := onePen_traces hd ha h1 (by decide)
  have pens (q : Nat) : ¬s.traces 5 (some q) = true := fun k => absurd ((traces 5 q (by decide)).mp k).1 (by decide)
  have stack (q : Nat) : s.traces 6 (some q) = true ↔ q = p ∧ s.pwr < psP2 := by
    rw [traces 6 q (by decide)]
    omega
  constructor <;> intro power
  · have mine : s.traces 6 (some (2 * (p / 2))) = true ∨ s.traces 6 (some (2 * (p / 2) + 1)) = true := by
      rw [stack, stack]
      omega
    have others (k : Nat) (hk : k ≠ p / 2) : ¬(s.traces 6 (some (2 * k)) = true ∨ s.traces 6 (some (2 * k + 1)) = true) := by
      rw [stack, stack]
      omega
    obtain ⟨traced, numbers⟩ := samplesStack_numbers (s := s.sampling) mine room count
    refine ⟨_, traceSample_due hd ha due, ?_⟩
    rw [eachUpTo_none (s := s.sampling) 16 fun q _ => samplesPen_none (pens q),
      eachUpTo_one (s := s.sampling) 8 (by omega : p / 2 < 8) (fun k _ hk => samplesStack_none (others k hk)) rfl
        fun k _ hk => samplesStack_none (by rw [traced.traces, traced.traces]; exact others k hk)]
    exact numbers
  · refine ⟨_, traceSample_none hd ha due pens fun q k => ?_, rfl⟩
    exact absurd ((stack q).mp k).2 (by omega)

end Due
end Sys2Proof.Machine
end

section
namespace Sys2Proof.Machine

/-! ### The test port, debug tokens and accesses, and the trace buffer together -/

theorem testLogicReset_down {s : State} (hd : s.down ≠ none) : exec .testLogicReset s = .next s :=
  if_pos (Option.isSome_iff_ne_none.mpr hd)

/-- A record of a tap is collected: its unit is powered, its kind is enabled, and so is its Pen where it has one. -/
def State.RecordCollected (s : State) (r : TraceRec) (unitOk : Bool) : Prop :=
  unitOk = true ∧ s.flag Fd.traceCtlEn = true ∧ 1 ≤ r.kind.toNat ∧ r.kind.toNat ≤ 8 ∧
    s.rdBit Fd.traceCtlKinds (r.kind.toNat - 1) = true ∧ (s.pwr < psP2 ∨ r.kind.toNat = 5 ∨ 7 ≤ r.kind.toNat) ∧
    (r.pen = none → 7 ≤ r.kind.toNat) ∧
    ∀ p, r.pen = some p → s.rdBit Fd.traceCtlPens p = true ∧ s.rdBit Fd.secStatusScope (p / 4) = true

theorem recordCollected_iff {s : State} {r : TraceRec} {unitOk : Bool} :
    s.RecordCollected r unitOk ↔ unitOk = true ∧ s.Collects r.kind.toNat (r.pen.map (·.val)) := by
  unfold State.RecordCollected State.Collects
  cases r.pen <;> simp

/-- A record is kept with the next number after those of the buffer that stay. -/
def RecordAdded (s : State) (r : TraceRec) (unitOk : Bool) (kept : List (Nat × List Byte)) : Prop :=
  ∃ ph, ph < 256 ∧ Completes (.traceRecord r unitOk) s fun v =>
    v.trace = kept ++ [(s.rd Fd.traceStatusNext, s.traceBytes r ph)] ∧
    v.rd Fd.traceStatusNext = (s.rd Fd.traceStatusNext + 1) % 2 ^ 32 ∧
    v.rd Fd.traceStatusDropped = s.rd Fd.traceStatusDropped ∧ RegsBut [Fd.traceStatusNext.addr] s v ∧
    Keeps [.regs, .trace, .free] s v

section Record
variable {s : State} {r : TraceRec} {unitOk : Bool} (hd : s.down = none) (ha : s.dark = false)
include hd ha

theorem recordAdded_of {kept : List (Nat × List Byte)} (hc : s.RecordCollected r unitOk)
    (h : s.traceAdd r = s.traceKept kept r) : RecordAdded s r unitOk kept := by
  obtain ⟨regs, keeps⟩ := traceKept_traced kept h
  refine ⟨s.freeWord.toNat % 256, Nat.mod_lt _ (by decide), s.traceKept kept r, ?_, traceKept_trace kept, traceKept_next kept,
    traceKept_dropped kept, regs, keeps⟩
  rw [traceRecord_collected hd ha (recordCollected_iff.mp hc), h]

/-- What becomes of a record (Table 16.19). -/
theorem traceRecord_outcomes :
    (¬s.RecordCollected r unitOk → exec (.traceRecord r unitOk) s = .next s) ∧
    (s.RecordCollected r unitOk → s.trace.length < 2048 → RecordAdded s r unitOk s.trace) ∧
    (s.RecordCollected r unitOk → 2048 ≤ s.trace.length → s.flag Fd.traceCtlWrap = true →
      RecordAdded s r unitOk (s.trace.drop 1)) ∧
    (s.RecordCollected r unitOk → 2048 ≤ s.trace.length → s.flag Fd.traceCtlWrap = false →
      Completes (.traceRecord r unitOk) s fun v =>
        v.rd Fd.traceStatusDropped = min (s.rd Fd.traceStatusDropped + 1) (2 ^ 32 - 1) ∧
        v.rd Fd.traceStatusNext = s.rd Fd.traceStatusNext ∧ RegsBut [Fd.traceStatusDropped.addr] s v ∧ Keeps [.regs] s v) := by
  refine ⟨fun hc => traceRecord_ignored hd ha (mt recordCollected_iff.mpr hc),
    fun hc room => recordAdded_of hd ha hc (traceAdd_room room),
    fun hc full wrap => recordAdded_of hd ha hc (traceAdd_overwrites full wrap), fun hc full wrap => ?_⟩
  refine ⟨s.traceDropped, ?_, traceDropped_outcome s⟩
  rw [traceRecord_collected hd ha (recordCollected_iff.mp hc), traceAdd_drops full wrap]

/-- What a write of `TRACE_CTL` does. -/
theorem traceCtlWrite_outcomes (a : BitVec 64) :
    (bit a 63 = true → s.flag Fd.traceCtlEn = false → Completes (.traceCtlWrite a) s fun v => v.trace = [] ∧
      v.crook = { s.crook with sampled := s.bellCount.toNat / 65536 } ∧
      v.reg Fd.traceStatusNext.addr = 0 ∧ v.reg Fd.traceCtlEn.addr = a &&& 0xC0FFFFFF000001FE ∧
      RegsBut [Fd.traceStatusNext.addr, Fd.traceCtlEn.addr] s v ∧ Keeps [.regs, .trace, .crook] s v) ∧
    (bit a 63 = false ∨ s.flag Fd.traceCtlEn = true → Completes (.traceCtlWrite a) s fun v =>
      v.reg Fd.traceCtlEn.addr = a &&& 0xC0FFFFFF000001FE ∧ RegsBut [Fd.traceCtlEn.addr] s v ∧ Keeps [.regs] s v) := by
  have writes := traceCtlWrite_on a hd ha
  constructor
  · intro hb hn
    rw [writeTrace_begins hb hn] at writes
    obtain ⟨trace, crook, next, ctl, regs⟩ := traceBegun_outcome s (a &&& 0xC0FFFFFF000001FE) (s.bellCount.toNat / 65536)
    exact ⟨_, writes, trace, crook, next, ctl, regs, writeTrace_begins hb hn ▸ s.writeTrace_keeps a⟩
  · intro h
    rw [writeTrace_continues h] at writes
    exact ⟨_, writes, State.reg_setReg_same _ _ _, s.setReg_regsBut _ _, s.setReg_keeps _ _⟩

end Record

/-- A dark or unpowered module traces nothing. -/
theorem trace_off {s : State} (h : s.down ≠ none ∨ s.dark = true) (a : BitVec 64) (r : TraceRec) (unitOk : Bool) :
    exec (.traceCtlWrite a) s = .next s ∧ exec (.traceRecord r unitOk) s = .next s ∧ exec .traceSample s = .next s := by
  refine ⟨traceCtlWrite_off a h, if_neg ?_, traceSample_off h⟩
  rw [traces_off h, Bool.and_false]
  exact Bool.false_ne_true

/-- Accesses of the port, by what each of them asks. -/
theorem access_outcomes (s : State) (a d : BitVec 64) (hd : s.down = none) (hz : s.crook.zeroing = false)
    (hl : 1 ≤ s.rd Fd.secStatusLevel) :
    ∀ e ∈ [(Instr.tapAccessRead a, DbgReq.read a.toNat), (.tapAccessWrite a d, .write a.toNat d)],
      (s.crook.raise ≠ none → Completes e.1 s fun v => v = s.tapSelects 0x13) ∧
      (s.crook.raise = none →
        (a.toNat % 8 ≠ 0 → Did e.1 s a.toNat stRegWidth 0) ∧
        (a.toNat % 8 = 0 → s.rd Fd.secStatusLevel = 1 → findBlk a.toNat = none ∨ e.1 = .tapAccessWrite a d →
          Did e.1 s a.toNat stNotPermitted 0) ∧
        (a.toNat % 8 = 0 → s.rd Fd.secStatusLevel = 2 → isSiteWin a.toNat = true → Did e.1 s a.toNat stUnmapped 0) ∧
        (s.Open a.toNat → ¬s.Covered a.toNat → Did e.1 s a.toNat stNotPermitted 0) ∧
        (s.Open a.toNat → s.Covered a.toNat → s.Held a.toNat → Did e.1 s a.toNat stReset 0) ∧
        (s.Open a.toNat → s.Covered a.toNat → ¬s.Held a.toNat → s.dbgAsleep a.toNat = true →
          (s.mram.lifecycle = lcInspect → Completes e.1 s fun v =>
            v.crook = { s.crook with tap := 0x13, raise := some e.2 } ∧ Keeps [.crook] s v) ∧
          (s.mram.lifecycle ≠ lcInspect → Did e.1 s a.toNat stAsleep 0)) ∧
        (s.Open a.toNat → s.Covered a.toNat → isMgmtMem a.toNat = true →
          (e.1 = .tapAccessRead a → Did e.1 s a.toNat stOk (BitVec.ofNat 64 (ofBytes (s.mgmtRead a.toNat 8))))) ∧
        (s.Open a.toNat → s.Covered a.toNat → ¬s.Held a.toNat → s.dbgAsleep a.toNat = false → isRegSpace a.toNat = false →
          (s.dbgMem a.toNat (decide (e.1 = .tapAccessWrite a d)) ≠ stOk →
            Did e.1 s a.toNat (s.dbgMem a.toNat (decide (e.1 = .tapAccessWrite a d))) 0) ∧
          (s.dbgMem a.toNat (decide (e.1 = .tapAccessWrite a d)) = stOk → e.1 = .tapAccessWrite a d → Completes e.1 s fun v =>
            v.crook.access = (stOk, 0) ∧
            v.mem = ((s.tapSelects 0x13).writeBytes a.toNat (toBytes 8 d.toNat) false false).mem ∧
            v.fold = ((s.tapSelects 0x13).writeBytes a.toNat (toBytes 8 d.toNat) false false).fold)) ∧
        (s.Open a.toNat → s.Covered a.toNat → ¬s.Held a.toNat → s.dbgAsleep a.toNat = false → isRegSpace a.toNat = true →
          (e.1 = .tapAccessRead a → Completes e.1 s fun v => v.crook.access = (s.tapSelects 0x13).readReg a.toNat 64) ∧
          (e.1 = .tapAccessWrite a d → Completes e.1 s fun v =>
            v.crook.access = (((s.tapSelects 0x13).writeReg .debug a.toNat 64 d).1, 0) ∧
            v.regs = ((s.tapSelects 0x13).writeReg .debug a.toNat 64 d).2.regs))) := by
  refine List.forall_mem_cons.mpr ⟨⟨access_raising rfl hd hz hl, fun hr => ?_⟩,
    List.forall_mem_singleton.mpr ⟨access_raising rfl hd hz hl, fun hr => ?_⟩⟩
  · obtain ⟨misaligned, observe, window, uncovered, held, asleep⟩ :=
      access_checks (i := .tapAccessRead a) (q := .read a.toNat) rfl hd hz hl hr
    have reads : decide (Instr.tapAccessRead a = .tapAccessWrite a d) = false := decide_eq_false nofun
    have served := readAccess_served hd hz hl a hr
    refine ⟨misaligned, fun ha h1 hb => observe ha h1 (hb.imp_right nofun), window, uncovered, held, asleep,
      fun ho hc hm _ => (served ho hc).1 hm, fun ho hc hh hs hg => ⟨fun hm => ?_, nofun⟩,
      fun ho hc hh hs hg => ⟨fun _ => (served ho hc).2.2 hh hs hg, nofun⟩⟩
    rw [reads] at hm ⊢
    exact (served ho hc).2.1 hh hs hg hm
  · obtain ⟨misaligned, observe, window, uncovered, held, asleep⟩ :=
      access_checks (i := .tapAccessWrite a d) (q := .write a.toNat d) rfl hd hz hl hr
    have writes : decide (Instr.tapAccessWrite a d = .tapAccessWrite a d) = true := decide_eq_true rfl
    have served := writeAccess_served hd hz hl a d hr
    refine ⟨misaligned, fun ha h1 _ => observe ha h1 (.inr rfl), window, uncovered, held, asleep, fun _ _ _ => nofun,
      fun ho hc hh hs hg => ?_, fun ho hc hh hs hg => ⟨nofun, fun _ => (served ho hc hh hs).2.2 hg⟩⟩
    rw [writes]
    exact ⟨(served ho hc hh hs).1 hg, fun hm _ => (served ho hc hh hs).2.1 hg hm⟩

/-- Settles O51: the port's instructions by what grants them, tokens and accesses by the first check each fails, and records
by the room that the buffer has. -/
theorem debugAndTrace : Obligations.DebugAndTrace := by
  unfold Obligations.DebugAndTrace
  intro s t lv a d h found r unitOk
  refine ⟨fun e he => (tapTable_does s t lv a d e he).selects, fun hd => ?_, testLogicReset_down, ?_,
    dfpDebugToken_unserved, dfpDebugToken_zeroing, tokenExpiry_waits, fun e => tokenExpiry_closes,
    access_outcomes s a d, debugRaise_idle, fun q => debugRaise_fails, fun b ls => debugRaise_raises, badOp_writes s a d,
    fun off => trace_off off a r unitOk, fun hd ha => ?_⟩
  · exact ⟨tapIdcode_sends hd, idcode_known, tapBypass_sends hd, fun hz hl => boundaryScan_sends hd hz hl,
      fun hz hl => tapDbgNonce_sends hd hz hl, fun hz hl hv => tapDbgLevel_sets hd hz hl hv,
      fun hz hl hs => tapDtm_sends hd hz hl hs, fun hz hl => ⟨badOp_done hd hz hl a d, tapTrace_streams hd hz hl⟩,
      testLogicReset_resets hd⟩
  · exact List.forall_mem_cons.mpr ⟨fun ⟨hd, hz, hl⟩ => tapDbgToken_judges hd hz hl,
      List.forall_mem_singleton.mpr fun ⟨hm, hz⟩ => dfpDebugToken_judges hm hz⟩
  · obtain ⟨begins, continues⟩ := traceCtlWrite_outcomes hd ha a
    refine ⟨begins, continues, traceRecord_outcomes hd ha, fun hn => traceSample_waits hd ha hn,
      fun due hp => traceSample_noPens hd ha due hp, fun p due hp pens scope room count => ?_⟩
    have stack (kinds : s.rd Fd.traceCtlKinds = 32) := traceSample_stack hd ha due hp ⟨pens, scope, kinds, due.1⟩
      (by omega) (by omega)
    exact ⟨fun kinds => traceSample_pen hd ha due hp ⟨pens, scope, kinds, due.1⟩ room count,
      fun kinds power => (stack kinds).1 power, fun kinds power => (stack kinds).2 power⟩

end Sys2Proof.Machine
end

/-! # Event records, notifications (R560 to R577) and the management restart (R450) -/
section
namespace Sys2Proof.Machine

/-! ### What a notification leaves as it was -/

/-- A notification changes of the recorder only what the error units hold, and of the registers none below theirs. -/
structure Notified (s t : State) : Prop where
  log : ∃ service queues lostRun lostSev, t.log = { s.log with service, queues, lostRun, lostSev }
  reg : ∀ a < 0x30000003000, t.reg a = s.reg a

theorem Notified.refl (s : State) : Notified s s := ⟨⟨_, _, _, _, rfl⟩, fun _ _ => rfl⟩

theorem Notified.trans {s t u : State} (h : Notified s t) (k : Notified t u) : Notified s u := by
  obtain ⟨sv, q, run, sev, hlog⟩ := h.log
  obtain ⟨sv', q', run', sev', klog⟩ := k.log
  exact ⟨⟨sv', q', run', sev', by rw [klog, hlog]⟩, fun a ha => (k.reg a ha).trans (h.reg a ha)⟩

theorem State.wr_notified (s : State) (f : Fld) (v : Nat) (h : 0x30000003000 ≤ f.addr) : Notified s (s.wr f v) :=
  ⟨⟨_, _, _, _, rfl⟩, fun a ha => s.reg_wr_ne f v a (by omega)⟩

theorem State.irq_notified (s : State) (n : Nat) : Notified s (s.irq n) := ⟨⟨_, _, _, _, rfl⟩, fun _ _ => rfl⟩

section Notified
variable {s t : State} (h : Notified s t)
include h

theorem Notified.buffer : t.log.buffer = s.log.buffer := by
  obtain ⟨_, _, _, _, e⟩ := h.log
  rw [e]

theorem Notified.records : t.log.log = s.log.log := by
  obtain ⟨_, _, _, _, e⟩ := h.log
  rw [e]

theorem Notified.written : t.log.written = s.log.written := by
  obtain ⟨_, _, _, _, e⟩ := h.log
  rw [e]

theorem Notified.dropped : t.log.dropped = s.log.dropped := by
  obtain ⟨_, _, _, _, e⟩ := h.log
  rw [e]

theorem Notified.bucket (k : Nat) : t.log.bucket k = s.log.bucket k := by
  obtain ⟨_, _, _, _, e⟩ := h.log
  rw [e]
  rfl

theorem Notified.rd {f : Fld} (hf : f.addr < 0x30000003000) : t.rd f = s.rd f := State.rd_of_reg (h.reg _ hf)

end Notified

theorem State.enterService_notified (s : State) (u : Nat) (r : Rec) : Notified s (s.enterService u r) := by
  unfold State.enterService
  extract_lets +onlyGivenNames b log entered
  extract_lets shown
  have hentered : Notified s entered := ⟨⟨_, _, _, _, rfl⟩, fun _ _ => rfl⟩
  have hshown : Notified entered shown := eachUpTo_ind (P := Notified entered) 4 _ (.refl _) fun t i ht =>
    ht.trans (t.wr_notified _ _ (by simp only [Fd.errSvc]; omega))
  refine (((hentered.trans hshown).trans (State.wr_notified _ _ _ ?_)).trans (State.wr_notified _ _ _ ?_)).trans
    (State.irq_notified _ _)
  · simp only [Fd.errStatusInService]
    omega
  · simp only [Fd.errStatusSvcSev]
    omega

theorem State.enqueue_notified (s : State) (u : Nat) (r : Rec) : Notified s (s.enqueue u r) := by
  unfold State.enqueue
  extract_lets +onlyGivenNames q l
  split
  · exact ⟨⟨_, _, _, _, rfl⟩, fun _ _ => rfl⟩
  · extract_lets +onlyGivenNames sv dropped
    refine Notified.trans (t := dropped) ⟨⟨_, _, _, _, rfl⟩, fun _ _ => rfl⟩ (dropped.wr_notified _ _ ?_)
    simp only [Fd.errStatusLost]
    omega

/-- The subscribers of DFP are told of a record (R455). -/
def State.published (s : State) (r : Rec) : State := s.crook.subs.foldl (fun t p => t.emit (.dfpEvent p.1 p.2 r.bytes)) s

theorem State.published_notified (s : State) (r : Rec) : Notified s (s.published r) :=
  foldl_ind (P := Notified s) (fun t _ h => h.trans (u := t.emit _) ⟨⟨_, _, _, _, rfl⟩, fun _ _ => rfl⟩) _ _ (.refl s)

theorem State.published_log (s : State) (r : Rec) : (s.published r).log = s.log :=
  foldl_ind (P := fun t : State => t.log = s.log) (fun t _ h => (t.emit_log _).trans h) _ _ rfl

/-- What a notification does (R561, R562): the record enters service, waits, or takes the place of the one in service. -/
theorem State.notifyRec_cases (s : State) (u : Nat) (r : Rec) :
    s.notifyRec u r = (s.published r).enterService u r ∨ s.notifyRec u r = (s.published r).enqueue u r ∨
    ∃ q, s.notifyRec u r = ((s.published r).enqueue u q).enterService u r := by
  unfold State.notifyRec
  extract_lets t
  split
  · exact .inl rfl
  · split
    · exact .inr (.inr ⟨_, rfl⟩)
    · exact .inr (.inl rfl)

theorem State.notifyRec_notified (s : State) (u : Nat) (r : Rec) : Notified s (s.notifyRec u r) := by
  have told := s.published_notified r
  obtain e | e | ⟨q, e⟩ := s.notifyRec_cases u r <;> rw [e]
  · exact told.trans (State.enterService_notified _ u r)
  · exact told.trans (State.enqueue_notified _ u r)
  · exact (told.trans (State.enqueue_notified _ u q)).trans (State.enterService_notified _ u r)

/-! ### The lists of notifications that are lost (R564) -/

theorem length_insertRec (r : Rec) (l : List Rec) : (insertRec r l).length = l.length + 1 := by
  induction l with
  | nil => rfl
  | cons q l ih =>
    unfold insertRec
    split
    · rfl
    · exact congrArg (· + 1) ih

theorem State.enterService_log (s : State) (u : Nat) (r : Rec) :
    (s.enterService u r).log = { s.log with service := Tab.put (fun _ => none) s.log.service u (some r) } := rfl

/-- A notification that the queue has room for loses none. -/
theorem State.enqueue_lostRun (s : State) (u : Nat) (r : Rec) (h : (s.queue u).length < 16) :
    (s.enqueue u r).log.lostRun = s.log.lostRun := by
  unfold State.enqueue
  extract_lets q l
  rw [if_pos (by unfold q; rw [length_insertRec]; omega)]

theorem State.notifyRec_lostRun (s : State) (u : Nat) (r : Rec) (h : (s.queue u).length < 16) :
    (s.notifyRec u r).log.lostRun = s.log.lostRun := by
  have queue : ((s.published r).queue u).length < 16 := by
    unfold State.queue
    rwa [State.published_log]
  obtain e | e | ⟨q, e⟩ := s.notifyRec_cases u r <;> rw [e]
  · rw [State.enterService_log, State.published_log]
  · rw [State.enqueue_lostRun _ _ _ queue, State.published_log]
  · rw [State.enterService_log, State.enqueue_lostRun _ _ _ queue, State.published_log]

/-! ### A record is made (R560, R569, R571) -/

section Create
variable {s : State} (room : s.log.buffer.length < 4096) (src code sev p0 p1 p2 : Nat) (fw : Bool)
include room

theorem State.createRec_room : s.createRec src code sev p0 p1 p2 fw =
    ((s.setBuffer (s.log.buffer ++ [s.formRec src code sev p0 p1 p2 fw])).inc Fd.logEnd 1).notifyRec (unitOfSrc src)
      (s.formRec src code sev p0 p1 p2 fw) := if_pos room

theorem State.createRec_buffer : (s.createRec src code sev p0 p1 p2 fw).log.buffer =
    s.log.buffer ++ [s.formRec src code sev p0 p1 p2 fw] := by
  rw [State.createRec_room room, (State.notifyRec_notified _ _ _).buffer]
  rfl

theorem State.createRec_bucket (k : Nat) : (s.createRec src code sev p0 p1 p2 fw).log.bucket k = s.log.bucket k := by
  rw [State.createRec_room room, (State.notifyRec_notified _ _ _).bucket]
  rfl

theorem State.createRec_lostRun (queue : (s.queue (unitOfSrc src)).length < 16) :
    (s.createRec src code sev p0 p1 p2 fw).log.lostRun = s.log.lostRun := by
  rw [State.createRec_room room]
  exact State.notifyRec_lostRun _ _ _ queue

end Create

end Sys2Proof.Machine
end

section
namespace Sys2Proof.Machine

/-! ### The log (R570, R571, R573) -/

theorem updateWhere_none {α : Type} {p : α → Bool} (f : α → α) {l : List α} (h : ∀ x ∈ l, p x = false) :
    updateWhere p f l = l :=
  (List.map_congr_left fun x hx => if_neg (by rw [h x hx]; exact Bool.false_ne_true)).trans (List.map_id l)

theorem updateWhere_head {α : Type} {p : α → Bool} (f : α → α) {x : α} {l : List α} (hx : p x = true)
    (hl : ∀ y ∈ l, p y = false) : updateWhere p f (x :: l) = f x :: l := by
  show (if p x then f x else x) :: updateWhere p f l = _
  rw [if_pos hx, updateWhere_none f hl]

/-- A record stands in MRAM. -/
def State.logged (s : State) (r : Rec) : State :=
  s.setLog { s.log with log := s.log.log ++ [r], written := s.log.written + 1 }

/-- The record that the last place of the log takes. -/
def State.fullRec (s : State) : Rec := { s.formRec euAux 0x0005 2 uwModule 0 0 false with isOpen := false }

/-- The log is full, and shows it. -/
def State.logFull (s : State) : State :=
  ((s.setLog { s.log with log := s.log.log ++ [s.fullRec], written := 65536 }).inc Fd.logEnd 1).wr Fd.logStatusFull 1

theorem State.writeLog_before (s : State) (r : Rec) (h : s.log.written < 65534) : s.writeLog r = s.logged r :=
  if_neg (Nat.ne_of_lt (Nat.succ_lt_succ h))

theorem State.writeLog_last (s : State) (r : Rec) (h : s.log.written = 65534) :
    s.writeLog r = (s.logged r).logFull.notifyRec euAux (s.logged r).fullRec := if_pos (congrArg (· + 1) h)

theorem State.writeLog_dropped (s : State) (r : Rec) : (s.writeLog r).log.dropped = s.log.dropped := by
  unfold State.writeLog
  extract_lets t f
  split
  · rw [(State.notifyRec_notified _ _ _).dropped]
    rfl
  · rfl

theorem takeWhile_closed {l : List Rec} (h : ∀ r ∈ l.head?, r.isOpen = true) : (l.takeWhile fun r => !r.isOpen) = [] := by
  cases l with
  | nil => rfl
  | cons r l => simp [h r rfl]

section Flush
variable {s : State} (hd : s.log.dropped = 0)
include hd

/-- Records that wait for one before them that is open stay in the buffer. -/
theorem State.flushRecs_waits (h : ∀ r ∈ s.log.buffer.head?, r.isOpen = true) : s.flushRecs = s := by
  unfold State.flushRecs
  rw [takeWhile_closed h]
  exact if_neg fun lost => lost.1 hd

/-- The first record of the buffer, once it is closed, is written, up to the next that is open. -/
theorem State.flushRecs_first {r : Rec} {l : List Rec} (hb : s.log.buffer = r :: l) (hr : r.isOpen = false)
    (hl : ∀ x ∈ l.head?, x.isOpen = true) (hf : s.flag Fd.logStatusFull = false) :
    s.flushRecs = (s.setBuffer l).writeLog r := by
  have one : (s.log.buffer.takeWhile fun r => !r.isOpen).length = 1 := by
    rw [hb, List.takeWhile_cons_of_pos (by rw [hr]; rfl), takeWhile_closed hl]
    rfl
  have writes (f : State → Nat → State) : eachUpTo 1 f s = f s 0 := rfl
  unfold State.flushRecs
  extract_lets n flushed
  have hflushed : flushed = (s.setBuffer l).writeLog r := by
    unfold flushed n
    rw [one, writes, hb, hf]
    rfl
  rw [hflushed]
  exact if_neg fun lost => lost.1 ((State.writeLog_dropped _ r).trans hd)

end Flush

end Sys2Proof.Machine
end

section
namespace Sys2Proof.Machine

/-! ### RECORD_CLOSE (R560, R570) -/

/-- A record is open, of a sequence number, and 1 ms old. -/
def Rec.due (r : Rec) (seq now : Nat) : Bool := r.seq = seq && r.isOpen && !r.young now

theorem Rec.due_eq_true {r : Rec} {seq now : Nat} (hs : r.seq = seq) (ho : r.isOpen = true)
    (hy : ¬now < r.opened + 1000000) : r.due seq now = true := by
  simp [Rec.due, Rec.young, hs, ho, hy]

theorem Rec.due_eq_false {r : Rec} {seq now : Nat} (h : r.seq ≠ seq ∨ now < r.opened + 1000000) : r.due seq now = false := by
  simp only [Rec.due, Rec.young]
  rcases h with h | h <;> simp [h]

theorem recordClose_closes {s t : State} {seq : BitVec 32} {b : List Rec}
    (hb : updateWhere (fun r => r.due seq.toNat s.log.time) (fun r => { r with isOpen := false }) s.log.buffer = b)
    (ht : (s.setBuffer b).flushRecs = t) : exec (.recordClose seq) s = .next t := by
  rw [← ht, ← hb]
  rfl

theorem State.setLog_keeps (s : State) (l : Recorder) : Keeps [.log] s (s.setLog l) := by
  intro p hp
  cases p
  case log => exact absurd (List.mem_singleton.mpr rfl) hp
  all_goals rfl

section Close
variable {s : State} {seq : BitVec 32} (hd : s.log.dropped = 0)
include hd

theorem recordClose_waits (h : ∀ r ∈ s.log.buffer, r.isOpen = true ∧ (r.seq ≠ seq.toNat ∨ s.log.time < r.opened + 1000000)) :
    exec (.recordClose seq) s = .next s :=
  recordClose_closes (updateWhere_none _ fun r hr => Rec.due_eq_false (h r hr).2)
    (State.flushRecs_waits (s := s) hd fun r hr => (h r (List.mem_of_mem_head? hr)).1)

/-- A record that closes behind one that is open waits in the buffer. -/
theorem recordClose_behind {p r : Rec} (hb : s.log.buffer = [p, r]) (hp : p.isOpen = true) (hps : p.seq ≠ seq.toNat)
    (hs : r.seq = seq.toNat) (ho : r.isOpen = true) (hy : ¬s.log.time < r.opened + 1000000) :
    Completes (.recordClose seq) s fun v =>
      v.log.buffer = [p, { r with isOpen := false }] ∧ v.log.log = s.log.log ∧ Keeps [.log] s v := by
  have closed : updateWhere (fun r => r.due seq.toNat s.log.time) (fun r => { r with isOpen := false }) s.log.buffer =
      [p, { r with isOpen := false }] := by
    rw [hb]
    simp [updateWhere, Rec.due_eq_true hs ho hy, Rec.due_eq_false (r := p) (.inl hps)]
  have waits := State.flushRecs_waits (s := s.setBuffer [p, { r with isOpen := false }]) hd fun x hx => by
    obtain rfl : p = x := Option.some.inj hx
    exact hp
  exact ⟨_, recordClose_closes closed waits, rfl, rfl, s.setLog_keeps _⟩

section First
variable {r : Rec} {l : List Rec} (hb : s.log.buffer = r :: l) (hs : r.seq = seq.toNat) (ho : r.isOpen = true)
  (hy : ¬s.log.time < r.opened + 1000000) (hl : ∀ x ∈ l, x.isOpen = true ∧ x.seq ≠ seq.toNat)
  (hf : s.flag Fd.logStatusFull = false)
include hb hs ho hy hl hf

theorem recordClose_first : exec (.recordClose seq) s = .next ((s.setBuffer l).writeLog { r with isOpen := false }) := by
  refine recordClose_closes (b := { r with isOpen := false } :: l) ?_
    (State.flushRecs_first (s := s.setBuffer ({ r with isOpen := false } :: l)) hd rfl rfl
      (fun x hx => (hl x (List.mem_of_mem_head? hx)).1) hf)
  rw [hb]
  exact updateWhere_head _ (Rec.due_eq_true hs ho hy) fun x hx => Rec.due_eq_false (.inl (hl x hx).2)

theorem recordClose_writes (h : s.log.written < 65534) : Completes (.recordClose seq) s fun v =>
    v.log.buffer = l ∧ v.log.log = s.log.log ++ [{ r with isOpen := false }] ∧ v.log.written = s.log.written + 1 ∧
      Keeps [.log] s v := by
  have closes := recordClose_first hd hb hs ho hy hl hf
  rw [State.writeLog_before (s.setBuffer l) _ h] at closes
  exact ⟨_, closes, rfl, rfl, rfl, s.setLog_keeps _⟩

/-- The last place of the log takes the record that says it is full (R573). -/
theorem recordClose_fills (h : s.log.written = 65534) : Completes (.recordClose seq) s fun v =>
    v.log.buffer = l ∧ v.log.written = 65536 ∧ v.rd Fd.logStatusFull = 1 ∧
      ∃ f, v.log.log = s.log.log ++ [{ r with isOpen := false }, f] ∧ f.code = 5 ∧ f.sev = 2 ∧ f.isOpen = false := by
  have closes := recordClose_first hd hb hs ho hy hl hf
  rw [State.writeLog_last (s.setBuffer l) _ h] at closes
  have told := State.notifyRec_notified ((s.setBuffer l).logged { r with isOpen := false }).logFull euAux
    ((s.setBuffer l).logged { r with isOpen := false }).fullRec
  exact ⟨_, closes, told.buffer, told.written, (told.rd (by decide)).trans (State.rd_wr_same _ _ _ (by decide)), _,
    told.records.trans (List.append_assoc _ _ _), rfl, rfl, rfl⟩

end First
end Close

/-! ### BUCKET_REFILL (R565, R566) -/

theorem Recorder.bucket_setBucket (l : Recorder) (k j : Nat) (b : Bucket) :
    (l.setBucket k b).bucket j = if j = k then b else l.bucket j := Tab.get_put _ _ _ _ _

theorem Recorder.bucket_setBucket_same (l : Recorder) (k : Nat) (b : Bucket) : (l.setBucket k b).bucket k = b :=
  Tab.get_put_same _ _ _ _

/-- A bucket of a code gains a token: it is not full, and its rate's share of a second has passed. -/
def Bucket.Gains (b : Bucket) (k now : Nat) : Prop :=
  noBucket k = false ∧ b.tokens < max b.burst 1 ∧ 1000000000 ≤ (now - b.since) * b.rate

theorem Bucket.gains_iff {b : Bucket} {k now : Nat} :
    b.Gains k now ↔ ¬(noBucket k || decide (b.size ≤ b.tokens) || !decide (1000000000 ≤ (now - b.since) * b.rate)) = true := by
  simp only [Bucket.Gains, Bool.or_eq_true, Bool.not_eq_true', decide_eq_false_iff_not, decide_eq_true_eq, not_or,
    Bool.not_eq_true, Nat.not_lt, Nat.not_le, and_assoc]
  rfl

section Refill
variable {s : State} {c : BitVec 16} {k : Nat} {b : Bucket} (hk : bucketKey c.toNat = k) (hb : s.log.bucket k = b)
include hk hb

theorem bucketRefill_waits (h : ¬b.Gains k s.log.time) : exec (.bucketRefill c) s = .next s := by
  subst hk hb
  exact if_pos (Decidable.not_not.mp (mt Bucket.gains_iff.mpr h))

theorem bucketRefill_gains (h : b.Gains k s.log.time) (hw : b.waiting = 0) : Completes (.bucketRefill c) s fun v =>
    v.log.bucket k = { b with tokens := b.tokens + 1, since := b.since + 1000000000 / b.rate } ∧
    (∀ j, j ≠ k → v.log.bucket j = s.log.bucket j) ∧ v.log.buffer = s.log.buffer ∧ Keeps [.log] s v := by
  subst hk hb
  refine ⟨_, (if_neg (Bucket.gains_iff.mp h)).trans (if_neg (Decidable.not_not.mpr hw)), Recorder.bucket_setBucket_same _ _ _,
    fun j hj => ?_, rfl, s.setLog_keeps _⟩
  exact (Recorder.bucket_setBucket _ _ _ _).trans (if_neg hj)

/-- The token is spent at once on a `SUPPRESSED` record (R566). -/
theorem bucketRefill_reports (h : b.Gains k s.log.time) (hw : b.waiting ≠ 0) (room : s.log.buffer.length < 4096) :
    Completes (.bucketRefill c) s fun v =>
      v.log.bucket k = { b with waiting := 0, since := b.since + 1000000000 / b.rate } ∧
      ∃ r, v.log.buffer = s.log.buffer ++ [r] ∧ r.seq = s.rd Fd.logEnd ∧ r.code = 2 ∧ r.src = b.src ∧ r.sev = b.sev ∧ r.p0 = k ∧
        r.p1 = b.waiting ∧ r.p2 = b.first := by
  subst hk hb
  let b := s.log.bucket (bucketKey c.toNat)
  let t := s.setLog (s.log.setBucket (bucketKey c.toNat) { b with waiting := 0, since := b.since + 1000000000 / b.rate })
  have reports : exec (.bucketRefill c) s = .next (t.createRec b.src 0x0002 b.sev (bucketKey c.toNat) b.waiting b.first) :=
    (if_neg (Bucket.gains_iff.mp h)).trans (if_pos hw)
  exact ⟨_, reports, (State.createRec_bucket (s := t) room ..).trans (Recorder.bucket_setBucket_same _ _ _), _,
    State.createRec_buffer (s := t) room .., rfl, rfl, rfl, rfl, rfl, rfl, rfl⟩

end Refill

end Sys2Proof.Machine
end

section
namespace Sys2Proof.Machine

/-! ### What a record in service shows (R561) -/

theorem ofBytes_lt (l : List Byte) : ofBytes l < 2 ^ (8 * l.length) := by
  induction l with
  | nil => exact Nat.one_pos
  | cons b l ih =>
    have := b.isLt
    rw [List.length_cons, Nat.mul_succ, Nat.pow_add]
    unfold ofBytes
    omega

/-- The four registers of an error unit show the bytes of its record. -/
theorem rd_errSvc_shown (s : State) (u : Nat) (b : List Byte) (n : Nat) : ∀ i < n,
    (eachUpTo n (fun s i => s.wr (Fd.errSvc u i) (ofBytes ((b.drop (8 * i)).take 8))) s).rd (Fd.errSvc u i) =
      ofBytes ((b.drop (8 * i)).take 8) := by
  induction n with
  | zero => exact fun i hi => absurd hi (Nat.not_lt_zero i)
  | succ n ih =>
    intro i hi
    rw [eachUpTo_succ]
    by_cases h : i = n
    · subst h
      rw [State.rd_wr_same _ _ _ (by decide : 63 < 64)]
      refine Nat.mod_eq_of_lt (Nat.lt_of_lt_of_le (ofBytes_lt _) (Nat.pow_le_pow_right Nat.two_pos ?_))
      have := List.length_take_le 8 (b.drop (8 * i))
      simp only [Fd.errSvc]
      omega
    · rw [State.rd_wr_ne _ _ _ _ (.inl (by simp only [Fd.errSvc]; omega))]
      exact ih i (by omega)

theorem State.rd_irq (s : State) (n : Nat) (f : Fld) : (s.irq n).rd f = s.rd f := rfl

theorem State.mem_irqs_irq (s : State) (n : Nat) : n ∈ (s.irq n).irqs := (Nats.mem_ins s.irqs n n).mpr (.inl rfl)

theorem State.rd_inService_wr_svcSev (s : State) (u v : Nat) :
    (s.wr (Fd.errStatusSvcSev u) v).rd (Fd.errStatusInService u) = s.rd (Fd.errStatusInService u) :=
  s.rd_wr_ne _ _ _ (.inr ⟨(by decide : 63 < 64), .inl (by decide : 62 < 63)⟩)

/-- The registers of an error unit whose service begins. -/
theorem State.enterService_shows (s : State) (u : Nat) (r : Rec) (h : r.sev ≤ 5) :
    (s.enterService u r).rd (Fd.errStatusInService u) = 1 ∧ (s.enterService u r).rd (Fd.errStatusSvcSev u) = r.sev ∧
    u + 1 ∈ (s.enterService u r).irqs ∧
    ∀ i < 4, (s.enterService u r).rd (Fd.errSvc u i) = ofBytes ((r.bytes.drop (8 * i)).take 8) := by
  unfold State.enterService
  extract_lets +onlyGivenNames b log entered
  extract_lets shown
  have apart (i : Nat) : 0x30000003020 + 0x1000 * u + 0x8 * i ≠ 0x30000003010 + 0x1000 * u := by omega
  refine ⟨?_, ?_, State.mem_irqs_irq _ _, fun i hi => ?_⟩
  · rw [State.rd_irq, State.rd_inService_wr_svcSev, State.rd_wr_same _ _ _ (by decide : 63 < 64)]
    rfl
  · rw [State.rd_irq, State.rd_wr_same _ _ _ (by decide : 62 < 64)]
    exact Nat.mod_eq_of_lt (by simp only [Fd.errStatusSvcSev]; omega)
  · rw [State.rd_irq, State.rd_wr_ne _ (Fd.errStatusSvcSev u) _ _ (.inl (apart i)),
      State.rd_wr_ne _ (Fd.errStatusInService u) _ _ (.inl (apart i))]
    exact rd_errSvc_shown entered u b 4 i hi

/-! ### ERR_ACK (R563, R564) -/

/-- How many notifications of an error unit were lost since it reported, and their greatest severity. -/
def State.lost (s : State) (u : Nat) : Nat := Tab.get (fun _ => 0) s.log.lostRun u
def State.lostSeverity (s : State) (u : Nat) : Nat := Tab.get (fun _ => 0) s.log.lostSev u

/-- The service of an error unit ends and no notification waits. -/
def State.serviceEmpty (s : State) (u : Nat) : State :=
  ((s.setLog { s.log with service := Tab.put (fun _ => none) s.log.service u none }).wr (Fd.errStatusInService u) 0).wr
    (Fd.errStatusSvcSev u) 0

/-- The service of an error unit ends and the first notification that waits enters it. -/
def State.serviceNext (s : State) (u : Nat) (r : Rec) (l : List Rec) : State :=
  (s.setLog { s.log with queues := Tab.put (fun _ => []) s.log.queues u l }).enterService u r

theorem State.serviceEmpty_log (s : State) (u : Nat) :
    (s.serviceEmpty u).log = { s.log with service := Tab.put (fun _ => none) s.log.service u none } := rfl

theorem State.serviceNext_log (s : State) (u : Nat) (r : Rec) (l : List Rec) :
    (s.serviceNext u r l).log = { s.log with
      queues := Tab.put (fun _ => []) s.log.queues u l, service := Tab.put (fun _ => none) s.log.service u (some r) } := by
  unfold State.serviceNext
  rw [State.enterService_log]
  rfl

/-- A report of the notifications that an error unit lost takes their count. -/
def State.lostTaken (s : State) (u : Nat) : State := s.setLog { s.log with
  lostRun := Tab.put (fun _ => 0) s.log.lostRun u 0, lostSev := Tab.put (fun _ => 0) s.log.lostSev u 0 }

/-- An error unit reports the notifications that it lost, where its queue and the buffer have room. -/
def State.lostReported (s : State) (u : Nat) : State :=
  if s.lost u ≠ 0 ∧ (s.queue u).length < 16 ∧ (s.log.buffer.length < 4096 ∨ s.flag Fd.logStatusFull) then
    (s.lostTaken u).createRec u 0x0003 (s.lostSeverity u) u (s.lost u) 0
  else s

section Service
variable {s : State} {u : Nat}

theorem State.endService_empty (hq : s.queue u = []) : s.endService u = (s.serviceEmpty u).lostReported u := by
  unfold State.endService
  rw [hq]
  rfl

theorem State.endService_next {r : Rec} {l : List Rec} (hq : s.queue u = r :: l) :
    s.endService u = (s.serviceNext u r l).lostReported u := by
  unfold State.endService
  rw [hq]
  rfl

theorem State.serviceEmpty_service : (s.serviceEmpty u).service u = none := by
  unfold State.service
  rw [State.serviceEmpty_log]
  exact Tab.get_put_same (fun _ => none) s.log.service u none

section Next
variable (s u) (r : Rec) (l : List Rec)

theorem State.serviceNext_service : (s.serviceNext u r l).service u = some r := by
  unfold State.service
  rw [State.serviceNext_log]
  exact Tab.get_put_same (fun _ => none) s.log.service u (some r)

theorem State.serviceNext_queue : (s.serviceNext u r l).queue u = l := by
  unfold State.queue
  rw [State.serviceNext_log]
  exact Tab.get_put_same _ _ u _

theorem State.serviceNext_lost : (s.serviceNext u r l).lost u = s.lost u := by
  unfold State.lost
  rw [State.serviceNext_log]

theorem State.serviceNext_lostSeverity : (s.serviceNext u r l).lostSeverity u = s.lostSeverity u := by
  unfold State.lostSeverity
  rw [State.serviceNext_log]

theorem State.serviceNext_buffer : (s.serviceNext u r l).log.buffer = s.log.buffer := by
  rw [State.serviceNext_log]

end Next

theorem State.lostReported_none (h : s.lost u = 0) : s.lostReported u = s := if_neg fun k => k.1 h

theorem State.lostReported_record (h : s.lost u ≠ 0) (hu : u < 4) (queue : (s.queue u).length < 16)
    (room : s.log.buffer.length < 4096) : let v := s.lostReported u
    v.lost u = 0 ∧ ∃ x, v.log.buffer = s.log.buffer ++ [x] ∧ x.code = 3 ∧ x.unit = u ∧ x.p0 = u ∧ x.p1 = s.lost u ∧
      x.sev = s.lostSeverity u := by
  have unit : unitOfSrc u = u := if_pos (Nat.le_of_lt_succ hu)
  intro v
  have reports : v = (s.lostTaken u).createRec u 0x0003 (s.lostSeverity u) u (s.lost u) 0 := if_pos ⟨h, queue, .inl room⟩
  rw [reports]
  refine ⟨?_, _, State.createRec_buffer (s := s.lostTaken u) room .., rfl, unit, rfl, rfl, rfl⟩
  unfold State.lost
  rw [State.createRec_lostRun (s := s.lostTaken u) room _ _ _ _ _ _ _ (by rw [unit]; exact queue)]
  exact Tab.get_put_same _ s.log.lostRun u 0

end Service

section Ack
variable {s : State} {u : Fin 4} {seq : BitVec 32} (hd : s.down = none)
include hd

theorem errAck_misses (h : ∀ r, s.service u = some r → r.seq ≠ seq.toNat) : Completes (.errAck u seq) s fun v =>
    v.rd (Fd.errStatusAckMiss u) = 1 ∧
    v.reg (Fd.errStatusAckMiss u).addr = setBits (s.reg (Fd.errStatusAckMiss u).addr) 47 47 1 ∧
    RegsBut [(Fd.errStatusAckMiss u).addr] s v ∧ Keeps [.regs] s v := by
  have misses : exec (.errAck u seq) s = .next (s.wr (Fd.errStatusAckMiss u) 1) := by
    show execErrAck u seq s = _
    unfold execErrAck
    rw [hd]
    cases hr : s.service u with
    | none => rfl
    | some r => exact if_neg (h r hr)
  exact ⟨_, misses, State.rd_wr_same _ _ _ (by decide : 47 < 64), s.reg_wr_same _ _, s.wr_regsBut _ _, s.setReg_keeps _ _⟩

section Served
variable {r : Rec} (hr : s.service u = some r) (hs : r.seq = seq.toNat)
include hr hs

theorem errAck_ends : exec (.errAck u seq) s = .next (s.endService u) := by
  show execErrAck u seq s = _
  unfold execErrAck
  rw [hd, hr]
  exact if_pos hs

theorem errAck_empties (hq : s.queue u = []) (hk : s.lost u = 0) : Completes (.errAck u seq) s fun v =>
    v.service u = none ∧ v.rd (Fd.errStatusInService u) = 0 ∧ v.rd (Fd.errStatusSvcSev u) = 0 ∧
    v.log.buffer = s.log.buffer ∧ RegsBut [(Fd.errStatusAckMiss u).addr] s v ∧ Keeps [.regs, .log] s v := by
  have ends := errAck_ends hd hr hs
  rw [State.endService_empty hq, State.lostReported_none (s := s.serviceEmpty u) hk] at ends
  let t := s.setLog { s.log with service := Tab.put (fun _ => none) s.log.service u none }
  refine ⟨_, ends, State.serviceEmpty_service, ?_, State.rd_wr_same _ _ _ (by decide : 62 < 64), rfl, ?_, ?_⟩
  · exact (State.rd_inService_wr_svcSev _ u 0).trans
      (State.rd_wr_same t (Fd.errStatusInService u) 0 (by decide : 63 < 64))
  · exact (t.wr_regsBut (Fd.errStatusInService u) 0).trans (State.wr_regsBut _ (Fd.errStatusSvcSev u) 0)
  · exact ((s.setLog_keeps _).mono (by decide)).trans
      (((t.setReg_keeps _ _).trans (State.setReg_keeps _ _ _)).mono (by decide))

theorem errAck_serves {n : Rec} {l : List Rec} (hq : s.queue u = n :: l) (hn : n.sev ≤ 5) (hk : s.lost u = 0) :
    Completes (.errAck u seq) s fun v => v.service u = some n ∧ v.queue u = l ∧
      v.rd (Fd.errStatusInService u) = 1 ∧ v.rd (Fd.errStatusSvcSev u) = n.sev ∧ u.val + 1 ∈ v.irqs ∧
      (∀ i, i < 4 → v.rd (Fd.errSvc u i) = ofBytes ((n.bytes.drop (8 * i)).take 8)) ∧ v.log.buffer = s.log.buffer := by
  have ends := errAck_ends hd hr hs
  rw [State.endService_next hq, State.lostReported_none ((s.serviceNext_lost u n l).trans hk)] at ends
  obtain ⟨inService, sev, irq, shown⟩ :=
    State.enterService_shows (s.setLog { s.log with queues := Tab.put (fun _ => []) s.log.queues u l }) u n hn
  exact ⟨_, ends, s.serviceNext_service u n l, s.serviceNext_queue u n l, inService, sev, irq, shown,
    s.serviceNext_buffer u n l⟩

theorem errAck_reports (hk : s.lost u ≠ 0) (hq : (s.queue u).length ≤ 16) (room : s.log.buffer.length < 4096) :
    Completes (.errAck u seq) s fun v => v.lost u = 0 ∧ ∃ x, v.log.buffer = s.log.buffer ++ [x] ∧ x.code = 3 ∧
      x.unit = u.val ∧ x.p0 = u.val ∧ x.p1 = s.lost u ∧ x.sev = s.lostSeverity u := by
  have ends := errAck_ends hd hr hs
  cases waiting : s.queue u with
  | nil =>
    rw [State.endService_empty waiting] at ends
    refine ⟨_, ends, State.lostReported_record (s := s.serviceEmpty u) hk u.isLt ?_ room⟩
    show (s.queue u).length < 16
    rw [waiting]
    decide
  | cons n l =>
    rw [State.endService_next waiting] at ends
    rw [waiting] at hq
    have reports := State.lostReported_record (s := s.serviceNext u n l) (u := u)
    rw [s.serviceNext_lost, s.serviceNext_lostSeverity, s.serviceNext_queue, s.serviceNext_buffer] at reports
    exact ⟨_, ends, reports hk u.isLt hq room⟩

end Served
end Ack

end Sys2Proof.Machine
end

section
namespace Sys2Proof.Machine

/-! ### Events that firmware writes (R560, R565, R577) -/

theorem Rec.matches_iff {r : Rec} {now u code p0 : Nat} : r.matches now u code p0 = true ↔
    r.isOpen = true ∧ now < r.opened + 1000000 ∧ r.unit = u ∧ r.code = code ∧ r.p0 = p0 := by
  simp only [Rec.matches, Rec.young, Bool.and_eq_true, decide_eq_true_eq, and_assoc]

/-- The codes that firmware may write have a bucket: none stands in Table 19.4. -/
theorem noBucket_firmware {code : Nat} (h : 0x8000 ≤ code) : noBucket code = false := by
  have listed : ∀ e ∈ sevTable, e.1 < 0x8000 := by decide
  have unlisted : sevOf? code = none := by
    unfold sevOf?
    rw [List.find?_eq_none.mpr fun e he => ?_]
    · rfl
    · have := listed e he
      simp only [decide_eq_true_eq]
      omega
  unfold noBucket sevOf
  rw [unlisted]
  simp only [Option.getD_none, Bool.or_eq_false_iff, Bool.and_eq_false_iff, decide_eq_false_iff_not]
  omega

theorem bucketKey_firmware {code : Nat} (h : 0x8000 ≤ code) : bucketKey code = 0x8000 := if_pos h

section Event
variable {s : State} {src code p0 : Nat} (sev p1 p2 : Nat) (fw : Bool) (hs : s.log.stopped = false)
include hs

theorem State.recordSev_merges (h : (s.log.buffer.any fun r => r.matches s.log.time (unitOfSrc src) code p0) = true) :
    s.recordSev src code sev p0 p1 p2 fw = s.setBuffer (updateWhere (fun r => r.matches s.log.time (unitOfSrc src) code p0)
      (fun r => { r with p3 := satAdd 32 r.p3 1, coalesced := true }) s.log.buffer) :=
  (if_neg (by rw [hs]; exact Bool.false_ne_true)).trans (if_pos h)

omit hs in
theorem State.suppresses_merged (h : (s.log.buffer.any fun r => r.matches s.log.time (unitOfSrc src) code p0) = true) :
    s.suppresses src code p0 = false := by
  unfold State.suppresses
  rw [h]
  simp

section Unmerged
variable (h : (s.log.buffer.any fun r => r.matches s.log.time (unitOfSrc src) code p0) = false) (hb : noBucket code = false)
  {b : Bucket} (hk : s.log.bucket (bucketKey code) = b)
include h hb hk

theorem State.suppresses_iff : s.suppresses src code p0 = true ↔ b.rate ≠ 0 ∧ b.tokens = 0 := by
  unfold State.suppresses
  rw [hs, h, hb, hk]
  simp

/-- An event that no record takes in makes one where its bucket is off or has a token; else the bucket counts it. -/
theorem State.recordSev_unmerged : ∃ x : Bucket, x.suppressed = satAdd 32 b.suppressed 1 ∧
    s.recordSev src code sev p0 p1 p2 fw =
    if b.rate = 0 then s.createRec src code sev p0 p1 p2 fw
    else if b.tokens = 0 then s.setLog (s.log.setBucket (bucketKey code) x)
    else (s.setLog (s.log.setBucket (bucketKey code) (b.take s.log.time))).createRec src code sev p0 p1 p2 fw := by
  subst hk
  refine ⟨_, ?_, (if_neg (by rw [hs]; exact Bool.false_ne_true)).trans ((if_neg (by rw [h]; exact Bool.false_ne_true)).trans
    (if_neg (by rw [hb]; exact Bool.false_ne_true)))⟩
  split <;> rfl

theorem State.recordSev_creates (ht : b.rate = 0 ∨ b.tokens ≠ 0) : s.recordSev src code sev p0 p1 p2 fw =
    (s.setLog (if b.rate = 0 then s.log else s.log.setBucket (bucketKey code) (b.take s.log.time))).createRec
      src code sev p0 p1 p2 fw := by
  obtain ⟨x, -, e⟩ := State.recordSev_unmerged sev p1 p2 fw hs h hb hk
  rw [e]
  by_cases hr : b.rate = 0
  · rw [if_pos hr, if_pos hr]
    rfl
  · rw [if_neg hr, if_neg (ht.resolve_left hr), if_neg hr]

theorem State.recordSev_suppressed (hr : b.rate ≠ 0) (ht : b.tokens = 0) : ∃ x : Bucket,
    x.suppressed = satAdd 32 b.suppressed 1 ∧
    s.recordSev src code sev p0 p1 p2 fw = s.setLog (s.log.setBucket (bucketKey code) x) := by
  obtain ⟨x, hx, e⟩ := State.recordSev_unmerged sev p1 p2 fw hs h hb hk
  rw [if_neg hr, if_pos ht] at e
  exact ⟨x, hx, e⟩

end Unmerged
end Event

/-! ### LOG_FW_0 (R577, Table 19.8) -/

/-- The fields of `LOG_FW_0` that firmware writes. -/
def State.fwFields (s : State) (w : BitVec 64) : State :=
  ((s.wr Fd.logFw0Sev (bits w 51 48)).wr Fd.logFw0Code (bits w 47 32)).wr Fd.logFw0P0 (bits w 31 0)

theorem bits_mod {n : Nat} (x : BitVec n) (hi lo : Nat) : bits x hi lo % 2 ^ (hi + 1 - lo) = bits x hi lo :=
  Nat.mod_eq_of_lt (BitVec.isLt _)

section FwWrite
variable (s : State) (w : BitVec 64)

theorem State.fwFields_rd : (s.fwFields w).rd Fd.logFw0Code = bits w 47 32 ∧ (s.fwFields w).rd Fd.logFw0Sev = bits w 51 48 ∧
    (s.fwFields w).rd Fd.logFw0P0 = bits w 31 0 ∧ (s.fwFields w).rd Fd.logFw0Result = s.rd Fd.logFw0Result := by
  have apart (t : State) (f g : Fld) (v : Nat) (hg : g.hi < 64) (h : f.hi < g.lo ∨ g.hi < f.lo) : (t.wr f v).rd g = t.rd g :=
    t.rd_wr_ne f g v (.inr ⟨hg, h⟩)
  unfold State.fwFields
  refine ⟨?_, ?_, ?_, ?_⟩
  · rw [apart _ _ Fd.logFw0Code _ (by decide) (by decide), State.rd_wr_same _ _ _ (by decide)]
    exact bits_mod w 47 32
  · rw [apart _ _ Fd.logFw0Sev _ (by decide) (by decide), apart _ _ Fd.logFw0Sev _ (by decide) (by decide),
      State.rd_wr_same _ _ _ (by decide)]
    exact bits_mod w 51 48
  · rw [State.rd_wr_same _ _ _ (by decide)]
    exact bits_mod w 31 0
  · rw [apart _ _ Fd.logFw0Result _ (by decide) (by decide), apart _ _ Fd.logFw0Result _ (by decide) (by decide),
      apart _ _ Fd.logFw0Result _ (by decide) (by decide)]

theorem State.fwFields_regsBut : RegsBut [Fd.logFw0P0.addr] s (s.fwFields w) :=
  ((s.wr_regsBut Fd.logFw0Sev _).trans (State.wr_regsBut _ Fd.logFw0Code _)).trans (State.wr_regsBut _ Fd.logFw0P0 _)

theorem State.fwFields_keeps : Keeps [.regs] s (s.fwFields w) :=
  ((State.setReg_keeps s _ _).trans (State.setReg_keeps _ _ _)).trans (State.setReg_keeps _ _ _)

/-- The fields are written, and the bucket of firmware's codes has given a token where it is on. -/
def State.fwTaken (s : State) (w : BitVec 64) : State := (s.fwFields w).setLog (
  if (s.log.bucket 0x8000).rate = 0 then s.log else s.log.setBucket 0x8000 ((s.log.bucket 0x8000).take s.log.time))

theorem State.fwTaken_buffer : (s.fwTaken w).log.buffer = s.log.buffer :=
  ite_ind (P := fun l : Recorder => l.buffer = s.log.buffer) rfl rfl

theorem State.fwTaken_tokens : ((s.fwTaken w).log.bucket 0x8000).tokens =
    if (s.log.bucket 0x8000).rate = 0 then (s.log.bucket 0x8000).tokens else (s.log.bucket 0x8000).tokens - 1 := by
  unfold State.fwTaken
  split
  · rfl
  · exact congrArg Bucket.tokens (Recorder.bucket_setBucket_same _ _ _)

theorem State.fwTaken_logEnd : (s.fwTaken w).rd Fd.logEnd = s.rd Fd.logEnd :=
  State.rd_of_reg (s.fwFields_regsBut w _ (by decide))

variable {s} in
theorem logFwWrite_down (hd : s.down ≠ none) : exec (.logFwWrite w) s = .next s :=
  if_pos (Option.isSome_iff_ne_none.mpr hd)

variable {s w} (hd : s.down = none)
include hd

theorem logFwWrite_sets (hg : bit w 63 = false) : Completes (.logFwWrite w) s fun v => v.rd Fd.logFw0Code = bits w 47 32 ∧
    v.rd Fd.logFw0Sev = bits w 51 48 ∧ v.rd Fd.logFw0P0 = bits w 31 0 ∧ v.rd Fd.logFw0Result = s.rd Fd.logFw0Result ∧
    RegsBut [Fd.logFw0P0.addr] s v ∧ Keeps [.regs] s v := by
  have sets : exec (.logFwWrite w) s = .next (s.fwFields w) :=
    (if_neg (by rw [hd]; exact Bool.false_ne_true)).trans (if_pos hg)
  obtain ⟨code, sev, p0, result⟩ := s.fwFields_rd w
  exact ⟨_, sets, code, sev, p0, result, s.fwFields_regsBut w, s.fwFields_keeps w⟩

variable (hg : bit w 63 = true)
include hg

theorem logFwWrite_badCode (h : bits w 47 32 < 0x8000 ∨ 5 < bits w 51 48) : Completes (.logFwWrite w) s fun v =>
    v.rd Fd.logFw0Result = 1 ∧ RegsBut [Fd.logFw0P0.addr] s v ∧ Keeps [.regs] s v := by
  have refuses : exec (.logFwWrite w) s = .next (s.wr Fd.logFw0Result 1) :=
    (if_neg (by rw [hd]; exact Bool.false_ne_true)).trans ((if_neg (by rw [hg]; exact nofun)).trans (if_pos h))
  exact ⟨_, refuses, State.rd_wr_same _ _ _ (by decide), s.wr_regsBut Fd.logFw0Result 1, s.setReg_keeps _ _⟩

section Go
variable (hc : 0x8000 ≤ bits w 47 32) (hv : bits w 51 48 ≤ 5)
include hc hv

theorem logFwWrite_records : exec (.logFwWrite w) s = .next (((s.fwFields w).recordSev srcFirmware (bits w 47 32)
    (bits w 51 48) (bits w 31 0) (s.rd Fd.logFw1P1) (s.rd Fd.logFw1P2) true).wr Fd.logFw0Result
      (2 * b2n ((s.fwFields w).suppresses srcFirmware (bits w 47 32) (bits w 31 0)))) :=
  (if_neg (by rw [hd]; exact Bool.false_ne_true)).trans ((if_neg (by rw [hg]; exact nofun)).trans (if_neg (by omega)))

variable (hs : s.log.stopped = false)
include hs

theorem logFwWrite_merges {r : Rec} {l : List Rec} (hb : s.log.buffer = r :: l)
    (hr : r.matches s.log.time euAux (bits w 47 32) (bits w 31 0) = true)
    (hl : ∀ x ∈ l, x.matches s.log.time euAux (bits w 47 32) (bits w 31 0) = false) : Completes (.logFwWrite w) s fun v =>
      v.rd Fd.logFw0Result = 0 ∧ v.log.buffer = { r with p3 := satAdd 32 r.p3 1, coalesced := true } :: l := by
  have any : (s.log.buffer.any fun r => r.matches s.log.time euAux (bits w 47 32) (bits w 31 0)) = true := by
    rw [hb, List.any_cons, hr, Bool.true_or]
  refine ⟨_, logFwWrite_records hd hg hc hv, (State.rd_wr_same _ _ _ (by decide)).trans ?_, ?_⟩
  · rw [State.suppresses_merged (s := s.fwFields w) (src := srcFirmware) any]
    rfl
  · rw [State.wr_log, State.recordSev_merges (s := s.fwFields w) (src := srcFirmware) _ _ _ _ hs any]
    exact (congrArg (updateWhere _ _) hb).trans (updateWhere_head _ hr hl)

section Unmerged
variable (hm : (s.log.buffer.any fun r => r.matches s.log.time euAux (bits w 47 32) (bits w 31 0)) = false)
include hm

omit hd hg hv in
theorem fwFields_suppresses : (s.fwFields w).suppresses srcFirmware (bits w 47 32) (bits w 31 0) = true ↔
    (s.log.bucket 0x8000).rate ≠ 0 ∧ (s.log.bucket 0x8000).tokens = 0 :=
  State.suppresses_iff (s := s.fwFields w) (src := srcFirmware) hs hm (noBucket_firmware hc) (by rw [bucketKey_firmware hc]; rfl)

theorem logFwWrite_creates (ht : (s.log.bucket 0x8000).rate = 0 ∨ (s.log.bucket 0x8000).tokens ≠ 0)
    (room : s.log.buffer.length < 4096) : Completes (.logFwWrite w) s fun v => v.rd Fd.logFw0Result = 0 ∧
      (v.log.bucket 0x8000).tokens = (if (s.log.bucket 0x8000).rate = 0 then (s.log.bucket 0x8000).tokens
        else (s.log.bucket 0x8000).tokens - 1) ∧
      ∃ r, v.log.buffer = s.log.buffer ++ [r] ∧ r.seq = s.rd Fd.logEnd ∧ r.code = bits w 47 32 ∧ r.src = 5 ∧ r.unit = euAux ∧
        r.sev = bits w 51 48 ∧ r.firmware = true ∧ r.isOpen = true ∧ r.p0 = bits w 31 0 ∧ r.p1 = s.rd Fd.logFw1P1 ∧
        r.p2 = s.rd Fd.logFw1P2 ∧ r.p3 = 1 := by
  have passes : (s.fwFields w).suppresses srcFirmware (bits w 47 32) (bits w 31 0) = false := by
    rw [Bool.eq_false_iff, Ne, fwFields_suppresses hc hs hm]
    exact fun ⟨hr, h0⟩ => ht.elim hr (· h0)
  have creates : (s.fwFields w).recordSev srcFirmware (bits w 47 32) (bits w 51 48) (bits w 31 0) (s.rd Fd.logFw1P1)
      (s.rd Fd.logFw1P2) true = (s.fwTaken w).createRec srcFirmware (bits w 47 32) (bits w 51 48) (bits w 31 0)
        (s.rd Fd.logFw1P1) (s.rd Fd.logFw1P2) true := by
    have made := State.recordSev_creates (s := s.fwFields w) (src := srcFirmware) (bits w 51 48) (s.rd Fd.logFw1P1)
      (s.rd Fd.logFw1P2) true hs hm (noBucket_firmware hc) (b := s.log.bucket 0x8000) (by rw [bucketKey_firmware hc]; rfl) ht
    rw [bucketKey_firmware hc] at made
    exact made
  have records := logFwWrite_records hd hg hc hv
  rw [creates, passes] at records
  have taken : (s.fwTaken w).log.buffer.length < 4096 := by rwa [State.fwTaken_buffer]
  exact ⟨_, records, State.rd_wr_same _ _ _ (by decide),
    (congrArg Bucket.tokens (State.createRec_bucket taken ..)).trans (s.fwTaken_tokens w), _,
    (State.createRec_buffer taken ..).trans (congrArg (· ++ _) (s.fwTaken_buffer w)), s.fwTaken_logEnd w,
    rfl, rfl, rfl, rfl, rfl, rfl, rfl, rfl, rfl, rfl⟩

theorem logFwWrite_suppressed (hr : (s.log.bucket 0x8000).rate ≠ 0) (ht : (s.log.bucket 0x8000).tokens = 0)
    (hn : (s.log.bucket 0x8000).suppressed < 2 ^ 32 - 1) : Completes (.logFwWrite w) s fun v => v.rd Fd.logFw0Result = 2 ∧
      (v.log.bucket 0x8000).suppressed = (s.log.bucket 0x8000).suppressed + 1 ∧ v.log.buffer = s.log.buffer := by
  have empty := (fwFields_suppresses hc hs hm).mpr ⟨hr, ht⟩
  obtain ⟨x, hx, counts⟩ := State.recordSev_suppressed (s := s.fwFields w) (src := srcFirmware) (bits w 51 48)
    (s.rd Fd.logFw1P1) (s.rd Fd.logFw1P2) true hs hm (noBucket_firmware hc) (b := s.log.bucket 0x8000)
    (by rw [bucketKey_firmware hc]; rfl) hr ht
  have records := logFwWrite_records hd hg hc hv
  rw [counts, empty, bucketKey_firmware hc] at records
  refine ⟨_, records, State.rd_wr_same _ _ _ (by decide), ?_, rfl⟩
  show ((s.log.setBucket 0x8000 x).bucket 0x8000).suppressed = _
  rw [Recorder.bucket_setBucket_same, hx]
  exact if_pos (by omega)

end Unmerged
end Go

end FwWrite

end Sys2Proof.Machine
end

section
namespace Sys2Proof.Machine

/-! ### The mailboxes' registers stand above the management complex's (Table 20.6) -/

section Below
variable {a : Nat} (h : a < 0x30000009000)
include h

theorem ne_of_below {b : Nat} (hb : 0x30000009000 ≤ b) : a ≠ b := Nat.ne_of_lt (Nat.lt_of_lt_of_le h hb)

theorem State.postEnds_reg_below (s : State) (m res : Nat) : (s.postEnds m res).reg a = s.reg a := by
  have shown : ∀ x, ((s.wr (mfResult m) res).setMbox m x).reg a = s.reg a := fun _ =>
    s.reg_wr_ne _ _ a (ne_of_below h (le_mbox 0 _ _))
  unfold State.postEnds
  extract_lets x t
  split
  · rename_i k j tag _
    exact ((State.siteDone_on (Covers.refl _) t k j tag stOk _ (Onward.refl _)).reg rfl a).trans (shown _)
  · exact shown _

theorem State.setMboxRegs_reg_below (s : State) (m : Nat) (ws : List Word) : (s.setMboxRegs m ws).reg a = s.reg a := by
  refine State.reg_foldl s fun t p _ => ?_
  rw [State.reg_setReg, if_neg (ne_of_below h ?_)]
  simp only [Fd.mboxData]
  omega

theorem State.mboxClear_reg_below (s : State) (m : Nat) : (s.mboxClear m).reg a = s.reg a := by
  unfold State.mboxClear
  extract_lets x live t
  rw [State.reg_wr_ne _ _ _ _ (ne_of_below h (le_mbox 0 _ _)), State.setMboxRegs_reg_below h]
  exact ite_ind (P := fun t : State => t.reg a = s.reg a) (s.postEnds_reg_below h m _) rfl

theorem State.mboxRestart_reg_below (s : State) : s.mboxRestart.reg a = s.reg a :=
  State.reg_foldl s fun t m _ => by
    split
    · exact t.mboxClear_reg_below h m
    · split <;> rfl

end Below

/-! ### A management restart (R450) -/

/-- The recording of an event leaves the module's mode. -/
theorem State.record_fallow (s : State) (src code p0 p1 p2 : Nat) : (s.record src code p0 p1 p2).fallow = s.fallow := by
  unfold State.fallow State.flag
  rw [State.record_rd _ _ _ _ _ _ _ (.inl (by decide))]

theorem State.loadImage_fallow (s : State) (kind : Nat) : (s.loadImage kind).2.fallow = s.fallow := by
  refine foldl_ind (P := fun r : Bool × State => r.2.fallow = s.fallow) (fun r slot hr => ?_) _ _ rfl
  dsimp only
  split
  · exact hr
  · split
    · exact hr
    · exact (State.record_fallow ..).trans hr

theorem State.restarting_fallow (s : State) (cause : Nat) : (s.restarting cause).fallow = s.fallow := by
  have mbox (t : State) : t.mboxRestart.fallow = t.fallow := by
    unfold State.fallow State.flag
    rw [State.rd_of_reg (State.mboxRestart_reg_below (by decide) t)]
  unfold State.restarting
  rw [State.loadImage_fallow, mbox]
  exact State.record_fallow ..

/-- An image that fails its checks in both slots is not loaded. -/
theorem State.loadImage_fails (s : State) (kind : Nat) (h : ∀ slot, s.imageFault (s.image kind slot) ≠ 0) :
    (s.loadImage kind).1 = false := by
  refine (foldl_ind (P := fun r : Bool × State => r.1 = false ∧ r.2.mram = s.mram ∧ r.2.flash = s.flash)
    (fun r slot hr => ?_) _ _ ⟨rfl, rfl, rfl⟩).1
  obtain ⟨loaded, mram, flash⟩ := hr
  have fails : r.2.imageFault (r.2.image kind slot) ≠ 0 := by
    rw [State.imageFault_congr mram, State.image_congr flash]
    exact h slot
  have noted (src code p0 p1 p2 : Nat) := r.2.record_within src code p0 p1 p2
  dsimp only
  rw [if_neg (by rw [loaded]; exact Bool.false_ne_true), if_neg fails]
  exact ⟨rfl, (noted _ _ _ _ _ .mram rfl).trans mram, (noted _ _ _ _ _ .flash rfl).trans flash⟩

/-- With no image of the management firmware that verifies, DFP is served in Fallow mode only. -/
theorem State.mgmtRestart_unverified (s : State) (cause : Nat) (h : ∀ slot, s.imageFault (s.image imMgmt slot) ≠ 0) :
    (s.mgmtRestart cause).crook.serving = s.fallow := by
  obtain ⟨-, mram, flash⟩ := s.restarting_parts cause
  rw [State.mgmtRestart_eq, State.crook_setCrook, State.loadImage_fails, State.loadImage_fallow, State.restarting_fallow,
    Bool.false_or]
  intro slot
  rw [State.imageFault_congr mram, State.image_congr flash]
  exact h slot

/-- What a management restart leaves of Crook: no session and no subscription, its nonces and its token, and firmware that
serves if an image verifies. -/
def Restarted (s v : State) : Prop := v.crook.sessions = [] ∧ v.crook.subs = [] ∧ v.crook.nonces = s.crook.nonces ∧
  v.crook.tokenEnd = s.crook.tokenEnd ∧
  ((∀ slot, s.imageFault (s.image imMgmt slot) = 0) → v.crook.serving = true) ∧
  ((∀ slot, s.imageFault (s.image imMgmt slot) ≠ 0) → v.crook.serving = s.fallow)

theorem State.mgmtRestart_restarted (s : State) (cause : Nat) : Restarted s (s.mgmtRestart cause) := by
  obtain ⟨⟨running, serving, crook⟩, -, -⟩ := s.mgmtRestart_parts cause
  refine ⟨?_, ?_, ?_, ?_, s.mgmtRestart_serves cause, s.mgmtRestart_unverified cause⟩ <;> rw [crook]

/-- An event that is recorded before a restart changes none of what the restart goes by. -/
theorem Restarted.of_record {s v : State} {src code p0 p1 p2 : Nat}
    (h : Restarted (s.record src code p0 p1 p2) v) : Restarted s v := by
  have noted := s.record_within src code p0 p1 p2
  have fault (slot : Nat) : (s.record src code p0 p1 p2).imageFault ((s.record src code p0 p1 p2).image imMgmt slot) =
      s.imageFault (s.image imMgmt slot) := by
    rw [State.imageFault_congr (noted .mram rfl), State.image_congr (noted .flash rfl)]
  unfold Restarted at h
  simp only [fault, State.record_crook, State.record_fallow] at h
  exact h

/-- A failed runtime check and an uncorrectable error in management memory restart a complex that serves. -/
theorem managementFaults_restart (s : State) (core : Fin 12) (addr : BitVec 32) :
    ∀ i ∈ [Instr.runtimeCheckFailed, .mgmtMemUe core addr],
      (s.managed = false → exec i s = .next s) ∧ (s.managed = true → Completes i s (Restarted s)) := by
  refine List.forall_mem_cons.mpr ⟨⟨fun hm => ?_, fun hm => ⟨_, if_pos hm, s.mgmtRestart_restarted 3⟩⟩,
    List.forall_mem_singleton.mpr ⟨fun hm => ?_, fun hm => ⟨_, if_neg ?_, (State.mgmtRestart_restarted _ 2).of_record⟩⟩⟩
  · exact if_neg (by rw [hm]; exact Bool.false_ne_true)
  · exact if_pos (by rw [hm]; rfl)
  · rw [hm]
    exact Bool.false_ne_true

/-! ### The recorder and the management restart together -/

theorem errAck_down {s : State} (hd : s.down ≠ none) (u : Fin 4) (seq : BitVec 32) : exec (.errAck u seq) s = .next s :=
  if_pos (Option.isSome_iff_ne_none.mpr hd)

/-- Settles O47: records by what stands before them, buckets by what they hold, notifications by what is in service and what
waits, firmware's records by the record or the bucket that takes them, and restarts by the images that verify. -/
theorem recorderAndRestart : Obligations.RecorderAndRestart := by
  unfold Obligations.RecorderAndRestart
  intro s seq c16 u w core addr room young
  refine ⟨fun h hd => recordClose_waits hd h, fun r l hb hs ho hy hl hf hd =>
      ⟨recordClose_writes hd hb hs ho hy hl hf, recordClose_fills hd hb hs ho hy hl hf⟩,
    fun p r hb hp hps hs ho hy hd => recordClose_behind hd hb hp hps hs ho hy,
    ⟨bucketRefill_waits rfl rfl, bucketRefill_gains rfl rfl, bucketRefill_reports rfl rfl⟩,
    fun hd => ⟨errAck_down hd u seq, logFwWrite_down w hd⟩, fun hd => errAck_misses hd,
    fun r hd hr hs => ⟨errAck_empties hd hr hs, fun n l => errAck_serves hd hr hs, errAck_reports hd hr hs⟩,
    fun hd => ?_, managementFaults_restart s core addr⟩
  refine ⟨logFwWrite_sets hd, logFwWrite_badCode hd, fun hg hc hv hs hm => ?_,
    fun r l hg hc hv hs hb ho hy hu hcode hp0 hl =>
    logFwWrite_merges hd hg hc hv hs hb (Rec.matches_iff.mpr ⟨ho, hy, hu, hcode, hp0⟩) hl⟩
  have unmerged : (s.log.buffer.any fun r => r.matches s.log.time euAux (bits w 47 32) (bits w 31 0)) = false := by
    rw [Bool.eq_false_iff, Ne, List.any_eq_true]
    exact fun ⟨r, hr, hk⟩ => hm ⟨r, hr, Rec.matches_iff.mp hk⟩
  exact ⟨logFwWrite_creates hd hg hc hv hs unmerged, logFwWrite_suppressed hd hg hc hv hs unmerged⟩

end Sys2Proof.Machine
end
